-- ==== Sys2Proof/Word.lean ====
section
/-! DEFINITION. The word types of the Ligiune 2 module: bytes, 32-bit and 64-bit words, a 64 B line. -/

namespace Sys2Proof

/-- A byte of any memory, bin, entry or message. -/
abbrev Byte := BitVec 8

/-- A 32-bit word: a scalar register (R44), an UNSIGNED32 entry (R445). -/
abbrev Word := BitVec 32

/-- A 64-bit word: an UNSIGNED64 entry, a table entry of an image (R539). -/
abbrev DWord := BitVec 64

/-- The data of a 64 B line, byte 0 in the least significant bits. -/
abbrev LineData := BitVec 512

/-- The data of a 128 B vector register or 128 B queue item, byte 0 in the least significant bits (R44). -/
abbrev VecData := BitVec 1024

end Sys2Proof
end

