-- ==== Sys2Proof/Syntax.lean ====
section
/-! DEFINITION. The commands of the Ligiune 2 module: one constructor of Instr for each row of spec/opcode_table.json, with
the operands that the row's rule gives it. A Furrow row is the issue of that instruction by one tile; a message row is the
acceptance of that message; an event row is the happening, and what is physical about it (whether a test passed, what a
receiver saw) is an operand (notes/assumptions/2.md). -/

namespace Sys2Proof

/-- A logical tile coordinate (R21). -/
structure Coord where
  x : Nat
  y : Nat
  deriving DecidableEq, Repr

/-- The issue of a Furrow instruction: the tile that issues it, its guard (R48), and the bits of 23:0 that its mnemonic does
not use (R52). -/
structure Hdr where
  t : Coord
  pred : BitVec 3
  neg : Bool
  unused : BitVec 24
  deriving DecidableEq, Repr

/-- What every message from the control node carries in its header (R424): MSG_SEQ, TAG, and whether a reserved TYPE, a
nonzero unused ARG bit or an invalid LENGTH was found in it (R425). -/
structure MsgHdr where
  seq : BitVec 32
  tag : BitVec 16
  malformed : Bool
  deriving DecidableEq, Repr

/-- The traffic classes of the mesh and links, and the circuit service (R227, R232). -/
inductive MClass where
  | request | reply | forward | collective | management | circuit
  deriving DecidableEq, Repr

/-- The five ports of a router (R226). -/
inductive Port where
  | north | south | east | west | tile
  deriving DecidableEq, Repr

/-- The quarters, in the order of every per-quarter entry (R119). -/
inductive Quarter where
  | nw | ne | sw | se
  deriving DecidableEq, Repr

/-- One router of a circuit: its tile, the input port and the output mask, bits 0 to 4 for north, south, east, west and tile
(R246). -/
structure CircuitHop where
  at_ : Coord
  inp : Port
  mask : BitVec 5
  deriving DecidableEq, Repr

/-- What the command meets at one channel line, by channel and row: the stored bits that come back wrong at the first read and at
the second one, data in bits 511:0 and metadata in bits 575:512 (R260, R264); the on-die ECC corrections that the package
reports (R259); and the command/address parity errors (R267). A line that is not named reads as it is stored. -/
structure LineCheck where
  ch : Nat
  row : Nat
  err1 : BitVec 576
  err2 : BitVec 576
  odecc : Nat
  ca : Nat
  deriving DecidableEq, Repr

/-- A packet header of R307 with the data lines and their poison bits. -/
structure Packet where
  op : BitVec 4
  job : BitVec 16
  dest : BitVec 20
  src : BitVec 20
  space : BitVec 2
  offset : BitVec 42
  lines : BitVec 7
  tag : BitVec 16
  epoch : BitVec 8
  age : BitVec 8
  collId : BitVec 16
  data : List (BitVec 512)
  poison : List Bool
  deriving DecidableEq, Repr

/-- A link frame as its receiver sees it (R293, R295): whether CRC and codewords passed, the header, and the packets whose last
byte it carries. -/
structure LinkFrame where
  good : Bool
  seq : BitVec 12
  ack : BitVec 12
  nak : Bool
  cls : BitVec 3
  units : BitVec 5
  poison : BitVec 4
  creditClass : BitVec 3
  credits : BitVec 9
  uncorrectable : Bool
  /-- The wavelength it came on. -/
  wave : BitVec 3
  packets : List Packet
  deriving DecidableEq, Repr

/-- A LANE_MAP packet (R291, R300): the wavelength found withdrawn, the spare if one takes its place, the wavelengths left active,
and the SEQ from which this holds. -/
structure LaneMap where
  failed : Option (BitVec 3)
  spare : Option (BitVec 3)
  count : BitVec 3
  seq : BitVec 12
  deriving DecidableEq, Repr

/-- How a wavelength fails at the end that detects it (R299): loss of signal, CDR lock or syndrome lock for 1 µs; bit errors among the
bits received over 1 ms; its laser line; the engine's built-in monitor. Uncorrectable codewords are counted from the frames. -/
inductive WaveFail where
  | lost
  | ber (errors bits : Nat)
  | laser
  | monitor
  deriving DecidableEq, Repr

/-- How a Meridian lane fails at its receiver (R430): loss of signal, CDR lock or syndrome lock for 1 µs, or bit errors among the bits
received over 1 ms. Uncorrectable codewords are counted from the frames. -/
inductive LaneLoss where
  | lost
  | ber (errors bits : Nat)
  deriving DecidableEq, Repr

/-- A Meridian frame as the module's receiver sees it, and the lane it came on, false for M0 (R422, R423). -/
structure MeridianFrame where
  lane : Bool
  good : Bool
  seq : BitVec 12
  ack : BitVec 12
  nak : Bool
  laneDown : Bool
  units : BitVec 5
  credits : BitVec 13
  lanesNext : BitVec 2
  switchSeq : BitVec 12
  uncorrectable : Bool
  deriving DecidableEq, Repr

/-- What the donor's tally says of one tensor (R419). -/
structure DonorEntry where
  tensor : BitVec 32
  viewLines : BitVec 32
  viewDigest : BitVec 128
  deriving DecidableEq, Repr

/-- What the donor of an admission answers about its Step Tally of step t (R322): nothing yet, that it no longer holds it, or its
entries. -/
inductive DonorTally where
  | pending
  | missing
  | held (l : List DonorEntry)
  deriving DecidableEq, Repr

/-- The result of a fallow test: the bitmap of failed slices, and the MISR of the first failed LBIST slice with its expected
value (R329, R360). -/
structure TestResult where
  failed : BitVec 9
  misr : BitVec 64
  misrExp : BitVec 64
  deriving DecidableEq, Repr

/-- The health inputs of R342 that a tile can receive. -/
inductive HealthSource where
  | witnessPersistent
  | imemUncorrectable
  | secondBinParity
  | meshLinkFailed
  | firstBinParity
  | scrubFail
  | dummyFail
  | corrected
  | witnessRetried
  | firmwareLoad
  | knownAnswer
  deriving DecidableEq, Repr

/-- The engines that a stop order reaches (R373). -/
inductive StopEngine where
  | tiles
  | routers
  | granaryN
  | granaryS
  | linksN
  | linksS
  | steward
  deriving DecidableEq, Repr

/-- The pair faults of the field side (R469). -/
inductive PairFault where
  | short | open_ | reversed | dc
  deriving DecidableEq, Repr

/-- The stage S4 decision inputs of one tile: the nominal, low and high runs (R481). -/
structure S4Result where
  p : Nat
  nominal : TestResult
  low : TestResult
  high : TestResult
  deriving DecidableEq, Repr

/-- A mesh link by one of its ends: die, physical coordinate and direction (R358). -/
structure MeshLink where
  die : Nat
  x : Nat
  y : Nat
  dir : Port
  deriving DecidableEq, Repr

/-- A write through debug level TILE (R512): a part of the state of R44, with the item at a place of an inbound channel or of
the mailbox, a part of the state of R89, or a byte of the bin. -/
inductive DebugWrite where
  | sreg (r : BitVec 5) (v : BitVec 32)
  | pred (r : BitVec 3) (v : Bool)
  | loop (r : BitVec 2) (v : BitVec 32)
  | vreg (r : BitVec 4) (v : BitVec 1024)
  | binding (ch : BitVec 5) (w : BitVec 64)
  | item (ch : BitVec 5) (n : Nat) (v : BitVec 1024)
  | pc (v : BitVec 13)
  | tensorId (v : BitVec 32)
  | elementBase (v : BitVec 32)
  | fpFlags (v : BitVec 5)
  | count (r : BitVec 3) (v : BitVec 16)
  | mail (n : BitVec 4) (v : BitVec 1024)
  | instr (n : BitVec 13) (w : BitVec 32)
  | config (sel : BitVec 2) (w : BitVec 32)
  | block (b : Bool) (n : BitVec 12) (v : BitVec 8)
  | scale (b : Bool) (n : BitVec 9) (v : BitVec 8)
  | witness (b col : Bool) (n : BitVec 6) (v : BitVec 32)
  | exactWitness (b col : Bool) (n : BitVec 6) (v : Int)
  | acc (row col : BitVec 6) (v : BitVec 48)
  | bin (addr : BitVec 18) (v : BitVec 8)
  deriving DecidableEq, Repr

/-- The causes of a power shed (R525); the codes of the tally tail are 1, 2 and 3 (R415). -/
inductive ShedCause where
  | warning | droop | overvoltage
  deriving DecidableEq, Repr

/-- The rails of R522. -/
inductive Rail where
  | holdUp | stewardCore | stewardIo | field | granary | vdd1 | vdd2 | vddq
  | loft (die : Nat) | quarter (q : Quarter) | test (die : Nat) | linkEngine | laser
  deriving DecidableEq, Repr

/-- The commands of the module. -/
inductive Instr where
  /-- ADD (R51): SALU add of two scalar registers, 32-bit wrapping. -/
  | add (h : Hdr) (rd rs1 rs2 : BitVec 5)
  /-- SUB (R51): SALU subtract of two scalar registers, 32-bit wrapping. -/
  | sub (h : Hdr) (rd rs1 rs2 : BitVec 5)
  /-- AND (R51): SALU bitwise and of two scalar registers. -/
  | and (h : Hdr) (rd rs1 rs2 : BitVec 5)
  /-- OR (R51): SALU bitwise or of two scalar registers. -/
  | or (h : Hdr) (rd rs1 rs2 : BitVec 5)
  /-- XOR (R51): SALU bitwise exclusive or of two scalar registers. -/
  | xor (h : Hdr) (rd rs1 rs2 : BitVec 5)
  /-- SHL (R51): SALU shift left by rs2 bits 4:0, filling with zeros. -/
  | shl (h : Hdr) (rd rs1 rs2 : BitVec 5)
  /-- SHR (R51): SALU logical shift right by rs2 bits 4:0. -/
  | shr (h : Hdr) (rd rs1 rs2 : BitVec 5)
  /-- SRA (R51): SALU arithmetic shift right by rs2 bits 4:0, filling with bit 31. -/
  | sra (h : Hdr) (rd rs1 rs2 : BitVec 5)
  /-- SLT (R51): SALU signed set-less-than. -/
  | slt (h : Hdr) (rd rs1 rs2 : BitVec 5)
  /-- SLTU (R51): SALU unsigned set-less-than. -/
  | sltu (h : Hdr) (rd rs1 rs2 : BitVec 5)
  /-- MIN (R51): SALU signed minimum of two scalar registers. -/
  | min (h : Hdr) (rd rs1 rs2 : BitVec 5)
  /-- MAX (R51): SALU signed maximum of two scalar registers. -/
  | max (h : Hdr) (rd rs1 rs2 : BitVec 5)
  /-- MUL (R52): SALU 32-bit wrapping multiply. -/
  | mul (h : Hdr) (rd rs1 rs2 : BitVec 5)
  /-- MULHU (R52): SALU bits 63:32 of the unsigned product. -/
  | mulhu (h : Hdr) (rd rs1 rs2 : BitVec 5)
  /-- MULHS (R52): SALU bits 63:32 of the signed product. -/
  | mulhs (h : Hdr) (rd rs1 rs2 : BitVec 5)
  /-- ADDI (R51): SALUI add of a signed immediate. -/
  | addi (h : Hdr) (rd rs1 : BitVec 5) (imm : BitVec 11)
  /-- ANDI (R51): SALUI and with a signed immediate. -/
  | andi (h : Hdr) (rd rs1 : BitVec 5) (imm : BitVec 11)
  /-- ORI (R51): SALUI or with a signed immediate. -/
  | ori (h : Hdr) (rd rs1 : BitVec 5) (imm : BitVec 11)
  /-- XORI (R51): SALUI exclusive or with a signed immediate. -/
  | xori (h : Hdr) (rd rs1 : BitVec 5) (imm : BitVec 11)
  /-- SHLI (R51): SALUI shift left by imm bits 4:0. -/
  | shli (h : Hdr) (rd rs1 : BitVec 5) (imm : BitVec 11)
  /-- SHRI (R51): SALUI logical shift right by imm bits 4:0. -/
  | shri (h : Hdr) (rd rs1 : BitVec 5) (imm : BitVec 11)
  /-- SRAI (R51): SALUI arithmetic shift right by imm bits 4:0. -/
  | srai (h : Hdr) (rd rs1 : BitVec 5) (imm : BitVec 11)
  /-- SLTI (R51): SALUI signed set-less-than against an immediate. -/
  | slti (h : Hdr) (rd rs1 : BitVec 5) (imm : BitVec 11)
  /-- LUI (R50): Loads imm << 13 into rd. -/
  | lui (h : Hdr) (rd : BitVec 5) (imm : BitVec 19)
  /-- CMP_EQ (R51): Writes a predicate with the equality of two operands. -/
  | cmpEq (h : Hdr) (pd : BitVec 3) (rs1 src2 : BitVec 5) (useImm : Bool)
  /-- CMP_NE (R51): Writes a predicate with the inequality of two operands. -/
  | cmpNe (h : Hdr) (pd : BitVec 3) (rs1 src2 : BitVec 5) (useImm : Bool)
  /-- CMP_LT (R51): Writes a predicate with the signed less-than of two operands. -/
  | cmpLt (h : Hdr) (pd : BitVec 3) (rs1 src2 : BitVec 5) (useImm : Bool)
  /-- CMP_GE (R51): Writes a predicate with the signed greater-or-equal of two operands. -/
  | cmpGe (h : Hdr) (pd : BitVec 3) (rs1 src2 : BitVec 5) (useImm : Bool)
  /-- CMP_LTU (R51): Writes a predicate with the unsigned less-than of two operands. -/
  | cmpLtu (h : Hdr) (pd : BitVec 3) (rs1 src2 : BitVec 5) (useImm : Bool)
  /-- CMP_GEU (R51): Writes a predicate with the unsigned greater-or-equal of two operands. -/
  | cmpGeu (h : Hdr) (pd : BitVec 3) (rs1 src2 : BitVec 5) (useImm : Bool)
  /-- BR (R56): Branches to PC plus offset, raising PC_RANGE outside the program region. -/
  | br (h : Hdr) (off : BitVec 22)
  /-- CALL (R56): Branches to PC plus offset and writes PC + 1 to s31. -/
  | call (h : Hdr) (off : BitVec 22)
  /-- JR (R56): Jumps to the index in bits 12:0 of rs. -/
  | jr (h : Hdr) (rs : BitVec 5)
  /-- RET (R56): Jumps to the index held in s31. -/
  | ret (h : Hdr)
  /-- LOOP (R57): Starts a hardware loop running the following L instructions count times on counter ck. -/
  | loop (h : Hdr) (ck : BitVec 2) (immCount : Bool) (body : BitVec 10) (count : BitVec 11)
  /-- LD32 (R65): Loads a 32-bit word from the bin through the sheaf buffer. -/
  | ld32 (h : Hdr) (r base : BitVec 5) (off : BitVec 11)
  /-- LD16U (R65): Loads a zero-extended 16-bit value from the bin. -/
  | ld16u (h : Hdr) (r base : BitVec 5) (off : BitVec 11)
  /-- LD16S (R65): Loads a sign-extended 16-bit value from the bin. -/
  | ld16s (h : Hdr) (r base : BitVec 5) (off : BitVec 11)
  /-- LD8U (R65): Loads a zero-extended byte from the bin. -/
  | ld8u (h : Hdr) (r base : BitVec 5) (off : BitVec 11)
  /-- LD8S (R65): Loads a sign-extended byte from the bin. -/
  | ld8s (h : Hdr) (r base : BitVec 5) (off : BitVec 11)
  /-- ST32 (R166): Stores 32 bits into the gather entry of the line. -/
  | st32 (h : Hdr) (r base : BitVec 5) (off : BitVec 11)
  /-- ST16 (R166): Stores 16 bits into the gather entry of the line. -/
  | st16 (h : Hdr) (r base : BitVec 5) (off : BitVec 11)
  /-- ST8 (R166): Stores 8 bits into the gather entry of the line. -/
  | st8 (h : Hdr) (r base : BitVec 5) (off : BitVec 11)
  /-- VLD (R65): Loads 128 B from the bin into a vector register or output port, carrying poison tags. -/
  | vld (h : Hdr) (v base : BitVec 5) (off : BitVec 12)
  /-- VST (R178): Stores 128 B from a vector operand into two bin lines as full-line writes. -/
  | vst (h : Hdr) (v base : BitVec 5) (off : BitVec 12)
  /-- VADD (R61): FP32 lane-wise addition. -/
  | vadd (h : Hdr) (vd va vb : BitVec 5)
  /-- VSUB (R61): FP32 lane-wise subtraction. -/
  | vsub (h : Hdr) (vd va vb : BitVec 5)
  /-- VMUL (R61): FP32 lane-wise multiplication. -/
  | vmul (h : Hdr) (vd va vb : BitVec 5)
  /-- VFMA (R61): FP32 fused multiply-add into vd with one rounding. -/
  | vfma (h : Hdr) (vd va vb : BitVec 5)
  /-- VFMS (R61): FP32 fused multiply-subtract from vd with one rounding. -/
  | vfms (h : Hdr) (vd va vb : BitVec 5)
  /-- VMAX (R62): FP32 lane-wise maximum with canonical NaN. -/
  | vmax (h : Hdr) (vd va vb : BitVec 5)
  /-- VMIN (R62): FP32 lane-wise minimum with canonical NaN. -/
  | vmin (h : Hdr) (vd va vb : BitVec 5)
  /-- VABS (R62): Clears bit 31 of every lane. -/
  | vabs (h : Hdr) (vd va vb : BitVec 5)
  /-- VNEG (R62): Inverts bit 31 of every lane. -/
  | vneg (h : Hdr) (vd va vb : BitVec 5)
  /-- VCMPLT (R62): Lane mask of va < vb, NaN unordered. -/
  | vcmplt (h : Hdr) (vd va vb : BitVec 5)
  /-- VCMPEQ (R62): Lane mask of va = vb, NaN unordered. -/
  | vcmpeq (h : Hdr) (vd va vb : BitVec 5)
  /-- VSEL (R67): Selects lanes of va or vb by the nonzero lanes of vd, moving poison tags per half. -/
  | vsel (h : Hdr) (vd va vb : BitVec 5)
  /-- VAND (R51): Bitwise and of two vectors. -/
  | vand (h : Hdr) (vd va vb : BitVec 5)
  /-- VOR (R51): Bitwise or of two vectors. -/
  | vor (h : Hdr) (vd va vb : BitVec 5)
  /-- VXOR (R51): Bitwise exclusive or of two vectors. -/
  | vxor (h : Hdr) (vd va vb : BitVec 5)
  /-- VMOV (R51): Copies a vector operand without examining it. -/
  | vmov (h : Hdr) (vd va vb : BitVec 5)
  /-- VADDI (R51): 32-bit integer wrapping add per lane. -/
  | vaddi (h : Hdr) (vd va vb : BitVec 5)
  /-- VSUBI (R51): 32-bit integer wrapping subtract per lane. -/
  | vsubi (h : Hdr) (vd va vb : BitVec 5)
  /-- VEXP (R63): Correctly rounded exponential of each lane on the special-function unit. -/
  | vexp (h : Hdr) (vd va : BitVec 5) (dfmt sfmt : BitVec 4)
  /-- VLOG (R63): Correctly rounded natural logarithm of each lane. -/
  | vlog (h : Hdr) (vd va : BitVec 5) (dfmt sfmt : BitVec 4)
  /-- VRSQRT (R63): Correctly rounded reciprocal square root of each lane. -/
  | vrsqrt (h : Hdr) (vd va : BitVec 5) (dfmt sfmt : BitVec 4)
  /-- VRCP (R63): Correctly rounded reciprocal of each lane. -/
  | vrcp (h : Hdr) (vd va : BitVec 5) (dfmt sfmt : BitVec 4)
  /-- VREDSUM (R64): Sums the 32 lanes in a fixed five-level tree into every lane. -/
  | vredsum (h : Hdr) (vd va : BitVec 5) (dfmt sfmt : BitVec 4)
  /-- VREDMAX (R64): Maximum of the 32 lanes in the fixed tree. -/
  | vredmax (h : Hdr) (vd va : BitVec 5) (dfmt sfmt : BitVec 4)
  /-- VREDMIN (R64): Minimum of the 32 lanes in the fixed tree. -/
  | vredmin (h : Hdr) (vd va : BitVec 5) (dfmt sfmt : BitVec 4)
  /-- VCVT (R139): Converts lanes between formats with round to nearest and counts narrowing results. -/
  | vcvt (h : Hdr) (vd va : BitVec 5) (dfmt sfmt : BitVec 4)
  /-- VCVTSR (R139): Narrows FP32 lanes with stochastic rounding and advances ELEMENT_BASE by 32. -/
  | vcvtsr (h : Hdr) (vd va : BitVec 5) (dfmt sfmt : BitVec 4)
  /-- QRECV (R55): Pops a 4 B item from an input port into a scalar register. -/
  | qrecv (h : Hdr) (a b c : BitVec 5)
  /-- QSEND (R55): Pushes a scalar register as a 4 B item to an output port. -/
  | qsend (h : Hdr) (a b c : BitVec 5)
  /-- QCOUNT (R55): Returns items waiting or free entries of a port without stalling. -/
  | qcount (h : Hdr) (a b c : BitVec 5)
  /-- QWAIT (R77): Waits up to a timeout for an item at an input port, setting a predicate. -/
  | qwait (h : Hdr) (a b c : BitVec 5)
  /-- VBCAST (R64): Writes a scalar register to all lanes of a vector. -/
  | vbcast (h : Hdr) (a b c : BitVec 5)
  /-- VEXT (R64): Reads lane n of a vector into a scalar register. -/
  | vext (h : Hdr) (a b c : BitVec 5)
  /-- VINS (R64): Writes a scalar register into lane n of a vector. -/
  | vins (h : Hdr) (a b c : BitVec 5)
  /-- MCFG_FORMAT (R96): Writes the matrix FORMAT configuration word, checked under R97. -/
  | mcfgFormat (h : Hdr) (rs : BitVec 5)
  /-- MCFG_DRAIN (R96): Writes the matrix DRAIN configuration word. -/
  | mcfgDrain (h : Hdr) (rs : BitVec 5)
  /-- MCFG_ELEMENT_BASE (R96): Writes the array's ELEMENT_BASE word used by drains. -/
  | mcfgElementBase (h : Hdr) (rs : BitVec 5)
  /-- MLD (R98): Queues a load of a stationary block into the shadow buffer from the bin or a queue. -/
  | mld (h : Hdr) (rs : BitVec 5) (q : Bool) (port : BitVec 4)
  /-- MSWAP (R101): Exchanges the active and shadow stationary buffers. -/
  | mswap (h : Hdr)
  /-- MMUL (R105): Queues a pass of M activation rows through the stationary block into accumulator rows. -/
  | mmul (h : Hdr) (rs rt : BitVec 5) (tr z q : Bool) (port : BitVec 4)
  /-- MDRAIN (R109): Queues conversion of D accumulator rows to the output format into the bin or a port. -/
  | mdrain (h : Hdr) (rs rt : BitVec 5) (tr clr q : Bool) (port : BitVec 4)
  /-- MSYNC (R98): Stalls the core until every earlier matrix instruction completes. -/
  | msync (h : Hdr)
  /-- MRAMP (R122): Sets the current-smoothing target level of the array. -/
  | mramp (h : Hdr) (level : BitVec 5)
  /-- DMA (R68): Reads and checks a DMA descriptor from the bin and accepts it for transfer. -/
  | dma (h : Hdr) (rs : BitVec 5)
  /-- DWAIT (R73): Stalls until a completion counter reaches a target modulo 65,536. -/
  | dwait (h : Hdr) (k : BitVec 3) (rs : BitVec 5)
  /-- DWAITT (R77): Waits up to a timeout for a completion counter, setting a predicate. -/
  | dwaitt (h : Hdr) (k pd : BitVec 3) (rs rt : BitVec 5)
  /-- DCLR (R73): Sets a completion counter to zero. -/
  | dclr (h : Hdr) (k : BitVec 3)
  /-- MSEND (R74): Sends a 128 B message to a tile of the rectangle. -/
  | msend (h : Hdr) (v rs : BitVec 5)
  /-- MRECV (R76): Takes the oldest message from a sender, or from any sender, stalling until present. -/
  | mrecv (h : Hdr) (v rs : BitVec 5)
  /-- MWAIT (R77): Waits up to a timeout for a message, setting a predicate. -/
  | mwait (h : Hdr) (pd : BitVec 3) (rs rt : BitVec 5)
  /-- NOP (R50): Does nothing for one issue cycle. -/
  | nop (h : Hdr)
  /-- CSRR (R46): Reads a control and status register into a scalar register. -/
  | csrr (h : Hdr) (r : BitVec 5) (csr : BitVec 12)
  /-- CSRW (R46): Writes a read-write control and status register. -/
  | csrw (h : Hdr) (r : BitVec 5) (csr : BitVec 12)
  /-- FALLOW (R81): Marks a fallow point; stops issue if a move of the tile is pending. -/
  | fallow (h : Hdr)
  /-- STEPEND (R82): Ends the tile's part of the step and stalls until the step boundary. -/
  | stepend (h : Hdr)
  /-- SECEND (R82): Ends the tile's part of the section and stalls until the next section loads. -/
  | secend (h : Hdr)
  /-- GATHER_WRITEBACK_TIMEOUT (R166): A gather entry idle for 16 tile cycles is written back as a masked line write. -/
  | gatherWritebackTimeout (t : Coord) (line : Nat)
  /-- BIN_SCRUB_READ (R176): The scrubber reads one bin line every SCRUB_INTERVAL, counting or zeroing failed lines. -/
  | binScrubRead (t : Coord)
  /-- BIN_SPACE_ACCESS_ARRIVE (R169): A bin-space read or write from another tile is translated and served through staging. -/
  | binSpaceAccessArrive (f : Nat)
  /-- DMA_TRANSACTION_ISSUE (R70): The DMA issues a transaction of at most 4 KiB once an outstanding slot and reply credit are
  free. -/
  | dmaTransactionIssue (t : Coord) (d : Nat)
  /-- DMA_REPLY_ARRIVE (R71): Read data or a write acknowledge completes bytes of a descriptor, completing it by count. -/
  | dmaReplyArrive (f : Nat)
  /-- DMA_ERROR_REPLY_ARRIVE (R308): An error reply completes nothing and raises DMA_ADDRESS, resetting the context. -/
  | dmaErrorReplyArrive (f : Nat)
  /-- MESSAGE_ARRIVE (R75): A message lands in the destination mailbox. -/
  | messageArrive (f : Nat)
  /-- MESSAGE_CREDIT_ARRIVE (R74): The credit of a received message returns to the sender in the reply class. -/
  | messageCreditArrive (f : Nat)
  /-- TIMED_WAIT_EXPIRY (R77): The timeout of qwait, dwaitt or mwait expires and the wait ends with pd = 0. -/
  | timedWaitExpiry (t : Coord)
  /-- MATRIX_DISPATCH (R101): A matrix instruction leaves the matrix queue, captures its configuration and is checked. -/
  | matrixDispatch (t : Coord)
  /-- MLD_COMPLETE (R103): A stationary block finishes loading with its witness entries and becomes ready for mswap. -/
  | mldComplete (t : Coord)
  /-- MMUL_ROW_ENTER (R104): An activation row enters the cells when staged and the activity level permits. -/
  | mmulRowEnter (t : Coord)
  /-- WITNESS_VERDICT (R117): The witness check of a row passes or fails, re-entering failed rows up to three attempts. -/
  | witnessVerdict (t : Coord) (upset : Int) (mismatch : Bool)
  /-- ACCUMULATOR_UPDATE (R107): A row's block terms are added into the accumulator entries by A48 addition. -/
  | accumulatorUpdate (t : Coord)
  /-- MDRAIN_ROW_READ (R109): The drain reads an accumulator row, converts it with block scales and writes or pushes it. -/
  | mdrainRowRead (t : Coord)
  /-- ARRAY_LEVEL_STEP (R122): At the end of a RAMP_STEP_CYCLES interval the activity level rises or falls by one. -/
  | arrayLevelStep (t : Coord)
  /-- DUMMY_PASS (R123): A slot no real row takes is filled by a dummy pass whose verdict is counted. -/
  | dummyPass (t : Coord) (upset : Int)
  /-- MOVE_QUIESCED (R81): A tile held at a fallow point becomes quiescent and the copy of its state and bin begins. -/
  | moveQuiesced (t : Coord)
  /-- BIN_COPY_COMPLETE (R183): The copy engine finishes copying the bin to the new physical tile. -/
  | binCopyComplete (t : Coord)
  /-- MOVE_RESUME (R335): Routers switch to the new position and execution resumes at the new tile. -/
  | moveResume (t : Coord)
  /-- CHANNEL_ITEM_ARRIVE (R191): An item arrives at an inbound channel and is placed by sequence number. -/
  | channelItemArrive (f : Nat)
  /-- CHANNEL_CREDIT_ARRIVE (R190): A credit for freed positions returns to an outbound channel. -/
  | channelCreditArrive (f : Nat)
  /-- TOKEN_PASS (R195): A PASS token at the head of a steering unit directs COUNT items to the selected output or from the
  selected input. -/
  | tokenPass (t : Coord) (u : BitVec 2)
  /-- TOKEN_DROP (R195): A DROP token discards the next COUNT items of its input. -/
  | tokenDrop (t : Coord) (u : BitVec 2)
  /-- TOKEN_REPEAT (R195): A REPEAT token pushes the next item COUNT times. -/
  | tokenRepeat (t : Coord) (u : BitVec 2)
  /-- STEER_ITEM_MOVE (R197): A steering unit moves one item once item, token and output credit are present. -/
  | steerItemMove (t : Coord) (u : BitVec 2)
  /-- SECTION_END (R202): All tiles have ended the section and all work drained; residue is checked and unmapped banks gated. -/
  | sectionEnd (c : Nat) (reds : List (Nat × List (BitVec 64))) (errs : List LineCheck)
  /-- SECTION_ENTRY (R204): A tile's tables, code and state are loaded and its entry instruction issues. -/
  | sectionEntry (t : Coord)
  /-- BLOCKED_REPORT (R208): A tile blocked for BLOCK_REPORT tile cycles sends its wait edges to the wait-graph engine. -/
  | blockedReport (t : Coord)
  /-- WAIT_GRAPH_REPORT (R209): The wait-graph engine receives a report and updates the context's edges. -/
  | waitGraphReport (t : Coord)
  /-- SPILL_ORDER (R209): The engine finds a closed cycle and orders eligible full channels into spill state. -/
  | spillOrder (c : Nat)
  /-- SPILL_ENTER (R210): A channel receiving a spill order enters spill state and grants a new credit. -/
  | spillEnter (t : Coord) (ch : BitVec 5)
  /-- SPILL_TRANSFER_COMPLETE (R211): A spill write or refill transaction completes, moving items between segments. -/
  | spillTransferComplete (t : Coord) (ch : BitVec 5)
  /-- CONTEXT_PAUSE_REQUEST (R216): REQUEST = 1 sets the context draining and holds tiles at their next fallow point. -/
  | contextPauseRequest (m : MsgHdr) (c : Nat) (v : BitVec 32)
  /-- CONTEXT_RESUME_REQUEST (R218): REQUEST = 0 sets the context running and releases held tiles. -/
  | contextResumeRequest (m : MsgHdr) (c : Nat) (v : BitVec 32)
  /-- CONTEXT_PAUSE_REACHED (R216): All tiles are held or blocked with nothing in flight; the context becomes paused. -/
  | contextPauseReached (c : Nat)
  /-- PAUSE_DEADLINE_EXPIRY (R217): A draining context not paused within 2 × MAX_FALLOW_GAP raises CONTEXT_PAUSE_LATE. -/
  | pauseDeadlineExpiry (c : Nat)
  /-- FALLOW_GAP_LATE (R223): A gap between fallow points exceeds the fallow interval and counts in FALLOW_LATE. -/
  | fallowGapLate (t : Coord)
  /-- FLIT_FORWARD (R228): A router forwards an arriving flit on its output by dimension order or table. -/
  | flitForward (f : Nat)
  /-- FLIT_HOP_NAK (R239): A failed HOP_CRC check returns a negative acknowledge and the sender resends in order. -/
  | flitHopNak (f : Nat) (err : BitVec 1152)
  /-- ESCAPE_TABLES_LOADED (R240): The steward loads escape tables into every router and fallback routing begins. -/
  | escapeTablesLoaded
  /-- FLIT_AGE_TICK (R241): A fallback flit's AGE rises every 16 mesh cycles of waiting. -/
  | flitAgeTick (f : Nat)
  /-- ESCAPE_ENTRY (R241): A fallback flit waiting 64 mesh cycles enters the escape slot and route. -/
  | escapeEntry (f : Nat)
  /-- INJECTION_THROTTLE_ONSET (R237): An output blocked CONGEST_THRESHOLD cycles throttles its tile's injection in that class. -/
  | injectionThrottleOnset (t : Coord) (cls : MClass)
  /-- INJECTION_THROTTLE_LIFT (R237): After 256 unblocked mesh cycles the injection throttle lifts. -/
  | injectionThrottleLift (t : Coord) (cls : MClass)
  /-- MANAGEMENT_PACKET_ACCEPT (R243): A management sink accepts a whole packet. -/
  | managementPacketAccept (f : Nat)
  /-- BARRIER_ARRIVE (R244): A router forwards a combined arrive once its tile and tree children have arrived. -/
  | barrierArrive (t : Coord)
  /-- BARRIER_RELEASE (R244): The release travels down the barrier tree, replicated at branches. -/
  | barrierRelease (c : Nat)
  /-- CIRCUIT_ENABLE (R246): The steward writes and enables circuit entries along a path. -/
  | circuitEnable (n : BitVec 3) (path : List CircuitHop)
  /-- CIRCUIT_FLIT_COPY (R246): A circuit flit is copied to every port of its entry's mask. -/
  | circuitFlitCopy (f : Nat)
  /-- REDUCE_COMBINE (R250): A REDUCE entry combines the items of one SEQ from all inputs in fixed order. -/
  | reduceCombine (t : Coord) (e : BitVec 5)
  /-- BCAST_COPY (R252): A BCAST entry copies an item to every port of OUT_MASK. -/
  | bcastCopy (t : Coord) (e : BitVec 5)
  /-- BCAST_CREDIT (R252): A broadcast credit passes upstream once every branch has returned one. -/
  | bcastCredit (t : Coord) (e : BitVec 5)
  /-- THROTTLE_STEP (R437): A quarter's throttle divider moves one ladder step toward its target at an aligned edge. -/
  | throttleStep (q : Quarter)
  /-- DEEP_THROTTLE_APPLY (R257): A target above 8 takes effect at the next section load or step boundary. -/
  | deepThrottleApply (q : Quarter)
  /-- GRANARY_REQUEST_ACCEPT (R275): A granary accepts a request into a transaction-table entry of the context's share. -/
  | granaryRequestAccept (f : Nat)
  /-- GRANARY_LINE_READ (R264): A line is read, re-read or rebuilt from its row, or delivered poisoned. -/
  | granaryLineRead (x : Nat) (errs : List LineCheck)
  /-- GRANARY_ROW_WRITE (R265): A write updates the data lines and parity of a row and is acknowledged. -/
  | granaryRowWrite (x : Nat) (errs : List LineCheck)
  /-- CHANNEL_RESPONSE_TIMEOUT (R267): A channel that does not answer a command within 2 µs meets a retirement condition. -/
  | channelResponseTimeout (ch : Nat)
  /-- CHANNEL_RETIRE (R268): A channel meeting a retirement condition is retired and its stripe degraded. -/
  | channelRetire (ch : Nat) (drift : Bool)
  /-- GRANARY_SCRUB_ROW (R272): The granary scrubs one row, rebuilding or poisoning failed lines. -/
  | granaryScrubRow (stripe : Nat) (errs : List LineCheck)
  /-- PAGE_COPY_COMPLETE (R279): A write-view copy of a page from NEWEST to BUILD completes and waiting transactions proceed. -/
  | pageCopyComplete (c : Nat) (page : Nat) (errs : List LineCheck)
  /-- STEP_BOUNDARY_BEGIN (R36): All tiles have executed stepend and all step writes are in the channels; tally tables flush. -/
  | stepBoundaryBegin (c : Nat)
  /-- VERSION_COMMIT (R280): Unwritten pages are copied and the version record is rewritten, committing the new version. -/
  | versionCommit (c : Nat)
  /-- TALLY_SEAL (R409): STEP_DIGEST is computed and SEAL written, sealing the step's record. -/
  | tallySeal (c : Nat) (damaged : Option Nat)
  /-- STEP_START (R429): The next step begins when FREE is set or LIMIT admits its number. -/
  | stepStart (c : Nat)
  /-- CAPTURE_LINE_DIGEST (R403): The digest engine hashes a captured line into its tensor entry. -/
  | captureLineDigest (t : Coord)
  /-- TALLY_ENTRY_EVICT (R405): A full digest table evicts an entry to its owning granary, which merges it. -/
  | tallyEntryEvict (t : Coord)
  /-- LINK_FRAME_SLOT (R297): At each frame slot the transmitter fills it with resends, management or rotating classes. -/
  | linkFrameSlot (l : Nat)
  /-- LINK_FRAME_RECEIVE (R295): A receiver accepts an in-sequence frame or discards it and sends NAK. -/
  | linkFrameReceive (l : Nat) (fr : LinkFrame)
  /-- LINK_NAK_RESEND (R295): On NAK the transmitter resends every frame from the named SEQ. -/
  | linkNakResend (l : Nat) (down : Option (BitVec 3))
  /-- LINK_ACK_TIMER (R296): A control frame carries ACK at least every 64 frame times when the reverse has no data. -/
  | linkAckTimer (l : Nat)
  /-- LINK_LANE_FAILED (R291): An electrical lane fails and leaves the bundle, possibly lowering active wavelengths. -/
  | linkLaneFailed (l : Nat) (tx : Bool) (lane : BitVec 3)
  /-- WAVELENGTH_FAIL (R300): A wavelength fails and is withdrawn, with NAK and a lane-down mark. -/
  | wavelengthFail (l : Nat) (tx : Bool) (cause : WaveFail) (w : BitVec 3)
  /-- LANE_MAP_RECEIVE (R300): A LANE_MAP packet names the spare and the switch SEQ. -/
  | laneMapReceive (l : Nat) (m : LaneMap)
  /-- LANE_MAP_SWITCH (R300): At the switch SEQ the spare enters the lane map at both ends. -/
  | laneMapSwitch (l : Nat) (tx : Bool)
  /-- LINK_DELIVERED_SEQ_REPORT (R301): The report of the last delivered SEQ of a down link arrives and packets are re-queued or
  answered. -/
  | linkDeliveredSeqReport (l : Nat) (seq : BitVec 12)
  /-- REMOTE_REQUEST_ARRIVE (R308): A request or write from another module is checked and served or answered with an error. -/
  | remoteRequestArrive (l : Nat) (pk : Packet)
  /-- REMOTE_REPLY_ARRIVE (R310): A read reply or write acknowledge from another module reaches the source granary. -/
  | remoteReplyArrive (l : Nat) (pk : Packet) (errs : List LineCheck)
  /-- LINK_FALLBACK_AGE_TICK (R315): A ring fallback packet's AGE rises each microsecond of waiting. -/
  | linkFallbackAgeTick (k : Nat)
  /-- HALL_BARRIER_ARRIVE (R316): A cross-module barrier arrive combines dimension by dimension toward the root. -/
  | hallBarrierArrive (c : Nat) (child : Nat)
  /-- HALL_BARRIER_RELEASE (R316): The release travels back down the hall barrier tree. -/
  | hallBarrierRelease (c : Nat)
  /-- BARRIER_TIMEOUT_EXPIRY (R316): An arrived member without release in time raises BARRIER_TIMEOUT and stops the context. -/
  | barrierTimeoutExpiry (c : Nat)
  /-- COLLECTIVE_CHUNK_ARRIVE (R318): A collective chunk is combined in fixed order and forwarded or written to DST. -/
  | collectiveChunkArrive (pk : Packet) (errs : List LineCheck)
  /-- COLLECTIVE_TIMEOUT_EXPIRY (R382): No chunk from a member within the timeout raises COLLECTIVE_TIMEOUT and stops the context. -/
  | collectiveTimeoutExpiry (c : Nat) (e : BitVec 6) (errs : List LineCheck)
  /-- LINK_TRAIN_COMPLETE (R305): A link finishes training and exchanges coordinates with its far end. -/
  | linkTrainComplete (l : Nat) (latency : BitVec 14) (far : BitVec 20)
  /-- ADMISSION_START (R322): START checks admissibility and begins loading the donor's version. -/
  | admissionStart (m : MsgHdr) (v : BitVec 64)
  /-- ADMISSION_CANCEL (R321): CANCEL aborts admission with cause CANCELLED. -/
  | admissionCancel (m : MsgHdr) (v : BitVec 64)
  /-- ADMISSION_LOAD_DONE (R322): The versioned range is copied from the donor and the replay of step t begins. -/
  | admissionLoadDone
  /-- ADMISSION_REPLAY_DONE (R322): The replayed step ends and its digests are matched against the donor's tally. -/
  | admissionReplayDone (donor : DonorTally)
  /-- ADMIT_TIMEOUT_EXPIRY (R323): Donor silence for ADMIT_TIMEOUT aborts admission with DONOR_LOST. -/
  | admitTimeoutExpiry
  /-- FALLOW_SLOT (R333): At each slot of length D the gleaner orders one gap move in each row. -/
  | fallowSlot
  /-- FALLOW_TEST_COMPLETE (R329): The fallow test of a gap tile ends in pass or failure. -/
  | fallowTestComplete (p : Nat) (r : TestResult)
  /-- BACKGROUND_TEST_COMPLETE (R331): A background engine finishes testing a non-logical tile. -/
  | backgroundTestComplete (p : Nat) (r : TestResult)
  /-- HEALTH_INPUT (R343): A health input adds to a tile's score and may order a directed test. -/
  | healthInput (p : Nat) (src : HealthSource)
  /-- HEALTH_SCORE_HALVING (R343): A tile's health score halves every HALF_LIFE_MIN minutes. -/
  | healthScoreHalving (p : Nat)
  /-- PROBATION_DELAY_EXPIRY (R346): PROBATION_DELAY after entry the three-corner retest of the tile starts. -/
  | probationDelayExpiry (p : Nat)
  /-- PROBATION_RETEST_COMPLETE (R346): The retest decides FENCED, MARGINAL, SPARE or a held probation. -/
  | probationRetestComplete (p : Nat) (r : TestResult)
  /-- MARGIN_CHECK_COMPLETE (R347): The margin check ends, returning or fencing the tiles and ending the storm. -/
  | marginCheckComplete (die : Bool) (results : List (Nat × TestResult × TestResult))
  /-- GAZETTEER_WRITE (R359): A decision is written to the older gazetteer copy with a new sequence number and CRC. -/
  | gazetteerWrite
  /-- FSR_ACK (R361): Writing the seq of the oldest failure signature record releases it. -/
  | fsrAck (m : MsgHdr) (v : BitVec 32)
  /-- HANG_WINDOW_EXPIRY (R371): A closed wait cycle persisting 65,536 tile cycles declares the context hung. -/
  | hangWindowExpiry (c : Nat)
  /-- STALL_WINDOW_EXPIRY (R372): No progress for 2^STALL_LOG2 tile cycles declares a stall. -/
  | stallWindowExpiry (c : Nat)
  /-- CONTEXT_STOP_ORDER (R373): An engine receives a context's stop order and discards, drains or absorbs its work. -/
  | contextStopOrder (c : Nat) (e : StopEngine) (errs : List LineCheck)
  /-- CONTEXT_RESET_COMPLETE (R375): All engines have stopped and drained, the bins are zero-filled, and the outcome of the
  cause follows. -/
  | contextResetComplete (c : Nat) (recordReadable : Bool)
  /-- CONTEXT_RESTART_ENTRY (R384): After rollback, section 0 loads and the entry instruction issues on every tile. -/
  | contextRestartEntry (c : Nat) (reds : List (Nat × List (BitVec 64)))
  /-- TXN_DEADLINE_EXPIRY (R381): A transaction deadline expires without reply and the timeout commits. -/
  | txnDeadlineExpiry (x : Nat) (errs : List LineCheck)
  /-- RECOVERY_HOLD_SEND (R386): The steward sends or renews a recovery hold along the job's barrier tree every 1 ms. -/
  | recoveryHoldSend (c : Nat)
  /-- RECOVERY_HOLD_RECEIVE (R386): A member receives a hold and suspends the job's timeouts. -/
  | recoveryHoldReceive (job : BitVec 16)
  /-- RECOVERY_HOLD_LAPSE (R386): No hold within 3 ms, or HOLD_MAX reached, resumes the peers' timers. -/
  | recoveryHoldLapse (job : BitVec 16)
  /-- CONTEXT_RESET_COMMAND (R388): CONTEXT_CONTROL RESET stops the context with cause CONTROL. -/
  | contextResetCommand (m : MsgHdr) (c : Nat) (v : BitVec 32)
  /-- CONTEXT_RESTART (R388): CONTEXT_CONTROL RESTART runs a stopped context on from NEWEST. -/
  | contextRestart (m : MsgHdr) (c : Nat) (v : BitVec 32)
  /-- CONTEXT_ROLLBACK_COMMAND (R388): CONTEXT_CONTROL ROLLBACK rewrites the record to ROLLBACK_TARGET and restarts. -/
  | contextRollbackCommand (m : MsgHdr) (c : Nat) (v : BitVec 32)
  /-- PARTITION_RESET (R377): Resets a plot rectangle, its contexts and its free tiles. -/
  | partitionReset (m : MsgHdr) (v : BitVec 32)
  /-- MODULE_RESET_WARM (R378): Stops every context and re-enters bring-up on the warm path. -/
  | moduleResetWarm (m : MsgHdr) (v : BitVec 32)
  /-- MODULE_RESET_COLD (R378): Stops every context and re-enters bring-up at S1 on the cold path. -/
  | moduleResetCold (m : MsgHdr) (v : BitVec 32)
  /-- MODULE_RESET_CLEAR (R394): Clears out of service and resets on the cold path. -/
  | moduleResetClear (m : MsgHdr) (v : BitVec 32)
  /-- CONTEXT_CREATE (R454): Checks the creation entries and image, advances the epoch and creates the context. -/
  | contextCreate (m : MsgHdr) (c : Nat) (v : BitVec 64) (reds : List (Nat × List (BitVec 64)))
  /-- CONTEXT_END (R454): Resets the context with cause CONTROL and releases its resources. -/
  | contextEnd (m : MsgHdr) (c : Nat) (v : BitVec 64)
  /-- TALLY_ACK (R413): Acknowledges the oldest sealed tally record for reuse. -/
  | tallyAck (m : MsgHdr) (c : Nat) (v : BitVec 32)
  /-- OD_READ (R425): Meridian read of an entry or DOMAIN piece, answered with OD_READ_RESP. -/
  | odRead (m : MsgHdr) (idx : BitVec 16) (sub : BitVec 8) (off : BitVec 32)
  /-- OD_WRITE (R448): Meridian write of an entry without behaviour of its own, checked in the order of R448. -/
  | odWrite (m : MsgHdr) (idx : BitVec 16) (sub : BitVec 8) (off : BitVec 32) (data : List (BitVec 8))
  /-- BULK_READ (R427): Reads local physical memory, returning data with poison marks. -/
  | bulkRead (m : MsgHdr) (addr : BitVec 42) (len : BitVec 13) (errs : List LineCheck)
  /-- BULK_WRITE (R427): Writes local physical memory, clearing poison, acknowledged by the granary. -/
  | bulkWrite (m : MsgHdr) (addr : BitVec 42) (data : List (BitVec 8)) (errs : List LineCheck)
  /-- STEP_EPOCH (R429): Writes LIMIT to the contexts of a JOB_TAG or to one context. -/
  | stepEpoch (m : MsgHdr) (step : BitVec 64) (sel : Bool) (who : BitVec 16)
  /-- HEARTBEAT (R426): Feeds the steward watchdog on arrival. -/
  | heartbeat (m : MsgHdr) (n : BitVec 32)
  /-- EVENT_DELIVER (R428): An event from the ring is sent as an EVENT message while the port is up. -/
  | eventDeliver
  /-- MERIDIAN_FRAME_RECEIVE (R423): A Meridian frame is accepted in sequence or discarded with NAK. -/
  | meridianFrameReceive (fr : MeridianFrame)
  /-- MERIDIAN_NAK_RESEND (R423): On NAK the sender resends Meridian frames from the named SEQ. -/
  | meridianNakResend
  /-- MERIDIAN_ACK_TIMER (R423): ACK is returned at least every 64 frame times. -/
  | meridianAckTimer
  /-- MERIDIAN_LANE_FAIL (R430): A Meridian lane fails and is withdrawn with LANE_DOWN. -/
  | meridianLaneFail (rx m1 : Bool) (cause : LaneLoss)
  /-- MERIDIAN_LANE_REJOIN (R430): A lane locked for 10 ms rejoins at a SEQ named in advance. -/
  | meridianLaneRejoin (rx m1 : Bool) (seq : BitVec 12)
  /-- MERIDIAN_RESTART_RECEIVE (R431): A control frame with RESTART resets SEQ and MSG_SEQ and discards unacknowledged frames. -/
  | meridianRestartReceive
  /-- REF_LOCK_LOSS (R434): A meridian source loses CDR lock; its ready flag clears and holdover may begin. -/
  | refLockLoss (m1 : Bool)
  /-- REF_READY (R434): A source locked for 10 µs becomes ready, possibly ending holdover by a hitless switch. -/
  | refReady (m1 : Bool)
  /-- HOLDOVER_EXPIRY (R434): Holdover expires and a change to the coast oscillator begins. -/
  | holdoverExpiry (ready : Option Bool)
  /-- RELOCK_TIMER_EXPIRY (R434): A source ready for RELOCK_MS starts a change back to 7.2 GHz. -/
  | relockTimerExpiry (m1 : Bool)
  /-- ROOT_CHANGE_START (R435): Links go down and channels enter self-refresh for a root frequency change. -/
  | rootChangeStart
  /-- ROOT_CLOCKS_STOPPED (R435): Tile, mesh and granary clocks stop at one root edge and the steward moves to the coast
  oscillator. -/
  | rootClocksStopped
  /-- ROOT_PLL_LOCK (R435): The root PLL locks at the new source and the clocks restart. -/
  | rootPllLock
  /-- ROOT_CHANGE_COMPLETE (R435): The LPDDR6 set point switches and self-refresh exits, ending the change. -/
  | rootChangeComplete
  /-- SET_SWAP (R457): Validates the shadow set and, if it passes, writes it to flash as the new active set. -/
  | setSwap (m : MsgHdr) (v : BitVec 32)
  /-- SET_REVERT (R456): Copies the active set into the shadow set. -/
  | setRevert (m : MsgHdr) (v : BitVec 32)
  /-- SET_SAVE (R543): Erases and writes the shadow set's flash copy. -/
  | setSave (m : MsgHdr) (v : BitVec 32)
  /-- SET_DEFAULTS (R456): Loads every RWS default into the shadow set. -/
  | setDefaults (m : MsgHdr) (v : BitVec 32)
  /-- SWAP_FLASH_VERIFIED (R459): The new set's flash copy verifies, ACTIVE_GEN advances and adoption begins. -/
  | swapFlashVerified (ok : Bool)
  /-- SWAP_ERASE_COMPLETE (R459): The previous active copy finishes erasing in the background. -/
  | swapEraseComplete
  /-- SAVE_FLASH_VERIFIED (R543): The shadow copy verifies or fails, ending the SAVE. -/
  | saveFlashVerified (ok : Bool)
  /-- LEGEND_OD_READ (R466): A field OD_REQUEST read is answered with an OD_RESPONSE. -/
  | legendOdRead (tag : BitVec 16) (idx : BitVec 16) (sub : BitVec 8) (off : BitVec 32)
  /-- LEGEND_OD_WRITE (R466): A field OD_REQUEST write is refused with ACCESS, ROLE or NO_ENTRY. -/
  | legendOdWrite (tag : BitVec 16) (idx : BitVec 16) (sub : BitVec 8)
  /-- LEGEND_HEARTBEAT_RECEIVE (R467): A valid field HEARTBEAT makes its source the field manager. -/
  | legendHeartbeatReceive (src : BitVec 128)
  /-- LEGEND_HEARTBEAT_SEND (R467): The module sends its HEARTBEAT every HB_PERIOD. -/
  | legendHeartbeatSend
  /-- FIELD_MANAGER_EXPIRY (R467): No manager heartbeat within 3 × HB_PERIOD leaves the port without a manager. -/
  | fieldManagerExpiry
  /-- LEGEND_EVENT_SEND (R467): An event of the ring is sent once to the field manager. -/
  | legendEventSend
  /-- FIELD_DATAGRAM_DROP (R466): A malformed or foreign datagram ends at the field side and counts in RX_DROPPED. -/
  | fieldDatagramDrop
  /-- FIELD_PAIR_FAULT (R469): A short, open, reversal or DC fault on the pair is detected and handled. -/
  | fieldPairFault (k : PairFault) (dist : BitVec 8) (level : BitVec 8)
  /-- FIELD_PAIR_FAULT_END (R469): A pair fault ends and the transmitter resumes. -/
  | fieldPairFaultEnd
  /-- FIELD_TX_RETRY (R469): A shorted pair's transmitter is retried every 1 s. -/
  | fieldTxRetry (clear : Bool)
  /-- STAGE_S0 (R522): Power good: rails sequenced and the steward released from reset. -/
  | stageS0 (railsGood : Bool)
  /-- STAGE_S1 (R474): The steward boots, verifies its firmware, reads flash records and starts the field port. -/
  | stageS1 (imageOk seedOk : Bool)
  /-- STAGE_S2 (R474): A ready meridian source locks the root at 7.2 GHz and the Meridian port comes up. -/
  | stageS2
  /-- STAGE_S3 (R474): Granary images load, channels train and memory is initialised. -/
  | stageS3 (imageOk selfTestOk : Bool) (untrained : List Nat)
  /-- STAGE_S4 (R481): Cold-path structural test of every tile, remap table and mesh link. -/
  | stageS4 (contentOk : Bool) (results : List S4Result) (badLinks : List MeshLink)
  /-- STAGE_S5 (R354): Grid selection is applied and rows rebuilt into the remap tables. -/
  | stageS5 (contentOk : Bool)
  /-- STAGE_S6 (R491): The tile image is verified and broadcast to every good tile. -/
  | stageS6 (imageOk : Bool)
  /-- FW_BROADCAST_ROUND (R493): A broadcast or repair round sends the manifest and chunks to tiles. -/
  | fwBroadcastRound
  /-- TILE_FW_REPORT (R492): A tile reports its 18-bit verification result to the steward. -/
  | tileFwReport (p : Nat) (r : BitVec 18)
  /-- FW_ROUND_TIMEOUT (R494): 1 ms after a round starts, silent tiles count as 0x1_FFFF and the next round starts. -/
  | fwRoundTimeout
  /-- STAGE_S7 (R495): Link-engine images load, lasers turn on and known-answer runs execute. -/
  | stageS7 (imageOk kaOk granaryOk : Bool) (badTiles : List Nat) (badWl : List (Nat × BitVec 3))
  /-- STAGE_S8 (R474): Optics are calibrated or restored and every mapped link trained. -/
  | stageS8
  /-- STAGE_S9 (R474): Fallow rotation and background tests start and context creation opens. -/
  | stageS9
  /-- STAGE_LIMIT_EXPIRY (R499): A stage not complete within its limit fails with code 0x01. -/
  | stageLimitExpiry
  /-- BRINGUP_ADVANCE (R476): Runs stages up to TARGET. -/
  | bringupAdvance (m : MsgHdr) (v : BitVec 32)
  /-- BRINGUP_HOLD (R476): Stops after the stage in progress. -/
  | bringupHold (m : MsgHdr) (v : BitVec 32)
  /-- BRINGUP_RETRY (R476): Runs the failed stage again. -/
  | bringupRetry (m : MsgHdr) (v : BitVec 32)
  /-- REBUILD_GAZETTEER (R500): Writes a new gazetteer from S4 decisions and reruns S5. -/
  | rebuildGazetteer (m : MsgHdr) (v : BitVec 32)
  /-- WATCHDOG_SELF_FEED (R483): The steward feeds its own watchdog while the port is down or just up. -/
  | watchdogSelfFeed
  /-- WATCHDOG_EXPIRY (R483): The watchdog reaches TIMEOUT and resets the module on the cold path without drain. -/
  | watchdogExpiry
  /-- FW_PROGRAM (R490): Starts writing and verifying a slot image into the idle flash slot. -/
  | fwProgram (m : MsgHdr) (v : BitVec 64)
  /-- FW_PROGRAM_COMPLETE (R490): The slot is written, read back and verified, and the directory updated. -/
  | fwProgramComplete (readBack : Option Bool)
  /-- FW_CONFIRM (R488): Makes the booted trial slot valid and preferred. -/
  | fwConfirm (m : MsgHdr) (v : BitVec 64)
  /-- FW_PREFER_OTHER (R488): Moves the preference of a region to its other valid slot. -/
  | fwPreferOther (m : MsgHdr) (v : BitVec 64)
  /-- FW_RECOVERY_IMAGE (R500): ROM recovery verifies a written steward image, stores it and restarts cold. -/
  | fwRecoveryImage (m : MsgHdr) (off : BitVec 32) (data : List (BitVec 8))
  /-- KA_MEASURE_START (R497): Starts a measurement workload occupying every plot. -/
  | kaMeasureStart (m : MsgHdr) (v : BitVec 32)
  /-- KA_MEASURE_CANCEL (R497): Stops the running measurement workload as invalid. -/
  | kaMeasureCancel (m : MsgHdr) (v : BitVec 32)
  /-- KA_WORKLOAD_COMPLETE (R498): A measurement workload ends and KA_RESULT is written valid or invalid. -/
  | kaWorkloadComplete (value : BitVec 32) (invalid : BitVec 7) (measured : List Nat)
  /-- SEC_CHALLENGE_READ (R509): Returns a fresh TRNG nonce and discards any earlier one. -/
  | secChallengeRead (m : MsgHdr) (off : BitVec 32)
  /-- SEC_NONCE_EXPIRY (R509): A nonce expires 60 s after issue. -/
  | secNonceExpiry
  /-- TOKEN_DEBUG_UNLOCK (R512): An accepted DEBUG_UNLOCK token opens the masked debug levels. -/
  | tokenDebugUnlock (m : MsgHdr) (off : BitVec 32) (data : List (BitVec 8))
  /-- TOKEN_KEY_INSTALL (R510): An accepted KEY_INSTALL token writes and activates a key slot. -/
  | tokenKeyInstall (m : MsgHdr) (off : BitVec 32) (data : List (BitVec 8))
  /-- TOKEN_KEY_REVOKE (R510): An accepted KEY_REVOKE token sets a slot's REVOKED fuse. -/
  | tokenKeyRevoke (m : MsgHdr) (off : BitVec 32) (data : List (BitVec 8))
  /-- ROLLBACK_COMMIT (R505): Raises a region's rollback counters to the running images' values. -/
  | rollbackCommit (m : MsgHdr) (v : BitVec 32)
  /-- DEBUG_LOCK (R511): Closes every debug level. -/
  | debugLock (m : MsgHdr) (v : BitVec 32)
  /-- DEBUG_TILE_ACCESS (R512): A level TILE debug halt or write of tile state, recorded as KIND 0x42. -/
  | debugTileAccess (t : Coord) (halt : Bool) (wr : Option DebugWrite)
  /-- ATTEST_REQUEST (R513): Captures measurements and state and starts signing a report. -/
  | attestRequest (m : MsgHdr) (off : BitVec 32) (data : List (BitVec 8))
  /-- ATTEST_SIGN_COMPLETE (R514): The report signature completes and ATTEST_DONE is raised. -/
  | attestSignComplete
  /-- INPUT_POWER_ON (R517): Input held above the start threshold for 10 ms begins S0. -/
  | inputPowerOn (mv : Nat)
  /-- POWER_SAMPLE (R520): Every 100 µs input power is measured and the governor's requests updated. -/
  | powerSample (mv watts : Nat) (warn : Bool)
  /-- POWER_SHED (R526): A power-fail warning, droop or overvoltage sheds clocks and rails. -/
  | powerShed (cause : ShedCause)
  /-- TALLY_TAIL_WRITE (R415): The tally tail is written to flash in hold-up and the steward halts. -/
  | tallyTailWrite
  /-- RAIL_FAULT (R524): An overcurrent or undervoltage rail is switched off and the module sheds or resets. -/
  | railFault (r : Rail)
  /-- COOLANT_SAMPLE (R530): Every 10 ms inlet, outlet and flow set the coolant requests or a load shed. -/
  | coolantSample (inlet outlet : Int) (flow : Nat)
  /-- COOLANT_SHED_RESTART (R531): A shed condition cleared for 1 s restarts tile clocks at k = 8. -/
  | coolantShedRestart
  /-- JUNCTION_SAMPLE (R530): Every 100 µs junction temperatures set thermal requests or a trip. -/
  | junctionSample (quarters : List (Quarter × Int)) (others : List Int)
  /-- EPOCH_WAIT_EXPIRY (R379): A creation or restart held back because the context number's epoch advanced within the last
  TXN_REMOTE proceeds when that interval has passed, advancing the epoch. -/
  | epochWaitExpiry (c : Nat)
  /-- ROOT_PLL_LOCK_TIMEOUT (R499): At S2 the root PLL has not locked within 10 ms of a source becoming ready; the module
  records code 0x21, coasts and retries every 1 s. -/
  | rootPllLockTimeout
  /-- STEWARD_MEMORY_ERROR (R482): A double-bit error in the steward's instruction or data memory resets the module on the cold
  path and counts toward R394. -/
  | stewardMemoryError (double : Bool)
  /-- ICMPV6_REQUEST (R464): A neighbour solicitation or ICMPv6 echo request received on the field port is answered by the field
  controller. -/
  | icmpv6Request (echo : Bool) (src : BitVec 128)
  /-- RESERVED_TYPE_MESSAGE (R425): A Meridian message with a reserved TYPE, or a type sent only by the module, is answered with
  an error status and has no other effect. -/
  | reservedTypeMessage (m : MsgHdr) (ty : BitVec 8)
  /-- ADMISSION_HANDSHAKE (R322): The donor's steward receives the management handshake of an admitting module and answers with
  the slot that holds step t − 1. -/
  | admissionHandshake (job : BitVec 16) (src : BitVec 20) (step : BitVec 64)
  /-- ROLLBACK_COMMITTED (R505): The fuse writes of a ROLLBACK_COMMIT finish, the command stops running and ROLLBACK_COMMITTED
  is raised with the region and new values. -/
  | rollbackCommitted
  deriving DecidableEq, Repr

end Sys2Proof
end

