-- ==== Sys2Proof/Decode.lean ====
section
/-! DEFINITION. Words of instructions. No row of spec/opcode_table.json has bits, so no table word spells a command; the 32-bit words of the
Furrow instructions are decoded and encoded here from R48, R50, R51 and R95. -/

namespace Sys2Proof

/-- The command that a word spells by the table's bits: none, since the table gives no row any. -/
def decodeTableWord (_nbits _w : Nat) : Option Instr := none

/-! ### Furrow instruction words (R48, R50, R51, R95)

A field that R52 requires to be zero for a mnemonic (the vb field of a one-operand vector operation, the format fields of a
special function, the port field with Q = 0) is an operand of the command, and the meaning raises ILLEGAL_INSTR for it. The
bits that no form of a mnemonic names are the header's unused bits. -/

/-- The common fields of a word issued by a tile, with the bits its mnemonic does not use (R48, R52). -/
def furrowHdr (t : Coord) (w : BitVec 32) (unused : BitVec 24) : Hdr :=
  ⟨t, w.extractLsb' 25 3, w.getLsbD 24, w.extractLsb' 0 24 &&& unused⟩

/-- A word of a class: its guard, its class fields and its unused bits. -/
def furrowWord (cls : BitVec 4) (h : Hdr) (unused fields : BitVec 24) : BitVec 32 :=
  cls ++ h.pred ++ BitVec.ofBool h.neg ++ (fields ||| (h.unused &&& unused))

/-- SALU (R50, R51). -/
def decodeSalu (t : Coord) (w : BitVec 32) : Option Instr :=
  let h := furrowHdr t w 0
  match (w.extractLsb' 0 9).toNat with
  | 0x0 => some (.add h (w.extractLsb' 19 5) (w.extractLsb' 14 5) (w.extractLsb' 9 5))
  | 0x1 => some (.sub h (w.extractLsb' 19 5) (w.extractLsb' 14 5) (w.extractLsb' 9 5))
  | 0x2 => some (.and h (w.extractLsb' 19 5) (w.extractLsb' 14 5) (w.extractLsb' 9 5))
  | 0x3 => some (.or h (w.extractLsb' 19 5) (w.extractLsb' 14 5) (w.extractLsb' 9 5))
  | 0x4 => some (.xor h (w.extractLsb' 19 5) (w.extractLsb' 14 5) (w.extractLsb' 9 5))
  | 0x5 => some (.shl h (w.extractLsb' 19 5) (w.extractLsb' 14 5) (w.extractLsb' 9 5))
  | 0x6 => some (.shr h (w.extractLsb' 19 5) (w.extractLsb' 14 5) (w.extractLsb' 9 5))
  | 0x7 => some (.sra h (w.extractLsb' 19 5) (w.extractLsb' 14 5) (w.extractLsb' 9 5))
  | 0x8 => some (.slt h (w.extractLsb' 19 5) (w.extractLsb' 14 5) (w.extractLsb' 9 5))
  | 0x9 => some (.sltu h (w.extractLsb' 19 5) (w.extractLsb' 14 5) (w.extractLsb' 9 5))
  | 0xa => some (.min h (w.extractLsb' 19 5) (w.extractLsb' 14 5) (w.extractLsb' 9 5))
  | 0xb => some (.max h (w.extractLsb' 19 5) (w.extractLsb' 14 5) (w.extractLsb' 9 5))
  | 0x10 => some (.mul h (w.extractLsb' 19 5) (w.extractLsb' 14 5) (w.extractLsb' 9 5))
  | 0x11 => some (.mulhu h (w.extractLsb' 19 5) (w.extractLsb' 14 5) (w.extractLsb' 9 5))
  | 0x12 => some (.mulhs h (w.extractLsb' 19 5) (w.extractLsb' 14 5) (w.extractLsb' 9 5))
  | _ => none

/-- SALUI (R50, R51). -/
def decodeSalui (t : Coord) (w : BitVec 32) : Option Instr :=
  let h := furrowHdr t w 0
  match (w.extractLsb' 11 3).toNat with
  | 0x0 => some (.addi h (w.extractLsb' 19 5) (w.extractLsb' 14 5) (w.extractLsb' 0 11))
  | 0x1 => some (.andi h (w.extractLsb' 19 5) (w.extractLsb' 14 5) (w.extractLsb' 0 11))
  | 0x2 => some (.ori h (w.extractLsb' 19 5) (w.extractLsb' 14 5) (w.extractLsb' 0 11))
  | 0x3 => some (.xori h (w.extractLsb' 19 5) (w.extractLsb' 14 5) (w.extractLsb' 0 11))
  | 0x4 => some (.shli h (w.extractLsb' 19 5) (w.extractLsb' 14 5) (w.extractLsb' 0 11))
  | 0x5 => some (.shri h (w.extractLsb' 19 5) (w.extractLsb' 14 5) (w.extractLsb' 0 11))
  | 0x6 => some (.srai h (w.extractLsb' 19 5) (w.extractLsb' 14 5) (w.extractLsb' 0 11))
  | 0x7 => some (.slti h (w.extractLsb' 19 5) (w.extractLsb' 14 5) (w.extractLsb' 0 11))
  | _ => none

/-- SCMP (R50, R51). -/
def decodeScmp (t : Coord) (w : BitVec 32) : Option Instr :=
  let h := furrowHdr t w 0x3F
  match (w.extractLsb' 7 4).toNat with
  | 0x0 => some (.cmpEq h (w.extractLsb' 21 3) (w.extractLsb' 16 5) (w.extractLsb' 11 5) (w.getLsbD 6))
  | 0x1 => some (.cmpNe h (w.extractLsb' 21 3) (w.extractLsb' 16 5) (w.extractLsb' 11 5) (w.getLsbD 6))
  | 0x2 => some (.cmpLt h (w.extractLsb' 21 3) (w.extractLsb' 16 5) (w.extractLsb' 11 5) (w.getLsbD 6))
  | 0x3 => some (.cmpGe h (w.extractLsb' 21 3) (w.extractLsb' 16 5) (w.extractLsb' 11 5) (w.getLsbD 6))
  | 0x4 => some (.cmpLtu h (w.extractLsb' 21 3) (w.extractLsb' 16 5) (w.extractLsb' 11 5) (w.getLsbD 6))
  | 0x5 => some (.cmpGeu h (w.extractLsb' 21 3) (w.extractLsb' 16 5) (w.extractLsb' 11 5) (w.getLsbD 6))
  | _ => none

/-- BR (R50, R51). -/
def decodeBr (t : Coord) (w : BitVec 32) : Option Instr :=
  match (w.extractLsb' 22 2).toNat with
  | 0 => some (.br (furrowHdr t w 0) (w.extractLsb' 0 22))
  | 1 => some (.call (furrowHdr t w 0) (w.extractLsb' 0 22))
  | 2 => some (.jr (furrowHdr t w 0x1FFFF) (w.extractLsb' 17 5))
  | _ => some (.ret (furrowHdr t w 0x3FFFFF))

/-- LOOP (R50). -/
def decodeLoop (t : Coord) (w : BitVec 32) : Option Instr :=
  some (.loop (furrowHdr t w 0) (w.extractLsb' 22 2) (w.getLsbD 21) (w.extractLsb' 11 10) (w.extractLsb' 0 11))

/-- SMEM (R50, R51). -/
def decodeSmem (t : Coord) (w : BitVec 32) : Option Instr :=
  let h := furrowHdr t w 0
  match (w.extractLsb' 11 3).toNat with
  | 0x0 => some (.ld32 h (w.extractLsb' 19 5) (w.extractLsb' 14 5) (w.extractLsb' 0 11))
  | 0x1 => some (.ld16u h (w.extractLsb' 19 5) (w.extractLsb' 14 5) (w.extractLsb' 0 11))
  | 0x2 => some (.ld16s h (w.extractLsb' 19 5) (w.extractLsb' 14 5) (w.extractLsb' 0 11))
  | 0x3 => some (.ld8u h (w.extractLsb' 19 5) (w.extractLsb' 14 5) (w.extractLsb' 0 11))
  | 0x4 => some (.ld8s h (w.extractLsb' 19 5) (w.extractLsb' 14 5) (w.extractLsb' 0 11))
  | 0x5 => some (.st32 h (w.extractLsb' 19 5) (w.extractLsb' 14 5) (w.extractLsb' 0 11))
  | 0x6 => some (.st16 h (w.extractLsb' 19 5) (w.extractLsb' 14 5) (w.extractLsb' 0 11))
  | 0x7 => some (.st8 h (w.extractLsb' 19 5) (w.extractLsb' 14 5) (w.extractLsb' 0 11))
  | _ => none

/-- VMEM (R50, R51). -/
def decodeVmem (t : Coord) (w : BitVec 32) : Option Instr :=
  let h := furrowHdr t w 0
  match (w.extractLsb' 12 2).toNat with
  | 0x0 => some (.vld h (w.extractLsb' 19 5) (w.extractLsb' 14 5) (w.extractLsb' 0 12))
  | 0x1 => some (.vst h (w.extractLsb' 19 5) (w.extractLsb' 14 5) (w.extractLsb' 0 12))
  | _ => none

/-- VALU, by the vector operation table (R51). -/
def decodeValu (t : Coord) (w : BitVec 32) : Option Instr :=
  let h := furrowHdr t w 0
  match (w.extractLsb' 0 9).toNat with
  | 0x0 => some (.vadd h (w.extractLsb' 19 5) (w.extractLsb' 14 5) (w.extractLsb' 9 5))
  | 0x1 => some (.vsub h (w.extractLsb' 19 5) (w.extractLsb' 14 5) (w.extractLsb' 9 5))
  | 0x2 => some (.vmul h (w.extractLsb' 19 5) (w.extractLsb' 14 5) (w.extractLsb' 9 5))
  | 0x3 => some (.vfma h (w.extractLsb' 19 5) (w.extractLsb' 14 5) (w.extractLsb' 9 5))
  | 0x4 => some (.vfms h (w.extractLsb' 19 5) (w.extractLsb' 14 5) (w.extractLsb' 9 5))
  | 0x5 => some (.vmax h (w.extractLsb' 19 5) (w.extractLsb' 14 5) (w.extractLsb' 9 5))
  | 0x6 => some (.vmin h (w.extractLsb' 19 5) (w.extractLsb' 14 5) (w.extractLsb' 9 5))
  | 0x7 => some (.vabs h (w.extractLsb' 19 5) (w.extractLsb' 14 5) (w.extractLsb' 9 5))
  | 0x8 => some (.vneg h (w.extractLsb' 19 5) (w.extractLsb' 14 5) (w.extractLsb' 9 5))
  | 0x10 => some (.vcmplt h (w.extractLsb' 19 5) (w.extractLsb' 14 5) (w.extractLsb' 9 5))
  | 0x11 => some (.vcmpeq h (w.extractLsb' 19 5) (w.extractLsb' 14 5) (w.extractLsb' 9 5))
  | 0x12 => some (.vsel h (w.extractLsb' 19 5) (w.extractLsb' 14 5) (w.extractLsb' 9 5))
  | 0x20 => some (.vand h (w.extractLsb' 19 5) (w.extractLsb' 14 5) (w.extractLsb' 9 5))
  | 0x21 => some (.vor h (w.extractLsb' 19 5) (w.extractLsb' 14 5) (w.extractLsb' 9 5))
  | 0x22 => some (.vxor h (w.extractLsb' 19 5) (w.extractLsb' 14 5) (w.extractLsb' 9 5))
  | 0x23 => some (.vmov h (w.extractLsb' 19 5) (w.extractLsb' 14 5) (w.extractLsb' 9 5))
  | 0x30 => some (.vaddi h (w.extractLsb' 19 5) (w.extractLsb' 14 5) (w.extractLsb' 9 5))
  | 0x31 => some (.vsubi h (w.extractLsb' 19 5) (w.extractLsb' 14 5) (w.extractLsb' 9 5))
  | _ => none

/-- VSFU (R50, R51). -/
def decodeVsfu (t : Coord) (w : BitVec 32) : Option Instr :=
  let h := furrowHdr t w 0
  match (w.extractLsb' 8 6).toNat with
  | 0x0 => some (.vexp h (w.extractLsb' 19 5) (w.extractLsb' 14 5) (w.extractLsb' 4 4) (w.extractLsb' 0 4))
  | 0x1 => some (.vlog h (w.extractLsb' 19 5) (w.extractLsb' 14 5) (w.extractLsb' 4 4) (w.extractLsb' 0 4))
  | 0x2 => some (.vrsqrt h (w.extractLsb' 19 5) (w.extractLsb' 14 5) (w.extractLsb' 4 4) (w.extractLsb' 0 4))
  | 0x3 => some (.vrcp h (w.extractLsb' 19 5) (w.extractLsb' 14 5) (w.extractLsb' 4 4) (w.extractLsb' 0 4))
  | 0x8 => some (.vredsum h (w.extractLsb' 19 5) (w.extractLsb' 14 5) (w.extractLsb' 4 4) (w.extractLsb' 0 4))
  | 0x9 => some (.vredmax h (w.extractLsb' 19 5) (w.extractLsb' 14 5) (w.extractLsb' 4 4) (w.extractLsb' 0 4))
  | 0xa => some (.vredmin h (w.extractLsb' 19 5) (w.extractLsb' 14 5) (w.extractLsb' 4 4) (w.extractLsb' 0 4))
  | 0x10 => some (.vcvt h (w.extractLsb' 19 5) (w.extractLsb' 14 5) (w.extractLsb' 4 4) (w.extractLsb' 0 4))
  | 0x11 => some (.vcvtsr h (w.extractLsb' 19 5) (w.extractLsb' 14 5) (w.extractLsb' 4 4) (w.extractLsb' 0 4))
  | _ => none

/-- QMOV (R50, R51). -/
def decodeQmov (t : Coord) (w : BitVec 32) : Option Instr :=
  let h := furrowHdr t w 0x1F
  match (w.extractLsb' 20 4).toNat with
  | 0x0 => some (.qrecv h (w.extractLsb' 15 5) (w.extractLsb' 10 5) (w.extractLsb' 5 5))
  | 0x1 => some (.qsend h (w.extractLsb' 15 5) (w.extractLsb' 10 5) (w.extractLsb' 5 5))
  | 0x2 => some (.qcount h (w.extractLsb' 15 5) (w.extractLsb' 10 5) (w.extractLsb' 5 5))
  | 0x3 => some (.qwait h (w.extractLsb' 15 5) (w.extractLsb' 10 5) (w.extractLsb' 5 5))
  | 0x4 => some (.vbcast h (w.extractLsb' 15 5) (w.extractLsb' 10 5) (w.extractLsb' 5 5))
  | 0x5 => some (.vext h (w.extractLsb' 15 5) (w.extractLsb' 10 5) (w.extractLsb' 5 5))
  | 0x6 => some (.vins h (w.extractLsb' 15 5) (w.extractLsb' 10 5) (w.extractLsb' 5 5))
  | _ => none

/-- MATRIX (R95). -/
def decodeMatrix (t : Coord) (w : BitVec 32) : Option Instr :=
  match (w.extractLsb' 19 5).toNat with
  | 0 =>
    match (w.extractLsb' 12 2).toNat with
    | 0 => some (.mcfgFormat (furrowHdr t w 0xFFF) (w.extractLsb' 14 5))
    | 1 => some (.mcfgDrain (furrowHdr t w 0xFFF) (w.extractLsb' 14 5))
    | 2 => some (.mcfgElementBase (furrowHdr t w 0xFFF) (w.extractLsb' 14 5))
    | _ => none
  | 1 => some (.mld (furrowHdr t w 0x1FF) (w.extractLsb' 14 5) (w.getLsbD 13) (w.extractLsb' 9 4))
  | 2 => some (.mswap (furrowHdr t w 0x7FFFF))
  | 3 =>
    some (.mmul (furrowHdr t w 3) (w.extractLsb' 14 5) (w.extractLsb' 9 5) (w.getLsbD 8) (w.getLsbD 7) (w.getLsbD 6)
      (w.extractLsb' 2 4))
  | 4 =>
    some (.mdrain (furrowHdr t w 3) (w.extractLsb' 14 5) (w.extractLsb' 9 5) (w.getLsbD 8) (w.getLsbD 7) (w.getLsbD 6)
      (w.extractLsb' 2 4))
  | 5 => some (.msync (furrowHdr t w 0x7FFFF))
  | 6 => some (.mramp (furrowHdr t w 0x7FFE0) (w.extractLsb' 0 5))
  | _ => none

/-- DMA (R50, R51). -/
def decodeDma (t : Coord) (w : BitVec 32) : Option Instr :=
  match (w.extractLsb' 21 3).toNat with
  | 0 => some (.dma (furrowHdr t w 0xFFFF) (w.extractLsb' 16 5))
  | 1 => some (.dwait (furrowHdr t w 0x1FFF) (w.extractLsb' 13 3) (w.extractLsb' 16 5))
  | 2 =>
    some (.dwaitt (furrowHdr t w 0x1F) (w.extractLsb' 13 3) (w.extractLsb' 10 3) (w.extractLsb' 16 5) (w.extractLsb' 5 5))
  | 3 => some (.dclr (furrowHdr t w 0x1F1FFF) (w.extractLsb' 13 3))
  | _ => none

/-- MSG (R50, R51). -/
def decodeMsg (t : Coord) (w : BitVec 32) : Option Instr :=
  match (w.extractLsb' 22 2).toNat with
  | 0 => some (.msend (furrowHdr t w 0xFFF) (w.extractLsb' 17 5) (w.extractLsb' 12 5))
  | 1 => some (.mrecv (furrowHdr t w 0xFFF) (w.extractLsb' 17 5) (w.extractLsb' 12 5))
  | 2 => some (.mwait (furrowHdr t w 0x3E000F) (w.extractLsb' 9 3) (w.extractLsb' 12 5) (w.extractLsb' 4 5))
  | _ => none

/-- SYS (R50, R51). -/
def decodeSys (t : Coord) (w : BitVec 32) : Option Instr :=
  match (w.extractLsb' 18 6).toNat with
  | 0 => some (.nop (furrowHdr t w 0x3FFFF))
  | 1 => some (.csrr (furrowHdr t w 0x1000) (w.extractLsb' 13 5) (w.extractLsb' 0 12))
  | 2 => some (.csrw (furrowHdr t w 0x1000) (w.extractLsb' 13 5) (w.extractLsb' 0 12))
  | 3 => some (.fallow (furrowHdr t w 0x3FFFF))
  | 4 => some (.stepend (furrowHdr t w 0x3FFFF))
  | 5 => some (.secend (furrowHdr t w 0x3FFFF))
  | _ => none

/-- The instruction that a word spells when a tile issues it; none for class 0xF and for a reserved value of a function code
(R50, R51, R52, R95). -/
def furrowDecode (t : Coord) (w : BitVec 32) : Option Instr :=
  match (w.extractLsb' 28 4).toNat with
  | 0 => decodeSalu t w
  | 1 => decodeSalui t w
  | 2 => some (.lui (furrowHdr t w 0) (w.extractLsb' 19 5) (w.extractLsb' 0 19))
  | 3 => decodeScmp t w
  | 4 => decodeBr t w
  | 5 => decodeLoop t w
  | 6 => decodeSmem t w
  | 7 => decodeVmem t w
  | 8 => decodeValu t w
  | 9 => decodeVsfu t w
  | 10 => decodeQmov t w
  | 11 => decodeMatrix t w
  | 12 => decodeDma t w
  | 13 => decodeMsg t w
  | 14 => decodeSys t w
  | _ => none

/-- The bits of 23:0 that a Furrow instruction does not use (R50 to R52, R95); all of them for another command. -/
def furrowUnused : Instr → BitVec 24
  | .jr _ _ => 0x1FFFF
  | .ret _ => 0x3FFFFF
  | .cmpEq _ _ _ _ _ | .cmpNe _ _ _ _ _ | .cmpLt _ _ _ _ _ | .cmpGe _ _ _ _ _ | .cmpLtu _ _ _ _ _ | .cmpGeu _ _ _ _ _ => 0x3F
  | .qrecv _ _ _ _ | .qsend _ _ _ _ | .qcount _ _ _ _ | .qwait _ _ _ _ | .vbcast _ _ _ _ | .vext _ _ _ _ | .vins _ _ _ _ => 0x1F
  | .mcfgFormat _ _ | .mcfgDrain _ _ | .mcfgElementBase _ _ => 0xFFF
  | .mld _ _ _ _ => 0x1FF
  | .mswap _ | .msync _ => 0x7FFFF
  | .mmul _ _ _ _ _ _ _ | .mdrain _ _ _ _ _ _ _ => 3
  | .mramp _ _ => 0x7FFE0
  | .dma _ _ => 0xFFFF
  | .dwait _ _ _ => 0x1FFF
  | .dwaitt _ _ _ _ _ => 0x1F
  | .dclr _ _ => 0x1F1FFF
  | .msend _ _ _ | .mrecv _ _ _ => 0xFFF
  | .mwait _ _ _ _ => 0x3E000F
  | .nop _ | .fallow _ | .stepend _ | .secend _ => 0x3FFFF
  | .csrr _ _ _ | .csrw _ _ _ => 0x1000
  | _ => 0

/-- The class and the class fields of a Furrow instruction, with its header; none for another command (R50, R51, R95). -/
def furrowFields : Instr → Option (BitVec 4 × Hdr × BitVec 24)
  | .add h a b c => some (0, h, a ++ b ++ c ++ 0x000#9)
  | .sub h a b c => some (0, h, a ++ b ++ c ++ 0x001#9)
  | .and h a b c => some (0, h, a ++ b ++ c ++ 0x002#9)
  | .or h a b c => some (0, h, a ++ b ++ c ++ 0x003#9)
  | .xor h a b c => some (0, h, a ++ b ++ c ++ 0x004#9)
  | .shl h a b c => some (0, h, a ++ b ++ c ++ 0x005#9)
  | .shr h a b c => some (0, h, a ++ b ++ c ++ 0x006#9)
  | .sra h a b c => some (0, h, a ++ b ++ c ++ 0x007#9)
  | .slt h a b c => some (0, h, a ++ b ++ c ++ 0x008#9)
  | .sltu h a b c => some (0, h, a ++ b ++ c ++ 0x009#9)
  | .min h a b c => some (0, h, a ++ b ++ c ++ 0x00a#9)
  | .max h a b c => some (0, h, a ++ b ++ c ++ 0x00b#9)
  | .mul h a b c => some (0, h, a ++ b ++ c ++ 0x010#9)
  | .mulhu h a b c => some (0, h, a ++ b ++ c ++ 0x011#9)
  | .mulhs h a b c => some (0, h, a ++ b ++ c ++ 0x012#9)
  | .addi h a b i => some (1, h, a ++ b ++ 0#3 ++ i)
  | .andi h a b i => some (1, h, a ++ b ++ 1#3 ++ i)
  | .ori h a b i => some (1, h, a ++ b ++ 2#3 ++ i)
  | .xori h a b i => some (1, h, a ++ b ++ 3#3 ++ i)
  | .shli h a b i => some (1, h, a ++ b ++ 4#3 ++ i)
  | .shri h a b i => some (1, h, a ++ b ++ 5#3 ++ i)
  | .srai h a b i => some (1, h, a ++ b ++ 6#3 ++ i)
  | .slti h a b i => some (1, h, a ++ b ++ 7#3 ++ i)
  | .lui h a i => some (2, h, a ++ i)
  | .cmpEq h p a b i => some (3, h, p ++ a ++ b ++ 0#4 ++ BitVec.ofBool i ++ 0#6)
  | .cmpNe h p a b i => some (3, h, p ++ a ++ b ++ 1#4 ++ BitVec.ofBool i ++ 0#6)
  | .cmpLt h p a b i => some (3, h, p ++ a ++ b ++ 2#4 ++ BitVec.ofBool i ++ 0#6)
  | .cmpGe h p a b i => some (3, h, p ++ a ++ b ++ 3#4 ++ BitVec.ofBool i ++ 0#6)
  | .cmpLtu h p a b i => some (3, h, p ++ a ++ b ++ 4#4 ++ BitVec.ofBool i ++ 0#6)
  | .cmpGeu h p a b i => some (3, h, p ++ a ++ b ++ 5#4 ++ BitVec.ofBool i ++ 0#6)
  | .br h o => some (4, h, 0#2 ++ o)
  | .call h o => some (4, h, 1#2 ++ o)
  | .jr h a => some (4, h, 2#2 ++ a ++ 0#17)
  | .ret h => some (4, h, 3#2 ++ 0#22)
  | .loop h k i b n => some (5, h, k ++ BitVec.ofBool i ++ b ++ n)
  | .ld32 h a b o => some (6, h, a ++ b ++ 0#3 ++ o)
  | .ld16u h a b o => some (6, h, a ++ b ++ 1#3 ++ o)
  | .ld16s h a b o => some (6, h, a ++ b ++ 2#3 ++ o)
  | .ld8u h a b o => some (6, h, a ++ b ++ 3#3 ++ o)
  | .ld8s h a b o => some (6, h, a ++ b ++ 4#3 ++ o)
  | .st32 h a b o => some (6, h, a ++ b ++ 5#3 ++ o)
  | .st16 h a b o => some (6, h, a ++ b ++ 6#3 ++ o)
  | .st8 h a b o => some (6, h, a ++ b ++ 7#3 ++ o)
  | .vld h a b o => some (7, h, a ++ b ++ 0#2 ++ o)
  | .vst h a b o => some (7, h, a ++ b ++ 1#2 ++ o)
  | .vadd h a b c => some (8, h, a ++ b ++ c ++ 0x000#9)
  | .vsub h a b c => some (8, h, a ++ b ++ c ++ 0x001#9)
  | .vmul h a b c => some (8, h, a ++ b ++ c ++ 0x002#9)
  | .vfma h a b c => some (8, h, a ++ b ++ c ++ 0x003#9)
  | .vfms h a b c => some (8, h, a ++ b ++ c ++ 0x004#9)
  | .vmax h a b c => some (8, h, a ++ b ++ c ++ 0x005#9)
  | .vmin h a b c => some (8, h, a ++ b ++ c ++ 0x006#9)
  | .vabs h a b c => some (8, h, a ++ b ++ c ++ 0x007#9)
  | .vneg h a b c => some (8, h, a ++ b ++ c ++ 0x008#9)
  | .vcmplt h a b c => some (8, h, a ++ b ++ c ++ 0x010#9)
  | .vcmpeq h a b c => some (8, h, a ++ b ++ c ++ 0x011#9)
  | .vsel h a b c => some (8, h, a ++ b ++ c ++ 0x012#9)
  | .vand h a b c => some (8, h, a ++ b ++ c ++ 0x020#9)
  | .vor h a b c => some (8, h, a ++ b ++ c ++ 0x021#9)
  | .vxor h a b c => some (8, h, a ++ b ++ c ++ 0x022#9)
  | .vmov h a b c => some (8, h, a ++ b ++ c ++ 0x023#9)
  | .vaddi h a b c => some (8, h, a ++ b ++ c ++ 0x030#9)
  | .vsubi h a b c => some (8, h, a ++ b ++ c ++ 0x031#9)
  | .vexp h a b d f => some (9, h, a ++ b ++ 0x00#6 ++ d ++ f)
  | .vlog h a b d f => some (9, h, a ++ b ++ 0x01#6 ++ d ++ f)
  | .vrsqrt h a b d f => some (9, h, a ++ b ++ 0x02#6 ++ d ++ f)
  | .vrcp h a b d f => some (9, h, a ++ b ++ 0x03#6 ++ d ++ f)
  | .vredsum h a b d f => some (9, h, a ++ b ++ 0x08#6 ++ d ++ f)
  | .vredmax h a b d f => some (9, h, a ++ b ++ 0x09#6 ++ d ++ f)
  | .vredmin h a b d f => some (9, h, a ++ b ++ 0x0a#6 ++ d ++ f)
  | .vcvt h a b d f => some (9, h, a ++ b ++ 0x10#6 ++ d ++ f)
  | .vcvtsr h a b d f => some (9, h, a ++ b ++ 0x11#6 ++ d ++ f)
  | .qrecv h a b c => some (10, h, 0#4 ++ a ++ b ++ c ++ 0#5)
  | .qsend h a b c => some (10, h, 1#4 ++ a ++ b ++ c ++ 0#5)
  | .qcount h a b c => some (10, h, 2#4 ++ a ++ b ++ c ++ 0#5)
  | .qwait h a b c => some (10, h, 3#4 ++ a ++ b ++ c ++ 0#5)
  | .vbcast h a b c => some (10, h, 4#4 ++ a ++ b ++ c ++ 0#5)
  | .vext h a b c => some (10, h, 5#4 ++ a ++ b ++ c ++ 0#5)
  | .vins h a b c => some (10, h, 6#4 ++ a ++ b ++ c ++ 0#5)
  | .mcfgFormat h a => some (11, h, 0#5 ++ a ++ 0#2 ++ 0#12)
  | .mcfgDrain h a => some (11, h, 0#5 ++ a ++ 1#2 ++ 0#12)
  | .mcfgElementBase h a => some (11, h, 0#5 ++ a ++ 2#2 ++ 0#12)
  | .mld h a q p => some (11, h, 1#5 ++ a ++ BitVec.ofBool q ++ p ++ 0#9)
  | .mswap h => some (11, h, 2#5 ++ 0#19)
  | .mmul h a b t z q p => some (11, h, 3#5 ++ a ++ b ++ BitVec.ofBool t ++ BitVec.ofBool z ++ BitVec.ofBool q ++ p ++ 0#2)
  | .mdrain h a b t c q p => some (11, h, 4#5 ++ a ++ b ++ BitVec.ofBool t ++ BitVec.ofBool c ++ BitVec.ofBool q ++ p ++ 0#2)
  | .msync h => some (11, h, 5#5 ++ 0#19)
  | .mramp h l => some (11, h, 6#5 ++ 0#14 ++ l)
  | .dma h a => some (12, h, 0#3 ++ a ++ 0#16)
  | .dwait h k a => some (12, h, 1#3 ++ a ++ k ++ 0#13)
  | .dwaitt h k p a b => some (12, h, 2#3 ++ a ++ k ++ p ++ b ++ 0#5)
  | .dclr h k => some (12, h, 3#3 ++ 0#5 ++ k ++ 0#13)
  | .msend h v a => some (13, h, 0#2 ++ v ++ a ++ 0#12)
  | .mrecv h v a => some (13, h, 1#2 ++ v ++ a ++ 0#12)
  | .mwait h p a b => some (13, h, 2#2 ++ 0#5 ++ a ++ p ++ b ++ 0#4)
  | .nop h => some (14, h, 0#6 ++ 0#18)
  | .csrr h a i => some (14, h, 1#6 ++ a ++ 0#1 ++ i)
  | .csrw h a i => some (14, h, 2#6 ++ a ++ 0#1 ++ i)
  | .fallow h => some (14, h, 3#6 ++ 0#18)
  | .stepend h => some (14, h, 4#6 ++ 0#18)
  | .secend h => some (14, h, 5#6 ++ 0#18)
  | _ => none

/-- The word of a Furrow instruction and the tile that issues it; none for another command. -/
def furrowEncode (i : Instr) : Option (Coord × BitVec 32) :=
  (furrowFields i).map fun e => (e.2.1.t, furrowWord e.1 e.2.1 (furrowUnused i) e.2.2)

end Sys2Proof
end

