-- ==== Sys2Proof/Machine/Map.lean ====
section
/-! DEFINITION. Sparse data by key: a list of key and value pairs with rising keys, in which a key that is not listed reads as
a default. Register files, tables and sets of the machine are held so, which keeps states comparable. -/

namespace Sys2Proof.Machine

/-- A sparse table: pairs of a key and a value, keys rising. -/
abbrev AMap (α : Type) := List (Nat × α)

/-- The value at a key, or the default. -/
def mget {α : Type} : AMap α → α → Nat → α
  | [], d, _ => d
  | (a, v) :: t, d, k => if a = k then v else mget t d k

/-- The value at a key, if listed. -/
def mfind {α : Type} : AMap α → Nat → Option α
  | [], _ => none
  | (a, v) :: t, k => if a = k then some v else mfind t k

/-- Writes a value at a key, keeping keys rising. -/
def mput {α : Type} : AMap α → Nat → α → AMap α
  | [], k, v => [(k, v)]
  | (a, w) :: t, k, v =>
    if k < a then (k, v) :: (a, w) :: t
    else if k = a then (k, v) :: t
    else (a, w) :: mput t k v

/-- Removes a key. -/
def mdel {α : Type} : AMap α → Nat → AMap α
  | [], _ => []
  | (a, w) :: t, k => if a = k then mdel t k else (a, w) :: mdel t k

/-- Writes a value, removing the key where the value is the default, so that equal contents are equal tables. -/
def mset {α : Type} [DecidableEq α] (m : AMap α) (d : α) (k : Nat) (v : α) : AMap α :=
  if v = d then mdel m k else mput m k v

/-- Changes the value at a key. -/
def mmod {α : Type} (m : AMap α) (d : α) (k : Nat) (f : α → α) : AMap α := mput m k (f (mget m d k))

/-- The set with an element added, kept rising. -/
def sadd : List Nat → Nat → List Nat
  | [], k => [k]
  | a :: t, k => if k < a then k :: a :: t else if k = a then a :: t else a :: sadd t k

/-- The set with an element removed. -/
def sdel : List Nat → Nat → List Nat
  | [], _ => []
  | a :: t, k => if a = k then sdel t k else a :: sdel t k

/-- The set with an element added or removed. -/
def sset (l : List Nat) (k : Nat) (b : Bool) : List Nat := if b then sadd l k else sdel l k

/-- The smallest key from `k` on that is not listed: the next free number of a table. -/
def freeKey {α : Type} : Nat → AMap α → Nat → Nat
  | 0, _, k => k
  | n + 1, m, k => if (mfind m k).isSome then freeKey n m (k + 1) else k

/-- The next free number of a table, from 0. -/
def nextFree {α : Type} (m : AMap α) : Nat := freeKey m.length m 0

/-- A count that stops at its maximum. -/
def satAdd (a b max : Nat) : Nat := if a + b ≤ max then a + b else max

end Sys2Proof.Machine
end

