-- ==== Sys2Proof/Machine/State.lean ====
section
/-! DEFINITION. Everything the specification gives the module to hold, as plain data: tiles, mesh, granaries, links, contexts,
gleaners, steward, Meridian port, object dictionary, clocks, security engine, power and field side; the queue of waiting
commands; and the state after reset. Every field's docstring names the rule that gives it. -/

namespace Sys2Proof.Machine

/-! ### Tiles -/

/-- A 128 B vector register or queue item with a poison tag on each 64 B half (R44, R67). A 4 B item uses bits 31:0 and tagLo. -/
structure Item where
  data : VecData := 0
  tagLo : Bool := false
  tagHi : Bool := false
  deriving DecidableEq, Repr

/-- An active hardware loop: its counter, and the indices of the first and last body instruction (R57, R58). -/
structure LoopFrame where
  ck : BitVec 2
  first : Nat
  last : Nat
  deriving DecidableEq, Repr

/-- What a stalled core waits on (R54, R70, R73, R74, R76, R98, R100). -/
inductive WaitOn where
  | queueIn (ch : Nat)
  | queueOut (ch : Nat)
  | portHeld (ch : Nat)
  | dmaSlot
  | dmaCount (k : BitVec 3) (target : BitVec 32)
  | msgDest (key : Nat)
  | mail (sender : Option Nat)
  | matrixQueue
  | msync
  /-- Room in the tile's port to the mesh (R255). -/
  | meshPort
  deriving DecidableEq, Repr

/-- A timed wait in progress (R77): its condition, the predicate it writes and the timeout. -/
structure TimedWait where
  on : WaitOn
  pd : BitVec 3
  timeout : BitVec 32
  deriving DecidableEq, Repr

/-- Where a tile's program stands (R80 to R83, R202, R216, R219, R373). -/
inductive RunState where
  /-- The tile runs no program: it belongs to no context, or its record names no code block (R219). -/
  | off
  | running
  /-- Stalled at `stepend` until the step boundary is complete (R82). -/
  | stepEnd
  /-- Stalled at `secend` until the next section is loaded (R82). -/
  | secEnd
  /-- Loaded, waiting for the step epoch before the entry instruction (R429). -/
  | entryWait
  /-- At a `fallow` with a move pending, before the copy ends (R81). -/
  | moving
  /-- Held at a fallow point by a pause (R216). -/
  | held
  /-- Stopped by an exception (R83). -/
  | excepted
  /-- Stopped by a stop order (R373). -/
  | stopped
  deriving DecidableEq, Repr

/-- The Furrow core's own state (R44, R46, R57). -/
structure Core where
  /-- Program counter, an instruction index (R44). -/
  pc : BitVec 13 := 0
  /-- Scalar registers s1 to s31 (R44). -/
  s : AMap Word := []
  /-- Predicates p1 to p7; bit 0 is not read (R44). -/
  p : BitVec 8 := 0
  /-- Hardware loop counters c0 to c3 (R44). -/
  c : AMap Word := []
  /-- Vector registers v0 to v15 (R44). -/
  v : AMap Item := []
  /-- DMA completion counters k0 to k7 (R44, R73). -/
  k : AMap (BitVec 16) := []
  /-- CSR TENSOR_ID (R46). -/
  tensorId : Word := 0
  /-- CSR ELEMENT_BASE (R46). -/
  elementBase : Word := 0
  /-- CSR FP_FLAGS, bits 4:0 (R47). -/
  fpFlags : BitVec 5 := 0
  /-- The value of CYCLE_HI that the last read of CYCLE_LO latched (R46). -/
  cycleHi : Word := 0
  /-- Active loops, innermost first (R58). -/
  loops : List LoopFrame := []
  /-- Where the program stands. -/
  run : RunState := .off
  /-- What the instruction at the program counter waits on, when it could not issue. -/
  wait : Option WaitOn := none
  /-- The timed wait in progress (R77). -/
  timed : Option TimedWait := none
  /-- Halted by debug level TILE (R512). -/
  halted : Bool := false
  /-- Instructions issued so far, which the stall window looks at (R372). -/
  issued : Nat := 0
  /-- Instruction memory from index 1,024: the loaded code block (R79). -/
  prog : List Word := []
  deriving DecidableEq, Repr

/-- A DMA descriptor in work (R68, R70, R71). -/
structure DmaDesc where
  remote : DWord
  binAddr : Nat
  rowBytes : Nat
  rows : Nat
  remoteStride : Nat
  binStride : Nat
  toRemote : Bool
  counter : BitVec 3
  /-- The bin address of the descriptor, for DETAIL (R84). -/
  at_ : Nat
  /-- The TENSOR_ID in force when it issued (R170). -/
  tensor : Word
  /-- The program counter of its `dma`. -/
  pc : BitVec 13
  /-- Bytes already split into transactions. -/
  issued : Nat
  /-- Bytes completed. -/
  done : Nat
  deriving DecidableEq, Repr

/-- An outstanding DMA transaction: its descriptor, its place in the transfer and its length (R70), the bytes staged of a write
(R169), and the bytes that have come of a read (R71). -/
structure DmaTxn where
  desc : Nat
  pos : Nat
  len : Nat
  sent : Nat := 0
  got : Nat := 0
  deriving DecidableEq, Repr

/-- A message in the mailbox: the sender's relative coordinate code and the vector (R74, R75). -/
structure Mail where
  sender : Nat
  data : Item
  deriving DecidableEq, Repr

/-- The tile DMA and the message unit (R70, R74, R75). -/
structure Dma where
  descs : AMap DmaDesc := []
  txns : AMap DmaTxn := []
  /-- Mailbox, oldest first (R75). -/
  mailbox : List Mail := []
  /-- Declared senders, as relative coordinate codes (R75). -/
  senders : List Nat := []
  /-- Destinations with a message outstanding (R74). -/
  msgOut : List Nat := []
  /-- Bin-space writes of which flits have come: the lines so far, and whether the write is refused, by 4096 * key of the source +
  tag (R162, R169). -/
  inbound : AMap (Nat × Bool) := []
  deriving DecidableEq, Repr

/-- The moving part of a channel (R190, R191, R210). -/
structure ChanSt where
  /-- Outbound: credits held for free positions of the peer (R190). -/
  credits : Nat := 0
  /-- Outbound: sequence number of the next item pushed (R191). -/
  seqOut : BitVec 16 := 0
  /-- Inbound: sequence number of the next item to become available (R191). -/
  seqIn : BitVec 16 := 0
  /-- Inbound: items in the queue store, oldest first (R188). -/
  store : List Item := []
  /-- Inbound: items that arrived before an earlier one, by sequence number (R191). -/
  early : AMap Item := []
  /-- Inbound: in spill state (R210). -/
  spilling : Bool := false
  /-- Inbound: a spill order has been sent to it (R209). -/
  ordered : Bool := false
  /-- Inbound: items of the bin segment, oldest first, and the place of the oldest in the ring of its lines (R210). -/
  binSeg : List Item := []
  binAt : Nat := 0
  /-- Inbound: items of the memory segment, oldest first, the place of the oldest in the ring of its share, and how many of them
  have left for LPDDR6 (R210, R211). -/
  memSeg : List Item := []
  memAt : Nat := 0
  memSent : Nat := 0
  /-- Inbound: credits outstanding at the producer and items in flight (R212). -/
  outstanding : Nat := 0
  deriving DecidableEq, Repr

/-- A transaction of the spill engine: its channel, whether it writes, the items it carries, its address and length, the bytes
that have come back, and the lines of it that were delivered poisoned (R211, R213). -/
structure SpillTxn where
  ch : Nat
  write : Bool
  items : Nat
  addr : Nat
  len : Nat
  got : Nat := 0
  poison : List Nat := []
  deriving DecidableEq, Repr

/-- A steering unit's current token, the items left under it, and the item it repeats (R195, R196, R222). -/
structure SteerUnit where
  tok : Option (BitVec 32) := none
  left : Nat := 0
  held : Option Item := none
  deriving DecidableEq, Repr

/-- A stationary buffer with what the load engine recorded (R89, R101, R111). Element and scale bytes are kept as one
little-endian number each. -/
structure StatBuf where
  loaded : Bool := false
  fmt : BitVec 4 := 0
  scaleEnc : BitVec 2 := 0
  blk : BitVec 2 := 0
  data : Nat := 0
  scales : Nat := 0
  poisoned : Bool := false
  ewMin : Int := 0
  ewMax : Int := 0
  /-- WK and WN in exact mode (R111). -/
  wkExact : List Int := []
  wnExact : List Int := []
  /-- WK and WN in bounded mode, FP32 (R111). -/
  wkF : List Word := []
  wnF : List Word := []
  deriving DecidableEq, Repr

/-- A matrix instruction as the matrix queue holds it (R95, R98). -/
inductive MOp where
  | mcfg (sel : BitVec 2) (w : Word)
  | mld (addr : Nat) (q : Option Nat)
  | mswap
  | mmul (addr : Nat) (row0 count : Nat) (t z : Bool) (q : Option Nat)
  | mdrain (addr : Nat) (row0 count : Nat) (t c : Bool) (q : Option Nat)
  | mramp (level : Nat)
  deriving DecidableEq, Repr

/-- A queued matrix instruction: its place in program order, its index and its operation. -/
structure MEntry where
  num : Nat
  pc : BitVec 13
  op : MOp
  /-- The configuration word captured when it left the matrix queue (R96). -/
  cfg : Word
  /-- `mcfg` ELEMENT_BASE captured by `mdrain` (R96, R110). -/
  base : Word
  /-- TENSOR_ID in force when it issued (R144). -/
  tensor : Word
  /-- Rows already entered (mmul) or read (mdrain). -/
  pos : Nat
  /-- The other buffer of the pair is the active one for it: the parity of the swaps before it (R101). -/
  swapped : Bool
  deriving DecidableEq, Repr

/-- A row in the cells or the stager, awaiting its verdict or its accumulator update (R104, R117). -/
structure MRow where
  num : Nat
  index : Nat
  accRow : Nat
  t : Bool
  z : Bool
  swapped : Bool
  cfg : Word
  data : Nat
  scales : Nat
  /-- Attempts begun by a failed verdict, the first entry included (R117). -/
  attempts : Nat
  passed : Bool
  entered : Bool
  deriving DecidableEq, Repr

/-- The matrix array (R89, R98, R121, R122). -/
structure Matrix where
  /-- MCFG_FORMAT (R96). -/
  cfgFormat : Word := 0
  /-- MCFG_DRAIN (R96). -/
  cfgDrain : Word := 0
  /-- MCFG_ELEMENT_BASE (R96). -/
  cfgBase : Word := 0
  bufA : StatBuf := {}
  bufB : StatBuf := {}
  /-- Buffer B is the active one (R101). -/
  activeB : Bool := false
  /-- Accumulator entries by 64 * row + column (R89). -/
  acc : AMap (BitVec 48) := []
  /-- Matrix queue, oldest first, at most 8. -/
  queue : List MEntry := []
  /-- Array engine queue, at most 4. -/
  arrayQ : List MEntry := []
  /-- Load engine queue, at most 2. -/
  loadQ : List MEntry := []
  /-- Drain engine queue, at most 2. -/
  drainQ : List MEntry := []
  /-- Rows in the stager and the cells, oldest first. -/
  rows : List MRow := []
  /-- Accumulator rows read by a transposed drain in progress, in order (R109). -/
  drainBuf : List (List (BitVec 48)) := []
  /-- Bytes drained and not yet pushed (R92, R120). -/
  outBytes : List Byte := []
  /-- Bytes of popped items not yet used by a row, or by a load, each with its poison tag (R92, R93). -/
  inBytes : List (Byte × Bool) := []
  loadBytes : List (Byte × Bool) := []
  /-- The next number in program order. -/
  nextNum : Nat := 0
  /-- Swaps issued so far, modulo 2, at the head of the matrix queue. -/
  swapIssued : Bool := false
  /-- The `mmul` whose rows last began to update the accumulator, and the accumulator before it, for an `mmul` that is found to
  have no effect (R102). -/
  undo : Option (Nat × AMap (BitVec 48)) := none
  /-- The array stopped after a third failed attempt (R118). -/
  dead : Bool := false
  deriving DecidableEq, Repr

/-- Current smoothing (R121, R122, R123). -/
structure Ramp where
  level : Nat := 0
  target : Nat := 0
  /-- A real row waited in the present interval. -/
  waited : Bool := false
  /-- Level intervals since a real row last waited. -/
  idle : Nat := 0
  /-- The aligned window of 16 tile cycles last counted in, and the pass slots that real rows have used in it (R121). -/
  win : Nat := 0
  used : Nat := 0
  /-- The last real row since program entry, which dummy passes repeat (R123). -/
  last : Option MRow := none
  deriving DecidableEq, Repr

/-- A gather entry (R165, R166). -/
structure Gather where
  line : Nat
  mask : BitVec 64
  data : LineData
  deriving DecidableEq, Repr

/-- A line in the capture lane (R170): its TENSOR_ID, its byte offset within the descriptor's transfer, its normalised and its bin
address, and the line. -/
structure CapLine where
  op : BitVec 4
  tensor : Word
  pos : Nat
  norm : DWord
  binAddr : BitVec 18
  data : LineData
  deriving DecidableEq, Repr

/-! ### Flits -/

/-- A line of data with its poison bit. -/
structure Line where
  data : LineData
  poison : Bool
  deriving DecidableEq, Repr

/-- A wait edge a tile reports (R208): channel, waits for a credit, and the tile at the other end. -/
structure WaitEdge where
  ch : BitVec 5
  credit : Bool
  peer : Nat
  deriving DecidableEq, Repr

/-- Where a flit is: in the FIFO of a tile's port toward its router, in the input buffer of the router of a logical tile, in the
FIFO of the seam in front of such a buffer, in an escape slot of an input port of a physical router by its coordinates over the
package, or at its sink: the port FIFO toward the tile, or a granary port (R232, R241, R255, R256). -/
inductive FlitLoc where
  | port (x y : Nat)
  | router (x y : Nat) (inp : Port)
  | seam (x y : Nat) (inp : Port)
  | escape (x y : Nat) (inp : Port)
  | sink
  deriving DecidableEq, Repr

/-- A flit: the fields of its header and its payload, an item or up to two lines (R226, R227). Coordinates are those of the header:
y 62 and 63 are the granary ports. The address and length that a request names, the edges of a report and the number of flits of
a management packet stand beside the header (notes/assumptions/8.md). -/
structure Flit where
  cls : MClass
  ctx : BitVec 4
  op : BitVec 4
  dst : Coord
  src : Coord
  chan : BitVec 5 := 0
  seq : BitVec 16 := 0
  age : BitVec 8 := 0
  tag : BitVec 12 := 0
  aux : BitVec 16 := 0
  addr : DWord := 0
  len : Nat := 0
  lines : List Line := []
  item : Item := {}
  edges : List WaitEdge := []
  loc : FlitLoc := .sink
  /-- Place in the order of arrival at its buffer. -/
  stamp : Nat := 0
  /-- Mesh cycles waited at the present router (R241). -/
  waited : Nat := 0
  /-- Routed in fallback (R241). -/
  fallback : Bool := false
  /-- Resends in a row on the present link (R239). -/
  resends : Nat := 0
  /-- A bin-space read: flits of its reply already staged (R169). -/
  done : Nat := 0
  deriving DecidableEq, Repr

/-- A trace record in the capture lane and its place in the ring (R170, R172). -/
structure TraceRec where
  at_ : DWord
  word : BitVec 128
  deriving DecidableEq, Repr

/-- A bin and its sheaf buffer (R157, R158, R165, R176, R181). Bytes are kept by physical byte address. -/
structure Bin where
  /-- Data bytes (R157). -/
  data : List Host.Cell := []
  /-- Byte addresses whose parity bit is wrong (R158, R173). -/
  badParity : List Nat := []
  /-- Lines whose first poison tag copy is set (R158). -/
  tagA : List Nat := []
  /-- Lines whose second poison tag copy is set (R158). -/
  tagB : List Nat := []
  /-- Gated banks (R181). -/
  gated : BitVec 8 := 0
  /-- Gather entries, least recently allocated first; one with an empty mask is not pending, and entries never allocated since the
  last zero-fill are not listed (R166). -/
  gather : List Gather := []
  /-- Next line of the scrubber (R176). -/
  scrubPtr : Nat := 0
  /-- Staging entries that hold lines on their way out, as the flits that will carry them, oldest first; 16 lines at most (R165,
  R169). -/
  staging : List Flit := []
  /-- Lines in the capture lane, oldest first (R165, R170). -/
  capture : List CapLine := []
  /-- Trace records in the capture lane, oldest first (R170, R172). -/
  trace : List TraceRec := []
  deriving DecidableEq, Repr

/-- The counters and digests of one tensor (R138, R400, R405). -/
structure TallyEnt where
  tensor : Word
  coldStart : Bool := false
  delayed : Bool := false
  lines : Nat := 0
  viewLines : Nat := 0
  digest : BitVec 128 := 0
  viewDigest : BitVec 128 := 0
  nonzero : Nat := 0
  flush : Nat := 0
  saturate : Nat := 0
  nanInf : Nat := 0
  scaleClamp : Nat := 0
  expMin : Option Int := none
  expMax : Option Int := none
  deriving DecidableEq, Repr

/-- A declared delayed-scaling tensor at a tile (R148, R149): the largest amax of its history as FP32, none in cold start;
the running amax of the step, as FP32; and whether its exponent was clamped in the step. -/
structure DelayEnt where
  tensor : Word
  hist : Option Word
  amax : Word
  clamped : Bool := false
  deriving DecidableEq, Repr

/-- One logical tile: all the state that moves with it (R44, R89, R148, R188, R222), and its engines. -/
structure Tile where
  core : Core := {}
  dma : Dma := {}
  /-- Handle table (R159). -/
  handles : AMap DWord := []
  /-- Channel table (R187). -/
  chans : AMap DWord := []
  chst : AMap ChanSt := []
  /-- Steering entries (R194). -/
  steer : AMap DWord := []
  units : AMap SteerUnit := []
  mx : Matrix := {}
  ramp : Ramp := {}
  bin : Bin := {}
  /-- Tally table of the digest engine (R405). -/
  tally : List TallyEnt := []
  /-- Delayed-scaling table (R148). -/
  delays : List DelayEnt := []
  /-- The tile has sent a blocked report and has not moved an item since (R208). -/
  reported : Bool := false
  /-- An unblocked report waits for room at the tile port (R208, R255). -/
  unreport : Bool := false
  /-- Credits to return that no flit carries yet: by 4 * (32 * key of the tile they go to + channel) + 0 forward, 1 collective or 2
  for the credit of a message (R74, R190, R251). -/
  owed : AMap Nat := []
  /-- Transactions of the spill engine, by tag, two at most (R211). -/
  spill : AMap SpillTxn := []
  /-- The present gap between fallow points has been counted as late (R223). -/
  gapLate : Bool := false
  /-- The section load of the tile is complete (R203). -/
  loaded : Bool := false
  /-- The physical position a move ordered for this tile will take (R81, R333). -/
  moveTo : Option Nat := none
  /-- Progress of the move: 0 none begun, 1 quiescent and copying, 2 copied (R335). -/
  moveStage : Nat := 0
  /-- Steward time of the last fallow point (R223). -/
  lastFallow : Nat := 0
  deriving DecidableEq, Repr

/-! ### Mesh -/

/-- A circuit entry of a router (R246). -/
structure CircuitEnt where
  inp : Port
  mask : BitVec 5
  enabled : Bool
  deriving DecidableEq, Repr

/-- A contribution waiting at an input of a reduction entry (R250, R251). -/
structure Staged where
  seq : BitVec 16
  item : Item
  deriving DecidableEq, Repr

/-- The mesh: flits in flight, routers' reduction and circuit entries, throttles, failed links (R226 to R258). -/
structure Mesh where
  flits : AMap Flit := []
  nextFlit : Nat := 0
  /-- The next place in the order of arrival at buffers. -/
  nextStamp : Nat := 0
  /-- The class last served by an output, by 8 * tile key + port (R234). -/
  served : AMap Nat := []
  /-- The input last served by an output in a class, by 8 * (8 * tile key + port) + class (R234). -/
  turns : AMap Nat := []
  /-- Root cycles at which an output sent a circuit flit in the last 8 mesh cycles, by 8 * tile key + port (R234). -/
  circuitSends : AMap (List Nat) := []
  /-- Root cycle of the last injection of a tile under the throttle, by 8 * tile key + class (R237). -/
  injected : AMap Nat := []
  /-- Reduction entries by 32 * tile key + entry (R248). -/
  reduce : AMap DWord := []
  /-- Staging by 8 * (32 * tile key + entry) + input (R251). -/
  staging : AMap (List Staged) := []
  /-- Credits returned by each branch of a BCAST entry, by 8 * (32 * tile key + entry) + port (R252). -/
  branch : AMap Nat := []
  /-- Circuit entries by 8 * tile key + number (R246). -/
  circuits : AMap CircuitEnt := []
  /-- Tiles whose injection is throttled, by 8 * tile key + class (R237). -/
  throttled : List Nat := []
  /-- Failed mesh links (R239). -/
  failed : List MeshLink := []
  /-- Root cycles of the resends of the last 2,400,000 mesh cycles on each link, by 8 * key of its end + port (R239). -/
  linkResends : AMap (List Nat) := []
  /-- Escape tables are loaded and fallback routing is in force (R240, R241). -/
  escape : Bool := false
  deriving DecidableEq, Repr

/-! ### Granaries -/

/-- What a granary works on (R275, R306, R309). -/
inductive TxnKind where
  | readLocal | writeLocal | readRemote | writeRemote | inboundRead | inboundWrite | collCopy
  deriving DecidableEq, Repr

/-- A transaction-table entry or an inbound entry (R275, R309, R379, R380). -/
structure Txn where
  kind : TxnKind
  ctx : BitVec 4
  epoch : BitVec 8
  north : Bool
  /-- The requesting tile, or the link's packet. -/
  src : Coord
  tag : BitVec 12
  addr : DWord
  len : Nat
  /-- Lines read, or lines to write once all their flits have come. -/
  lines : List Line
  /-- Lines already handled. -/
  done : Nat
  /-- Place in the order of acceptance (R263). -/
  order : Nat
  packet : Option Packet
  link : Nat
  /-- Flits of the transaction that have come, by index (R71, R227). -/
  parts : AMap (List Line) := []
  /-- A write of part of one line, a trace record or spilled items: its first byte in the line and its length (R172, R210). -/
  part : Option (Nat × Nat) := none
  /-- Refused: it ends in an error reply (R308). -/
  bad : Bool := false
  /-- The OP of the reply that is leaving, and the flits of it, or of the request to a bin, that have left (R275, R309). -/
  reply : Option (BitVec 4) := none
  sent : Nat := 0
  /-- Time from which the deadline counts (R380). -/
  since : Nat := 0
  deriving DecidableEq, Repr

/-- A stripe (R271). -/
structure Stripe where
  state : BitVec 2 := 0
  retiredPos : BitVec 4 := 0
  lostPos : BitVec 4 := 0
  /-- On-die ECC corrections reported; ODECC shows units of 2^16. -/
  odecc : Nat := 0
  recon : Nat := 0
  uncorr : Nat := 0
  /-- The first poisoned delivery after the loss has been logged (R270). -/
  logged : Bool := false
  deriving DecidableEq, Repr

/-- A page being copied for the write view: the write that waits for it (R279). -/
structure PageCopy where
  ctx : BitVec 4
  page : Nat
  txn : Option Nat
  deriving DecidableEq, Repr

/-- Main memory and the two granaries (R259 to R287). -/
structure Mem where
  /-- Bytes of physical memory by local offset (R261). -/
  data : List Host.Cell := []
  /-- Lines stored with their poison bits set (R260, R284). -/
  poison : List Nat := []
  /-- Transaction tables of both granaries and inbound tables (R275, R309). -/
  txns : AMap Txn := []
  stripes : AMap Stripe := []
  /-- Retired channels (R267). -/
  retired : List Nat := []
  /-- Times of reads that failed both attempts, newest first, by channel (R267). -/
  fails : AMap (List Nat) := []
  /-- Times of the command/address parity errors of the last 1 ms, newest first, by channel (R267). -/
  caErrs : AMap (List Nat) := []
  /-- Channels that have met a retirement condition and are not yet retired (R267, R268). -/
  due : List Nat := []
  /-- Next place in the order of acceptance. -/
  nextOrder : Nat := 0
  /-- MEM_POISON_LOG, newest first (R286). -/
  log : List DWord := []
  copies : List PageCopy := []
  /-- Channels are in self-refresh for a root change (R259, R435). -/
  selfRefresh : Bool := false
  /-- Next row of the scrub, by stripe (R272). -/
  scrubRow : AMap Nat := []
  deriving DecidableEq, Repr

/-! ### Links -/

/-- A packet waiting at a link transmitter (R298, R314, R315): it enters a ring dimension there, or continues along it; it goes the
other way round a ring; and the link input whose buffer it holds, 32 for this module's own granary. -/
structure Queued where
  pk : Packet
  enters : Bool
  fallback : Bool := false
  inp : Nat := 32
  deriving DecidableEq, Repr

/-- A data frame kept for replay (R296). -/
structure TxFrame where
  seq : BitVec 12
  cls : MClass
  /-- Packets that end in the frame. -/
  packets : List Queued
  units : Nat
  poison : BitVec 4
  deriving DecidableEq, Repr

/-- The frame on the wire (R293, R294): its wavelength, none for a control frame, its header, the lane-down mark that goes with a NAK
(R300), and the packets that end in it. -/
structure WireFrame where
  wave : Option Nat
  head : BitVec 96
  down : Option (BitVec 3)
  packets : List Packet
  deriving DecidableEq, Repr

/-- A change of a lane map named in advance (R291, R300): from a SEQ a spare takes the place of a failed wavelength, and a number of
wavelengths is left. -/
structure MapChange where
  seq : BitVec 12
  spare : Option (Nat × Nat)
  count : Nat
  deriving DecidableEq, Repr

/-- One optical link (R289 to R301, R324). Direction order: transmit, receive. -/
structure Link where
  /-- STATE of LINK_STATUS (R324); 0b100 unused. -/
  state : BitVec 3 := 4
  /-- Lane map: active wavelengths in order, transmit (R294). -/
  mapTx : List Nat := []
  /-- Lane map of the receive direction. -/
  mapRx : List Nat := []
  /-- Failed wavelengths, transmit and receive (R299, R324). -/
  failedTx : BitVec 8 := 0
  failedRx : BitVec 8 := 0
  /-- Failed electrical lanes, transmit and receive (R291). -/
  lanesTx : BitVec 8 := 0
  lanesRx : BitVec 8 := 0
  latency : BitVec 14 := 0
  resends : Nat := 0
  uncorr : Nat := 0
  seqTx : BitVec 12 := 0
  seqRx : BitVec 12 := 0
  /-- Replay buffer, oldest first (R296). -/
  replay : List TxFrame := []
  /-- Frames to be resent, oldest first (R295, R297). -/
  resend : List TxFrame := []
  /-- A NAK was asked for and no resend has arrived (R295). -/
  nakked : Bool := false
  /-- The next frame carries NAK, and a lane-down mark for a withdrawn wavelength (R295, R300). -/
  nakDue : Bool := false
  markDue : Option (BitVec 3) := none
  /-- A NAK was received with this ACK (R295). -/
  nakAt : Option (BitVec 12) := none
  /-- The last frame sent. -/
  wire : Option WireFrame := none
  /-- Packets in the buffers of this link input that wait for their sink in this module (R298, R309). -/
  inq : List Packet := []
  /-- Poison marks of the units received of the unfinished packet of each class, by class number (R293, R307). -/
  inPart : AMap (List Bool) := []
  /-- Units of buffer to be returned, by class number (R298). -/
  owe : AMap Nat := []
  /-- Units in the far end's buffers, by class number: job and units of each packet, oldest first (R298, R311). -/
  flight : AMap (List (Nat × Nat)) := []
  /-- The input served last among packets of equal AGE, by class number (R315). -/
  turn : AMap Nat := []
  /-- Times of the uncorrectable codewords of the last 1 ms, by wavelength (R299). -/
  badWords : AMap (List Nat) := []
  /-- Wavelengths withdrawn at this receiver whose spare is not yet named (R300). -/
  gone : List Nat := []
  /-- Packets waiting to be sent, in order (R297). -/
  outq : List Queued := []
  /-- 16 B units of the first packet of each class already placed in frames, by class number (R293). -/
  part : AMap Nat := []
  /-- The last ACK sent (R296). -/
  ackTx : BitVec 12 := 0
  /-- The class served last, for rotation (R297). -/
  lastCls : Nat := 0
  /-- Credits held per class, in 16 B units, by class number (R298). -/
  credits : AMap Nat := []
  /-- Lane-map changes named in advance, in order (R291, R300). -/
  pendTx : List MapChange := []
  pendRx : List MapChange := []
  deriving DecidableEq, Repr

/-- A received recovery hold: job and the steward time of the last renewal (R386). -/
structure Hold where
  job : BitVec 16
  at_ : Nat
  deriving DecidableEq, Repr

/-- A collective in progress at this module (R317, R318). -/
structure Coll where
  ctx : BitVec 4
  entry : BitVec 6
  /-- DST is copied from the donor of an admission instead (R322). -/
  replay : Bool
  /-- Time from which the next chunk is awaited (R382). -/
  heard : Nat := 0
  /-- Arrivals handled, by their keys. -/
  seen : List Nat
  /-- Results of a stage that are the input of the next, by stage and piece (R318). -/
  work : AMap (BitVec 8192)
  /-- Contributions of tree children that arrived before an earlier one, by piece and child (R318). -/
  staged : AMap (BitVec 8192)
  /-- Pages of DST still to be requested from another member, and that member (R275, R322, R386). -/
  copyLeft : List Nat
  copyFrom : Nat
  deriving DecidableEq, Repr

/-- Links, collectives, holds, cross-module barriers and admission (R288 to R325, R386). -/
structure Hall where
  links : AMap Link := []
  holds : List Hold := []
  colls : List Coll := []
  /-- Children whose hall-barrier arrive has been received, by context (R316). -/
  arrives : AMap (List Nat) := []
  /-- Contexts whose own barrier has arrived and awaits the release (R316). -/
  waiting : List Nat := []
  /-- Time from which that release is awaited, by context (R316). -/
  waitSince : AMap Nat := []
  /-- The donor slot learned by the handshake, and the 4 KiB pieces of the versioned range requested so far (R322). -/
  admSlot : Option Nat := none
  admNext : Nat := 0
  /-- Time at which the donor was last heard (R323). -/
  admHeard : Nat := 0
  /-- ADMISSION STATE and CAUSE, context, donor and JOIN_STEP in force (R321). -/
  admState : BitVec 4 := 0
  admCause : BitVec 4 := 0
  admCtx : BitVec 4 := 0
  admDonor : BitVec 20 := 0
  admStep : DWord := 0
  deriving DecidableEq, Repr

/-! ### Contexts -/

/-- A collective entry of an image (R539). -/
structure CollEnt where
  op : BitVec 8
  kind : BitVec 8
  dims : BitVec 8
  source : BitVec 20
  startSec : Nat
  waitSec : Nat
  src : Nat
  dst : Nat
  bytes : Nat
  deriving DecidableEq, Repr

/-- A declared tensor (R539): id, first section, delayed. -/
structure TensorDecl where
  id : Word
  first : Nat
  delayed : Bool
  deriving DecidableEq, Repr

/-- What a context captured when it was created (R454). -/
structure CtxDef where
  px0 : Nat
  px1 : Nat
  py0 : Nat
  py1 : Nat
  /-- Memory ranges by index: base and length in bytes (R273). -/
  ranges : List (Nat × Nat)
  /-- Entries reserved in each granary (R275). -/
  share : Nat
  /-- Version storage base and W in bytes, and N slots (R278). -/
  verBase : Nat
  verW : Nat
  slots : Nat
  /-- Link allocation word (R311). -/
  link : DWord
  /-- Tally ring base and slots (R411). -/
  tallyBase : Nat
  tallySlots : Nat
  seed : DWord
  firstStep : DWord
  /-- Image place and length, its digest, and what its header declares (R538). -/
  imgBase : Nat
  imgLen : Nat
  imgDigest : BitVec 256
  sections : Nat
  spillBase : Nat
  spillSize : Nat
  scaleBase : Nat
  admissible : Bool
  cluster : Bool
  tensors : List TensorDecl
  colls : List CollEnt
  /-- Reduction tables of section 0, as they were given with the image (R248, notes/assumptions/10.md). -/
  reds : List (Nat × List DWord)
  deriving DecidableEq, Repr

/-- Where a context stands in a step and its boundary (R36, R202, R280, R409, R429). -/
inductive Phase where
  | running
  /-- A section has ended and the next is being loaded (R203). -/
  | loading
  /-- Every tile has executed `stepend`; writes and copies are completing (R280). -/
  | boundary
  /-- The version is committed; the record is not sealed (R409). -/
  | committed
  /-- The record is sealed; the next step has not begun (R429). -/
  | sealed_
  deriving DecidableEq, Repr

/-- The running state of a context. -/
structure CtxRun where
  phase : Phase := .loading
  section_ : Nat := 0
  step : DWord := 0
  /-- Pages of the versioned range whose written bit is set (R279). -/
  written : List Nat := []
  /-- Pages still to be copied at the boundary (R280). -/
  toCopy : List Nat := []
  /-- CONTEXT_PAUSE REQUEST and STATE (R215). -/
  pauseReq : Bool := false
  pauseState : BitVec 2 := 0
  /-- The count of `slow` at the pause request, and that its lateness has been reported (R217). -/
  pauseAt : Nat := 0
  pauseLate : Bool := false
  /-- Tiles whose barrier arrive has been counted (R244). -/
  arrived : List Nat := []
  /-- The first of the two circuit numbers over which the present section is being loaded (R247). -/
  loadCircuit : Option Nat := none
  /-- The release has begun its way down the barrier tree, and the tiles it has reached (R244). -/
  releasing : Bool := false
  heard : List Nat := []
  /-- The release has reached every tile (R244). -/
  released : Bool := false
  /-- The configuration generation the step runs under (R460), and the adopted context-scoped entries. -/
  gen : Word := 0
  numerics : Word := 0x00010000
  tallyCfg : Word := 0x81000000
  focus : DWord := 0
  traceCtl : Word := 0x00140000
  traceBase : DWord := 0
  trips : List (DWord × Word) := []
  /-- Next record of the trace ring, in bytes (R172). -/
  tracePos : Nat := 0
  /-- Run counts of the eight trips (R417). -/
  tripRuns : AMap Nat := []
  /-- HISTORY_LEN changed: every history is empty at the next step (R153). -/
  histClear : Bool := false
  /-- The first tile exception of the step has been recorded (R84). -/
  excSeen : Bool := false
  deriving DecidableEq, Repr

/-- Recovery state of a context (R368, R370, R386, R393). -/
structure CtxRec where
  state : BitVec 3 := 1
  cause : BitVec 5 := 0
  /-- Times of resets on the steward time base, newest first (R393). -/
  resets : List Nat := []
  total : Nat := 0
  late : Nat := 0
  stale : Nat := 0
  /-- Engines that have completed their part of the present reset (R373). -/
  stopDone : List StopEngine := []
  /-- Target of the recovery in progress; none is the newest committed version (R384). -/
  target : Option DWord := none
  /-- A rollback target older than NEWEST left pending by a stop (R396). -/
  pending : Option DWord := none
  /-- The recovery ends in a restart. -/
  recovering : Bool := false
  /-- Logical tiles to be remapped before the restart (R351). -/
  remap : List Nat := []
  /-- Steward time at which the interruption began, and at the end of each phase (R389, R392). -/
  began : Nat := 0
  marks : List Nat := []
  /-- Wait edges reported, by tile key (R209). -/
  edges : AMap (List WaitEdge) := []
  /-- Reports that have reached the wait-graph engine and that it has not yet taken, oldest first (R208, R243). -/
  reports : List (Nat × List WaitEdge) := []
  /-- A closed wait cycle under a hang window, in reporting order (R370), and when the window began in the count of `slow`. -/
  hang : Option (List Nat) := none
  hangAt : Nat := 0
  /-- Tile cycles of the slowest quarter that the context occupies (R20). -/
  slow : Nat := 0
  /-- What the stall window last saw of the context's activity, and the count of `slow` from which it counts (R372). -/
  mark : List Nat := []
  activeAt : Nat := 0
  /-- Recovery hold: begun at this time (R386). -/
  holdSince : Option Nat := none
  /-- A restart waits for the epoch's TXN_REMOTE (R379). -/
  epochWait : Bool := false
  /-- The context is being ended (R454). -/
  ending : Bool := false
  /-- Step boundary time of each kept version, newest first (R341). -/
  commits : List (DWord × Nat) := []
  /-- An admission was aborted: no step of the job begins until a later one succeeds or slot 0 is loaded (R323). -/
  barred : Bool := false
  deriving DecidableEq, Repr

/-- A fault entry of the tally (R401): time, kind, attempt, detail, and the step it belongs to. -/
structure FaultEnt where
  time : Nat
  kind : BitVec 8
  attempt : BitVec 8
  detail : DWord
  step : DWord
  deriving DecidableEq, Repr

/-- A sealed record (R399, R413). -/
structure SealRec where
  slot : Nat
  step : DWord
  attempt : Nat
  acked : Bool
  digest : BitVec 256
  deriving DecidableEq, Repr

/-- The tally of a context (R398 to R417). -/
structure CtxTally where
  /-- Slot of the record being built (R410, R414). -/
  slot : Nat := 0
  entries : List TallyEnt := []
  bounded : Nat := 0
  unchecked : Nat := 0
  retries : Nat := 0
  late : Nat := 0
  stale : Nat := 0
  spills : Nat := 0
  fallowLate : Nat := 0
  spillItems : Nat := 0
  startUs : Option Nat := none
  faults : List FaultEnt := []
  /-- Fault entries dropped, by step number (R401). -/
  dropped : List (DWord × Nat) := []
  /-- Sealed records in the ring, oldest first. -/
  recs : List SealRec := []
  /-- Times each step number has sealed (R398). -/
  sealedCounts : List (DWord × Nat) := []
  /-- Attempts of each step number so far, and the time of its first issue (R398, R399). -/
  attempts : List (DWord × Nat) := []
  starts : List (DWord × Nat) := []
  /-- Unacknowledged records overwritten (R413). -/
  overwritten : Nat := 0
  /-- Step of the newest acknowledged record (R415). -/
  ackedStep : Option DWord := none
  /-- Focus sums (R407). -/
  focus : AMap (BitVec 128) := []
  damaged : Option Nat := none
  deriving DecidableEq, Repr

/-- A live context (R32). -/
structure Ctx where
  cdef : CtxDef
  run : CtxRun := {}
  rec_ : CtxRec := {}
  tally : CtxTally := {}
  deriving DecidableEq, Repr

/-! ### Gleaners, gazetteer and failure signatures -/

/-- States of a physical tile (R345). The two fenced states of R358 are kept apart. -/
inductive Fence where
  | spare | logical | gap | marginal | probation | fenced | factory
  deriving DecidableEq, Repr

/-- A physical tile (R343, R345, R346). -/
structure Phys where
  fence : Fence := .spare
  /-- A MARGINAL tile placed as logical or gap keeps its mark (R345). -/
  marginal : Bool := false
  score : Nat := 0
  /-- Steward time of probation entry, and times entered (R346, R358). -/
  probAt : Nat := 0
  probCount : Nat := 0
  /-- A directed test is ordered (R343). -/
  directed : Bool := false
  /-- The delay of R346 has passed. -/
  retestDue : Bool := false
  /-- Results of the retests done so far: nominal, then the low corner (R346). -/
  corners : List TestResult := []
  /-- Time of the last halving of the score (R343). -/
  halvedAt : Nat := 0
  /-- Held in probation by a fence storm (R347). -/
  stormHeld : Bool := false
  /-- Times of the last clean test (R339), and logical tiles held since, with their contexts (R341). -/
  cleanAt : Nat := 0
  used : List (Nat × Option (BitVec 4)) := []
  /-- Last logical coordinate held in the window, for signatures (R360). -/
  lastLogical : Option Nat := none
  /-- Tile firmware report of the present round and rounds done (R492, R493). -/
  fwReport : Option (BitVec 18) := none
  /-- Context and step number of its last bin parity error (R175). -/
  parityAt : Option (Nat × DWord) := none
  /-- Firmware region of its instruction memory, indices 0 to 1,023, as the chunks 1 to 16 of R491 (R44, R79, R492). -/
  imem : AMap (BitVec 2048) := []
  deriving DecidableEq, Repr

/-- A physical row's gap and sweep (R332, R333). -/
structure RowGap where
  /-- Position of the gap in the row, if the row has one (R355). -/
  gap : Option Nat := none
  /-- Sweep west. -/
  west : Bool := false
  /-- The gap's test of this slot has passed, or has run (R333). -/
  tested : Bool := false
  /-- The move ordered: logical tile key. -/
  move : Option Nat := none
  /-- A directed test has turned the sweep, and the gap jumps once its own test is complete (R336, R350). -/
  jumps : Bool := false
  deriving DecidableEq, Repr

/-- Per-die fencing state (R347, R348). -/
structure DieFence where
  /-- Times of FENCED transitions, newest first, and their tiles (R347). -/
  fences : List (Nat × Nat) := []
  storm : Bool := false
  low : Bool := false
  /-- Tiles under test by the four background engines, and the next one of their list, as a tile of the die (R331). -/
  bg : List Nat := []
  bgNext : Nat := 0
  /-- The tile that its header switch connects to the test rail, and the rail's setting in percent of nominal (R328, R346). -/
  retest : Option Nat := none
  rail : Int := 0
  deriving DecidableEq, Repr

/-- The gazetteer's contents besides the tile states, which the physical tiles give when it is written (R358). -/
structure GazCopy where
  valid : Bool := false
  seq : Nat := 0
  gridSelect : BitVec 2 := 0
  tiles : AMap (BitVec 4) := []
  /-- Row bindings by 48 * die + logical row, full and trimmed grid (R358). -/
  rowsFull : AMap Nat := []
  rowsTrim : AMap Nat := []
  /-- Trimmed window start by 2 * die + half. -/
  window : AMap Nat := []
  retired : List Nat := []
  /-- Failed wavelengths by link (R300). -/
  failedWl : AMap (BitVec 8) := []
  links : List MeshLink := []
  /-- Probation entry time and count, by tile (R358). -/
  probation : AMap (BitVec 16) := []
  /-- Good spares at final test, West and East (R4). -/
  sparesW : Nat := 0
  sparesE : Nat := 0
  deriving DecidableEq, Repr

/-- A failure signature record: its sequence number and its CBOR bytes (R360). -/
structure FsrRec where
  seq : Nat
  bytes : List Byte
  deriving DecidableEq, Repr

/-- The gleaners and the steward's gleaner master (R326 to R365). -/
structure Gleaner where
  phys : AMap Phys := []
  /-- Row gaps by 50 * die + physical row. -/
  rows : AMap RowGap := []
  dies : AMap DieFence := []
  /-- Remap table: physical index by logical tile key (R27). -/
  bind : AMap Nat := []
  /-- Physical row of each logical row, by 48 * die + y (R27). -/
  rowBind : AMap Nat := []
  /-- Trimmed window start by 2 * die + half (R354). -/
  window : AMap Nat := []
  /-- Trimmed grid in force (R364). -/
  trimmed : Bool := false
  trimOffered : Bool := false
  rebind : Bool := false
  /-- Time at which the last slot was served (R333). -/
  slotAt : Nat := 0
  linkUnrepaired : Bool := false
  /-- Plots made unavailable (R355). -/
  plots : List Nat := []
  /-- GRID_SELECT (R356). -/
  gridSelect : BitVec 2 := 0
  gazA : GazCopy := {}
  gazB : GazCopy := {}
  /-- A decision waits to be written (R359). -/
  gazDirty : Bool := false
  /-- Failure signature ring, oldest first (R361), next seq and drops. -/
  fsr : List FsrRec := []
  fsrSeq : Nat := 1
  fsrDropped : Nat := 0
  /-- Good spares at final test (R358, R6). -/
  sparesW : Nat := 0
  sparesE : Nat := 0
  deriving DecidableEq, Repr

/-! ### Steward -/

/-- The events of the module, by the names the rules give them (R428). -/
inductive Ev where
  | tileException
  | witnessPersistent
  | binParity
  | contextPaused
  | contextPauseLate
  | meshLinkFailed
  | memChannelRetired
  | stripeLost
  | memUncorrectable
  | versionRecordLost
  | linkLaneFailed
  | linkDegraded
  | linkDown
  | wavelengthSpared
  | linkMiswired
  | barrierTimeout
  | collectivePoison
  | admissionDone
  | admissionAborted
  | tileProbation
  | tileFenced
  | tileReturned
  | faultWindow
  | noCleanVersion
  | recoveryRemapSlow
  | fenceStorm
  | fenceStormCleared
  | reserveLow
  | rowExhausted
  | plotUnavailable
  | trimOffered
  | gridUnplaceable
  | meshLinkUnrepaired
  | contextHung
  | contextStalled
  | contextResetDone
  | contextRecovered
  | contextQuarantined
  | rollbackRequired
  | txnTimeout
  | collectiveTimeout
  | recoveryBudgetExceeded
  | moduleOutOfService
  | tallyTrip
  | meridianDegraded
  | meridianRestored
  | meridianDown
  | meridianRestart
  | clockHoldover
  | clockCoast
  | clockRelocked
  | fieldCableFault
  | fieldCableCleared
  | bringupStageDone
  | bringupFailed
  | configDefaulted
  | fwSlotFallback
  | fwTrialFailed
  | powerFailRecorded
  | secOtpFault
  | watchdogReset
  | tileFwFailed
  | fwProgramDone
  | secKeyInstalled
  | secKeyRevoked
  | debugUnlocked
  | attestDone
  | rollbackCommitted
  | inputOutOfRange
  | powerLimited
  | railFault
  | coolantThrottle
  | coolantShed
  | coolantShedCleared
  | thermalTrip
  deriving DecidableEq, Repr

/-- An event of the ring (R428): its number, its name, its time and the values its rule names, in that order. -/
structure Event where
  seq : BitVec 32
  name : Ev
  time : DWord
  data : List (BitVec 64)
  deriving DecidableEq, Repr

/-- A response sent (R424, R425). -/
structure Resp where
  ty : BitVec 8
  status : BitVec 8
  tag : BitVec 16
  arg : BitVec 179
  payload : List Byte
  deriving DecidableEq, Repr

/-- A message from the control node apart from its header (R425): a dictionary read or write, with the reduction tables of an
image where the write creates a context; a bulk access, with what its line reads meet; a step epoch; or a message of a type that
is refused. -/
inductive Msg where
  | read (idx sub off : Nat)
  | write (idx sub off : Nat) (data : List Byte) (reds : List (Nat × List DWord))
  | bulkRead (addr len : Nat) (errs : List LineCheck)
  | bulkWrite (addr : Nat) (data : List Byte) (errs : List LineCheck)
  | epoch (step : Nat) (sel : Bool) (who : Nat)
  | other (ty : BitVec 8)
  deriving DecidableEq, Repr

/-- A Meridian data frame kept for replay (R423). -/
structure MerFrame where
  seq : BitVec 12
  units : BitVec 5
  deriving DecidableEq, Repr

/-- A Meridian frame sent: its header, and for a data frame whether its lane is M1 (R422, R423). -/
structure MerWire where
  lane : Option Bool
  head : BitVec 96
  deriving DecidableEq, Repr

/-- The Meridian port (R421 to R431, R442). -/
structure Meridian where
  /-- Port brought up by S2 (R474). -/
  enabled : Bool := false
  rxM0 : Bool := false
  rxM1 : Bool := false
  txM0 : Bool := false
  txM1 : Bool := false
  /-- Lane switches named in advance, of the transmitter and of the far end's: lanes and SEQ (R422, R430). -/
  switchTx : Option (BitVec 2 × BitVec 12) := none
  switchRx : Option (BitVec 2 × BitVec 12) := none
  /-- Times of the uncorrectable codewords of the last 1 ms on each receive lane (R430). -/
  bad0 : List Nat := []
  bad1 : List Nat := []
  resends : Nat := 0
  uncorr : Nat := 0
  seqTx : BitVec 12 := 0
  seqRx : BitVec 12 := 0
  /-- The last ACK sent (R423). -/
  ackTx : BitVec 12 := 0
  replay : List MerFrame := []
  /-- Units of messages that wait for a frame (R423). -/
  outUnits : Nat := 0
  /-- Units of the inbound message buffer to be returned as CREDITS (R422, R423). -/
  owe : Nat := 0
  nakked : Bool := false
  /-- The next frame carries NAK, and LANE_DOWN with it (R422, R430). -/
  nakDue : Bool := false
  downDue : Bool := false
  /-- The far end asked for a resend, and told of a lane it withdrew (R423, R430). -/
  nakAt : Option (BitVec 12) := none
  downHeard : Bool := false
  /-- The frame sent last. -/
  wire : Option MerWire := none
  /-- Next MSG_SEQ expected (R426). -/
  msgSeq : BitVec 32 := 0
  /-- Responses sent, oldest first (R426). -/
  responses : List Resp := []
  /-- Number of the next message from the module (R424). -/
  outSeq : BitVec 32 := 0
  /-- Credits of the outgoing direction, in 16 B units (R423). -/
  credits : Nat := 4096
  /-- Messages that wait behind one that cannot yet take effect (R426). -/
  held : List (MsgHdr × Msg) := []
  /-- A message is waiting to take effect (R426): its header. -/
  blocking : Option MsgHdr := none
  deriving DecidableEq, Repr

/-- The event ring (R428). -/
structure EventRing where
  ring : List Event := []
  next : BitVec 32 := 0
  /-- Events not yet delivered on Meridian, as a count of the newest. -/
  undelivered : Nat := 0
  dropped : Nat := 0
  deriving DecidableEq, Repr

/-- A flash copy of a configuration set (R473). -/
structure SetCopy where
  valid : Bool := false
  gen : Word := 0
  /-- RWS values by 256 * index + subindex where they differ from the default. -/
  vals : AMap DWord := []
  deriving DecidableEq, Repr

/-- A swap in progress (R459). -/
structure Swap where
  vals : AMap DWord
  hdr : MsgHdr
  deriving DecidableEq, Repr

/-- The object dictionary (R445 to R462). Entries by 256 * index + subindex. -/
structure Dict where
  /-- RW entries that differ from their default. -/
  rw : AMap DWord := []
  active : AMap DWord := []
  shadow : AMap DWord := []
  /-- Values in force of entries that take effect at the first step boundary, once adopted (R460). -/
  inForce : AMap DWord := []
  activeGen : Word := 0
  state : BitVec 2 := 0
  lastResult : BitVec 8 := 0
  prevUsers : BitVec 16 := 0
  /-- Entries that take effect at the first step boundary have been adopted (R460). -/
  adopted : Bool := true
  swap : Option Swap := none
  /-- A SAVE in progress (R543). -/
  save : Option MsgHdr := none
  /-- Flash copies: active 0 and 1, and shadow (R472, R473). -/
  copy0 : SetCopy := {}
  copy1 : SetCopy := {}
  copyS : SetCopy := {}
  /-- The active copy not in force is erased (R459). -/
  erased : Bool := true
  /-- LAST_ERROR of control, field and steward (R449). -/
  err0 : DWord := 0
  err1 : DWord := 0
  err2 : DWord := 0
  /-- DOMAIN writes in progress: the bytes so far, by entry key (R450). -/
  partial_ : AMap (List Byte) := []
  deriving DecidableEq, Repr

/-- A request of the field port that waits for S1: its tag, whether it writes, and its entry and offset (R465, R466). -/
structure FieldReq where
  tag : BitVec 16
  write : Bool
  idx : Nat
  sub : Nat
  off : Nat
  deriving DecidableEq, Repr

/-- The field port (R463 to R470). -/
structure Field where
  /-- The port is up: brought up by S1, its rail on (R474, R522). -/
  up : Bool := false
  cable : BitVec 3 := 0
  reversed : Bool := false
  distance : BitVec 8 := 0xFF
  dcLevel : BitVec 8 := 0
  rxDropped : Nat := 0
  faults : Nat := 0
  /-- Transmitter on, and the time from which the 1 s to its next retry or to its return counts (R469). -/
  tx : Bool := true
  txAt : Nat := 0
  /-- Time until which the port is silent after a restart (R468). -/
  silentUntil : Nat := 0
  /-- Time of the module's last heartbeat (R467). -/
  hbAt : Option Nat := none
  /-- Field manager: source address and the time of its last HEARTBEAT (R467). -/
  manager : Option (BitVec 128 × Nat) := none
  /-- Requests waiting, at most 8 (R466). -/
  queue : List FieldReq := []
  /-- Responses, heartbeats and events sent, oldest first: type, status, tag, entry, offset, payload (R465). -/
  sent : List (BitVec 128 × List Byte) := []
  hbSeq : BitVec 32 := 0
  /-- EVENT_SEQ of the next event to be sent on the field port (R467). -/
  nextEvent : BitVec 32 := 0
  deriving DecidableEq, Repr

/-- Clock sources of the root (R432, R441). -/
inductive Source where
  | coast | m0 | m1 | holdover
  deriving DecidableEq, Repr

/-- Steps of a change of root frequency (R435). -/
inductive RootChange where
  /-- Decided; the links are not yet down. -/
  | decided
  /-- Links down, channels going to self-refresh. -/
  | stopping
  /-- Tile, mesh and granary clocks stopped, PLL locking. -/
  | stopped
  /-- PLL locked at the new source; clocks restart. -/
  | locked
  deriving DecidableEq, Repr

/-- Throttle state of a quarter (R436 to R439, R520, R530). -/
structure Throttle where
  k : Nat := 1
  /-- Thermal request as steps of the ladder above k = 1, and the samples since it last changed (R530). -/
  thermal : Nat := 0
  since : Nat := 0
  steps : Nat := 0
  /-- Time of the last step (R437). -/
  steppedAt : Option Nat := none
  /-- A target above 8 waits (R257). -/
  deep : Bool := false
  /-- Tile cycles counted (R46), and root cycles since the last tile edge. -/
  cycles : DWord := 0
  phase : Nat := 0
  deriving DecidableEq, Repr

/-- The clock tree (R31, R432 to R441). -/
structure Clocks where
  source : Source := .coast
  /-- Root at 2.4 GHz. -/
  coasting : Bool := true
  readyM0 : Bool := false
  readyM1 : Bool := false
  lockM0 : Bool := false
  lockM1 : Bool := false
  /-- Times since which each lane has held lock, and each source has been ready (R430, R434). -/
  sinceM0 : Nat := 0
  sinceM1 : Nat := 0
  readyAtM0 : Nat := 0
  readyAtM1 : Nat := 0
  /-- Time at which holdover began (R434). -/
  heldAt : Nat := 0
  change : Option RootChange := none
  /-- Source the change leads to, and the time it began. -/
  toward : Source := .coast
  began : Nat := 0
  /-- The first lock of this bring-up is done (R434). -/
  firstLock : Bool := false
  coastEntries : Nat := 0
  refSwitches : Nat := 0
  holdovers : Nat := 0
  /-- Tile clocks are stopped by a root change, a load shed or a power shed (R435, R526, R531). -/
  tilesStopped : Bool := false
  /-- Root cycles since reset, and root cycles since the last microsecond. -/
  root : DWord := 0
  sub : Nat := 0
  /-- The steward time base in microseconds (R432). -/
  timeUs : Nat := 0
  qs : AMap Throttle := []
  deriving DecidableEq, Repr

/-- A coolant condition of R530: whether it is in force, the samples in a row in which it has held, and those in a row in which
its clearing has. -/
structure CoolCond where
  active : Bool := false
  held : Nat := 0
  clear : Nat := 0
  deriving DecidableEq, Repr

/-- Input power, rails, coolant and junctions (R517 to R532). -/
structure Power where
  /-- Input voltage in mV, averages in W. -/
  inputMv : Nat := 0
  avg1ms : Nat := 0
  avg1s : Nat := 0
  /-- Measurements of input power in W over the last 1 s, one per 100 µs, newest first (R520). -/
  watts : List Nat := []
  warn : Bool := false
  railFaults : Nat := 0
  /-- Rails on (R522). -/
  rails : List Rail := []
  /-- Rails that failed and stay off (R523). -/
  faulty : List Rail := []
  /-- Shed decided: cause and time (R526). -/
  shed : Option (ShedCause × Nat) := none
  /-- The module is dark: no 48 V, or the steward halted. -/
  dark : Bool := true
  inlet : Int := 0
  outlet : Int := 0
  /-- Flow in units of 0.01 L/min. -/
  flow : Nat := 0
  tjMax : Int := 0
  loadShed : Bool := false
  sheds : Nat := 0
  /-- The coolant conditions of R530 by number, in the order of its table. -/
  cool : AMap CoolCond := []
  /-- Requests of the power governor for the 1 ms and the 1 s average, as steps of the ladder above k = 1, and the samples since
  each last changed (R520). -/
  gov1ms : Nat := 0
  gov1s : Nat := 0
  since1ms : Nat := 0
  since1s : Nat := 0
  /-- The tally tail that hold-up is to write (R415, R526). -/
  tail : List Byte := []
  /-- Thermal trip holds S2 (R531). -/
  tripHold : Bool := false
  deriving DecidableEq, Repr

/-- A verified firmware or content image of a slot (R485). -/
structure Image where
  kind : BitVec 16
  version : Word
  rollback : Word
  keySlot : BitVec 32
  setId : DWord
  /-- SHA-256 of the signed bytes (R506). -/
  digest : BitVec 256
  /-- The body of a tile image, which S6 broadcasts (R491); empty for the other kinds. -/
  body : List Byte := []
  deriving DecidableEq, Repr

/-- Firmware slots and the directory (R486 to R490). Region order: firmware, test content, known-answer set. -/
structure Firmware where
  /-- Preferred slot, state A, state B, per region (R486). -/
  pref : AMap (BitVec 1) := []
  stA : AMap (BitVec 2) := []
  stB : AMap (BitVec 2) := []
  trialBoots : Nat := 0
  /-- Images by 8 * (2 * region + slot) + place; the places of a firmware slot are those of R486: steward, granary, link engine
  and tile. -/
  images : AMap Image := []
  /-- Directory sequence number (R486). -/
  dirSeq : Nat := 0
  /-- Firmware slot booted, 0 A, 1 B. -/
  booted : BitVec 1 := 0
  trial : Bool := false
  testInUse : BitVec 1 := 0
  kaInUse : BitVec 1 := 0
  /-- Running images by kind (R505, R506). -/
  running : AMap Image := []
  /-- PROGRAM in progress: state, region, target slot, source, length (R490). -/
  progState : BitVec 2 := 0
  progRegion : BitVec 2 := 0
  progSlot : BitVec 1 := 0
  progSrc : BitVec 42 := 0
  progLen : Nat := 0
  progResult : BitVec 8 := 0
  /-- The images of the PROGRAM in progress by place; none where a check of R504 fails. -/
  progImages : Option (AMap Image) := none
  /-- Round of the tile broadcast, 0 to 3, none when no broadcast runs (R491, R493). -/
  round : Option Nat := none
  /-- Time at which the round began (R492, R494). -/
  roundAt : Nat := 0
  deriving DecidableEq, Repr

/-- Bring-up (R474 to R477, R483, R499). -/
structure Bringup where
  stage : Nat := 0
  target : Nat := 2
  path : BitVec 2 := 0
  state : BitVec 2 := 0
  failStage : Nat := 0
  failCode : BitVec 8 := 0
  /-- A stage is in progress. -/
  busy : Option Nat := none
  /-- Time at which it began (R474). -/
  stageAt : Nat := 0
  /-- A HOLD waits for the stage in progress (R476). -/
  holdReq : Bool := false
  /-- STAGE_TIMES by stage (R477), and the time of S0 or of the warm reset. -/
  times : AMap Nat := []
  since : Nat := 0
  /-- The S4 decisions were made in this bring-up (R500). -/
  s4Done : Bool := false
  /-- Steward powered and released from reset. -/
  on : Bool := false
  /-- Watchdog: time of the last feed; self-feed ends at this time (R483). -/
  fedAt : Nat := 0
  selfFeedUntil : Nat := 0
  /-- Bring-up follows a watchdog reset (R483). -/
  afterWatchdog : Bool := false
  watchdogResets : Nat := 0
  eccCorrected : Nat := 0
  /-- Times of counted module resets within 10 minutes, newest first (R394). -/
  resets : List Nat := []
  outOfService : Bool := false
  lastKind : BitVec 3 := 0
  deriving DecidableEq, Repr

/-- Known-answer measurements (R497, R498): results by workload, and the one running. -/
structure KaState where
  state : AMap (BitVec 2) := []
  invalid : AMap (BitVec 7) := []
  value : AMap Word := []
  running : Option Nat := none
  /-- Links seen with fewer than 6 active wavelengths while the workload runs (R498, bit 58). -/
  narrow : List Nat := []
  deriving DecidableEq, Repr

/-- A key slot of OTP (R503). -/
structure KeySlot where
  key : BitVec 256 := 0
  active : Bool := false
  revoked : Bool := false
  damaged : Bool := false
  deriving DecidableEq, Repr

/-- The security engine (R502 to R516). -/
structure Security where
  keys : AMap KeySlot := []
  /-- Rollback counters by KIND (R505). -/
  counters : AMap Nat := []
  /-- Measurement registers (R506). -/
  mr : AMap (BitVec 256) := []
  provisioned : Bool := false
  otpFault : Bool := false
  /-- Nonce and the time it was read (R509). -/
  nonce : Option (BitVec 256 × Nat) := none
  refused : Nat := 0
  /-- Debug is unlocked, and the levels open (R511, R512). -/
  debugOn : Bool := false
  debugMask : BitVec 3 := 0
  sinceCold : Bool := false
  /-- Report being signed: its first 512 bytes (R513). -/
  signing : Option (List Byte) := none
  /-- Report readable (R513). -/
  report : List Byte := []
  /-- A ROLLBACK_COMMIT runs: its region (R505). -/
  commit : Option (BitVec 2) := none
  deriving DecidableEq, Repr

/-- A copy of the tally tail in flash (R415). -/
structure TailCopy where
  valid : Bool := false
  seq : Nat := 0
  bytes : List Byte := []
  deriving DecidableEq, Repr

/-- What OTP and the factory fix (R6, R452), and the tally tail. -/
structure Factory where
  /-- PRODUCT_CONFIG (R6). -/
  product : Word := 0
  /-- SERIAL as a little-endian number (R452). -/
  serial : BitVec 128 := 0
  /-- FIELD_MAC (R452). -/
  mac : BitVec 48 := 0
  tail0 : TailCopy := {}
  tail1 : TailCopy := {}
  /-- Sequence number of the newest tail reported (R527). -/
  tailSeen : Nat := 0
  deriving DecidableEq, Repr

/-- Per-quarter status counters: witness, bin, queue, mesh and gleaner entries (R119, R177, R225, R258, R363). -/
structure QCounts where
  retried : Nat := 0
  persistent : Nat := 0
  dummyFails : Nat := 0
  parity : Nat := 0
  scrub : Nat := 0
  traceDrops : Nat := 0
  spills : Nat := 0
  spillItems : Nat := 0
  fallowLate : Nat := 0
  hopRetries : Nat := 0
  throttles : Nat := 0
  linksFailed : Nat := 0
  escapes : Nat := 0
  tests : Nat := 0
  testFails : Nat := 0
  overruns : Nat := 0
  restarts : Nat := 0
  directed : Nat := 0
  deriving DecidableEq, Repr

/-! ### The module -/

/-- Why a step stops with a fault. No command of this specification stops the module, so there is no cause (NOTES.md, Stops). -/
inductive Fault where
  /-- Raised by no meaning: kept so that the type has a member. Safe. -/
  | none_
  deriving DecidableEq, Repr

/-- Why a command is refused by the model. -/
inductive Refusal where
  /-- Raised only by an arm of exec that has no meaning yet, with the row's mnemonic. Safe: nothing is claimed of it. -/
  | notModelled (mnemonic : String)
  deriving DecidableEq, Repr

/-- The module. -/
structure State where
  /-- Commands waiting, first in first out. -/
  pending : List Instr := []
  /-- Tiles by key 128 * y + x (R21). -/
  tiles : AMap Tile := []
  mesh : Mesh := {}
  mem : Mem := {}
  hall : Hall := {}
  /-- Live contexts by number (R32). -/
  ctxs : AMap Ctx := []
  /-- Epochs by context number, and the time of the last advance (R379). -/
  epochs : AMap (BitVec 8) := []
  epochAt : AMap Nat := []
  /-- TILE_EXC_RECORD by context (R84). -/
  excRec : AMap DWord := []
  /-- HANG_RECORD by context (R371). -/
  hangRec : AMap DWord := []
  gleaner : Gleaner := {}
  counts : AMap QCounts := []
  events : EventRing := {}
  mer : Meridian := {}
  dict : Dict := {}
  field : Field := {}
  clk : Clocks := {}
  pow : Power := {}
  fw : Firmware := {}
  boot : Bringup := {}
  ka : KaState := {}
  sec : Security := {}
  factory : Factory := {}
  /-- The model's own count of free values drawn (notes/assumptions/3.md). -/
  draws : Nat := 0
  deriving DecidableEq, Repr

/-- An image of a kind as shipped (notes/assumptions/4.md). -/
def factoryImage (kind : BitVec 16) : Image := { kind := kind, version := 0, rollback := 0, keySlot := 0, setId := 0, digest := 0 }

/-- The row bindings as shipped: the last physical row of each half is its row spare (notes/assumptions/4.md). -/
def shippedRows : AMap Nat := (List.range 96).map fun i => (i, if i % 48 < 24 then i % 48 else i % 48 + 1)

/-- The module before 48 V is applied: every field at the default the rules give it, and the factory's records as
notes/assumptions/4.md names them. -/
def State.reset : State :=
  { factory :=
      { product := 0x02300270#32
        serial := 0
        mac := 0 }
    gleaner := { gazA := { valid := true, rowsFull := shippedRows, sparesW := 312, sparesE := 312 } }
    dict := { copy0 := { valid := true }, copyS := { valid := true } }
    fw :=
      { stA := [(0, 1), (1, 1), (2, 1)]
        images :=
          [(0, factoryImage 1), (1, factoryImage 3), (2, factoryImage 4), (3, factoryImage 2), (16, factoryImage 5),
            (32, factoryImage 6)] }
    sec := { keys := [(0, { active := true })], provisioned := true } }

end Sys2Proof.Machine
end

