-- ==== Sys2Proof/Config.lean ====
section
/-! DEFINITION. What the specification leaves open: constants without a body, of which no proof can know a value
(notes/assumptions/3.md). A value that may differ from one occasion to the next takes the count of free values drawn. -/

namespace Sys2Proof.Config

open Sys2Proof.Machine

/-- SLOT of TILE_EXC_RECORD when a fetch, which has no slot, raises PC_RANGE (R56, R84). -/
opaque fetchFaultSlot : Nat → Bool

/-- Whether `vcmplt` of a NaN lane sets NV; R47 and R62 do not say. -/
opaque nanLessInvalid : Bool

/-- Whether `vcmpeq` of a NaN lane sets NV; R47 and R62 do not say. -/
opaque nanEqualInvalid : Bool

/-- A word of the true random number generator (R509). -/
opaque trng : Nat → BitVec 256

/-- The 16-bit CODE of an event on the wire (R425, R465); no rule gives the codes. -/
opaque eventCode : Ev → BitVec 16

/-- The place of an event's values in its 32 B of data (R428, R467); no rule gives the layout. -/
opaque eventData : Ev → List (BitVec 64) → BitVec 256

/-- The SLH-DSA verification of FIPS 205 (R503): public key, signed bytes, signature. -/
opaque sigVerifies : BitVec 256 → List Byte → List Byte → Bool

/-- Byte n of the SLH-DSA signature of the module over a report; the signing is hedged, so each draw has its own (R502, R513). -/
opaque sigByte : List Byte → Nat → Nat → Byte

/-- The module's identity public key (R507). -/
opaque identityKey : BitVec 256

/-- The version of the boot ROM (R513). -/
opaque romVersion : BitVec 32

/-- The wafer lot of a die (R360), a factory value. -/
opaque waferLot : Nat → List Byte

/-- The data of a line of a lost stripe, one for each draw (R270). -/
opaque lostLine : Nat → BitVec 512

/-- The two bytes of the gazetteer for a probation, by its entry time and count (R358); no rule gives their layout. -/
opaque probationCode : Nat → Nat → BitVec 16

/-- TYPE of the error answer to a message whose TYPE has no response (R425), by that TYPE. -/
opaque errorType : BitVec 8 → BitVec 8

/-- The 4 B of the gazetteer for a failed mesh link, and for an entry without one (R358); no rule gives their encoding. -/
opaque meshLinkCode : Option MeshLink → BitVec 32

/-- Whether a Ligiune 1 image uses stochastic rounding (R86); its format is that of another manual. -/
opaque l1Stochastic : List Byte → Bool

/-- A 64-bit value that the rules leave open, one for each draw. -/
opaque freeWord : Nat → BitVec 64

end Sys2Proof.Config
end

