-- ==== Sys2Proof/Machine/Num.lean ====
section
/-! DEFINITION. Exact numbers and the number formats of R127: decoding, one rounding into a format (R135), delivery
(R136, R137), FP32 arithmetic (R61, R62) and the correctly rounded special functions (R63). -/

namespace Sys2Proof.Machine

/-- An exact value: NaN, an infinity, or plus or minus `m * 2 ^ e` (zeros keep their sign, R128). -/
inductive Num where
  | nan
  | inf (neg : Bool)
  | fin (neg : Bool) (m : Nat) (e : Int)
  deriving DecidableEq, Repr

/-- A floating-point layout of R127: exponent and mantissa bits, bias, and which special codes it has. -/
structure Fmt where
  ebits : Nat
  mbits : Nat
  bias : Nat
  hasInf : Bool
  hasNan : Bool
  deriving DecidableEq, Repr

/-- FP4 E2M1 (R127). -/
def fE2M1 : Fmt := ⟨2, 1, 1, false, false⟩
/-- FP6 E2M3 (R127). -/
def fE2M3 : Fmt := ⟨2, 3, 1, false, false⟩
/-- FP6 E3M2 (R127). -/
def fE3M2 : Fmt := ⟨3, 2, 3, false, false⟩
/-- FP8 E4M3 (R127): no infinity, one NaN code per sign. -/
def fE4M3 : Fmt := ⟨4, 3, 7, false, true⟩
/-- FP8 E5M2 (R127). -/
def fE5M2 : Fmt := ⟨5, 2, 15, true, true⟩
/-- BF16 (R127). -/
def fBF16 : Fmt := ⟨8, 7, 127, true, true⟩
/-- FP32 (R127). -/
def fFP32 : Fmt := ⟨8, 23, 127, true, true⟩
/-- A48, the accumulator format (R127, R130). -/
def fA48 : Fmt := ⟨8, 39, 127, true, true⟩

/-- Bits of one element. -/
def Fmt.width (f : Fmt) : Nat := 1 + f.ebits + f.mbits

/-- The code of the largest finite magnitude (R127's column "Largest finite"). -/
def Fmt.maxCode (f : Fmt) : Nat :=
  if f.hasInf then (2 ^ f.ebits - 1) * 2 ^ f.mbits - 1
  else if f.hasNan then 2 ^ (f.ebits + f.mbits) - 2
  else 2 ^ (f.ebits + f.mbits) - 1

/-- The exponent of the smallest normal magnitude. -/
def Fmt.emin (f : Fmt) : Int := 1 - (f.bias : Int)

/-- The magnitude of a finite magnitude code as `(m, e)`: `m * 2 ^ e`. -/
def Fmt.magOfCode (f : Fmt) (c : Nat) : Nat × Int :=
  let ef := c / 2 ^ f.mbits
  let mf := c % 2 ^ f.mbits
  if ef = 0 then (mf, f.emin - (f.mbits : Int))
  else (2 ^ f.mbits + mf, (ef : Int) - (f.bias : Int) - (f.mbits : Int))

/-- The exponent of the largest finite value, `emax` of R127. -/
def Fmt.emax (f : Fmt) : Int :=
  ((f.maxCode / 2 ^ f.mbits : Nat) : Int) - (f.bias : Int)

/-- The exact value of an element code (R127). -/
def Fmt.decode (f : Fmt) (code : Nat) : Num :=
  let mag := code % 2 ^ (f.ebits + f.mbits)
  let neg := (code / 2 ^ (f.ebits + f.mbits)) % 2 == 1
  if mag ≤ f.maxCode then
    let (m, e) := f.magOfCode mag
    .fin neg m e
  else if f.hasInf && mag == f.maxCode + 1 then .inf neg
  else .nan

/-- The canonical quiet NaN of a format (R127); formats without a NaN write +0 (R137). -/
def Fmt.nanCode (f : Fmt) : Nat :=
  if f.hasInf then
    if f.ebits = 5 then 0x7F else (2 ^ f.ebits - 1) * 2 ^ f.mbits + 2 ^ (f.mbits - 1)
  else if f.hasNan then 2 ^ (f.ebits + f.mbits) - 1
  else 0

/-- A magnitude code under a sign bit. -/
def Fmt.withSign (f : Fmt) (neg : Bool) (mag : Nat) : Nat :=
  if neg then mag + 2 ^ (f.ebits + f.mbits) else mag

/-- An exact nonnegative rational `(n / d) * 2 ^ e`, `d` positive: a source value, or one divided by its scale (R142). -/
structure Mag where
  n : Nat
  d : Nat
  e : Int
  deriving DecidableEq, Repr

/-- `n / d * 2 ^ e` with the power of two moved into numerator or denominator. -/
def Mag.ratio (v : Mag) (shift : Int) : Nat × Nat :=
  let k := v.e + shift
  if 0 ≤ k then (v.n * 2 ^ k.toNat, v.d) else (v.n, v.d * 2 ^ (-k).toNat)

/-- `floor (log2 v)` of a nonzero magnitude. -/
def Mag.log2 (v : Mag) : Int :=
  let c : Int := (Nat.log2 v.n : Int) - (Nat.log2 v.d : Int)
  let (a, b) := Mag.ratio ⟨v.n, v.d, 0⟩ (-c)
  if b ≤ a then c + v.e else c - 1 + v.e

/-- `ceil (log2 v)` of a nonzero magnitude. -/
def Mag.log2Ceil (v : Mag) : Int :=
  let f := v.log2
  let (a, b) := v.ratio (-f)
  if a = b then f else f + 1

/-- Comparison of exact magnitudes: `a < b`. -/
def Mag.lt (a b : Mag) : Bool :=
  let lo := min a.e b.e
  let x := a.n * b.d * 2 ^ (a.e - lo).toNat
  let y := b.n * a.d * 2 ^ (b.e - lo).toNat
  x < y

/-- The two rounding modes of R135; stochastic carries the random word u. -/
inductive RMode where
  | nearest
  | stochastic (u : BitVec 32)
  deriving DecidableEq, Repr

/-- A rounded magnitude: `k * 2 ^ q`, and whether it differs from the exact value. -/
structure Rounded where
  k : Nat
  q : Int
  inexact : Bool
  deriving DecidableEq, Repr

/-- One rounding of an exact magnitude into the format with its exponent unbounded above and subnormals kept (R128, R135). -/
def Fmt.round (f : Fmt) (mode : RMode) (v : Mag) : Rounded :=
  if v.n = 0 then ⟨0, f.emin - (f.mbits : Int), false⟩
  else
    let E := v.log2
    let q := (max E f.emin) - (f.mbits : Int)
    let (a, b) := v.ratio (-q)
    let k := a / b
    let r := a % b
    match mode with
    | .nearest =>
      let up := (b < 2 * r) || (2 * r == b && k % 2 == 1)
      ⟨if up then k + 1 else k, q, r != 0⟩
    | .stochastic u =>
      let t := r * 2 ^ 32 / b
      ⟨if 2 ^ 32 ≤ t + u.toNat then k + 1 else k, q, r != 0⟩

/-- The magnitude code of a rounded magnitude that is not above the largest finite value. -/
def Fmt.codeOf (f : Fmt) (r : Rounded) : Nat :=
  (r.q + (f.mbits : Int) - f.emin).toNat * 2 ^ f.mbits + r.k

/-- The rounded magnitude is above the largest finite value of the format (R136). -/
def Fmt.exceeds (f : Fmt) (r : Rounded) : Bool := f.maxCode < f.codeOf r

/-- The exact magnitude is nonzero and below the smallest normal magnitude (UF, R47). -/
def Fmt.tiny (f : Fmt) (v : Mag) : Bool :=
  v.n != 0 && v.lt ⟨1, 1, f.emin⟩

/-- FP_FLAGS bits of R47. -/
def flagNV : BitVec 5 := 1
/-- Exact infinity from a finite operand (R47). -/
def flagDZ : BitVec 5 := 2
/-- Overflow (R47). -/
def flagOF : BitVec 5 := 4
/-- Tiny (R47). -/
def flagUF : BitVec 5 := 8
/-- Inexact (R47). -/
def flagNX : BitVec 5 := 16

/-- A flag where its condition holds. -/
def flagIf (c : Bool) (f : BitVec 5) : BitVec 5 := if c then f else 0

/-- One delivered element: its code and sign, its flags, and what R138 counts of it. -/
structure Conv where
  code : Nat
  flags : BitVec 5
  saturated : Bool
  deriving DecidableEq, Repr

/-- Rounds a finite exact value into a format and delivers it by R135 and R136: `satInf` says that an overflow gives
infinity, else the largest finite value. -/
def Fmt.deliver (f : Fmt) (satInf : Bool) (mode : RMode) (neg : Bool) (v : Mag) : Conv :=
  let r := f.round mode v
  if f.exceeds r then
    { code := f.withSign neg (if satInf then f.maxCode + 1 else f.maxCode), flags := flagOF ||| flagNX, saturated := true }
  else
    { code := f.withSign neg (f.codeOf r)
      flags := flagIf r.inexact flagNX ||| flagIf (f.tiny v) flagUF
      saturated := false }

/-- An overflow of this format gives infinity: BF16, FP32 and A48 always, E5M2 when E5M2_INF is 1 (R136). -/
def Fmt.overflowsToInf (f : Fmt) (e5m2Inf : Bool) : Bool :=
  f.hasInf && (f.ebits == 8 || e5m2Inf)

/-- One conversion of a value into a format, special sources by R137 and R139. -/
def Fmt.convert (f : Fmt) (e5m2Inf : Bool) (mode : RMode) (x : Num) : Conv :=
  match x with
  | .nan => { code := f.nanCode, flags := flagNV, saturated := false }
  | .inf neg =>
    if f.hasInf then { code := f.withSign neg (f.maxCode + 1), flags := 0, saturated := false }
    else { code := f.withSign neg f.maxCode, flags := flagNV, saturated := false }
  | .fin neg m e => f.deliver (f.overflowsToInf e5m2Inf) mode neg ⟨m, 1, e⟩

/-- The magnitude of a finite value. -/
def Num.mag : Num → Mag
  | .fin _ m e => ⟨m, 1, e⟩
  | _ => ⟨0, 1, 0⟩

/-- The sign of a value. -/
def Num.neg : Num → Bool
  | .nan => false
  | .inf n => n
  | .fin n _ _ => n

/-- The value is a NaN. -/
def Num.isNan : Num → Bool
  | .nan => true
  | _ => false

/-- The value is an infinity or a NaN. -/
def Num.special : Num → Bool
  | .fin _ _ _ => false
  | _ => true

/-- The value is a zero. -/
def Num.isZero : Num → Bool
  | .fin _ m _ => m == 0
  | _ => false

/-- The value with its sign inverted. -/
def Num.negate : Num → Num
  | .nan => .nan
  | .inf n => .inf (!n)
  | .fin n m e => .fin (!n) m e

/-- The magnitude of a value, as a value. -/
def Num.abs : Num → Num
  | .nan => .nan
  | .inf _ => .inf false
  | .fin _ m e => .fin false m e

/-- The signed significand of a finite value at exponent `q`, no larger than its own. -/
def scaledInt (neg : Bool) (m : Nat) (e q : Int) : Int :=
  let k : Int := (m * 2 ^ (e - q).toNat : Nat)
  if neg then -k else k

/-- The exact value of an integer times a power of two; an exact zero is +0. -/
def Num.ofInt (k : Int) (e : Int) : Num := .fin (k < 0) k.natAbs e

/-- The exact sum; an exact zero is +0 except (-0) + (-0), opposite infinities give NaN (R130, R61). -/
def Num.add (x y : Num) : Num :=
  match x, y with
  | .nan, _ => .nan
  | _, .nan => .nan
  | .inf a, .inf b => if a = b then .inf a else .nan
  | .inf a, .fin _ _ _ => .inf a
  | .fin _ _ _, .inf b => .inf b
  | .fin a m e, .fin b n g =>
    if m = 0 && n = 0 then .fin (a && b) 0 0
    else
      let q := min e g
      Num.ofInt (scaledInt a m e q + scaledInt b n g q) q

/-- The exact product; infinity times zero gives NaN. -/
def Num.mul (x y : Num) : Num :=
  match x, y with
  | .nan, _ => .nan
  | _, .nan => .nan
  | .inf a, .inf b => .inf (a != b)
  | .inf a, .fin b n _ => if n = 0 then .nan else .inf (a != b)
  | .fin a m _, .inf b => if m = 0 then .nan else .inf (a != b)
  | .fin a m e, .fin b n g => .fin (a != b) (m * n) (e + g)

/-- The order of two values that are not NaN, -0 below +0: `x < y` (R62). -/
def Num.total (x y : Num) : Bool :=
  match x, y with
  | .nan, _ => false
  | _, .nan => false
  | .inf a, .inf b => a && !b
  | .inf a, .fin _ _ _ => a
  | .fin _ _ _, .inf b => !b
  | .fin a m e, .fin b n g =>
    if m = 0 && n = 0 then a && !b
    else
      let q := min e g
      scaledInt a m e q < scaledInt b n g q

/-- `x < y` as numbers: zeros of either sign are equal, a NaN is unordered (R62). -/
def Num.lt (x y : Num) : Bool :=
  if x.isZero && y.isZero then false else x.total y

/-- `x = y` as numbers. -/
def Num.eq (x y : Num) : Bool :=
  !x.isNan && !y.isNan && !x.lt y && !y.lt x

/-- The value of an FP32 lane. -/
def ofF32 (w : BitVec 32) : Num := fFP32.decode w.toNat

/-- The canonical FP32 NaN (R62, R127). -/
def canonNaN : BitVec 32 := 0x7FC00000#32

/-- One rounding to FP32, nearest even, of the exact result of an operation whose operands were `anyNan`: a NaN result
from operands that are not NaN is the invalid operation (R47, R61, R62). -/
def roundF32 (anyNan : Bool) (x : Num) : BitVec 32 × BitVec 5 :=
  match x with
  | .nan => (canonNaN, flagIf (!anyNan) flagNV)
  | .inf n => (BitVec.ofNat 32 (fFP32.withSign n (fFP32.maxCode + 1)), 0)
  | .fin n m e =>
    let c := fFP32.deliver true .nearest n ⟨m, 1, e⟩
    (BitVec.ofNat 32 c.code, c.flags)

/-- Binary32 addition with its flags (R61). -/
def f32Add (a b : BitVec 32) : BitVec 32 × BitVec 5 :=
  let x := ofF32 a
  let y := ofF32 b
  roundF32 (x.isNan || y.isNan) (x.add y)

/-- Binary32 subtraction with its flags (R61). -/
def f32Sub (a b : BitVec 32) : BitVec 32 × BitVec 5 :=
  let x := ofF32 a
  let y := ofF32 b
  roundF32 (x.isNan || y.isNan) (x.add y.negate)

/-- Binary32 multiplication with its flags (R61). -/
def f32Mul (a b : BitVec 32) : BitVec 32 × BitVec 5 :=
  let x := ofF32 a
  let y := ofF32 b
  roundF32 (x.isNan || y.isNan) (x.mul y)

/-- `a * b + c` with one rounding; `sub` gives `c - a * b` (R51, R61). Zero times infinity with a NaN addend sets
no NV (notes/assumptions/91.md). -/
def f32Fma (sub : Bool) (a b c : BitVec 32) : BitVec 32 × BitVec 5 :=
  let x := ofF32 a
  let y := ofF32 b
  let z := ofF32 c
  let p := x.mul y
  roundF32 (x.isNan || y.isNan || z.isNan) ((if sub then p.negate else p).add z)

/-- Maximum (`wantMax`) or minimum of two lanes: a NaN operand gives the canonical NaN, -0 orders below +0 (R62). -/
def f32Pick (wantMax : Bool) (a b : BitVec 32) : BitVec 32 :=
  let x := ofF32 a
  let y := ofF32 b
  if x.isNan || y.isNan then canonNaN
  else if x.total y == wantMax then b else a

/-! ### Special functions (R63) -/

/-- Fixed-point precision of the series below, in bits. -/
def fxP : Nat := 256

/-- `2 * atanh (n / d)` in fixed point: the sum over odd j of `2 * z ^ j / j`, `terms` terms, magnitudes only. -/
def atanhSeries : Nat → Nat → Nat → Nat → Nat → Nat
  | 0, _, _, _, acc => acc
  | terms + 1, zpow, z2, j, acc =>
    atanhSeries terms (zpow * z2 / 2 ^ fxP) z2 (j + 2) (acc + 2 * (zpow / j))

/-- `2 * atanh z` for a fixed-point `z` of at most 1/3. -/
def atanh2 (z : Nat) : Nat := atanhSeries 84 z (z * z / 2 ^ fxP) 1 0

/-- `ln 2` in fixed point: `2 * atanh (1 / 3)`. -/
def ln2Fx : Nat := atanh2 (2 ^ fxP / 3)

/-- The sum of `r ^ j / j!` in fixed point from term j on. -/
def expSeries : Nat → Nat → Nat → Nat → Nat → Nat
  | 0, _, _, _, acc => acc
  | terms + 1, term, r, j, acc =>
    expSeries terms (term * r / 2 ^ fxP / j) r (j + 1) (acc + term)

/-- `exp r` in fixed point for a fixed-point `r` in `[0, ln 2)`. -/
def expFx (r : Nat) : Nat := expSeries 70 (2 ^ fxP) r 1 0

/-- A special-function result: the lane and its flags. -/
abbrev LaneRes := BitVec 32 × BitVec 5

/-- FP32 delivery of an exact or enclosed nonnegative magnitude under a sign. -/
def deliverF32 (neg : Bool) (v : Mag) : LaneRes :=
  let c := fFP32.deliver true .nearest neg v
  (BitVec.ofNat 32 c.code, c.flags)

/-- FP32 infinity. -/
def f32Inf (neg : Bool) : BitVec 32 := BitVec.ofNat 32 (fFP32.withSign neg (fFP32.maxCode + 1))

/-- `vexp` of one lane: the exact exponential rounded once (R63). A magnitude of at least 256 is past both ends of the
format; below that the fixed-point value decides the rounding. -/
def f32Exp (w : BitVec 32) : LaneRes :=
  match ofF32 w with
  | .nan => (canonNaN, 0)
  | .inf false => (f32Inf false, 0)
  | .inf true => (0, 0)
  | .fin neg m e =>
    if m = 0 then (0x3F800000#32, 0)
    else if 8 ≤ (Nat.log2 m : Int) + e then
      if neg then (0, flagUF ||| flagNX) else (f32Inf false, flagOF ||| flagNX)
    else
      let x : Nat := m * 2 ^ ((fxP : Int) + e).toNat
      let k : Nat := if neg then (x + ln2Fx - 1) / ln2Fx else x / ln2Fx
      let r : Nat := if neg then k * ln2Fx - x else x - k * ln2Fx
      let y := expFx r
      deliverF32 false ⟨2 * y + 1, 1, (if neg then -(k : Int) else (k : Int)) - (fxP : Int) - 1⟩

/-- `vlog` of one lane (R63): `E * ln 2 + ln f` with f in [3/4, 3/2). -/
def f32Log (w : BitVec 32) : LaneRes :=
  match ofF32 w with
  | .nan => (canonNaN, 0)
  | .inf false => (f32Inf false, 0)
  | .inf true => (canonNaN, flagNV)
  | .fin neg m e =>
    if m = 0 then (f32Inf true, flagDZ)
    else if neg then (canonNaN, flagNV)
    else
      let l := Nat.log2 m
      let big : Bool := 3 * 2 ^ l ≤ 2 * m
      let E : Int := (l : Int) + e + (if big then 1 else 0)
      -- f = m / den, and z = (m - den) / (m + den)
      let den : Nat := if big then 2 ^ (l + 1) else 2 ^ l
      if m = den then
        if E = 0 then (0, 0)
        else deliverF32 (E < 0) ⟨2 * (E.natAbs * ln2Fx) + 1, 1, -(fxP : Int) - 1⟩
      else
        let z : Nat := (if den < m then m - den else den - m) * 2 ^ fxP / (m + den)
        let lf : Int := if den < m then (atanh2 z : Int) else -(atanh2 z : Int)
        let tot : Int := E * (ln2Fx : Int) + lf
        deliverF32 (tot < 0) ⟨2 * tot.natAbs + 1, 1, -(fxP : Int) - 1⟩

/-- `floor (sqrt n)` from bit `b` down. -/
def isqrtFrom : Nat → Nat → Nat → Nat
  | 0, _, r => r
  | b + 1, n, r =>
    let c := r + 2 ^ b
    isqrtFrom b n (if c * c ≤ n then c else r)

/-- `floor (sqrt n)`. -/
def isqrt (n : Nat) : Nat := isqrtFrom (Nat.log2 n / 2 + 1) n 0

/-- `vrsqrt` of one lane (R63): an integer square root with a sticky bit decides the rounding. -/
def f32Rsqrt (w : BitVec 32) : LaneRes :=
  match ofF32 w with
  | .nan => (canonNaN, 0)
  | .inf false => (0, 0)
  | .inf true => (canonNaN, flagNV)
  | .fin neg m e =>
    if m = 0 then (f32Inf neg, flagDZ)
    else if neg then (canonNaN, flagNV)
    else
      let odd := e % 2 == 1
      let M := if odd then 2 * m else m
      let h : Int := (if odd then e - 1 else e) / 2
      let s : Nat := 80
      let r := isqrt (2 ^ (2 * s) / M)
      let sticky := if M * (r * r) = 2 ^ (2 * s) then 0 else 1
      deliverF32 false ⟨2 * r + sticky, 1, -h - (s : Int) - 1⟩

/-- `vrcp` of one lane (R63): an exact rational, rounded once. -/
def f32Rcp (w : BitVec 32) : LaneRes :=
  match ofF32 w with
  | .nan => (canonNaN, 0)
  | .inf neg => (if neg then 0x80000000#32 else 0, 0)
  | .fin neg m e =>
    if m = 0 then (f32Inf neg, flagDZ)
    else deliverF32 neg ⟨1, m, -e⟩

/-! ### Integer conversions (R139) -/

/-- FP32 to INT32, nearest even, saturating; NaN gives 0. The Bool says that R138 counts a saturation. -/
def f32ToInt (w : BitVec 32) : BitVec 32 × BitVec 5 × Bool :=
  match ofF32 w with
  | .nan => (0, flagNV, false)
  | .inf neg => (if neg then 0x80000000#32 else 0x7FFFFFFF#32, flagNV, true)
  | .fin neg m e =>
    let (a, b) := Mag.ratio ⟨m, 1, e⟩ 0
    let k := a / b
    let r := a % b
    let k := if (b < 2 * r) || (2 * r == b && k % 2 == 1) then k + 1 else k
    if (neg && 2 ^ 31 < k) || (!neg && 2 ^ 31 ≤ k) then
      (if neg then 0x80000000#32 else 0x7FFFFFFF#32, flagNV, true)
    else (BitVec.ofInt 32 (if neg then -(k : Int) else (k : Int)), flagIf (r != 0) flagNX, false)

/-- INT32 to FP32, nearest even. -/
def intToF32 (w : BitVec 32) : BitVec 32 × BitVec 5 :=
  roundF32 false (Num.ofInt w.toInt 0)

end Sys2Proof.Machine
end

