-- ==== Sys2Proof/Machine/OdTable.lean ====
section
/-! DEFINITION. The table of the object dictionary (R445 to R452 and the entry tables of every chapter): index, subindices,
size, access, roles, default and the checks of each field. -/

namespace Sys2Proof.Machine

/-- Access of an entry (R447). -/
inductive Acc where
  | ro | rw | wo | rws
  deriving DecidableEq, Repr

/-- A checked field: its place, the encodings that are not reserved (R19), and the range its table states (R448). -/
structure FieldChk where
  lo : Nat
  width : Nat
  /-- Permitted encodings, as intervals; all when empty. -/
  allow : List (Nat × Nat) := []
  /-- Stated range, as an interval. -/
  range : Option (Nat × Nat) := none
  deriving DecidableEq, Repr

/-- A row of the dictionary: subindices lo to hi of an index. Roles are bits: control 1, field 2, steward 4. Size 0 is a
DOMAIN; `fixed` is its fixed length, or 0. -/
structure OdEnt where
  idx : Nat
  lo : Nat
  hi : Nat
  size : Nat
  acc : Acc
  rd : BitVec 3
  wr : BitVec 3
  dflt : BitVec 64 := 0
  fixed : Nat := 0
  fields : List FieldChk := []
  deriving DecidableEq, Repr

/-- A field that must be zero. -/
def rsv (lo width : Nat) : FieldChk := { lo := lo, width := width, allow := [(0, 0)] }
/-- A field with a stated range. -/
def rng (lo width a b : Nat) : FieldChk := { lo := lo, width := width, range := some (a, b) }
/-- A field whose other encodings are reserved. -/
def enc (lo width : Nat) (l : List (Nat × Nat)) : FieldChk := { lo := lo, width := width, allow := l }

/-- Control and steward. -/
def rCS : BitVec 3 := 5
/-- Control, field and steward. -/
def rCFS : BitVec 3 := 7
/-- Control alone. -/
def rC : BitVec 3 := 1

/-- Identity and communication entries (R452, R468). -/
def odIdentity : List OdEnt := [
  { idx := 0x1000, lo := 1, hi := 1, size := 4, acc := .ro, rd := rCFS, wr := 0, dflt := 0x00020001 },
  { idx := 0x1008, lo := 1, hi := 1, size := 0, acc := .ro, rd := rCFS, wr := 0, fixed := 16 },
  { idx := 0x1010, lo := 1, hi := 1, size := 4, acc := .ro, rd := rCFS, wr := 0 },
  { idx := 0x1018, lo := 1, hi := 1, size := 8, acc := .ro, rd := rCFS, wr := 0 },
  { idx := 0x1800, lo := 1, hi := 1, size := 4, acc := .rws, rd := rCFS, wr := rCS, dflt := 0x8001080A,
    fields := [rng 0 8 1 255, rng 8 8 2 255, enc 16 8 [(0, 254)], rsv 24 6] }]

/-- Configuration entries (R125, R153, R180, R224, R238, R287, R325, R337, R338, R344, R349, R383, R440, R456, R484, R521). -/
def odConfig : List OdEnt := [
  { idx := 0x2000, lo := 1, hi := 1, size := 4, acc := .wo, rd := 0, wr := rCS, fields := [enc 0 4 [(1, 4)], rsv 4 28] },
  { idx := 0x2000, lo := 2, hi := 2, size := 8, acc := .ro, rd := rCFS, wr := 0 },
  { idx := 0x2001, lo := 1, hi := 2, size := 0, acc := .ro, rd := rCS, wr := 0 },
  { idx := 0x2002, lo := 1, hi := 1, size := 0, acc := .ro, rd := rCS, wr := 0 },
  { idx := 0x2240, lo := 1, hi := 1, size := 4, acc := .rws, rd := rCS, wr := rCS, dflt := 0x00100020,
    fields := [rng 0 11 8 1024, rsv 11 5, rsv 24 8] },
  { idx := 0x2250, lo := 1, hi := 1, size := 4, acc := .rws, rd := rCS, wr := rCS, dflt := 0x80000040,
    fields := [enc 0 16 [(0, 0), (16, 65535)], rsv 16 15] },
  { idx := 0x2260, lo := 1, hi := 1, size := 4, acc := .rws, rd := rCS, wr := rCS, dflt := 0x80000010,
    fields := [rng 0 8 4 64, rsv 8 23] },
  { idx := 0x2270, lo := 1, hi := 1, size := 4, acc := .rws, rd := rCS, wr := rCS, dflt := 0x80080400,
    fields := [rng 0 16 64 65535, rng 16 8 2 255, rsv 24 7] },
  { idx := 0x2280, lo := 1, hi := 1, size := 4, acc := .rws, rd := rCS, wr := rCS, dflt := 0x03080018,
    fields := [enc 0 8 [(0, 168)], rsv 8 8, rng 16 8 1 255, rng 24 3 2 4, rsv 27 5] },
  { idx := 0x2290, lo := 1, hi := 1, size := 4, acc := .rws, rd := rCS, wr := rCS, dflt := 0x0A0A4000,
    fields := [rsv 0 12, rng 12 4 3 6, rng 16 8 1 255, rng 24 8 1 255] },
  { idx := 0x22A0, lo := 1, hi := 1, size := 4, acc := .rws, rd := rCS, wr := rCS, dflt := 0x3228C0C8,
    fields := [rng 0 11 1 2047, rng 11 5 20 28, rng 16 8 10 255, rng 24 8 10 255] },
  { idx := 0x22B0, lo := 1, hi := 1, size := 4, acc := .rws, rd := rCS, wr := rCS, dflt := 0x800A0032,
    fields := [rng 0 10 0 1000, rsv 10 6, rng 16 10 1 1000, rsv 26 5] },
  { idx := 0x22C0, lo := 1, hi := 1, size := 4, acc := .rws, rd := rCS, wr := rCS, dflt := 0x80000A14,
    fields := [rng 0 8 5 255, rng 8 8 1 60, rsv 16 15] },
  { idx := 0x22D0, lo := 1, hi := 1, size := 4, acc := .rws, rd := rCS, wr := rCS, dflt := 0x80000AF0,
    fields := [rng 0 16 1200 2800, rsv 16 15] },
  { idx := 0x2300, lo := 1, hi := 1, size := 4, acc := .rws, rd := rCFS, wr := rCS, dflt := 0x00010000,
    fields := [enc 0 2 [(0, 1)], rsv 2 1, rsv 5 3, rng 8 2 0 3, rsv 10 2, enc 12 8 [(1, 128)], rsv 20 12] },
  { idx := 0x2310, lo := 1, hi := 1, size := 4, acc := .rws, rd := rCFS, wr := rCS, dflt := 0x81000000,
    fields := [rsv 0 24, enc 24 2 [(1, 3)], rsv 26 5] },
  { idx := 0x2310, lo := 2, hi := 2, size := 4, acc := .rws, rd := rCS, wr := rCS, dflt := 0x06182581,
    fields := [enc 0 2 [(0, 2)], rsv 2 2, rng 4 12 60 4095, rng 16 8 0 255, rng 24 8 1 255] },
  { idx := 0x2310, lo := 3, hi := 3, size := 4, acc := .rws, rd := rCS, wr := rCS, dflt := 0x00403C00,
    fields := [rsv 0 8, rng 8 8 1 255, rng 16 16 8 65535] },
  { idx := 0x2310, lo := 4, hi := 4, size := 4, acc := .rws, rd := rCFS, wr := rCS, dflt := 0x000007D0,
    fields := [rng 0 16 1000 20000, rsv 16 16] },
  { idx := 0x2320, lo := 1, hi := 16, size := 8, acc := .rw, rd := rCS, wr := rCS }]

/-- Status entries. -/
def odStatusEnts : List OdEnt := [
  { idx := 0x3100, lo := 1, hi := 1, size := 8, acc := .ro, rd := rCFS, wr := 0 },
  { idx := 0x3101, lo := 1, hi := 10, size := 4, acc := .ro, rd := rCS, wr := 0 },
  { idx := 0x3102, lo := 1, hi := 1, size := 4, acc := .ro, rd := rCFS, wr := 0 },
  { idx := 0x3140, lo := 1, hi := 16, size := 8, acc := .ro, rd := rCS, wr := 0 },
  { idx := 0x3150, lo := 1, hi := 4, size := 8, acc := .ro, rd := rCS, wr := 0 },
  { idx := 0x3160, lo := 1, hi := 4, size := 8, acc := .ro, rd := rCS, wr := 0 },
  { idx := 0x3170, lo := 1, hi := 4, size := 8, acc := .ro, rd := rCS, wr := 0 },
  { idx := 0x3180, lo := 1, hi := 4, size := 8, acc := .ro, rd := rCS, wr := 0 },
  { idx := 0x3190, lo := 1, hi := 16, size := 8, acc := .ro, rd := rCS, wr := 0 },
  { idx := 0x31A0, lo := 1, hi := 16, size := 8, acc := .ro, rd := rCS, wr := 0 },
  { idx := 0x31B0, lo := 1, hi := 32, size := 8, acc := .ro, rd := rCFS, wr := 0 },
  { idx := 0x31C0, lo := 1, hi := 2, size := 8, acc := .ro, rd := rCFS, wr := 0 },
  { idx := 0x31C1, lo := 1, hi := 4, size := 8, acc := .ro, rd := rCS, wr := 0 },
  { idx := 0x31C2, lo := 1, hi := 1, size := 4, acc := .ro, rd := rCFS, wr := 0 },
  { idx := 0x31D0, lo := 1, hi := 16, size := 8, acc := .ro, rd := rCFS, wr := 0 },
  { idx := 0x31D1, lo := 1, hi := 16, size := 8, acc := .ro, rd := rCS, wr := 0 },
  { idx := 0x31D2, lo := 1, hi := 1, size := 4, acc := .ro, rd := rCFS, wr := 0 },
  { idx := 0x3200, lo := 1, hi := 1, size := 8, acc := .ro, rd := rCFS, wr := 0 },
  { idx := 0x3201, lo := 1, hi := 4, size := 8, acc := .ro, rd := rCFS, wr := 0 },
  { idx := 0x3210, lo := 1, hi := 1, size := 8, acc := .ro, rd := rCFS, wr := 0 },
  { idx := 0x3220, lo := 1, hi := 6, size := 8, acc := .ro, rd := rCFS, wr := 0 },
  { idx := 0x3230, lo := 1, hi := 1, size := 8, acc := .ro, rd := rCFS, wr := 0 },
  { idx := 0x3231, lo := 1, hi := 1, size := 8, acc := .ro, rd := rCFS, wr := 0 },
  { idx := 0x3300, lo := 1, hi := 1, size := 8, acc := .ro, rd := rCFS, wr := 0 },
  { idx := 0x3F00, lo := 1, hi := 1, size := 8, acc := .ro, rd := rCS, wr := 0 },
  { idx := 0x3F00, lo := 2, hi := 2, size := 8, acc := .ro, rd := rCFS, wr := 0 },
  { idx := 0x3F00, lo := 3, hi := 3, size := 8, acc := .ro, rd := rCS, wr := 0 }]

/-- Tally and diagnostic entries (R172, R361, R412 to R416, R467). -/
def odTally : List OdEnt := [
  { idx := 0x4100, lo := 1, hi := 1, size := 4, acc := .rws, rd := rCS, wr := rCS, dflt := 0x81000000,
    fields := [rsv 0 24, rsv 27 4] },
  { idx := 0x4100, lo := 2, hi := 2, size := 8, acc := .rws, rd := rCS, wr := rCS, fields := [rsv 32 27] },
  { idx := 0x4101, lo := 1, hi := 16, size := 8, acc := .ro, rd := rCFS, wr := 0 },
  { idx := 0x4102, lo := 1, hi := 16, size := 4, acc := .wo, rd := 0, wr := rCS, fields := [rsv 6 26] },
  { idx := 0x4110, lo := 1, hi := 8, size := 8, acc := .rws, rd := rCS, wr := rCS, dflt := 0x0000080000000000,
    fields := [rsv 0 11, enc 43 10 [(1, 1023)], enc 53 2 [(0, 2)]] },
  { idx := 0x4111, lo := 1, hi := 8, size := 4, acc := .rws, rd := rCS, wr := rCS },
  { idx := 0x4120, lo := 1, hi := 1, size := 0, acc := .ro, rd := rCS, wr := 0 },
  { idx := 0x4210, lo := 1, hi := 1, size := 4, acc := .rws, rd := rCS, wr := rCS, dflt := 0x00140000,
    fields := [rsv 0 16, rng 16 5 12 30, rsv 21 3, rsv 28 3] },
  { idx := 0x4210, lo := 2, hi := 2, size := 8, acc := .rws, rd := rCS, wr := rCS },
  { idx := 0x4300, lo := 1, hi := 1, size := 4, acc := .ro, rd := rCFS, wr := 0 },
  { idx := 0x4300, lo := 2, hi := 2, size := 0, acc := .ro, rd := rCS, wr := 0 },
  { idx := 0x4300, lo := 3, hi := 3, size := 4, acc := .wo, rd := 0, wr := rCS },
  { idx := 0x4310, lo := 1, hi := 1, size := 0, acc := .ro, rd := rCS, wr := 0 },
  { idx := 0x4400, lo := 1, hi := 1, size := 0, acc := .ro, rd := rCFS, wr := 0 }]

/-- Security entries (R515). -/
def odSecurity : List OdEnt := [
  { idx := 0x5000, lo := 1, hi := 1, size := 8, acc := .ro, rd := rCFS, wr := 0 },
  { idx := 0x5001, lo := 1, hi := 3, size := 0, acc := .ro, rd := rCFS, wr := 0, fixed := 32 },
  { idx := 0x5002, lo := 1, hi := 6, size := 1, acc := .ro, rd := rCFS, wr := 0 },
  { idx := 0x5003, lo := 1, hi := 8, size := 0, acc := .ro, rd := rCS, wr := 0, fixed := 32 },
  { idx := 0x5004, lo := 1, hi := 1, size := 0, acc := .ro, rd := rCFS, wr := 0, fixed := 32 },
  { idx := 0x5010, lo := 1, hi := 1, size := 0, acc := .ro, rd := rC, wr := 0, fixed := 32 },
  { idx := 0x5010, lo := 2, hi := 2, size := 0, acc := .wo, rd := 0, wr := rC, fixed := 7952 },
  { idx := 0x5011, lo := 1, hi := 1, size := 4, acc := .wo, rd := 0, wr := rCS,
    fields := [rsv 0 26, enc 26 2 [(0, 2)], enc 28 4 [(1, 2)]] },
  { idx := 0x5020, lo := 1, hi := 1, size := 0, acc := .wo, rd := 0, wr := rC, fixed := 32 },
  { idx := 0x5020, lo := 2, hi := 2, size := 0, acc := .ro, rd := rC, wr := 0, fixed := 17600 }]

/-- Run-control entries. Nonzero read-only fields in a write of CONTEXT_PAUSE or ADMISSION are refused as reserved bits are
(notes/assumptions/87.md). -/
def odRun : List OdEnt := [
  { idx := 0x6100, lo := 1, hi := 1, size := 4, acc := .wo, rd := 0, wr := rCS,
    fields := [rsv 0 24, enc 28 4 [(1, 4)]] },
  { idx := 0x6111, lo := 1, hi := 1, size := 4, acc := .wo, rd := 0, wr := rCS,
    fields := [rsv 0 24, rng 24 4 0 5, enc 28 4 [(1, 2)]] },
  { idx := 0x6120, lo := 1, hi := 1, size := 8, acc := .wo, rd := 0, wr := rCS,
    fields := [rsv 42 6, enc 58 2 [(0, 2)], enc 60 4 [(1, 3)]] },
  { idx := 0x6120, lo := 2, hi := 2, size := 8, acc := .ro, rd := rCFS, wr := 0 },
  { idx := 0x6121, lo := 1, hi := 1, size := 0, acc := .wo, rd := 0, wr := rC },
  { idx := 0x6130, lo := 1, hi := 16, size := 8, acc := .wo, rd := 0, wr := rCS,
    fields := [rsv 0 20, enc 60 4 [(1, 2)]] },
  { idx := 0x6140, lo := 1, hi := 16, size := 4, acc := .rw, rd := rCS, wr := rCS, fields := [rsv 1 31] },
  { idx := 0x6145, lo := 1, hi := 16, size := 8, acc := .rw, rd := rCS, wr := rCS },
  { idx := 0x6150, lo := 1, hi := 64, size := 8, acc := .rw, rd := rCS, wr := rCS, fields := [rsv 0 12] },
  { idx := 0x6151, lo := 1, hi := 16, size := 8, acc := .rw, rd := rCS, wr := rCS,
    fields := [rsv 0 14, rng 14 24 0 8388608] },
  { idx := 0x6152, lo := 1, hi := 16, size := 4, acc := .rw, rd := rCS, wr := rCS,
    fields := [rng 0 16 256 32768, rsv 16 16] },
  { idx := 0x6153, lo := 1, hi := 16, size := 8, acc := .rw, rd := rCS, wr := rCS, dflt := 0x0000000066660000,
    fields := [rsv 0 16] },
  { idx := 0x6154, lo := 1, hi := 16, size := 8, acc := .rw, rd := rCS, wr := rCS, fields := [rsv 0 32] },
  { idx := 0x6155, lo := 1, hi := 16, size := 8, acc := .rw, rd := rCS, wr := rCS },
  { idx := 0x6160, lo := 1, hi := 1, size := 8, acc := .rw, rd := rCS, wr := rCS, fields := [rsv 2 30, rsv 56 8] },
  { idx := 0x6160, lo := 2, hi := 2, size := 8, acc := .rw, rd := rCS, wr := rCS },
  { idx := 0x6170, lo := 1, hi := 1, size := 8, acc := .rw, rd := rCS, wr := rCS, fields := [rsv 0 16, rsv 40 3] },
  { idx := 0x6171, lo := 1, hi := 16, size := 4, acc := .rw, rd := rCS, wr := rCS, fields := [rsv 0 22] },
  { idx := 0x6180, lo := 1, hi := 1, size := 4, acc := .rw, rd := rCS, wr := rCS,
    fields := [enc 0 2 [(0, 1)], rsv 2 30] },
  { idx := 0x6190, lo := 1, hi := 16, size := 4, acc := .wo, rd := 0, wr := rCS,
    fields := [rsv 0 28, enc 28 4 [(1, 3)]] },
  { idx := 0x6191, lo := 1, hi := 1, size := 4, acc := .wo, rd := 0, wr := rCS, fields := [rsv 0 17] },
  { idx := 0x6192, lo := 1, hi := 1, size := 4, acc := .wo, rd := 0, wr := rCS,
    fields := [enc 0 2 [(1, 3)], rsv 2 14] },
  { idx := 0x6193, lo := 1, hi := 16, size := 8, acc := .rw, rd := rCS, wr := rCS },
  { idx := 0x61A0, lo := 1, hi := 4, size := 4, acc := .rw, rd := rCS, wr := rCS, fields := [rsv 8 24] }]

/-- The whole dictionary. -/
def odTable : List OdEnt := odIdentity ++ odConfig ++ odStatusEnts ++ odTally ++ odSecurity ++ odRun

/-- Key of an entry in the tables of the dictionary. -/
def odKey (idx sub : Nat) : Nat := idx * 256 + sub

/-- The row of an entry. -/
def odFind (idx sub : Nat) : Option OdEnt := odTable.find? fun e => e.idx == idx && e.lo ≤ sub && sub ≤ e.hi

/-- Some row has the index. -/
def odIndexKnown (idx : Nat) : Bool := odTable.any fun e => e.idx == idx

/-- The highest subindex in use (R445). -/
def odMaxSub (idx : Nat) : Nat := (odTable.filter fun e => e.idx == idx).foldl (fun m e => max m e.hi) 0

/-- Roles that may read or write any subindex (R445). -/
def odRoles (idx : Nat) : BitVec 3 :=
  (odTable.filter fun e => e.idx == idx).foldl (fun m e => m ||| e.rd ||| e.wr) 0

/-- The default of an entry. -/
def odDefault (key : Nat) : BitVec 64 :=
  match odFind (key / 256) (key % 256) with
  | some e => e.dflt
  | none => 0

/-- The bits of a field. -/
def fieldOf (v : BitVec 64) (lo width : Nat) : Nat := (v.toNat / 2 ^ lo) % 2 ^ width

/-- The lowest bit of the first field, from bit 0 up, that uses a reserved bit or encoding (R19, R449). -/
def badReserved (e : OdEnt) (v : BitVec 64) : Option Nat :=
  (e.fields.find? fun f =>
    !f.allow.isEmpty && !(f.allow.any fun p => p.1 ≤ fieldOf v f.lo f.width && fieldOf v f.lo f.width ≤ p.2)).map (·.lo)

/-- The lowest bit of the first field outside its stated range (R448, R449). -/
def badRange (e : OdEnt) (v : BitVec 64) : Option Nat :=
  (e.fields.find? fun f =>
    match f.range with
    | some (a, b) => !(a ≤ fieldOf v f.lo f.width && fieldOf v f.lo f.width ≤ b)
    | none => false).map (·.lo)

/-- Every RWS entry as (index, subindex, size), in ascending order (R455, R473). -/
def rwsEntries : List (Nat × Nat × Nat) :=
  (odTable.filter fun e => decide (e.acc = .rws)).flatMap fun e =>
    (List.range (e.hi + 1 - e.lo)).map fun i => (e.idx, e.lo + i, e.size)

end Sys2Proof.Machine
end

