-- ==== Sys2Proof/Machine/Ops.lean ====
section
/-! DEFINITION. The named operations over the state that every family of commands shares: bit fields, byte order, memory
lines, geometry, lookup and update of tiles and contexts, configuration, events, tally faults, epochs, version records,
stop orders and tile exceptions, and the issue of a Furrow instruction. -/

namespace Sys2Proof.Machine

/-- What a command answers. -/
abbrev Out := Host.Outcome State Fault Refusal

/-! ### Bits and bytes -/

/-- Bits `lo` to `lo + w - 1` of a number. -/
def bits (n lo w : Nat) : Nat := n / 2 ^ lo % 2 ^ w

/-- Bit `i` of a number. -/
def bitAt (n i : Nat) : Bool := n / 2 ^ i % 2 == 1

/-- One for true. -/
def b2n (b : Bool) : Nat := if b then 1 else 0

/-- The little-endian number of a list of bytes (R399, R538). -/
def leNat : List Byte → Nat
  | [] => 0
  | b :: t => b.toNat + 256 * leNat t

/-- The first `n` bytes of a number, little-endian. -/
def toLE : Nat → Nat → List Byte
  | 0, _ => []
  | n + 1, v => BitVec.ofNat 8 v :: toLE n (v / 256)

/-- Sign extension of the low `w` bits of a number. -/
def signed (w n : Nat) : Int :=
  let v := n % 2 ^ w
  if 2 * v < 2 ^ w then (v : Int) else (v : Int) - 2 ^ w

/-- The bytes of a 64 B line. -/
def lineBytes (d : LineData) : List Byte := toLE 64 d.toNat

/-- A 64 B line of bytes. -/
def lineOf (l : List Byte) : LineData := BitVec.ofNat 512 (leNat (l.take 64))

/-! ### Byte memories -/

/-- The byte a cell list holds; an unlisted address reads as zero (notes/assumptions/7.md). -/
def cellGet (m : List Host.Cell) (a : Nat) : Byte := mget m 0 a

/-- The cell list with one byte written. -/
def cellPut (m : List Host.Cell) (a : Nat) (b : Byte) : List Host.Cell := mset m 0 a b

/-- Bytes read from `a` on. -/
def cellRead (m : List Host.Cell) : Nat → Nat → List Byte
  | _, 0 => []
  | a, n + 1 => cellGet m a :: cellRead m (a + 1) n

/-- Bytes written from `a` on. -/
def cellWrite (m : List Host.Cell) : Nat → List Byte → List Host.Cell
  | _, [] => m
  | a, b :: t => cellWrite (cellPut m a b) (a + 1) t

/-- The cell list with `n` bytes from `a` on set to zero. -/
def cellClear (m : List Host.Cell) (a n : Nat) : List Host.Cell := m.filter fun c => c.1 < a || a + n ≤ c.1

/-- The canonical form of a cell list: addresses strictly rising, no byte equal to what an unlisted address reads as. -/
def cellsWf : List Host.Cell → Bool
  | [] => true
  | [c] => c.2 != 0
  | c :: d :: t => c.2 != 0 && c.1 < d.1 && cellsWf (d :: t)

/-- Local memory in canonical form. -/
def Memory.wf (s : State) : Bool := cellsWf s.mem.data

/-! ### Geometry (R21, R25, R30, R32) -/

/-- The key of a logical tile. -/
def tkey (x y : Nat) : Nat := 128 * y + x

/-- The key of a coordinate. -/
def ckey (c : Coord) : Nat := tkey c.x c.y

/-- The coordinate of a key. -/
def keyXY (k : Nat) : Coord := ⟨k % 128, k / 128⟩

/-- Columns of the grid in force (R30). -/
def gridW (s : State) : Nat := if s.gleaner.trimmed then 96 else 112

/-- The coordinate is one of the grid in force. -/
def inGrid (s : State) (c : Coord) : Bool := c.x < gridW s && c.y < 48

/-- The number of a quarter, in the order of every per-quarter entry (R119). -/
def quarterNum : Quarter → Nat
  | .nw => 0
  | .ne => 1
  | .sw => 2
  | .se => 3

/-- The quarter of a logical coordinate. -/
def quarterOf (s : State) (c : Coord) : Nat := (if gridW s / 2 ≤ c.x then 1 else 0) + (if 24 ≤ c.y then 2 else 0)

/-- A definition's rectangle in tiles: west, north, width, height (R32). -/
def CtxDef.x0 (d : CtxDef) : Nat := 8 * d.px0
def CtxDef.y0 (d : CtxDef) : Nat := 8 * d.py0
def CtxDef.w (d : CtxDef) : Nat := 8 * (d.px1 + 1 - d.px0)
def CtxDef.h (d : CtxDef) : Nat := 8 * (d.py1 + 1 - d.py0)

/-- The coordinate lies in the rectangle. -/
def CtxDef.has (d : CtxDef) (c : Coord) : Bool :=
  d.x0 ≤ c.x && c.x < d.x0 + d.w && d.y0 ≤ c.y && c.y < d.y0 + d.h

/-- The tiles of a rectangle, row by row, west to east. -/
def CtxDef.tiles (d : CtxDef) : List Coord :=
  (List.range d.h).flatMap fun j => (List.range d.w).map fun i => ⟨d.x0 + i, d.y0 + j⟩

/-- Keys of the tiles of a rectangle. -/
def CtxDef.keys (d : CtxDef) : List Nat := d.tiles.map ckey

/-- The relative coordinate code of a message (R74): x in bits 6:0, y in bits 13:7. -/
def CtxDef.relCode (d : CtxDef) (c : Coord) : Nat := (c.x - d.x0) + 128 * (c.y - d.y0)

/-- The quarters a context occupies. -/
def CtxDef.quarters (s : State) (d : CtxDef) : List Nat :=
  (List.range 4).filter fun q => d.tiles.any fun c => quarterOf s c == q

/-! ### Lookup and update -/

/-- The tile at a key. -/
def State.tile (s : State) (k : Nat) : Tile := mget s.tiles {} k

/-- The state with one tile replaced. -/
def State.setTile (s : State) (k : Nat) (t : Tile) : State := { s with tiles := mput s.tiles k t }

/-- The state with one tile changed. -/
def State.modTile (s : State) (k : Nat) (f : Tile → Tile) : State := s.setTile k (f (s.tile k))

/-- The context of a number, if it is live. -/
def State.ctx (s : State) (c : Nat) : Option Ctx := mfind s.ctxs c

/-- The state with a context written. -/
def State.setCtx (s : State) (c : Nat) (x : Ctx) : State := { s with ctxs := mput s.ctxs c x }

/-- The state with a live context changed. -/
def State.modCtx (s : State) (c : Nat) (f : Ctx → Ctx) : State :=
  match s.ctx c with
  | some x => s.setCtx c (f x)
  | none => s

/-- The state with the running part of a live context changed. -/
def State.modRun (s : State) (c : Nat) (f : CtxRun → CtxRun) : State := s.modCtx c fun x => { x with run := f x.run }

/-- The state with the recovery part of a live context changed. -/
def State.modRec (s : State) (c : Nat) (f : CtxRec → CtxRec) : State := s.modCtx c fun x => { x with rec_ := f x.rec_ }

/-- The state with the tally of a live context changed. -/
def State.modTally (s : State) (c : Nat) (f : CtxTally → CtxTally) : State :=
  s.modCtx c fun x => { x with tally := f x.tally }

/-- The live context whose rectangle holds a coordinate (R32: no plot belongs to two). -/
def ctxAt (s : State) (p : Coord) : Option (Nat × Ctx) := s.ctxs.find? fun c => c.2.cdef.has p

/-- The per-quarter counters changed (R119, R177, R225, R258, R363). -/
def State.count (s : State) (q : Nat) (f : QCounts → QCounts) : State := { s with counts := mmod s.counts {} q f }

/-- A new free value: its number, and the state that has counted it (notes/assumptions/3.md). -/
def State.draw (s : State) : Nat × State := (s.draws, { s with draws := s.draws + 1 })

/-- Tile cycles of the tile's quarter (R46). -/
def tileCycles (s : State) (p : Coord) : Nat := (mget s.clk.qs {} (quarterOf s p)).cycles.toNat

/-! ### Configuration (R455 to R460) -/

/-- The value of an entry in the active set. -/
def cfgActive (s : State) (idx sub : Nat) : DWord := mget s.dict.active (odDefault (odKey idx sub)) (odKey idx sub)

/-- The value in force of an entry that takes effect at the first step boundary after a swap (R460). -/
def cfgInForce (s : State) (idx sub : Nat) : DWord := mget s.dict.inForce (odDefault (odKey idx sub)) (odKey idx sub)

/-- The value of an RW entry. -/
def rwGet (s : State) (idx sub : Nat) : DWord := mget s.dict.rw (odDefault (odKey idx sub)) (odKey idx sub)

/-- An RW entry written. -/
def rwPut (s : State) (idx sub : Nat) (v : DWord) : State :=
  { s with dict := { s.dict with rw := mset s.dict.rw (odDefault (odKey idx sub)) (odKey idx sub) v } }

/-- A field of an entry in force. -/
def cfgField (s : State) (idx sub lo w : Nat) : Nat := bits (cfgInForce s idx sub).toNat lo w

/-- TXN_REMOTE in microseconds (R383). -/
def txnRemoteUs (s : State) : Nat := 100 * cfgField s 0x22A0 1 16 8

/-- The steward time base in microseconds. -/
def now (s : State) : Nat := s.clk.timeUs

/-! ### Events (R428) -/

/-- An event raised: numbered, placed in the ring of 1,024, the oldest overwritten when the ring is full. -/
def raise (s : State) (name : Ev) (data : List Nat) : State :=
  let e : Event := { seq := s.events.next, name := name, time := BitVec.ofNat 64 (now s), data := data.map (BitVec.ofNat 64 ·) }
  let full := 1024 ≤ s.events.ring.length
  let lost := full && s.events.undelivered == 1024
  { s with
    events :=
      { ring := (if full then s.events.ring.drop 1 else s.events.ring) ++ [e]
        next := s.events.next + 1
        undelivered := if lost then 1024 else s.events.undelivered + 1
        dropped := if lost then satAdd s.events.dropped 1 65535 else s.events.dropped } }

/-! ### Fault entries of the tally (R401) -/

/-- Entries sealed for a step number so far, which is the ATTEMPT of the next (R398). -/
def CtxTally.attempt (t : CtxTally) (step : DWord) : Nat := ((t.sealedCounts.find? fun p => p.1 == step).map (·.2)).getD 0

/-- A count in a list keyed by step number, raised by one. -/
def bump : List (DWord × Nat) → DWord → List (DWord × Nat)
  | [], k => [(k, 1)]
  | (a, n) :: t, k => if a = k then (a, n + 1) :: t else (a, n) :: bump t k

/-- The step a happening belongs to: the one in progress, or the next one once the version is committed (R420). -/
def CtxRun.faultStep (r : CtxRun) : DWord :=
  if r.phase = .committed ∨ r.phase = .sealed_ then r.step + 1 else r.step

/-- A fault entry added to a context's list of 64, or counted as dropped. -/
def addFault (s : State) (c kind : Nat) (detail : DWord) : State :=
  s.modCtx c fun x =>
    let st := x.run.faultStep
    let t := x.tally
    { x with tally :=
        if t.faults.length < 64 then
          { t with faults := t.faults ++ [
              { time := now s, kind := BitVec.ofNat 8 kind, attempt := BitVec.ofNat 8 (t.attempt st)
                detail := detail, step := st }] }
        else { t with dropped := bump t.dropped st } }

/-- A fault entry added to every live context. -/
def addFaultAll (s : State) (kind : Nat) (detail : DWord) : State :=
  s.ctxs.foldl (fun s p => addFault s p.1 kind detail) s

/-! ### Version records (R278 to R283) -/

/-- A version record: steps and states of its slots, NEWEST, BUILD, SLOTS and COMMITS (R281). -/
structure VerRec where
  steps : List Nat
  states : List Nat
  newest : Nat
  build : Nat
  slots : Nat
  commits : Nat
  deriving DecidableEq, Repr

/-- The record a line holds. -/
def VerRec.ofLine (n : Nat) : VerRec :=
  { steps := (List.range 5).map fun i => bits n (448 - 64 * i) 64
    states := (List.range 5).map fun i => bits n (176 + 2 * i) 2
    newest := bits n 173 3
    build := bits n 170 3
    slots := bits n 167 3
    commits := bits n 128 32 }

/-- The line of a record. -/
def VerRec.toLine (v : VerRec) : Nat :=
  ((List.range 5).foldl (fun a i => a + (v.steps.getD i 0 % 2 ^ 64) * 2 ^ (448 - 64 * i)
      + (v.states.getD i 0 % 4) * 2 ^ (176 + 2 * i)) 0)
    + (v.newest % 8) * 2 ^ 173 + (v.build % 8) * 2 ^ 170 + (v.slots % 8) * 2 ^ 167 + (v.commits % 2 ^ 32) * 2 ^ 128

/-- The lowest-numbered free slot of N (R280, R282). -/
def VerRec.freeSlot (v : VerRec) : Nat := ((List.range v.slots).find? fun i => v.states.getD i 0 == 0).getD 0

/-- Slots that are committed. -/
def VerRec.committed (v : VerRec) : List Nat := (List.range v.slots).filter fun i => v.states.getD i 0 == 1

/-- The record at creation (R282). -/
def VerRec.create (n : Nat) (firstStep : DWord) : VerRec :=
  { steps := [(firstStep - 1).toNat, 0, 0, 0, 0], states := [1, 2, 0, 0, 0], newest := 0, build := 1, slots := n, commits := 0 }

/-- How far step number `a` lies behind `b`, modulo 2^64. -/
def stepAge (a b : Nat) : Nat := (b + 2 ^ 64 - a % 2 ^ 64) % 2 ^ 64

/-- The record after a commit of a step (R280, part 2). -/
def VerRec.commit (v : VerRec) (step : Nat) : VerRec :=
  let st1 := v.states.set v.build 1
  let v1 : VerRec := { v with steps := v.steps.set v.build step, states := st1, newest := v.build }
  let oldest := v1.committed.foldl
    (fun o i => if stepAge (v1.steps.getD o 0) step < stepAge (v1.steps.getD i 0) step then i else o) v1.build
  let st2 := if v.slots - 1 < v1.committed.length then st1.set oldest 0 else st1
  let v2 : VerRec := { v1 with states := st2 }
  let b := v2.freeSlot
  { v2 with build := b, states := st2.set b 2, commits := (v.commits + 1) % 2 ^ 32 }

/-- The committed slot that holds a step, if kept. -/
def VerRec.slotOf (v : VerRec) (step : Nat) : Option Nat := v.committed.find? fun i => v.steps.getD i 0 == step

/-- The record rolled back to a committed slot (R282). -/
def VerRec.rollback (v : VerRec) (slot : Nat) : VerRec :=
  let top := v.steps.getD v.newest 0
  let mine := stepAge (v.steps.getD slot 0) top
  let st := (List.range 5).map fun i =>
    if v.states.getD i 0 == 2 then 0
    else if v.states.getD i 0 == 1 && stepAge (v.steps.getD i 0) top < mine then 0
    else v.states.getD i 0
  let v1 : VerRec := { v with states := st, newest := slot }
  let b := v1.freeSlot
  { v1 with build := b, states := st.set b 2, commits := (v.commits + 1) % 2 ^ 32 }

/-- The number that a context's record line holds. -/
def verLine (s : State) (d : CtxDef) : Nat := leNat (cellRead s.mem.data d.verBase 64)

/-- A context's version record. -/
def verRec (s : State) (d : CtxDef) : VerRec := VerRec.ofLine (verLine s d)

/-- A context has a versioned range; its version record stands in either case (R278, R282). -/
def CtxDef.versioned (d : CtxDef) : Bool := d.verW != 0

/-- A line of physical memory written, without poison (R284). -/
def putLine (s : State) (a : Nat) (bs : List Byte) : State :=
  { s with mem := { s.mem with data := cellWrite s.mem.data a bs, poison := sdel s.mem.poison (a / 64) } }

/-- Stripe of a physical offset (R262). -/
def stripeOf (a : Nat) : Nat := bits a 12 4

/-- A stripe. -/
def State.stripe (s : State) (n : Nat) : Stripe := mget s.mem.stripes {} n

/-- An offset of a lost stripe, whose lines are not rewritten (R270). -/
def State.lostAt (s : State) (a : Nat) : Bool := (s.stripe (stripeOf a)).state == 2

/-- Some stripe is lost (R270). -/
def stripeLost (s : State) : Bool := s.mem.stripes.any fun e => e.2.state == 2

/-- First bytes of the lines that a span touches. -/
def spanLines (a n : Nat) : List Nat := (List.range ((a % 64 + n + 63) / 64)).map fun i => 64 * (a / 64 + i)

/-- A span touches a lost stripe. -/
def spanLost (s : State) (a n : Nat) : Bool := stripeLost s && (spanLines a n).any s.lostAt

/-- A line of a span carries poison or lies in a lost stripe, so that reading it delivers poison (R270, R284). -/
def spanPoisoned (s : State) (a n : Nat) : Bool :=
  (s.mem.poison.any fun l => a / 64 ≤ l && 64 * l < a + n) || spanLost s a n

/-- Bytes written to whole lines of memory, without poison; lines of a lost stripe stay as they are (R270, R284). -/
def putBytes (s : State) (a : Nat) (bs : List Byte) : State :=
  if spanLost s a bs.length then
    (spanLines a bs.length).foldl (fun s l =>
      if s.lostAt l then s
      else
        let lo := max a l
        { s with mem := { s.mem with
          data := cellWrite s.mem.data lo ((bs.drop (lo - a)).take (l + 64 - lo)), poison := sdel s.mem.poison (l / 64) } }) s
  else
    { s with mem := { s.mem with
      data := cellWrite s.mem.data a bs
      poison := s.mem.poison.filter fun l => !(a / 64 ≤ l && 64 * l < a + bs.length) } }

/-- A context's version record rewritten in one line write. -/
def putVerRec (s : State) (d : CtxDef) (v : VerRec) : State := putBytes s d.verBase (toLE 64 v.toLine)

/-- The version record cannot be told: its line carries poison or lies in a lost stripe (R285). -/
def recordLost (s : State) (d : CtxDef) : Bool := spanPoisoned s d.verBase 64

/-- Start of a slot (R278). -/
def CtxDef.slotBase (d : CtxDef) (i : Nat) : Nat := d.verBase + 65536 + i * d.verW

/-- The step of the newest committed version. -/
def newestStep (s : State) (x : Ctx) : DWord :=
  let v := verRec s x.cdef
  BitVec.ofNat 64 (v.steps.getD v.newest 0)

/-! ### Epochs (R379) -/

/-- The epoch of a context number. -/
def epochOf (s : State) (c : Nat) : BitVec 8 := mget s.epochs 0 c

/-- The epoch advanced by one, with the time of the advance. -/
def advanceEpoch (s : State) (c : Nat) : State :=
  { s with epochs := mput s.epochs c (epochOf s c + 1), epochAt := mput s.epochAt c (now s) }

/-- The last advance lies within TXN_REMOTE. -/
def epochRecent (s : State) (c : Nat) : Bool :=
  match mfind s.epochAt c with
  | some t => now s < t + txnRemoteUs s
  | none => false

/-! ### Context stop orders (R366 to R373, R393, R396) -/

/-- Causes whose outcome is a recovery (R367). -/
def recoveryCause (cause : Nat) : Bool := cause == 5 || cause == 6 || cause == 7 || cause == 8

/-- The older of two rollback targets, none standing for the newest version. -/
def olderTarget (top : DWord) (a b : Option DWord) : Option DWord :=
  match a, b with
  | none, t => t
  | t, none => t
  | some x, some y => if stepAge x.toNat top.toNat < stepAge y.toNat top.toNat then some y else some x

/-- Union of two lists of tile keys. -/
def unionKeys (a b : List Nat) : List Nat := b.foldl sadd a

/-- Resets of a context within the last 60 s (R393). -/
def recentResets (s : State) (r : CtxRec) : List Nat := r.resets.filter fun t => now s < t + 60000000

/-- R410: what a reset before the commit clears of the record being built. -/
def clearBuild (r : CtxRun) (t : CtxTally) : CtxTally :=
  if r.phase = .committed ∨ r.phase = .sealed_ then t
  else { t with entries := [], bounded := 0, unchecked := 0, focus := [] }

/-- A context's part of the steward's treatment at a stop order: wait edges, windows, pause and the exception state (R84,
R218, R373). -/
def clearSteward (x : Ctx) : Ctx :=
  { x with
    run := { x.run with pauseReq := false, pauseState := 0, excSeen := false }
    rec_ := { x.rec_ with edges := [], reports := [], hang := none } }

/-- Cancels the CONTEXT_PAUSE request of a context in its entry (R218). -/
def clearPauseEntry (s : State) (c : Nat) : State := rwPut s 0x6140 (c + 1) 0

/-- A new context reset begins: epoch, counts, cause, fault entry, steward state (R368, R373, R393, R401). -/
def beginReset (s : State) (c : Nat) (x : Ctx) (cause : Nat) (target : Option DWord) (remap : List Nat) : State :=
  let again := epochRecent s c
  let rcv := recoveryCause cause
  let tgt : Option DWord := if rcv then some (target.getD (newestStep s x)) else none
  let s := addFault s c cause (tgt.getD (BitVec.allOnes 64))
  let s := advanceEpoch s c
  let s := clearPauseEntry s c
  s.modCtx c fun x =>
    let x := clearSteward x
    { x with
      tally := clearBuild x.run x.tally
      rec_ :=
        { x.rec_ with
          state := 2
          cause := BitVec.ofNat 5 cause
          resets := now s :: recentResets s x.rec_
          total := satAdd x.rec_.total 1 65535
          stopDone := []
          target := if rcv then tgt else none
          pending := if rcv then none else x.rec_.pending
          recovering := rcv
          remap := remap
          began := now s
          marks := []
          epochWait := again } }

/-- A further cause reaches a context already resetting or recovering (R396, rows 1 and 2). -/
def mergeCause (s : State) (c : Nat) (x : Ctx) (cause : Nat) (target : Option DWord) (remap : List Nat) : State :=
  let top := newestStep s x
  let tgt : Option DWord := some (target.getD top)
  let old (t : Option DWord) : Option DWord := t.filter fun v => v != top
  if x.rec_.recovering && recoveryCause cause then
    s.modRec c fun r => { r with target := olderTarget top r.target tgt, remap := unionKeys r.remap remap }
  else if x.rec_.recovering then
    s.modRec c fun r =>
      { r with cause := BitVec.ofNat 5 cause, recovering := false, pending := old r.target, target := none, remap := remap }
  else if recoveryCause cause then
    s.modRec c fun r => { r with pending := olderTarget top r.pending (old tgt), remap := unionKeys r.remap remap }
  else s.modRec c fun r => { r with remap := unionKeys r.remap remap }

/-- A context is being admitted: loading, replaying or matching (R321). -/
def admitting (s : State) (c : Nat) : Bool :=
  s.hall.admCtx.toNat == c && (s.hall.admState == 1 || s.hall.admState == 2 || s.hall.admState == 3)

/-- The admission in progress aborts with a cause, and its context begins no step of the job until a later one (R321, R323). -/
def abortAdm (s : State) (cause : Nat) : State :=
  raise ({ s with hall := { s.hall with admState := 6, admCause := BitVec.ofNat 4 cause } }.modRec s.hall.admCtx.toNat fun r =>
    { r with barred := true }) .admissionAborted
    [s.hall.admCtx.toNat, cause]

/-- A context is stopped with a cause (R367), by the state it is in. -/
def stopState (s : State) (c : Nat) (x : Ctx) (cause : Nat) (target : Option DWord) (remap : List Nat) : State :=
  match x.rec_.state.toNat with
  | 1 => beginReset s c x cause target remap
  | 2 => mergeCause s c x cause target remap
  | 3 => if recoveryCause cause then mergeCause s c x cause target remap
         else beginReset (s.modRec c fun r => { r with pending := (r.target).filter fun v => v != newestStep s x })
           c x cause target remap
  | 4 => if recoveryCause cause then
           s.modRec c fun r =>
             { r with
               pending := olderTarget (newestStep s x) r.pending (target.filter fun v => v != newestStep s x)
               remap := unionKeys r.remap remap }
         else beginReset s c x cause target remap
  | 5 => if recoveryCause cause then s.modRec c fun r => { r with remap := unionKeys r.remap remap }
         else beginReset s c x cause target remap
  | _ => s

/-- A context is stopped with a cause: `target` is the rollback target of a recovery, none for the newest version; `remap`
the tiles that the recovery remap must free. A stop cause that reaches a context being admitted is a fault the module cannot
absorb, and the admission aborts with LOCAL_FAULT (R323). -/
def stopCtx (s : State) (c cause : Nat) (target : Option DWord) (remap : List Nat) : State :=
  match s.ctx c with
  | none => s
  | some x =>
    if admitting s c && !recoveryCause cause && cause != 15 then stopState (abortAdm s 5) c x 15 none []
    else stopState s c x cause target remap

/-- A version record that cannot be read is met: the event, and the context reset, after which it stays stopped (R285, R367). -/
def loseRecord (s : State) (c : Nat) : State := stopCtx (raise s .versionRecordLost [c]) c 0x0D none []

/-! ### Tile exceptions (R83, R84) -/

/-- TILE_EXC_RECORD of an exception (R84). -/
def excWord (code : Nat) (d : CtxDef) (p : Coord) (pc : Nat) (slotB : Bool) (detail : Nat) : DWord :=
  BitVec.ofNat 64 ((code % 256) * 2 ^ 56 + ((p.x - d.x0) % 128) * 2 ^ 49 + ((p.y - d.y0) % 64) * 2 ^ 43
    + (pc % 8192) * 2 ^ 30 + b2n slotB * 2 ^ 29 + detail % 2 ^ 29)

/-- A tile exception taken: the tile stops, the first of the step is recorded and its event raised, and the context is
stopped with TILE_EXCEPTION, POISON for POISON_CONSUMED, or TILE_FAULT for IMEM_UNCORRECTABLE (R84, R367). -/
def takeExc (s : State) (p : Coord) (code pc : Nat) (slotB : Bool) (detail : Nat) : State :=
  match ctxAt s p with
  | none => s
  | some (c, x) =>
    let s := s.modTile (ckey p) fun t => { t with core := { t.core with run := .excepted, wait := none, timed := none } }
    let s :=
      if x.run.excSeen then s
      else
        let s := { s with excRec := mput s.excRec c (excWord code x.cdef p pc slotB detail) }
        raise (s.modRun c fun r => { r with excSeen := true }) .tileException [c]
    stopCtx s c (if code == 8 then 5 else if code == 9 then 7 else 4) none (if code == 9 then [ckey p] else [])

/-! ### Conditions of a known-answer measurement (R41, R498) -/

/-- The conditions of INVALID that the module's state shows: the input outside its operating range; a quarter not at /1 or the
root not locked; the coolant outside the limits of workloads 4 and 5; a channel retired. -/
def kaViolated (s : State) (w : Nat) : BitVec 7 :=
  let input := s.pow.inputMv < 40000 || 60000 < s.pow.inputMv
  let slow := s.clk.coasting || s.clk.change.isSome || s.clk.qs.any fun q => q.2.k != 1
  let cool := (w == 4 || w == 5) && (s.pow.inlet < 29 || 31 < s.pow.inlet || s.pow.flow < 400)
  BitVec.ofNat 7 (b2n input + 2 * b2n slow + 4 * b2n cool + 8 * b2n (!s.mem.retired.isEmpty))

/-- Links that are up with fewer than 6 active wavelengths in a direction. -/
def narrowLinks (s : State) : List Nat :=
  (s.hall.links.filter fun e =>
    (e.2.state == 2 || e.2.state == 3) && (e.2.mapTx.length < 6 || e.2.mapRx.length < 6)).map (·.1)

/-- A measurement in progress notes the conditions that are violated now (R41). Every happening that can violate one ends so. -/
def kaWatch (s : State) : State :=
  match s.ka.running with
  | none => s
  | some w =>
    { s with ka := { s.ka with
        invalid := mset s.ka.invalid 0 w (mget s.ka.invalid 0 w ||| kaViolated s w)
        narrow := (narrowLinks s).foldl sadd s.ka.narrow } }

/-! ### Issue of a Furrow instruction (R42, R48, R49, R52, R56 to R59) -/

/-- What the body of an instruction answers. -/
inductive Act where
  /-- The effect is made; the program counter advances. -/
  | fin (s : State)
  /-- The effect is made, the program counter included. -/
  | go (s : State)
  /-- The instruction cannot issue yet. -/
  | stall (w : WaitOn)
  /-- A tile exception with its DETAIL. -/
  | exc (code detail : Nat)

/-- The program counter after the instruction at `pc`, loops and their counters (R57, R58). -/
def advFrames : List LoopFrame → AMap Word → Nat → List LoopFrame × AMap Word × Nat
  | [], c, pc => ([], c, pc + 1)
  | f :: fs, c, pc =>
    if f.last = pc then
      let n := mget c 0 f.ck.toNat
      if 1 < n.toNat then (f :: fs, mput c f.ck.toNat (n - 1), f.first)
      else advFrames fs (mset c 0 f.ck.toNat 0) pc
    else (f :: fs, c, pc + 1)

/-- The predicate's value; p0 reads as 1 (R44). -/
def Core.pred (k : Core) (p : BitVec 3) : Bool := p == 0 || k.p.getLsbD p.toNat

/-- A predicate written; p0 discards (R44). -/
def Core.setPred (k : Core) (p : BitVec 3) (b : Bool) : Core :=
  if p == 0 then k
  else { k with p := if b then k.p ||| (1#8 <<< p.toNat) else k.p &&& ~~~(1#8 <<< p.toNat) }

/-- A scalar register; s0 reads as zero (R44). -/
def Core.sreg (k : Core) (r : BitVec 5) : Word := if r == 0 then 0 else mget k.s 0 r.toNat

/-- A scalar register written; s0 discards (R44). -/
def Core.setS (k : Core) (r : BitVec 5) (w : Word) : Core := if r == 0 then k else { k with s := mset k.s 0 r.toNat w }

/-- The guard of an instruction holds (R48). -/
def Core.guard (k : Core) (h : Hdr) : Bool := k.pred h.pred != h.neg

/-- The tile can issue: it runs, its context runs and is no cluster-mode context, whose tiles take no Ligiune 2 instruction, and
no halt or clock stop holds it (R42, R86, R373, R435, R512). -/
def canIssue (s : State) (p : Coord) : Bool :=
  (match ctxAt s p with
   | some (_, x) => x.rec_.state == 1 && !x.cdef.cluster
   | none => false)
  && (s.tile (ckey p)).core.run == .running && !(s.tile (ckey p)).core.halted && !s.clk.tilesStopped

/-- The program counter moved past the instruction at `pc`; past index 8,191 the next fetch raises PC_RANGE (R56). -/
def advanceAt (s : State) (p : Coord) (pc : Nat) : State :=
  let t := s.tile (ckey p)
  let r := advFrames t.core.loops t.core.c pc
  if r.2.2 < 8192 then
    s.setTile (ckey p) { t with core := { t.core with loops := r.1, c := r.2.1, pc := BitVec.ofNat 13 r.2.2, wait := none, issued := t.core.issued + 1 } }
  else
    let n := s.draws
    takeExc s.draw.2 p 0x0A 8191 (Config.fetchFaultSlot n) 0

/-- The program counter moved past the present instruction. -/
def advance (s : State) (p : Coord) : State := advanceAt s p (s.tile (ckey p)).core.pc.toNat

/-- The word at the program counter, where the loaded code block reaches it (R44, R79). -/
def Core.fetched (k : Core) : Option Word := if 1024 ≤ k.pc.toNat then k.prog[k.pc.toNat - 1024]? else none

/-- The word at the program counter, if it is one that no instruction has (R50 to R52). -/
def Core.reservedWord (k : Core) : Option Word := k.fetched.filter fun w => (furrowDecode ⟨0, 0⟩ w).isNone

/-- The slot of a class (R50), for SLOT of the record (R84); class 0xF has none (notes/assumptions/3.md). -/
def wordSlot (w : Word) (n : Nat) : Bool :=
  match bits w.toNat 28 4 with
  | 8 => true
  | 9 => true
  | 11 => true
  | 15 => Config.fetchFaultSlot n
  | _ => false

/-- The issue of an instruction: a reserved word or an invalid encoding raises ILLEGAL_INSTR whatever the guard, a false guard
only takes its cycle, and otherwise the body decides (R49, R52). -/
def issueAny (h : Hdr) (slotB invalid : Bool) (s : State) (body : Tile → Act) : Out :=
  if canIssue s h.t then
    let t := s.tile (ckey h.t)
    let pc := t.core.pc.toNat
    match t.core.reservedWord with
    | some w => .next (takeExc s.draw.2 h.t 1 pc (wordSlot w s.draws) 0)
    | none =>
    if h.unused != 0 || invalid then .next (takeExc s h.t 1 pc slotB 0)
    else if !t.core.guard h then .next (advance s h.t)
    else
      match body t with
      | .fin s' => .next (advance s' h.t)
      | .go s' => .next s'
      | .stall w => .next (s.setTile (ckey h.t) { t with core := { t.core with wait := some w } })
      | .exc code detail => .next (takeExc s h.t code pc slotB detail)
  else .next s

/-- The issue of an instruction other than a timed wait: none issues while a timed wait is in progress (R77). -/
def issue (h : Hdr) (slotB invalid : Bool) (s : State) (body : Tile → Act) : Out :=
  if (s.tile (ckey h.t)).core.timed.isSome then .next s else issueAny h slotB invalid s body

/-- A timed wait (R77): the predicate is 1 when the condition holds; otherwise the wait stands until it does or expires. -/
def timedWait (h : Hdr) (s : State) (t : Tile) (on : WaitOn) (met : Bool) (pd : BitVec 3) (timeout : Word) : Act :=
  if met then .fin (s.modTile (ckey h.t) fun t => { t with core := { t.core.setPred pd true with timed := none } })
  else
    .go (s.setTile (ckey h.t)
      { t with core := { t.core with timed := (match t.core.timed with
          | some w => some w
          | none => some ⟨on, pd, timeout⟩) } })

end Sys2Proof.Machine
end

