-- ==== Sys2Proof/Machine/Flags.lean ====
section
/-! DEFINITION. FP_FLAGS (R47) and the counters of tensor results (R138). -/

namespace Sys2Proof.Machine

/-- Sticky flags set in FP_FLAGS (R47). -/
def Core.addFlags (k : Core) (f : BitVec 5) : Core := { k with fpFlags := k.fpFlags ||| f }

/-- The flags of a list of lanes together. -/
def orFlags (l : List LaneRes) : BitVec 5 := l.foldl (fun a r => a ||| r.2) 0

/-- NV of a comparison lane with a NaN operand: not said for `vcmplt` and `vcmpeq` (notes/assumptions/15.md). -/
def cmpFlags (less : Bool) (a b : Num) : BitVec 5 :=
  if a.isNan || b.isNan then flagIf (if less then Config.nanLessInvalid else Config.nanEqualInvalid) flagNV else 0

/-- `floor (log2 |r|)` of a finite nonzero result. -/
def Num.exp2 (x : Num) : Option Int :=
  match x with
  | .fin _ m e => if m = 0 then none else some ((Nat.log2 m : Int) + e)
  | _ => none

/-- What one narrowing result adds to its tensor's counters (R138): the source, the result with its scale applied, and
whether it saturated. -/
def convCount (tensor : Word) (src res : Num) (sat : Bool) : TallyEnt :=
  { tensor := tensor
    nonzero := b2n (!res.special && !res.isZero)
    flush := b2n (!src.special && !src.isZero && res.isZero)
    saturate := b2n sat
    nanInf := b2n (src.special || res.special)
    expMin := res.exp2
    expMax := res.exp2 }

end Sys2Proof.Machine
end

