-- ==== Sys2Proof/Machine/BinOps.lean ====
section
/-! DEFINITION. Operations on a tile's bin and sheaf buffer: translation by the handle table, checked line reads, masked and
full writes, gather entries, the capture lane, and the tile's table of tensor counters (chapter Bins and the Sheaf Buffer;
R138, R402 to R405). -/

namespace Sys2Proof.Machine

/-! ### Handle table (R159, R160) -/

def hBase (h : DWord) : Nat := bits h.toNat 52 12
def hLen (h : DWord) : Nat := bits h.toNat 39 13
def hPhys (h : DWord) : Nat := bits h.toNat 27 12
def hWays (h : DWord) : Nat := 2 ^ bits h.toNat 25 2
def hKeep (h : DWord) : Bool := bitAt h.toNat 24
def hZero (h : DWord) : Bool := bitAt h.toNat 23

/-- The physical line of a logical line under one entry (R160). -/
def hMap (h : DWord) (l : Nat) : Option Nat :=
  if hBase h ≤ l && l < hBase h + hLen h then
    some (hPhys h + 8 * ((l - hBase h) / hWays h) + (l - hBase h) % hWays h)
  else none

/-- The physical line of a logical line (R160, R162). -/
def physLine (t : Tile) (l : Nat) : Option Nat := t.handles.findSome? fun p => hMap p.2 l

/-- The first logical line of a span that no handle maps (R162). -/
def firstUnmapped (t : Tile) (l n : Nat) : Option Nat :=
  (List.range n).findSome? fun i => if (physLine t (l + i)).isNone then some (l + i) else none

/-- The logical line a physical line stands for, for a trace record; line 0 where no handle maps it (R172,
notes/assumptions/94.md). -/
def logLine (t : Tile) (p : Nat) : Nat := ((List.range 4096).find? fun l => physLine t l == some p).getD 0

/-! ### Lines (R157, R158, R174, R178) -/

/-- The bytes of a physical line as one little-endian number. -/
def Bin.lineNat (b : Bin) (p : Nat) : Nat := leNat (cellRead b.data (64 * p) 64)

/-- A line's parity and tag copies are in order (R158, R173). -/
def Bin.lineOk (b : Bin) (p : Nat) : Bool :=
  !(b.badParity.any fun a => a / 64 == p) && (b.tagA.contains p == b.tagB.contains p)

/-- A line's poison tag. -/
def Bin.tag (b : Bin) (p : Nat) : Bool := b.tagA.contains p

/-- The bytes of a number that a mask selects, as address and byte. -/
def maskBytes (p : Nat) (mask : BitVec 64) (data : Nat) : List (Nat × Byte) :=
  (List.range 64).filterMap fun i =>
    if mask.getLsbD i then some (64 * p + i, BitVec.ofNat 8 (data / 256 ^ i)) else none

/-- A masked write: data and parity of the bytes written, tag set by poison and otherwise left; a full-line write sets or
clears the tag (R158, R174, R178). -/
def Bin.write (b : Bin) (p : Nat) (mask : BitVec 64) (data : Nat) (poison : Bool) : Bin :=
  let full := mask == BitVec.allOnes 64
  let bs := maskBytes p mask data
  { b with
    data := bs.foldl (fun m c => cellPut m c.1 c.2) b.data
    badParity := b.badParity.filter fun a => !(bs.any fun c => c.1 == a)
    tagA := if full || poison then sset b.tagA p poison else b.tagA
    tagB := if full || poison then sset b.tagB p poison else b.tagB }

/-- A full-line write. -/
def Bin.writeLine (b : Bin) (p data : Nat) (poison : Bool) : Bin := b.write p (BitVec.allOnes 64) data poison

/-- A line set to +0 with correct parity and no tag (R176, R181). -/
def Bin.zeroLine (b : Bin) (p : Nat) : Bin := b.writeLine p 0 false

/-- The whole bin set to +0 (R181). -/
def Bin.zeroFill (b : Bin) : Bin := { b with data := [], badParity := [], tagA := [], tagB := [], gather := [], capture := [] }

/-- Lines of a bank set to +0 (R181). -/
def Bin.zeroBank (b : Bin) (k : Nat) : Bin :=
  { b with
    data := b.data.filter fun c => c.1 / 64 % 8 != k
    badParity := b.badParity.filter fun a => a / 64 % 8 != k
    tagA := b.tagA.filter fun p => p % 8 != k
    tagB := b.tagB.filter fun p => p % 8 != k }

/-! ### Gather entries (R165 to R168) -/

/-- The pending gather entry of a line. -/
def Bin.gatherOf (b : Bin) (p : Nat) : Option Gather := b.gather.find? fun g => g.line == p && g.mask != 0

/-- The pending gather entry of a line written back as one masked write (R166, R168). -/
def Bin.writeBack (b : Bin) (p : Nat) : Bin :=
  match b.gatherOf p with
  | none => b
  | some g =>
    let b1 := b.write p g.mask g.data.toNat false
    { b1 with gather := b.gather.map fun (g : Gather) => if g.line == p then { g with mask := 0 } else g }

/-- Every pending gather entry written back (R166, R183). -/
def Bin.writeBackAll (b : Bin) : Bin := b.gather.foldl (fun (b : Bin) (g : Gather) => if g.mask = 0 then b else b.writeBack g.line) b

/-- Mask of `n` bytes at byte `i` of a line. -/
def byteMask (i n : Nat) : BitVec 64 := BitVec.ofNat 64 ((2 ^ n - 1) * 2 ^ i)

/-- The bytes of a mask as a mask of bits. -/
def bitMask (m : BitVec 64) : LineData :=
  BitVec.ofNat 512 ((List.range 64).foldl (fun a i => if m.getLsbD i then a + 255 * 256 ^ i else a) 0)

/-- Bytes merged into a gather entry. -/
def Gather.put (g : Gather) (i n v : Nat) : Gather :=
  let m := byteMask i n
  { g with
    mask := g.mask ||| m
    data := (g.data &&& ~~~(bitMask m)) ||| BitVec.ofNat 512 ((v % 256 ^ n) * 256 ^ i) }

/-- The bin with a gather entry for a line: without one the entry least recently allocated of the 8 is allocated, and written back
first if it is pending (R166). The second part lists the lines written back. -/
def Bin.alloc (b : Bin) (p : Nat) : Bin × List Nat :=
  match b.gatherOf p, b.gather with
  | some _, _ => (b, [])
  | none, [] => ({ b with gather := [⟨p, 0, 0⟩] }, [])
  | none, g :: r =>
    if 8 ≤ (g :: r).length then
      let b1 := if g.mask = 0 then b else b.writeBack g.line
      ({ b1 with gather := b1.gather.drop 1 ++ [⟨p, 0, 0⟩] }, if g.mask = 0 then [] else [g.line])
    else ({ b with gather := b.gather ++ [⟨p, 0, 0⟩] }, [])

/-- Bytes merged into the gather entry of a line: the pending one, or the one just allocated, which is the last. -/
def putGather (p i n v : Nat) : List Gather → List Gather
  | [] => []
  | g :: r => if g.line == p && (g.mask != 0 || r.isEmpty) then g.put i n v :: r else g :: putGather p i n v r

/-- A scalar store merged into the gather entry of its line, which is allocated, and written back when full (R166). The
second part lists the lines written back. -/
def Bin.store (b : Bin) (p i n v : Nat) : Bin × List Nat :=
  let r := b.alloc p
  let b1 : Bin := { r.1 with gather := putGather p i n v r.1.gather }
  match b1.gatherOf p with
  | some g => if g.mask == BitVec.allOnes 64 then (b1.writeBack p, r.2 ++ [p]) else (b1, r.2)
  | none => (b1, r.2)

/-! ### Checked reads (R167, R168, R173) -/

/-- What a read of a bin line gives. -/
inductive BinRead where
  | unmapped
  | failed (p : Nat)
  | ok (data : Nat) (poison : Bool)
  deriving DecidableEq, Repr

/-- A line read by any requester but a scalar load: the pending gather entry is written back first (R168). -/
def readLine (t : Tile) (l : Nat) : Tile × BinRead :=
  match physLine t l with
  | none => (t, .unmapped)
  | some p =>
    let b := t.bin.writeBack p
    let t := { t with bin := b }
    if b.lineOk p then (t, .ok (b.lineNat p) (b.tag p)) else (t, .failed p)

/-- Lines read in order from a logical line; the first failure ends it. -/
def readLines (t : Tile) : Nat → Nat → Tile × BinRead
  | _, 0 => (t, .ok 0 false)
  | l, n + 1 =>
    match readLine t l with
    | (t, .ok d p) =>
      match readLines t (l + 1) n with
      | (t, .ok e q) => (t, .ok (d + e * 2 ^ 512) (p || q))
      | r => r
    | r => r

/-- A logical line written whole, after a pending gather entry is written back (R168, R178). -/
def writeLogLine (t : Tile) (l data : Nat) (poison : Bool) : Tile :=
  match physLine t l with
  | none => t
  | some p => { t with bin := (t.bin.writeBack p).writeLine p data poison }

/-- Bytes written at a bin address, line by line, whole lines as full-line writes and the rest as masked ones (R178). -/
def writeSpan (t : Tile) (addr : Nat) (bs : List Byte) : Tile :=
  let first := addr / 64
  let last := (addr + bs.length - 1) / 64
  if bs.isEmpty then t
  else (List.range (last + 1 - first)).foldl (fun t i =>
    let l := first + i
    match physLine t l with
    | none => t
    | some p =>
      let lo := if addr < 64 * l then 0 else addr - 64 * l
      let hi := min 64 (addr + bs.length - 64 * l)
      let part := (bs.drop (64 * l + lo - addr)).take (hi - lo)
      { t with bin := (t.bin.writeBack p).write p (byteMask lo (hi - lo)) (leNat part * 256 ^ lo) false }) t

/-! ### Tensor counters of a tile (R138, R404, R405) -/

/-- Sum of two saturating counters. -/
def satSum (w a b : Nat) : Nat := satAdd a b (2 ^ w - 1)

/-- Minimum of two recorded exponents. -/
def optMin (a b : Option Int) : Option Int :=
  match a, b with
  | some x, some y => some (min x y)
  | some x, none => some x
  | none, y => y

/-- Maximum of two recorded exponents. -/
def optMax (a b : Option Int) : Option Int :=
  match a, b with
  | some x, some y => some (max x y)
  | some x, none => some x
  | none, y => y

/-- One entry added into another: digests and counts by sum, exponents by minimum and maximum (R405). -/
def TallyEnt.merge (a b : TallyEnt) : TallyEnt :=
  { tensor := a.tensor
    coldStart := a.coldStart || b.coldStart
    delayed := a.delayed || b.delayed
    lines := satSum 32 a.lines b.lines
    viewLines := satSum 32 a.viewLines b.viewLines
    digest := a.digest + b.digest
    viewDigest := a.viewDigest + b.viewDigest
    nonzero := satSum 48 a.nonzero b.nonzero
    flush := satSum 48 a.flush b.flush
    saturate := satSum 32 a.saturate b.saturate
    nanInf := satSum 32 a.nanInf b.nanInf
    scaleClamp := satSum 32 a.scaleClamp b.scaleClamp
    expMin := optMin a.expMin b.expMin
    expMax := optMax a.expMax b.expMax }

/-- An entry merged into a list kept in ascending TENSOR_ID. -/
def mergeEntry : List TallyEnt → TallyEnt → List TallyEnt
  | [], e => [e]
  | a :: t, e =>
    if e.tensor.toNat < a.tensor.toNat then e :: a :: t
    else if e.tensor = a.tensor then a.merge e :: t
    else a :: mergeEntry t e

/-- The entry a tensor id counts under: undeclared ids share 0xFFFF_FFFF (R404). -/
def tallyId (d : CtxDef) (tensor : Word) : Word :=
  if d.tensors.any fun t => t.id == tensor then tensor else 0xFFFFFFFF#32

/-- The first entry of a full table leaves for the granary that owns it and is merged into the record being built (R405). -/
def evictFirst (s : State) (c k : Nat) : State :=
  match (s.tile k).tally with
  | [] => s
  | e :: rest => (s.modTile k fun t => { t with tally := rest }).modTally c fun y => { y with entries := mergeEntry y.entries e }

/-- Counts of a tensor added at a tile; a new tensor that finds the table of 32 full evicts an entry first (R405). -/
def tallyAdd (s : State) (c k : Nat) (e : TallyEnt) : State :=
  let present := (s.tile k).tally.any fun a => a.tensor == e.tensor
  let s := if !present && 32 ≤ (s.tile k).tally.length then evictFirst s c k else s
  s.modTile k fun t =>
    { t with tally := if present then t.tally.map fun a => if a.tensor == e.tensor then a.merge e else a else t.tally ++ [e] }

/-! ### Line hashes (R144, R402, R403) -/

/-- One Philox 4x32 round and key bump (R144). -/
def philoxRound (c : Nat × Nat × Nat × Nat) (k0 k1 : Nat) : Nat × Nat × Nat × Nat :=
  let (c0, c1, c2, c3) := c
  let p0 := 0xD2511F53 * c0
  let p1 := 0xCD9E8D57 * c2
  ((p1 / 2 ^ 32) ^^^ c1 ^^^ k0, p1 % 2 ^ 32, (p0 / 2 ^ 32) ^^^ c3 ^^^ k1, p0 % 2 ^ 32)

/-- `n` rounds of Philox 4x32. -/
def philoxRounds : Nat → Nat × Nat × Nat × Nat → Nat → Nat → Nat × Nat × Nat × Nat
  | 0, c, _, _ => c
  | n + 1, c, k0, k1 => philoxRounds n (philoxRound c k0 k1) ((k0 + 0x9E3779B9) % 2 ^ 32) ((k1 + 0xBB67AE85) % 2 ^ 32)

/-- Philox-4x32-10 (R144): counter words 0 to 3, key words 0 and 1. -/
def philox (c0 c1 c2 c3 k0 k1 : Nat) : Nat × Nat × Nat × Nat := philoxRounds 10 (c0, c1, c2, c3) k0 k1

/-- The hash of a line under its normalised address (R403). -/
def lineHash (norm : DWord) (tensor : Word) (d : LineData) : BitVec 128 :=
  let n := norm.toNat
  let keys := (List.range 4).flatMap fun j =>
    let (o0, o1, o2, o3) := philox j tensor.toNat (n % 2 ^ 32) (n / 2 ^ 32) 0x53544550 0x54414C4C
    [o0 + 2 ^ 32 * o1, o2 + 2 ^ 32 * o3]
  BitVec.ofNat 128 ((List.range 4).foldl (fun h i =>
    h + ((bits d.toNat (128 * i) 64 + keys.getD (2 * i) 0) % 2 ^ 64)
      * ((bits d.toNat (128 * i + 64) 64 + keys.getD (2 * i + 1) 0) % 2 ^ 64)) 0)

/-- Tally digests are on for the context: DIGEST_ENABLE and no trace capture (R406, R412). -/
def digestsOn (x : Ctx) : Bool := bitAt x.run.tallyCfg.toNat 31 && !bitAt x.run.traceCtl.toNat 31

/-- A line hashed into its tensor's entry, and into the focus sums where the focus names it (R403, R407). -/
def digestLine (s : State) (c k : Nat) (l : CapLine) : State :=
  match s.ctx c with
  | none => s
  | some x =>
    let h := lineHash l.norm l.tensor l.data
    let view := bits l.norm.toNat 62 2 == 0
    let id := tallyId x.cdef l.tensor
    let s := tallyAdd s c k
      { tensor := id, lines := 1, digest := h, viewLines := b2n view, viewDigest := if view then h else 0 }
    let f := x.run.focus.toNat
    if bitAt f 63 && bits f 59 4 == c && bits f 0 32 == id.toNat then
      s.modTally c fun y => { y with focus := mmod y.focus 0 (bits l.norm.toNat 10 12) (· + h) }
    else s

/-! ### The capture lane (R165, R170) -/

/-- A line entering the capture lane of the digest engine: with both entries occupied it waits until the older one has been
hashed (R165, R170). -/
def capturePush (s : State) (c k : Nat) (l : CapLine) : State :=
  let s :=
    match (s.tile k).bin.capture with
    | a :: _ :: _ =>
      let s := digestLine s c k a
      s.modTile k fun t => { t with bin := { t.bin with capture := t.bin.capture.drop 1 } }
    | _ => s
  s.modTile k fun t => { t with bin := { t.bin with capture := t.bin.capture ++ [l] } }

end Sys2Proof.Machine
end

