-- ==== Sys2Proof/Machine/HallOps.lean ====
section
/-! DEFINITION. Global addresses and the hall: the fields of an address, the declared topology, routes and link groups, and
what a context may reach (R261, R302 to R315). -/

namespace Sys2Proof.Machine

/-! ### Global addresses (R302, R303) -/

def gSpace (a : Nat) : Nat := bits a 62 2
def gCoord (a : Nat) : Nat := bits a 42 20
def gOff (a : Nat) : Nat := bits a 0 42

/-- The tile and bin address of a bin-space offset (R303). -/
def binRelX (off : Nat) : Nat := bits off 24 7
def binRelY (off : Nat) : Nat := bits off 18 6
def binAddrOf (off : Nat) : Nat := bits off 0 18

/-- Capacity of the module's memory (R6, R261). -/
def memCap (s : State) : Nat := if bits s.factory.product.toNat 16 8 == 0x30 then 0x21000000000 else 0x16000000000

/-- First offset of the read view and of the write view (R261). -/
def readViewBase : Nat := 0x30000000000
def writeViewBase : Nat := 0x38000000000

/-! ### Topology (R304, R305, R312) -/

def topology (s : State) : Nat := (rwGet s 0x6170 1).toNat

/-- The module's own coordinate. -/
def ownCoord (s : State) : Nat := bits (topology s) 44 20

/-- The hall is a tree. -/
def isTree (s : State) : Bool := bitAt (topology s) 43

/-- A dimension of a coordinate. -/
def coordDim (c i : Nat) : Nat := bits c (5 * i) 5

/-- The size of a dimension, or the fan-out of a tree level. -/
def dimSize (s : State) (i : Nat) : Nat := bits (topology s) (20 + 5 * i) 5 + 1

/-- A dimension is a ring. -/
def dimWrap (s : State) (i : Nat) : Bool := bitAt (topology s) (16 + i)

/-- Depth of a tree: the levels with a fan-out above 1. -/
def treeDepth (s : State) : Nat := ((List.range 4).filter fun i => 1 < dimSize s i).length

/-- Depth of a module in a tree: its leading nonzero dimensions. -/
def nodeDepth (c : Nat) : Nat := ((List.range 4).takeWhile fun i => coordDim c i != 0).length

/-- A coordinate lies inside the declared hall (R308, R312). -/
def inHall (s : State) (c : Nat) : Bool :=
  if isTree s then
    (List.range 4).all fun i =>
      if i < nodeDepth c then i < treeDepth s && coordDim c i ≤ dimSize s i else coordDim c i == 0
  else (List.range 4).all fun i => coordDim c i < dimSize s i

/-- The diameter used by the barrier and collective timeouts (R312). -/
def diameter (s : State) : Nat :=
  if isTree s then 2 * treeDepth s
  else (List.range 4).foldl (fun a i => a + (if dimWrap s i then dimSize s i / 2 else dimSize s i - 1)) 0

/-- A neighbour: in a dimension and direction, the parent, or a child (R305). -/
inductive Hop where
  | dim (i : Nat) (minus : Bool)
  | parent
  | child (k : Nat)
  deriving DecidableEq, Repr

/-- The first hop of a route from one coordinate to another (R313). -/
def firstHop (s : State) (src dst : Nat) : Option Hop :=
  if src = dst then none
  else if isTree s then
    let d := nodeDepth src
    if (List.range d).all fun i => coordDim dst i == coordDim src i then some (.child (coordDim dst d)) else some .parent
  else
    ((List.range 4).find? fun i => coordDim src i != coordDim dst i).map fun i =>
      let n := dimSize s i
      if dimWrap s i then
        let fwd := (coordDim dst i + n - coordDim src i) % n
        .dim i (n < 2 * fwd)
      else .dim i (coordDim dst i < coordDim src i)

/-- The neighbour the other way round a ring (R315). -/
def Hop.reverse : Hop → Hop
  | .dim i m => .dim i (!m)
  | h => h

/-- LINK_MAP of a slot. -/
def linkMap (s : State) (slot : Nat) : Nat := (rwGet s 0x6171 (slot + 1)).toNat

/-- A slot reaches a neighbour (R305). -/
def slotReaches (s : State) (slot : Nat) (h : Hop) : Bool :=
  let w := linkMap s slot
  match h with
  | .dim i m => bits w 30 2 == 1 && bits w 28 2 == i && bitAt w 27 == m
  | .parent => bits w 30 2 == 2
  | .child k => bits w 30 2 == 3 && bits w 22 5 == k

/-- The group of a neighbour. -/
def group (s : State) (h : Hop) : List Nat := (List.range 16).filter fun i => slotReaches s i h

/-- The link of a slot in a plane: 0 to 15 north, 16 to 31 south (R24). -/
def linkOf (south : Bool) (slot : Nat) : Nat := slot + (if south then 16 else 0)

/-- A link is up. -/
def linkUp (s : State) (l : Nat) : Bool :=
  let k := mget s.hall.links {} l
  k.state == 2 || k.state == 3

/-- The links of a group that are up in a plane. -/
def upLinks (s : State) (south : Bool) (h : Hop) : List Nat := ((group s h).map (linkOf south)).filter (linkUp s)

/-! ### Link allocation (R311) -/

def CtxDef.job (d : CtxDef) : Nat := bits d.link.toNat 48 16
def CtxDef.slotMask (d : CtxDef) : Nat := bits d.link.toNat 32 16

/-- A context of a job is linked when its JOB_TAG is not 0 (R386). -/
def CtxDef.linked (d : CtxDef) : Bool := d.job != 0

/-- The context may inject into the group of the first hop to a destination (R308). -/
def mayReach (s : State) (d : CtxDef) (dst : Nat) : Bool :=
  inHall s dst &&
    (match firstHop s (ownCoord s) dst with
     | some h => (group s h).any fun i => bitAt d.slotMask i
     | none => true)

/-! ### A context's memory region (R273) -/

/-- The span from `a` to `b` (not included) lies in the union of ranges. -/
def covered : Nat → List (Nat × Nat) → Nat → Nat → Bool
  | 0, _, a, b => b ≤ a
  | n + 1, rs, a, b =>
    if b ≤ a then true
    else
      match rs.find? fun r => r.1 ≤ a && a < r.1 + r.2 with
      | some r => covered n rs (r.1 + r.2) b
      | none => false

/-- A span of physical offsets lies in the context's memory region. -/
def CtxDef.owns (d : CtxDef) (a n : Nat) : Bool := covered 4 d.ranges a (a + n)

/-- Bytes of the tally ring (R411). -/
def CtxDef.tallyBytes (d : CtxDef) : Nat := d.tallySlots * 524288

/-- A span touches the tally ring (R411). -/
def CtxDef.touchesTally (d : CtxDef) (a n : Nat) : Bool := a < d.tallyBase + d.tallyBytes && d.tallyBase < a + n

/-- Start of slot `i` of the tally ring (R411). -/
def CtxDef.tallySlot (d : CtxDef) (i : Nat) : Nat := d.tallyBase + i * 524288

/-! ### Normalised addresses (R403) -/

/-- The normalised address of a line written at a global address. -/
def normAddr (s : State) (d : CtxDef) (a : Nat) : DWord :=
  let off := gOff a
  let sp := gSpace a
  BitVec.ofNat 64 (
    if sp == 2 then 3 * 2 ^ 62 + (if gCoord a == 0 then ownCoord s else gCoord a) * 2 ^ 36 + binRelX off * 2 ^ 29
      + binRelY off * 2 ^ 23 + binAddrOf off / 64
    else if sp == 1 && gCoord a != ownCoord s then 2 * 2 ^ 62 + gCoord a * 2 ^ 36 + off / 64
    else if writeViewBase ≤ off then (off - writeViewBase) / 64
    else
      match (List.range 4).find? fun i => (d.ranges.getD i (0, 0)).1 ≤ off && off < (d.ranges.getD i (0, 0)).1 + (d.ranges.getD i (0, 0)).2 with
      | some i => 2 ^ 62 + i * 2 ^ 60 + (off - (d.ranges.getD i (0, 0)).1) / 64
      | none => 2 ^ 62)

end Sys2Proof.Machine
end

