-- ==== Sys2Proof/Machine/FenceOps.lean ====
section
/-! DEFINITION. Operations on physical tiles, shared by every family that meets a tile fault: where a logical tile stands,
failure signature records, fence states, holes, remaps, gaps, rows and the reserve (chapter Continuous Self-Test and Fencing). -/

namespace Sys2Proof.Machine

/-! ### Physical tiles (R22, R27, R358) -/

def physDie (p : Nat) : Nat := p / 3000
def physRow (p : Nat) : Nat := p % 3000 / 60
def physPos (p : Nat) : Nat := p % 60

/-- Physical x over the package (R22). -/
def physX (p : Nat) : Nat := 60 * physDie p + physPos p

/-- The physical tile at a position of a row of a die. -/
def physAt (die row pos : Nat) : Nat := 3000 * die + 60 * row + pos

/-- The quarter of a physical tile. -/
def physQuarter (p : Nat) : Nat := physDie p + (if 25 ≤ physRow p then 2 else 0)

/-- The state of a physical tile. -/
def State.phys (s : State) (p : Nat) : Phys := mget s.gleaner.phys {} p

/-- A physical tile changed. -/
def State.modPhys (s : State) (p : Nat) (f : Phys → Phys) : State :=
  { s with gleaner := { s.gleaner with phys := mmod s.gleaner.phys {} p f } }

/-- The physical tile that holds a logical tile. -/
def physOf (s : State) (k : Nat) : Option Nat := mfind s.gleaner.bind k

/-- The logical tile that a physical tile holds. -/
def logicalOf (s : State) (p : Nat) : Option Nat := (s.gleaner.bind.find? fun e => e.2 == p).map (·.1)

/-- A physical tile may hold work: neither on probation nor fenced (R345). -/
def goodTile (s : State) (p : Nat) : Bool :=
  match (s.phys p).fence with
  | .probation => false
  | .fenced => false
  | .factory => false
  | _ => true

/-- The gap and sweep of a row. -/
def State.row (s : State) (die row : Nat) : RowGap := mget s.gleaner.rows {} (50 * die + row)

/-- The gap and sweep of a row changed. -/
def State.modRow (s : State) (die row : Nat) (f : RowGap → RowGap) : State :=
  { s with gleaner := { s.gleaner with rows := mmod s.gleaner.rows {} (50 * die + row) f } }

/-- The fencing state of a die changed. -/
def State.modDie (s : State) (die : Nat) (f : DieFence → DieFence) : State :=
  { s with gleaner := { s.gleaner with dies := mmod s.gleaner.dies {} die f } }

/-- A decision to be written to the gazetteer (R359). -/
def gazDecided (s : State) : State := { s with gleaner := { s.gleaner with gazDirty := true } }

/-! ### Failure signature records (R360, R361) -/

/-- The head of a CBOR item: major type and argument, in the shortest form (RFC 8949, section 4.2.1). -/
def cborHead (major n : Nat) : List Byte :=
  let be (w : Nat) : List Byte := (toLE w n).reverse
  if n < 24 then [BitVec.ofNat 8 (32 * major + n)]
  else if n < 2 ^ 8 then BitVec.ofNat 8 (32 * major + 24) :: be 1
  else if n < 2 ^ 16 then BitVec.ofNat 8 (32 * major + 25) :: be 2
  else if n < 2 ^ 32 then BitVec.ofNat 8 (32 * major + 26) :: be 4
  else BitVec.ofNat 8 (32 * major + 27) :: be 8

def cborUint (n : Nat) : List Byte := cborHead 0 n
def cborInt (n : Int) : List Byte := if n < 0 then cborHead 1 (n.natAbs - 1) else cborHead 0 n.natAbs
def cborBytes (b : List Byte) : List Byte := cborHead 2 b.length ++ b
def cborText (b : List Byte) : List Byte := cborHead 3 b.length ++ b
def cborArray (l : List (List Byte)) : List Byte := cborHead 4 l.length ++ l.flatten
def cborMap (l : List (Nat × List Byte)) : List Byte := cborHead 5 l.length ++ l.flatMap fun e => cborUint e.1 ++ e.2

/-- The CBOR null. -/
def cborNull : List Byte := [0xF6]

/-- The order code of the product configuration (R4, R6). -/
def orderCode (product : Nat) : String :=
  if bits product 12 4 == 1 then "OV-LG2-T48"
  else "OV-LG2-S" ++ (if bits product 16 8 == 0x30 then "48" else "32") ++ (if bits product 10 2 == 0 then "-A" else "-B")

/-- The bytes of an ASCII string. -/
def asciiBytes (s : String) : List Byte := s.toList.map fun c => BitVec.ofNat 8 c.toNat

/-- What a failure signature record tells of its occasion (R360); absent parts are omitted. -/
structure Signature where
  die : Nat
  tile : Option Nat := none
  logical : Option Nat := none
  source : Option Nat := none
  result : Option (TestResult × Int) := none
  decision : Option Nat := none
  window : Option (Nat × Nat) := none
  contexts : Option (List Nat) := none
  /-- Rail voltage and temperature are recorded without a test result, as by a margin check (R347). -/
  env : Bool := false

/-- A coordinate as an array. -/
def cborXY (x y : Nat) : List Byte := cborArray [cborUint x, cborUint y]

/-- The record of an occasion, with its sequence number, the free values of voltage and temperature, and the state. -/
def signatureBytes (s : State) (seq volt temp : Nat) (g : Signature) : List Byte :=
  let q := match g.tile with
    | some p => physQuarter p
    | none => g.die
  let opt {α : Type} (o : Option α) (f : α → List (Nat × List Byte)) : List (Nat × List Byte) :=
    match o with
    | some a => f a
    | none => []
  cborMap (
    [(1, cborUint 1), (2, cborUint seq), (3, cborText (asciiBytes (orderCode s.factory.product.toNat))),
      (4, cborBytes (toLE 16 s.factory.serial.toNat)), (5, cborText (Config.waferLot g.die)), (6, cborUint g.die)]
    ++ opt g.tile (fun p => [(7, cborXY (physX p) (physRow p)), (8, match g.logical with
        | some k => cborXY (k % 128) (k / 128)
        | none => cborNull)])
    ++ opt g.source (fun n => [(9, cborUint n)])
    ++ opt g.result (fun r =>
        [(10, cborUint r.1.failed.toNat)]
        ++ (if bits r.1.failed.toNat 1 5 != 0 || bitAt r.1.failed.toNat 8
            then [(11, cborBytes (toLE 8 r.1.misr.toNat).reverse), (12, cborBytes (toLE 8 r.1.misrExp.toNat).reverse)] else [])
        ++ [(13, cborUint volt), (14, cborInt r.2), (15, cborUint temp)])
    ++ (if g.env && g.result.isNone then [(13, cborUint volt), (15, cborUint temp)] else [])
    ++ [(16, cborArray [cborUint (mget s.clk.qs {} q).k, cborUint (if s.clk.coasting then 2400 else 7200)])]
    ++ opt g.decision (fun n => [(17, cborUint n)])
    ++ opt g.window (fun w => [(18, cborArray [cborUint w.1, cborUint w.2])])
    ++ opt g.contexts (fun l => [(19, cborArray (l.map cborUint))])
    ++ [(20, cborArray (s.sec.mr.map fun m => cborBytes (toLE 32 m.2.toNat).reverse)),
      (21, cborUint ((now s - s.boot.since) / 1000000))])

/-- A failure signature record added to the ring of 1,024 (R360, R361). -/
def addSignature (s : State) (g : Signature) : State :=
  let (a, s) := s.draw
  let (b, s) := s.draw
  let r : FsrRec :=
    { seq := s.gleaner.fsrSeq
      bytes := signatureBytes s s.gleaner.fsrSeq ((Config.freeWord a).toNat % 65536) ((Config.freeWord b).toNat % 65536) g }
  let full := 1024 ≤ s.gleaner.fsr.length
  { s with gleaner := { s.gleaner with
      fsr := (if full then s.gleaner.fsr.drop 1 else s.gleaner.fsr) ++ [r]
      fsrSeq := s.gleaner.fsrSeq + 1
      fsrDropped := if full then satAdd s.gleaner.fsrDropped 1 65535 else s.gleaner.fsrDropped } }

/-! ### Rows and spans (R332, R353, R354) -/

/-- Logical tiles of a row of one die on the grid in force. -/
def rowTiles (s : State) : Nat := if s.gleaner.trimmed then 48 else 56

/-- The span of a physical row: first position and number of positions (R332, R354). -/
def span (s : State) (die row : Nat) : Nat × Nat :=
  if s.gleaner.trimmed then (mget s.gleaner.window 0 (2 * die + (if 25 ≤ row then 1 else 0)), 52) else (0, 60)

/-- Physical tiles of a row's span, west to east. -/
def spanTiles (s : State) (die row : Nat) : List Nat :=
  let w := span s die row
  (List.range w.2).map fun i => physAt die row (w.1 + i)

/-- The logical row bound to a physical row. -/
def boundRow (s : State) (die row : Nat) : Option Nat :=
  (List.range 48).find? fun y => mfind s.gleaner.rowBind (48 * die + y) == some row

/-- A failed horizontal mesh link lies in a row's span, both of its ends among the positions of the span. -/
def rowLinkFailed (s : State) (die row : Nat) : Bool :=
  let w := span s die row
  s.mesh.failed.any fun l => l.die == die && l.y == row && l.dir == .east && w.1 ≤ l.x % 60 && l.x % 60 + 1 < w.1 + w.2

/-- Good positions of a row's span. -/
def goodCount (s : State) (die row : Nat) : Nat := ((spanTiles s die row).filter (goodTile s)).length

/-- A row may hold a logical row of the grid in force (R353). -/
def rowEligible (s : State) (die row : Nat) : Bool := rowTiles s + 1 ≤ goodCount s die row && !rowLinkFailed s die row

/-- The row spare of a half is eligible. -/
def spareEligible (s : State) (die row : Nat) : Bool :=
  ((List.range 25).map fun i => i + (if 25 ≤ row then 25 else 0)).any fun r => (boundRow s die r).isNone && rowEligible s die r

/-! ### The reserve (R348) -/

/-- The state counts toward the reserve. -/
def inReserve : Fence → Bool
  | .gap => true
  | .spare => true
  | .marginal => true
  | _ => false

/-- The reserve of a die. -/
def reserve (s : State) (die : Nat) : Nat :=
  3000 - (s.gleaner.phys.filter fun e => physDie e.1 == die && !inReserve e.2.fence).length

/-- RESERVE_LOW raised once each time the reserve falls below its limit (R348). -/
def checkReserve (s : State) (die : Nat) : State :=
  let low := reserve s die < cfgField s 0x2310 2 16 8
  let was := (mget s.gleaner.dies {} die).low
  let s := s.modDie die fun d => { d with low := low }
  if low && !was then raise s .reserveLow [die, reserve s die] else s

/-! ### Moves (R28, R333) -/

/-- A move is under way at a logical tile: it waits to be quiescent at a fallow point, or is being copied (R81). -/
def Tile.inMove (t : Tile) : Bool := t.moveStage != 0 || t.core.run == .moving

/-- A move of a physical row is in progress. -/
def rowMoving (s : State) (die row : Nat) : Bool :=
  s.tiles.any fun e =>
    e.2.inMove &&
      (match physOf s e.1 with
       | some p => physDie p == die && physRow p == row
       | none => false)

/-- A copy of a move in a row is under way (R183). -/
def rowCopying (s : State) (die row : Nat) : Bool :=
  s.tiles.any fun e =>
    e.2.moveStage != 0 &&
      (match physOf s e.1 with
       | some p => physDie p == die && physRow p == row
       | none => false)

/-- The position that a move goes to is good and free, and no logical tile stands between, so that the order of the row is kept
(R27, R333). -/
def targetOk (s : State) (k : Nat) : Bool :=
  match (s.tile k).moveTo, physOf s k with
  | some p, some q =>
    (logicalOf s p).isNone && goodTile s p
    && (List.range (max p q - min p q - 1)).all fun i => (logicalOf s (min p q + 1 + i)).isNone
  | _, _ => false

/-- The move ordered for a logical tile can be made at a fallow point now: its position is free and good, the test of a gap is
complete, and no other move of the row is in progress (R333). -/
def moveReady (s : State) (k : Nat) : Bool :=
  targetOk s k &&
    (match (s.tile k).moveTo with
     | some p =>
       !rowMoving s (physDie p) (physRow p) && ((s.phys p).fence != .gap || (s.row (physDie p) (physRow p)).tested)
     | none => false)

/-- A move that has not begun to copy is taken back; a tile held for it goes on. -/
def cancelMove (s : State) (k : Nat) : State :=
  if (s.tile k).moveStage = 0 && (s.tile k).moveTo.isSome then
    let wasHeld := (s.tile k).core.run == .moving
    let s := s.modTile k fun t => { t with moveTo := none }
    if wasHeld then
      advance (s.modTile k fun t => { t with core := { t.core with run := .running } }) (keyXY k)
    else s
  else s

/-- Every move of a row that has not begun to copy is taken back (R27, R333). -/
def cancelRow (s : State) (die row : Nat) : State :=
  let s := ((spanTiles s die row).filterMap (logicalOf s)).foldl cancelMove s
  s.modRow die row fun r => { r with move := if (r.move.map fun k => (s.tile k).moveTo.isSome).getD false then r.move else none }

/-! ### Gaps (R336) -/

/-- A position may become the gap: good and without a logical tile. -/
def gapCandidate (s : State) (p : Nat) : Bool := goodTile s p && (logicalOf s p).isNone

/-- The candidate nearest to a position on one side, of the tiles that are or are not marginal. -/
def nearestGap (s : State) (die row old : Nat) (west marginal : Bool) : Option Nat :=
  let l := (spanTiles s die row).filter fun p =>
    gapCandidate s p && ((s.phys p).fence == .marginal) == marginal && (if west then p < old else old < p)
  if west then l.getLast? else l.head?

/-- The position a gap jumps to: the nearest good one in the sweep direction, or in the opposite one if there is none, marginal tiles
last. -/
def nextGap (s : State) (die row old : Nat) (west : Bool) : Option Nat :=
  [(west, false), (!west, false), (west, true), (!west, true)].findSome? fun e => nearestGap s die row old e.1 e.2

/-- A restart of a row's sweep counted (R336). -/
def countRestart (s : State) (p : Nat) : State := s.count (physQuarter p) fun q => { q with restarts := satAdd q.restarts 1 255 }

/-- The gap of a row jumps away from a position and its sweep restarts; the position left is a spare where it is good (R336, R345). -/
def jumpGap (s : State) (die row old : Nat) : State :=
  let r := s.row die row
  let g := nextGap s die row old r.west
  let s := match r.move with
    | some k => cancelMove s k
    | none => s
  let s := s.modRow die row fun r => { r with gap := g.map physPos, tested := false, move := none, jumps := false }
  let s := if (s.phys old).fence == .gap then s.modPhys old fun h => { h with fence := if h.marginal then .marginal else .spare } else s
  let s := match g with
    | some p => s.modPhys p fun h => { h with fence := .gap, marginal := h.marginal || h.fence == Fence.marginal }
    | none => s
  countRestart s old

/-! ### Rows in trouble (R355) -/

/-- Number of a plot, as the events and the refusals use it. -/
def plotNum (px py : Nat) : Nat := 16 * py + px

/-- A context's rectangle includes a plot. -/
def CtxDef.hasPlot (d : CtxDef) (n : Nat) : Bool := d.px0 ≤ n % 16 && n % 16 ≤ d.px1 && d.py0 ≤ n / 16 && n / 16 ≤ d.py1

/-- A tile of a context after the reset: its state cleared and its bin zero-filled. -/
def clearedTile (t : Tile) : Tile :=
  { core := { run := t.core.run, halted := t.core.halted }
    ramp := { t.ramp with last := none }
    bin := t.bin.zeroFill
    moveTo := t.moveTo
    moveStage := t.moveStage
    lastFallow := t.lastFallow }

/-- A free tile of a plot or partition is reset: its state, tables, queue store and bin (R376). -/
def freeTileReset (s : State) (k : Nat) : State :=
  if (ctxAt s (keyXY k)).isSome then s else s.modTile k fun t => { clearedTile t with core := {} }

/-- A plot becomes unavailable: its contexts are reset with cause 0x0C, and its free tiles are reset (R355, R367, R376). -/
def plotLost (s : State) (n : Nat) : State :=
  if s.gleaner.plots.contains n then s
  else
    let s := { s with gleaner := { s.gleaner with plots := sadd s.gleaner.plots n } }
    let cs := (s.ctxs.filter fun e => e.2.cdef.hasPlot n).map (·.1)
    let s := raise s .plotUnavailable [n, cs.foldl (fun a c => a + 2 ^ c) 0]
    let s := cs.foldl (fun s c => stopCtx s c 12 none []) s
    ((List.range 64).map fun i => tkey (8 * (n % 16) + i % 8) (8 * (n / 16) + i / 8)).foldl freeTileReset s

/-- The module offers the trimmed grid, or leaves a row to be rebound at the next reset (R355). -/
def offerGrid (s : State) (die row : Nat) : State :=
  if spareEligible s die row then { s with gleaner := { s.gleaner with rebind := true } }
  else if s.gleaner.trimmed || s.gleaner.trimOffered then s
  else raise { s with gleaner := { s.gleaner with trimOffered := true } } .trimOffered [die, if 25 ≤ row then 1 else 0]

/-- A bound row after a position of it has ceased to be good (R355): `k` is the logical tile that stood there. -/
def checkRow (s : State) (die row : Nat) (k : Option Nat) : State :=
  if (boundRow s die row).isNone then s
  else
    let n := goodCount s die row
    let s :=
      if n < rowTiles s + 1 && (s.row die row).gap.isSome then
        let s := match (s.row die row).move with
          | some m => cancelMove s m
          | none => s
        offerGrid (raise (s.modRow die row fun r => { r with gap := none, move := none }) .rowExhausted [die, row]) die row
      else s
    if n < rowTiles s then
      match k with
      | some k => offerGrid (plotLost s (plotNum (k % 128 / 8) (k / 128 / 8))) die row
      | none => s
    else s

/-! ### Probation (R345) -/

/-- The logical coordinate a record names: the one held, or the last one held within the window (R360). -/
def recordLogical (s : State) (p : Nat) : Option Nat :=
  match logicalOf s p with
  | some k => some k
  | none => (s.phys p).lastLogical

/-- A tile enters probation: fenced from all use, recorded, and its row and reserve examined (R345, R346, R348, R355). -/
def enterProbation (s : State) (p source : Nat) (res : Option (TestResult × Int)) (window : Option (Nat × Nat))
    (ctxs : Option (List Nat)) : State :=
  let h := s.phys p
  let k := logicalOf s p
  let seq := s.gleaner.fsrSeq
  let s := addSignature s
    { die := physDie p, tile := some p, logical := recordLogical s p, source := some source, result := res
      decision := some 0, window := window, contexts := ctxs }
  let s := s.modPhys p fun x =>
    { x with fence := .probation, marginal := false, probAt := now s, probCount := x.probCount + 1, directed := false
             retestDue := false, stormHeld := false, score := 0 }
  let s := gazDecided s
  let s := raise s .tileProbation [physDie p, physX p, physRow p, source, b2n (h.fence == Fence.marginal || h.marginal), seq]
  let s := if h.fence == .gap then jumpGap s (physDie p) (physRow p) p else s
  checkReserve (checkRow s (physDie p) (physRow p) k) (physDie p)

/-! ### Holes and remaps (R350 to R352) -/

/-- A position is a hole of a recovery remap: a spare, a marginal tile, or a gap whose latest test passed (R350). -/
def isHole (s : State) (h : Nat) : Bool :=
  match (s.phys h).fence with
  | .spare => true
  | .marginal => true
  | .gap =>
    (s.row (physDie h) (physRow h)).tested && (s.phys h).used.isEmpty && !rowMoving s (physDie h) (physRow h)
  | _ => false

/-- Logical tiles from a position toward a hole, the position's own first. -/
def chainTiles (s : State) (p h : Nat) : List Nat :=
  let l := if h < p then (List.range (p - h)).map fun i => p - i else (List.range (h - p)).map fun i => p + i
  l.filterMap fun q => logicalOf s q

/-- A logical tile belongs to the recovering context or to none. -/
def freeToMove (s : State) (c k : Nat) : Bool :=
  match ctxAt s (keyXY k) with
  | some (n, _) => n = c
  | none => true

/-- Distance of two positions of a row. -/
def dist (p h : Nat) : Nat := if h < p then p - h else h - p

/-- The nearest of some holes, the one to the west on equal distance. -/
def nearestHole (p : Nat) (l : List Nat) : Option Nat :=
  l.foldl (fun o h =>
    match o with
    | none => some h
    | some b => if dist p h < dist p b then some h else some b) none

/-- A hole is reachable: every logical tile between belongs to the recovering context or to none (R350). -/
def reachableHole (s : State) (c p h : Nat) : Bool := isHole s h && (chainTiles s p h).all (freeToMove s c)

/-- The hole a remap takes: spares before marginal tiles (R351). -/
def chooseHole (s : State) (p : Nat) (ok : Nat → Bool) : Option Nat :=
  let l := (spanTiles s (physDie p) (physRow p)).filter ok
  match nearestHole p (l.filter fun h => (s.phys h).fence != .marginal) with
  | some h => some h
  | none => nearestHole p l

/-- A logical tile bound to a physical tile: the use is noted for the fault window (R341). -/
def bindTile (s : State) (k p : Nat) : State :=
  let s := { s with gleaner := { s.gleaner with bind := mput s.gleaner.bind k p } }
  s.modPhys p fun h =>
    { h with fence := .logical, marginal := h.marginal || h.fence == Fence.marginal, lastLogical := some k
             used := (k, (ctxAt s (keyXY k)).map fun e => BitVec.ofNat 4 e.1) :: h.used }

/-- A logical tile makes a cold move to a hole; what it leaves is a spare where it is good, and a gap that it takes jumps (R351). -/
def coldStep (s : State) (k h : Nat) : State :=
  let old := physOf s k
  let wasGap := (s.phys h).fence == .gap
  let s := bindTile s k h
  let s := match old with
    | some p => if goodTile s p then s.modPhys p fun x => { x with fence := if x.marginal then .marginal else .spare } else s
    | none => s
  if wasGap then jumpGap s (physDie h) (physRow h) h else s

/-- The cold moves of a recovery remap: each logical tile of the chain moves one hole-step toward the hole. Moves of the row
that have not begun to copy are taken back (R351). -/
def coldMoves (s : State) (p h : Nat) : State :=
  let wasGap := (s.phys h).fence == .gap
  let s := cancelRow s (physDie h) (physRow h)
  let chain := (chainTiles s p h).reverse
  let r := chain.foldl (fun (a : State × Nat) k => (bindTile a.1 k a.2, (physOf a.1 k).getD a.2)) (s, h)
  if wasGap then jumpGap r.1 (physDie h) (physRow h) h else r.1

/-- A tile to be freed stands on a position that is not good. -/
def needsRemap (s : State) (k : Nat) : Bool :=
  match physOf s k with
  | some p => !goodTile s p
  | none => false

/-- The recovery remap of one tile of a context, where a hole can be reached and no copy of the row is under way (R333, R351). -/
def remapTile (s : State) (c k : Nat) : State :=
  match physOf s k with
  | some p =>
    if goodTile s p || rowCopying s (physDie p) (physRow p) then s
    else
      match chooseHole s p (reachableHole s c p) with
      | some h => coldMoves s p h
      | none => s
  | none => s

/-- One step of a chain that needs tiles of other contexts: the logical tile next to the hole makes a cold move where it belongs
to the recovering context or to none, and is ordered to move otherwise; none where nothing can be done now (R352). -/
def chainStep (s : State) (c p : Nat) : Option (State × Bool) :=
  if goodTile s p || rowCopying s (physDie p) (physRow p) || (chooseHole s p (reachableHole s c p)).isSome then none
  else
    (chooseHole s p (isHole s)).bind fun h =>
      ((chainTiles s p h).getLast?).bind fun m =>
        if freeToMove s c m then some (coldStep (cancelRow s (physDie p) (physRow p)) m h, true)
        else if (s.tile m).moveTo == some h then none
        else
          let s := cancelRow s (physDie p) (physRow p)
          some (s.modTile m fun t => { t with moveTo := some h }, false)

/-- A chain goes on until it waits for a warm move, or a hole can be reached. -/
def chainGo (c p : Nat) : Nat → State → State
  | 0, s => s
  | n + 1, s =>
    match chainStep s c p with
    | some (s, true) => chainGo c p n s
    | some (s, false) => s
    | none => s

/-- The chain of a tile that a remap must free goes on (R352). -/
def chainOn (s : State) (c k : Nat) : State :=
  match physOf s k with
  | some p => chainGo c p 60 s
  | none => s

/-- Where no hole can be reached, the tiles of other contexts between make warm moves, the one next to the hole first, and
RECOVERY_REMAP_SLOW is raised with their number (R352). -/
def orderWarmMoves (s : State) (c k : Nat) : State :=
  match physOf s k with
  | none => s
  | some p =>
    if goodTile s p || (chooseHole s p (reachableHole s c p)).isSome then s
    else
      match chooseHole s p (isHole s) with
      | none => s
      | some h =>
        let n := ((chainTiles s p h).filter fun m => !freeToMove s c m).length
        chainOn (raise s .recoveryRemapSlow [c, n]) c k

/-- Logical tiles of a row that stand on a position that is not good. -/
def strandedTiles (s : State) (die row : Nat) : List Nat :=
  ((spanTiles s die row).filter fun p => !goodTile s p).filterMap (logicalOf s)

/-- After a change of a row, remaps that waited for it are made or go on: at once for a tile of no context, as a chain of warm
moves for a context that recovers (R350 to R352, R357). -/
def retryRemaps (s : State) (die row : Nat) : State :=
  (strandedTiles s die row).foldl (fun s k =>
    match ctxAt s (keyXY k) with
    | none => remapTile s 16 k
    | some (c, x) => if x.rec_.state == 3 && x.rec_.remap.contains k then chainOn s c k else s) s

/-! ### Health inputs (R342, R343) -/

/-- Weight of a health input. -/
def healthWeight : HealthSource → Nat
  | .meshLinkFailed => 64
  | .firstBinParity => 16
  | .scrubFail => 8
  | .dummyFail => 8
  | .corrected => 4
  | .witnessRetried => 2
  | _ => 0

/-- Source code in records of an input with an immediate action (R360). -/
def healthSourceCode : HealthSource → Nat
  | .witnessPersistent => 3
  | .imemUncorrectable => 4
  | .secondBinParity => 5
  | .meshLinkFailed => 7
  | .firmwareLoad => 9
  | _ => 6

/-- A directed test ordered: for a logical tile the gap of its row turns toward it, which restarts the sweep with a jump, once
the test of the gap is complete (R336, R343, R350). -/
def orderDirected (s : State) (p : Nat) : State :=
  let s := s.modPhys p fun h => { h with directed := true }
  let s := s.count (physQuarter p) fun q => { q with directed := satAdd q.directed 1 255 }
  if (s.phys p).fence == .logical then
    let die := physDie p
    let row := physRow p
    match (s.row die row).gap with
    | some g =>
      let s := s.modRow die row fun r => { r with west := physPos p < g }
      if (nextGap s die row (physAt die row g) (physPos p < g)).isNone then countRestart s p
      else if (s.row die row).tested then jumpGap s die row (physAt die row g)
      else s.modRow die row fun r => { r with jumps := true }
    | none => s
  else s

/-- An input with an immediate action: probation, and for a logical tile of a context the recovery remap with cause
TILE_FAULT (R342, R367). -/
def tileFault (s : State) (p : Nat) (src : HealthSource) : State :=
  match (s.phys p).fence with
  | .probation => s
  | .fenced => s
  | .factory => s
  | _ =>
    let k := logicalOf s p
    let s := enterProbation s p (healthSourceCode src) none none none
    match k with
    | some k =>
      match ctxAt s (keyXY k) with
      | some (c, _) => stopCtx s c 7 none [k]
      | none => remapTile s 16 k
    | none => s

/-- A health input of a physical tile (R342, R343). -/
def healthInput (s : State) (p : Nat) (src : HealthSource) : State :=
  let w := healthWeight src
  if w = 0 then tileFault s p src
  else
    match (s.phys p).fence with
    | .probation => s
    | .fenced => s
    | .factory => s
    | _ =>
      let n := (s.phys p).score + w
      let s := s.modPhys p fun h => { h with score := n }
      if (cfgField s 0x2310 3 16 16 ≤ n || src == .meshLinkFailed) && !(s.phys p).directed then orderDirected s p else s

/-- A health input of the physical tile that holds a logical tile. -/
def logicalHealth (s : State) (k : Nat) (src : HealthSource) : State :=
  match physOf s k with
  | some p => healthInput s p src
  | none => s

/-! ### A failed bin read (R173, R175) -/

/-- A failed bin line read of a context's requester: the event, the counter, the fault entry, and the rollback with cause
BIN_PARITY; a second one on the same physical tile within the step's attempts is a fault of the tile (R173, R175, R342,
R401). -/
def binParity (s : State) (p : Coord) : State :=
  match ctxAt s p with
  | none => s
  | some (c, x) =>
    let q := quarterOf s p
    let k := ckey p
    let s := raise s .binParity [c, q]
    let s := s.count q fun n => { n with parity := satAdd n.parity 1 (2 ^ 32 - 1) }
    let s := addFault s c 0x21 (BitVec.ofNat 64 q)
    let here := some (c, x.run.step)
    let again := (match physOf s k with
      | some n => (s.phys n).parityAt == here
      | none => false)
    let s := match physOf s k with
      | some n => s.modPhys n fun h => { h with parityAt := here }
      | none => s
    let s := stopCtx s c 6 none []
    logicalHealth s k (if again then .secondBinParity else .firstBinParity)

end Sys2Proof.Machine
end

