-- ==== Sys2Proof/Machine/QueueOps.lean ====
section
/-! DEFINITION. Operations on streams: channel and reduction table entries, flits put on the mesh, items pushed, placed by
sequence number and popped, credits, and spill segments (chapters Spatial Dataflow Execution and On-Package Mesh). -/

namespace Sys2Proof.Machine

/-! ### Channel table entries (R187) -/

def chUsed (e : DWord) : Bool := bitAt e.toNat 63
def chOut (e : DWord) : Bool := bitAt e.toNat 62
def chWide (e : DWord) : Bool := bitAt e.toNat 61
def chKind (e : DWord) : Nat := bits e.toNat 59 2
def chPeerX (e : DWord) : Nat := bits e.toNat 52 7
def chPeerY (e : DWord) : Nat := bits e.toNat 46 6
def chPeerCh (e : DWord) : Nat := bits e.toNat 41 5
def chDepth (e : DWord) : Nat := bits e.toNat 34 7
def chSpillLine (e : DWord) : Nat := bits e.toNat 22 12
def chSpillLines (e : DWord) : Nat := bits e.toNat 10 12
def chSpillMem (e : DWord) : Bool := bitAt e.toNat 9

/-- Item positions of an inbound channel in the queue store (R188). -/
def chCap (e : DWord) : Nat := chDepth e * (if chWide e then 1 else 32)

/-- Item positions of the bin spill area (R210). -/
def chBinCap (e : DWord) : Nat := if chWide e then chSpillLines e / 2 else chSpillLines e * 16

/-- The entry of a channel of a tile. -/
def Tile.chan (t : Tile) (ch : Nat) : DWord := mget t.chans 0 ch

/-- The moving part of a channel. -/
def Tile.cst (t : Tile) (ch : Nat) : ChanSt := mget t.chst {} ch

/-- The tile with the moving part of a channel written. -/
def Tile.setCst (t : Tile) (ch : Nat) (c : ChanSt) : Tile := { t with chst := mput t.chst ch c }

/-- Inbound channels of a tile that may spill to LPDDR6, in channel order (R211). -/
def memSpillers (t : Tile) : List Nat :=
  (List.range 32).filter fun ch => chUsed (t.chan ch) && !chOut (t.chan ch) && chSpillMem (t.chan ch)

/-- Item positions of a channel's share of the spill region (R211). -/
def chMemCap (d : CtxDef) (t : Tile) (ch : Nat) : Nat :=
  if chSpillMem (t.chan ch) then
    let share := d.spillSize / 4096 / (memSpillers t).length * 4096
    share / (if chWide (t.chan ch) then 128 else 4)
  else 0

/-- Free item positions of an inbound channel in its present state: in spill state those that an arriving item may take, which
must not overtake one in a newer segment (R188, R210). -/
def chFree (d : CtxDef) (t : Tile) (ch : Nat) : Nat :=
  let e := t.chan ch
  let c := t.cst ch
  let store := chCap e - c.store.length
  let bin := chBinCap e - c.binSeg.length
  let mem := chMemCap d t ch - c.memSeg.length
  if !c.spilling then store
  else if !c.memSeg.isEmpty then mem
  else if !c.binSeg.isEmpty then bin + mem
  else store + bin + mem

/-! ### Reduction table entries (R248) -/

def rType (e : DWord) : Nat := bits e.toNat 62 2
def rOp (e : DWord) : Nat := bits e.toNat 60 2
def rIn (e : DWord) (i : Nat) : Nat := bits e.toNat (57 - 3 * i) 3
def rOut (e : DWord) : Nat := bits e.toNat 42 3
def rMask (e : DWord) (code : Nat) : Bool := bitAt e.toNat (41 - code)
def rNext (e : DWord) : Nat := bits e.toNat 32 5
def rTileCh (e : DWord) : Nat := bits e.toNat 27 5
def rNextIn (e : DWord) : Nat := bits e.toNat 24 3

/-- Inputs of an entry, in addition order. -/
def rInputs (e : DWord) : List Nat := ((List.range 5).map (rIn e)).takeWhile fun c => c != 7

/-- The entry takes from its tile. -/
def rFromTile (e : DWord) : Bool := (if rType e == 2 then (rInputs e).take 1 else rInputs e).contains 4

/-- The entry gives to its tile. -/
def rToTile (e : DWord) : Bool := (rType e == 1 && rOut e == 4) || (rType e == 2 && rMask e 4)

/-- An entry that is not in use: no input, no output (R248). -/
def redUnused : DWord := 0x0FFFFC0000000000

/-- The entry of a router. -/
def redEntry (s : State) (k e : Nat) : DWord := mget s.mesh.reduce redUnused (32 * k + e)

/-- Items staged at an input of an entry (R251). -/
def staged (s : State) (k e i : Nat) : List Staged := mget s.mesh.staging [] (8 * (32 * k + e) + i)

/-- Staging of an input written. -/
def setStaged (s : State) (k e i : Nat) (l : List Staged) : State :=
  { s with mesh := { s.mesh with staging := mset s.mesh.staging [] (8 * (32 * k + e) + i) l } }

/-- The inbound channel through which an entry gives to its tile (R542). -/
def rInbound (t : Tile) (e : DWord) : Nat := if rFromTile e then chPeerCh (t.chan (rTileCh e)) else rTileCh e

/-- The entry that an outbound reduction channel feeds: its number and the index of its tile input. -/
def feedsEntry (s : State) (k ch : Nat) : Option (Nat × Nat) :=
  (List.range 32).findSome? fun e =>
    let w := redEntry s k e
    if (rType w == 1 || rType w == 2) && rFromTile w && rTileCh w == ch then some (e, (rInputs w).findIdx (· == 4)) else none

/-- The entry that gives to an inbound reduction channel. -/
def fedByEntry (s : State) (k ch : Nat) : Option Nat :=
  (List.range 32).find? fun e =>
    let w := redEntry s k e
    rToTile w && rInbound (s.tile k) w == ch

/-! ### Flits (R226, R227, R232, R233, R255) -/

/-- A flit put on the mesh, behind those that have arrived before it. -/
def State.addFlit (s : State) (f : Flit) : State :=
  { s with mesh := { s.mesh with
    flits := mput s.mesh.flits s.mesh.nextFlit { f with stamp := s.mesh.nextStamp }
    nextFlit := s.mesh.nextFlit + 1
    nextStamp := s.mesh.nextStamp + 1 } }

/-- Tile, mesh and granary clocks stand still in a change of root frequency (R435). -/
def rootStopped (s : State) : Bool :=
  match s.clk.change with
  | some .stopped => true
  | _ => false

/-- The flit of a number that a command moves or takes; while the clocks stand still every flit stays where it is (R435). -/
def State.flit (s : State) (f : Nat) : Option Flit := if rootStopped s then none else mfind s.mesh.flits f

/-- A flit taken off the mesh. -/
def State.dropFlit (s : State) (f : Nat) : State := { s with mesh := { s.mesh with flits := mdel s.mesh.flits f } }

/-- A flit changed in place. -/
def State.putFlit (s : State) (n : Nat) (f : Flit) : State := { s with mesh := { s.mesh with flits := mput s.mesh.flits n f } }

/-- A flit come to a new place, behind those that have arrived there before it. -/
def State.moveFlit (s : State) (n : Nat) (f : Flit) (loc : FlitLoc) : State :=
  let f := { f with loc := loc, stamp := s.mesh.nextStamp, waited := 0, resends := 0 }
  { s with mesh := { s.mesh with flits := mput s.mesh.flits n f, nextStamp := s.mesh.nextStamp + 1 } }

/-- A flit that has reached its sink. -/
def State.arrived (s : State) (f : Nat) : Option Flit := (s.flit f).filter fun x => x.loc == .sink

/-- Row codes of the granary ports in a flit header (R227). -/
def northRow : Nat := 0x3E
def southRow : Nat := 0x3F

/-- Granary port of a column. -/
def granaryPort (x : Nat) (north : Bool) : Coord := ⟨x, if north then northRow else southRow⟩

/-- A coordinate is a granary port. -/
def isGranary (c : Coord) : Bool := c.y == northRow || c.y == southRow

/-- The granary of the south side holds a local offset (R262). -/
def southSide (off : Nat) : Bool := 8 ≤ bits off 12 4

/-- Flits of a class at some places, and those of them that carry a context's tag. -/
def countFlits (s : State) (cls : MClass) (ctx : BitVec 4) (here : Flit → Bool) : Nat × Nat :=
  let l := s.mesh.flits.filter fun g => g.2.cls == cls && here g.2
  (l.length, (l.filter fun g => g.2.ctx == ctx).length)

/-- Room by the rule of the input buffers: 8 slots a class, at most 6 of one context in the request, reply and forward classes; flits
of the collective class go straight on (R232, R233). -/
def slotRule (cls : MClass) (n : Nat × Nat) : Bool :=
  match cls with
  | .request => n.1 < 8 && n.2 < 6
  | .reply => n.1 < 8 && n.2 < 6
  | .forward => n.1 < 8 && n.2 < 6
  | .management => n.1 < 8
  | .collective => true
  | .circuit => n.1 < 2

/-- An input buffer has a slot for a flit. A flit in the seam's FIFO holds its slot already, and a circuit has 2 slots in each of its
entries (R232, R233, R246). -/
def hasSlot (s : State) (x y : Nat) (inp : Port) (f : Flit) : Bool :=
  slotRule f.cls (countFlits s f.cls f.ctx fun g =>
    (g.loc == .router x y inp || g.loc == .seam x y inp) && (f.cls != .circuit || g.tag.toNat % 8 == f.tag.toNat % 8))

/-- The sink of a flit has room: the FIFO of 4 flits a class toward a tile, or the buffers of a granary port (R233, R255, R275). -/
def sinkRoom (s : State) (f : Flit) : Bool :=
  let n := countFlits s f.cls f.ctx fun g => g.loc == .sink && g.dst == f.dst
  if isGranary f.dst then slotRule f.cls n else n.1 < 4

/-- Free places for a class in the FIFO from a tile to its router (R255). -/
def portRoom (s : State) (p : Coord) (cls : MClass) : Nat := 4 - (countFlits s cls 0 fun g => g.loc == .port p.x p.y).1

/-- A flit sent from a tile, into the FIFO of its port. -/
def State.send (s : State) (f : Flit) : State := s.addFlit { f with loc := .port f.src.x f.src.y }

/-- The place where a flit of a granary port enters the mesh. -/
def entryLoc (src : Coord) : FlitLoc := if src.y == northRow then .router src.x 0 .north else .router src.x 47 .south

/-- A granary port can send a flit into the router of its column. -/
def granaryRoom (s : State) (f : Flit) : Bool :=
  if f.src.y == northRow then hasSlot s f.src.x 0 .north f else hasSlot s f.src.x 47 .south f

/-- A flit sent from a granary port. -/
def State.sendGranary (s : State) (f : Flit) : State := s.addFlit { f with loc := entryLoc f.src }

/-- The lines that flit `i` of a transaction carries: two of them (R226). -/
def flitLines (ls : List Line) (i : Nat) : List Line := (ls.drop (2 * i)).take 2

/-- Flits of a transaction of `n` lines. -/
def flitCount (n : Nat) : Nat := max 1 ((n + 1) / 2)

/-! ### The spill engine's requests (R210, R211, R213) -/

/-- Bytes of an item of a channel. -/
def chItemBytes (e : DWord) : Nat := if chWide e then 128 else 4

/-- The local address of a place in the ring of a channel's share of the spill region (R211). -/
def spillAddr (d : CtxDef) (t : Tile) (p : Coord) (ch n : Nat) : Nat :=
  let l := memSpillers t
  let share := d.spillSize / 4096 / l.length * 4096
  d.spillBase + ((p.y - d.y0) * d.w + (p.x - d.x0)) * d.spillSize + l.findIdx (· == ch) * share + n * chItemBytes (t.chan ch)

/-- The lines that some items of a spill write make, from a byte of the first line on: a wide item is two lines with its tags,
items of 4 B lie in one line and keep their tags with the item (R213, notes/assumptions/16.md). -/
def spillLines (wide : Bool) (off : Nat) (l : List Item) : List Line :=
  match wide, l with
  | true, i :: _ => [⟨i.data.extractLsb' 0 512, i.tagLo⟩, ⟨i.data.extractLsb' 512 512, i.tagHi⟩]
  | true, [] => []
  | false, l =>
    [⟨BitVec.ofNat 512 (2 ^ (8 * off) * ((List.range l.length).zip l).foldl (fun n e => n + e.2.data.toNat % 2 ^ 32 * 2 ^ (32 * e.1)) 0), false⟩]

/-- Lines in the staging entries of a tile (R165). -/
def stagedLines (t : Tile) : Nat := t.bin.staging.foldl (fun n f => n + f.lines.length) 0

/-- The staging entries can take `n` more lines (R165, R169). -/
def stageRoom (t : Tile) (n : Nat) : Bool := stagedLines t + n ≤ 16

/-- The next read of the spill engine for a channel: 4 KiB of the share, once everything in the memory segment that it brings has been
written and the segment before it has room (R210, R211). -/
def spillRead (d : CtxDef) (t : Tile) (p : Coord) (ch : Nat) : Option SpillTxn :=
  let e := t.chan ch
  let c := t.cst ch
  let unit := 4096 / chItemBytes e
  let room := if chBinCap e = 0 then chCap e - c.store.length else chBinCap e - c.binSeg.length
  let n := min (min (unit - c.memAt % unit) c.memSent) room
  if c.spilling && 0 < n && !t.spill.any fun x => x.2.ch == ch then
    some { ch := ch, write := false, items := n, addr := spillAddr d t p ch (c.memAt / unit * unit), len := 4096 }
  else none

/-- The next write of the spill engine for a channel: a wide item, or items of 4 B within one line (R210, R211). -/
def spillWrite (d : CtxDef) (t : Tile) (p : Coord) (ch : Nat) : Option SpillTxn :=
  let e := t.chan ch
  let c := t.cst ch
  let pos := (c.memAt + c.memSent) % max 1 (chMemCap d t ch)
  let left := c.memSeg.length - c.memSent
  let n := if chWide e then 1 else min left (16 - pos % 16)
  if c.spilling && 0 < left && stageRoom t 2 then
    some { ch := ch, write := true, items := n, addr := spillAddr d t p ch pos, len := n * chItemBytes e }
  else none

/-- The request flit of a transaction of the spill engine. -/
def spillFlit (c : Nat) (t : Tile) (p : Coord) (tag : Nat) (x : SpillTxn) : Flit :=
  let st := t.cst x.ch
  { cls := .request, ctx := BitVec.ofNat 4 c, op := if x.write then 4 else 2, dst := granaryPort p.x (!southSide x.addr), src := p
    tag := BitVec.ofNat 12 tag, aux := if x.write then 1 else 0, addr := BitVec.ofNat 64 x.addr, len := x.len
    lines := if x.write then spillLines (chWide (t.chan x.ch)) (x.addr % 64) ((st.memSeg.drop st.memSent).take x.items) else [] }

/-- A transaction of the spill engine begun under one of its two tags (R211). -/
def beginSpill (c : Nat) (t : Tile) (p : Coord) (x : SpillTxn) : Tile :=
  let tag := if (mfind t.spill 16).isNone then 16 else 17
  let st := t.cst x.ch
  let f := spillFlit c t p tag x
  let t := if x.write then t.setCst x.ch { st with memSent := st.memSent + x.items } else t
  { t with spill := mput t.spill tag x, bin := { t.bin with staging := t.bin.staging ++ [f] } }

/-- The spill engine takes up what it can for a channel, with at most two transactions outstanding, and nothing new while a move waits
(R211, R214). -/
def spillStep (c : Nat) (d : CtxDef) (p : Coord) (t : Tile) (ch : Nat) : Tile :=
  if 2 ≤ t.spill.length || t.core.run == .moving || t.moveStage != 0 then t
  else
    match spillRead d t p ch with
    | some x => beginSpill c t p x
    | none =>
      match spillWrite d t p ch with
      | some x => beginSpill c t p x
      | none => t

/-! ### The tile port (R255) -/

/-- The flit that returns credits: to a producer in the forward class, to a contributor in the collective class, to the sender of a
message, or to the tree entry of the tile's own router, named in TAG with bit 11 set (R74, R190, R251, R252). -/
def owedFlit (c : Nat) (p : Coord) (key n : Nat) : Flit :=
  let dst := keyXY (key / 128)
  let ch := key / 4 % 32
  let f : Flit := { cls := .forward, ctx := BitVec.ofNat 4 c, op := 1, dst := dst, src := p, chan := BitVec.ofNat 5 ch, aux := BitVec.ofNat 16 n }
  match key % 4 with
  | 0 => f
  | 1 => { f with cls := .collective }
  | 2 => { f with cls := .reply, chan := 0, aux := 0 }
  | _ => { f with cls := .collective, chan := 0, tag := BitVec.ofNat 12 (2 ^ 11 + 32 * 4 + ch) }

/-- The write of a trace record: 16 B of a line of the ring, in the request class under the context's tag (R172). -/
def traceFlit (c : Nat) (p : Coord) (r : TraceRec) : Flit :=
  { cls := .request, ctx := BitVec.ofNat 4 c, op := 4, dst := granaryPort p.x (!southSide r.at_.toNat), src := p, tag := 18, aux := 1
    addr := r.at_, len := 16, lines := [⟨BitVec.ofNat 512 (2 ^ (8 * (r.at_.toNat % 64)) * r.word.toNat), false⟩] }

/-- A report to the wait-graph engine, a packet of one to four flits to the north granary port of the column (R208, R243,
notes/assumptions/37.md). -/
def reportFlits (c : Nat) (p : Coord) (l : List WaitEdge) : List Flit :=
  let per := max 40 ((l.length + 3) / 4)
  let n := max 1 ((l.length + per - 1) / per)
  (List.range n).map fun i =>
    { cls := .management, ctx := BitVec.ofNat 4 c, op := 0xB, dst := granaryPort p.x true, src := p, seq := BitVec.ofNat 16 i, len := n
      edges := (l.drop (per * i)).take per }

/-- What waits behind a tile port leaves as it finds room there: credits, staged lines, trace records, and the unblocked report. -/
def pumpPort (s : State) (p : Coord) : State :=
  let k := ckey p
  match ctxAt s p with
  | none => s
  | some (c, x) =>
    let s :=
      if (s.tile k).chst.any fun e => e.2.spilling then
        s.modTile k fun t => ((List.range 32) ++ (List.range 32)).foldl (spillStep c x.cdef p) t
      else s
    let s := (s.tile k).owed.foldl (fun s e =>
      let f := owedFlit c p e.1 e.2
      if 0 < portRoom s p f.cls then (s.modTile k fun t => { t with owed := mdel t.owed e.1 }).send f else s) s
    let s := (s.tile k).bin.staging.foldl (fun s f =>
      if 0 < portRoom s p f.cls then
        (s.modTile k fun t => { t with bin := { t.bin with staging := t.bin.staging.erase f } }).send f
      else s) s
    let s := (s.tile k).bin.trace.foldl (fun s r =>
      if 0 < portRoom s p .request then
        (s.modTile k fun t => { t with bin := { t.bin with trace := t.bin.trace.drop 1 } }).send (traceFlit c p r)
      else s) s
    if (s.tile k).unreport && 0 < portRoom s p .management then
      (reportFlits c p []).foldl State.send (s.modTile k fun t => { t with unreport := false })
    else s

/-- A credit to return joins those to the same place that no flit carries yet. -/
def oweCredit (s : State) (p : Coord) (key n : Nat) : State :=
  s.modTile (ckey p) fun t => { t with owed := mmod t.owed 0 key (· + n) }

/-! ### Trace records (R170, R172) -/

/-- Trace capture owns the capture lane of the context's tiles (R171, R172). -/
def traceOn (c : Nat) (x : Ctx) : Bool := bitAt x.run.traceCtl.toNat 31 && bits x.run.traceCtl.toNat 24 4 == c

/-- A record of one sheaf-buffer transaction: it enters the capture lane with the next place of the ring, or is dropped and counted
where both entries are occupied (R170, R172). -/
def traceRecord (s : State) (p : Coord) (op : Nat) (binAddr tensor : Nat) : State :=
  match ctxAt s p with
  | none => s
  | some (c, x) =>
    if traceOn c x then
      if 2 ≤ (s.tile (ckey p)).bin.trace.length then s.count (quarterOf s p) fun q => { q with traceDrops := satAdd q.traceDrops 1 65535 }
      else
        let cyc := (mget s.clk.qs {} (quarterOf s p)).cycles.toNat % 2 ^ 32
        let w := tensor * 2 ^ 96 + cyc * 2 ^ 64 + binAddr * 2 ^ 46 + ((p.x - x.cdef.x0) % 128) * 2 ^ 39
          + ((p.y - x.cdef.y0) % 64) * 2 ^ 33 + op * 2 ^ 29
        let size := 2 ^ bits x.run.traceCtl.toNat 16 5
        let r : TraceRec := ⟨BitVec.ofNat 64 (x.run.traceBase.toNat + x.run.tracePos % size), BitVec.ofNat 128 w⟩
        let s := s.modTile (ckey p) fun t => { t with bin := { t.bin with trace := t.bin.trace ++ [r] } }
        pumpPort (s.modRun c fun r => { r with tracePos := (r.tracePos + 16) % size }) p
    else s

/-- Trace records of a list of gather write-backs (OP 0x1). -/
def traceWriteBacks (s : State) (p : Coord) (ls : List Nat) : State :=
  ls.foldl (fun s l => traceRecord s p 1 (64 * logLine (s.tile (ckey p)) l) 0) s

/-! ### Wait edges (R208) -/

/-- A tile that has reported and then moves an item sends an unblocked report (R208). -/
def unblock (s : State) (p : Coord) : State :=
  let k := ckey p
  if (s.tile k).reported then pumpPort (s.modTile k fun t => { t with reported := false, unreport := true }) p else s

/-! ### Items at an inbound channel (R191, R210, R212) -/

/-- The first logical line of a place in the ring of a channel's bin segment (R210). -/
def spillLine (e : DWord) (n : Nat) : Nat := chSpillLine e + (if chWide e then 2 * n else n / 16)

/-- An item written at a place of the ring: two whole lines with its tags, or 4 B of a line (R210, R213). -/
def writeSpillItem (t : Tile) (e : DWord) (n : Nat) (i : Item) : Tile :=
  let l := spillLine e n
  if chWide e then
    writeLogLine (writeLogLine t l (i.data.extractLsb' 0 512).toNat i.tagLo) (l + 1) (i.data.extractLsb' 512 512).toNat i.tagHi
  else
    match physLine t l with
    | some p => { t with bin := t.bin.write p (BitVec.ofNat 64 (15 * 2 ^ (4 * (n % 16)))) (i.data.toNat % 2 ^ 32 * 2 ^ (32 * (n % 16))) false }
    | none => t

/-- The lines of a place in the ring pass their check (R173, R213). -/
def spillItemOk (t : Tile) (e : DWord) (n : Nat) : Bool :=
  (List.range (if chWide e then 2 else 1)).all fun i =>
    match physLine t (spillLine e n + i) with
    | some p => t.bin.lineOk p
    | none => true

/-- An item taken into the bin segment of a channel. -/
def putBin (t : Tile) (ch : Nat) (i : Item) : Tile :=
  let e := t.chan ch
  let c := t.cst ch
  writeSpillItem (t.setCst ch { c with binSeg := c.binSeg ++ [i] }) e ((c.binAt + c.binSeg.length) % max 1 (chBinCap e)) i

/-- An item taken into an inbound channel: into the newest segment that holds anything, or where that is full or nothing does into the
next one with room; and whether it goes to LPDDR6 (R210). -/
def placeItem (t : Tile) (ch : Nat) (i : Item) : Tile × Bool :=
  let e := t.chan ch
  let c := t.cst ch
  let bin := c.memSeg.isEmpty && c.binSeg.length < chBinCap e
  if !c.spilling || (c.binSeg.isEmpty && c.memSeg.isEmpty && c.store.length < chCap e) then
    (t.setCst ch { c with store := c.store ++ [i] }, false)
  else if bin then (putBin t ch i, false)
  else (t.setCst ch { c with memSeg := c.memSeg ++ [i] }, true)

/-- Items that now stand in sequence are made available (R191); the count is of items written to LPDDR6. -/
def placeEarly : Nat → Tile → Nat → Nat → Tile × Nat
  | 0, t, _, m => (t, m)
  | n + 1, t, ch, m =>
    let c := t.cst ch
    match mfind c.early c.seqIn.toNat with
    | none => (t, m)
    | some i =>
      let t := t.setCst ch { c with seqIn := c.seqIn + 1, early := mdel c.early c.seqIn.toNat, outstanding := c.outstanding - 1 }
      let r := placeItem t ch i
      placeEarly n r.1 ch (m + b2n r.2)

/-- Counts items written to LPDDR6 by spilling, which the spill engine takes up (R211, R212). -/
def countSpillItems (s : State) (c : Nat) (p : Coord) (m : Nat) : State :=
  if m = 0 then s
  else
    let s := s.count (quarterOf s p) fun q => { q with spillItems := satAdd q.spillItems m (2 ^ 32 - 1) }
    pumpPort (s.modTally c fun y => { y with spillItems := y.spillItems + m }) p

/-- An item that arrives with its sequence number is placed by it, and what it completes becomes available (R191). -/
def arriveItem (s : State) (c : Nat) (p : Coord) (ch : Nat) (seq : BitVec 16) (i : Item) : State :=
  let t := s.tile (ckey p)
  let st := t.cst ch
  let t := t.setCst ch { st with early := mput st.early seq.toNat i }
  let r := placeEarly (st.early.length + 1) t ch 0
  countSpillItems (s.setTile (ckey p) r.1) c p r.2

/-- The oldest items of the bin segment move up into free slots of the store; a line that fails its check is a failed bin read (R210,
R213). -/
def moveUp : Nat → State → Coord → Nat → State
  | 0, s, _, _ => s
  | n + 1, s, p, ch =>
    let t := s.tile (ckey p)
    let e := t.chan ch
    let c := t.cst ch
    match c.binSeg with
    | [] => s
    | i :: l =>
      if c.store.length < chCap e then
        let ok := spillItemOk t e c.binAt
        let s := s.setTile (ckey p) (t.setCst ch { c with store := c.store ++ [i], binSeg := l, binAt := (c.binAt + 1) % max 1 (chBinCap e) })
        moveUp n (if ok then s else binParity s p) p ch
      else s

/-! ### Credits (R190, R251, R252) -/

/-- Credits owed to the producers of an inbound channel: the peer of a stream; every contributor of a reduction; for a broadcast the
tree. -/
def sendCredits (s : State) (d : CtxDef) (p : Coord) (ch n : Nat) : State :=
  let e := (s.tile (ckey p)).chan ch
  match chKind e with
  | 0 => oweCredit s p (4 * (32 * tkey (d.x0 + chPeerX e) (d.y0 + chPeerY e) + chPeerCh e)) n
  | 1 =>
    match fedByEntry s (ckey p) ch with
    | none => s
    | some en =>
      if rType (redEntry s (ckey p) en) == 2 then oweCredit s p (4 * (32 * ckey p + en) + 3) n
      else
        d.tiles.foldl (fun s q =>
          (List.range 32).foldl (fun s oc =>
            let o := (s.tile (ckey q)).chan oc
            if chUsed o && chOut o && chKind o == 1 && d.x0 + chPeerX o == p.x && d.y0 + chPeerY o == p.y && chPeerCh o == ch
            then oweCredit s p (4 * (32 * ckey q + oc) + 1) n else s) s) s
  | _ => s

/-- Credits that the producer of a channel may hold: those granted, and for a local channel what it can take directly (R190, R212,
notes/assumptions/16.md). -/
def creditsOut (d : CtxDef) (t : Tile) (ch : Nat) : Nat :=
  if chKind (t.chan ch) == 2 then min (chCap (t.chan ch)) (chFree d t ch) else (t.cst ch).outstanding

/-- Credits granted for free positions, never more outstanding than DEPTH allows (R190, R210); a channel whose segments are empty
and whose credits fit its store leaves spill state (R212). -/
def grantCredits (s : State) (d : CtxDef) (p : Coord) (ch : Nat) : State :=
  let t := s.tile (ckey p)
  let e := t.chan ch
  let st := t.cst ch
  let n := if chKind e == 2 then 0 else min (chCap e) (chFree d t ch) - st.outstanding
  let t := t.setCst ch { st with outstanding := st.outstanding + n }
  let st := t.cst ch
  let stay := !(st.binSeg.isEmpty && st.memSeg.isEmpty && creditsOut d t ch ≤ chCap e - st.store.length)
  let s := s.setTile (ckey p) (t.setCst ch { st with spilling := st.spilling && stay })
  pumpPort (if n = 0 then s else sendCredits s d p ch n) p

/-- The oldest item of an inbound channel removed; the oldest item of the bin segment moves up into the freed slot, and the
freed position returns as a credit (R54, R190, R210). -/
def popItem (s : State) (d : CtxDef) (p : Coord) (ch : Nat) : State :=
  let s := unblock s p
  let t := s.tile (ckey p)
  let st := t.cst ch
  let s := s.setTile (ckey p) (t.setCst ch { st with store := st.store.drop 1 })
  grantCredits (moveUp 1 s p ch) d p ch

/-! ### Pushes (R54, R190, R251) -/

/-- Contributions to an input of an entry that are on their way to its staging. -/
def onTheWay (s : State) (k e i : Nat) : Nat :=
  (s.mesh.flits.filter fun g => g.2.cls == .collective && g.2.op == 7 && ckey g.2.dst == k && g.2.tag.toNat == e + 32 * i).length

/-- Free places in the staging of an input (R251). -/
def stagingFree (s : State) (k e i : Nat) : Nat := 4 - (staged s k e i).length - onTheWay s k e i

/-- Credit of an outbound channel: its credits, free positions of the inbound channel a local one names, or for a
reduction the credits that also find staging free. -/
def chanCredit (s : State) (d : CtxDef) (k ch : Nat) : Nat :=
  let t := s.tile k
  let e := t.chan ch
  match chKind e with
  | 2 => chFree d t (chPeerCh e)
  | 1 =>
    match feedsEntry s k ch with
    | some (en, i) => min (t.cst ch).credits (stagingFree s k en i)
    | none => 0
  | _ => (t.cst ch).credits

/-- Items that an outbound channel can take now: those it has credit for and the tile port has room for (R190, R255). -/
def outFree (s : State) (d : CtxDef) (k ch : Nat) : Nat :=
  let n := chanCredit s d k ch
  match chKind ((s.tile k).chan ch) with
  | 2 => n
  | 1 => min n (portRoom s (keyXY k) .collective)
  | _ => min n (portRoom s (keyXY k) .forward)

/-- An item pushed to an outbound channel that has a free entry. -/
def pushItem (s : State) (c : Nat) (d : CtxDef) (p : Coord) (ch : Nat) (i : Item) : State :=
  let s := unblock s p
  let k := ckey p
  let t := s.tile k
  let e := t.chan ch
  let st := t.cst ch
  match chKind e with
  | 2 =>
    let r := placeItem t (chPeerCh e) i
    countSpillItems (s.setTile k r.1) c p (b2n r.2)
  | 1 =>
    match feedsEntry s k ch with
    | some (en, inp) =>
      let s := s.setTile k (t.setCst ch { st with credits := st.credits - 1, seqOut := st.seqOut + 1 })
      s.send { cls := .collective, ctx := BitVec.ofNat 4 c, op := 7, dst := p, src := p, seq := st.seqOut
               tag := BitVec.ofNat 12 (en + 32 * inp), item := i }
    | none => s
  | _ =>
    let s := s.setTile k (t.setCst ch { st with credits := st.credits - 1, seqOut := st.seqOut + 1 })
    s.send { cls := .forward, ctx := BitVec.ofNat 4 c, op := 0, dst := ⟨d.x0 + chPeerX e, d.y0 + chPeerY e⟩, src := p
             chan := BitVec.ofNat 5 (chPeerCh e), seq := st.seqOut, item := i }

/-! ### Steering entries (R194) -/

def stMode (e : DWord) : Nat := bits e.toNat 62 2
def stTok (e : DWord) : Nat := bits e.toNat 57 5
def stIn0 (e : DWord) : Nat := bits e.toNat 52 5
def stIn1 (e : DWord) : Nat := bits e.toNat 47 5
def stOut0 (e : DWord) : Nat := bits e.toNat 42 5
def stOut1 (e : DWord) : Nat := bits e.toNat 37 5

/-- Channels that serve a steering entry. -/
def stChans (e : DWord) : List Nat :=
  match stMode e with
  | 1 => [stTok e, stIn0 e, stOut0 e, stOut1 e]
  | 2 => [stTok e, stIn0 e, stIn1 e, stOut0 e]
  | _ => []

/-- A channel serves a steering unit of the tile (R192). -/
def steered (t : Tile) (ch : Nat) : Bool := t.steer.any fun p => (stChans p.2).contains ch

end Sys2Proof.Machine
end

