-- ==== Sys2Proof/Machine/Operands.lean ====
section
/-! DEFINITION. The operands of Furrow instructions: 5-bit vector fields that name a register or a queue port (R50 to R54),
lanes of a vector, poison of an operand (R67, R84), and effective addresses (R65). -/

namespace Sys2Proof.Machine

/-! ### Lanes (R44) -/

/-- The 32 lanes of a vector. -/
def lanes (v : VecData) : List (BitVec 32) := (List.range 32).map fun i => v.extractLsb' (32 * i) 32

/-- A vector of lanes. -/
def ofLanes (l : List (BitVec 32)) : VecData := BitVec.ofNat 1024 (l.foldr (fun w a => w.toNat + 2 ^ 32 * a) 0)

/-- An item of 4 B. -/
def Item.word (w : Word) (tag : Bool) : Item := { data := BitVec.setWidth 1024 w, tagLo := tag }

/-- The first 4 B of an item. -/
def Item.toWord (i : Item) : Word := i.data.extractLsb' 0 32

/-- Either half carries a tag. -/
def Item.tagged (i : Item) : Bool := i.tagLo || i.tagHi

/-- The tag of the half that holds a lane. -/
def Item.laneTag (i : Item) (n : Nat) : Bool := if n < 16 then i.tagLo else i.tagHi

/-! ### Vector fields (R50) -/

/-- A vector field or QMOV field names a port. -/
def isPort (f : BitVec 5) : Bool := 16 ≤ f.toNat

/-- The port a field names. -/
def portOf (f : BitVec 5) : Nat := f.toNat - 16

/-- A vector register (R44). -/
def Core.vreg (k : Core) (r : Nat) : Item := mget k.v {} r

/-- A vector register written. -/
def Core.setV (k : Core) (r : Nat) (i : Item) : Core := { k with v := mset k.v {} r i }

/-- The ports that source fields name. -/
def portsOf (fs : List (BitVec 5)) : List Nat := (fs.filter isPort).map portOf

/-- One queue port is named more than once (R52). -/
def dupPort (fs : List (BitVec 5)) : Bool := (portsOf fs).length != (portsOf fs).dedup.length

/-- A port's binding allows its use in this direction and width (R53, R192). -/
def portOk (t : Tile) (ch : Nat) (out wide : Bool) : Bool :=
  chUsed (t.chan ch) && chOut (t.chan ch) == out && chWide (t.chan ch) == wide && !steered t ch

/-- The port a matrix instruction names. -/
def MOp.port : MOp → Option Nat
  | .mld _ q => q
  | .mmul _ _ _ _ _ q => q
  | .mdrain _ _ _ _ _ q => q
  | _ => none

/-- A matrix instruction in the queue or an engine holds the port (R100). -/
def portHeld (t : Tile) (ch : Nat) : Bool :=
  (t.mx.queue ++ t.mx.loadQ ++ t.mx.arrayQ ++ t.mx.drainQ).any fun e => e.op.port == some ch

/-- An item can be popped. -/
def hasItem (t : Tile) (ch : Nat) : Bool := !(t.cst ch).store.isEmpty

/-- The head item of an inbound channel. -/
def headItem (t : Tile) (ch : Nat) : Item := (t.cst ch).store.headD {}

/-- What keeps an instruction from using its ports: a binding exception, a matrix instruction that holds one, an empty input,
or an output without a free entry (R53, R54, R100). -/
def portsBlock (s : State) (d : CtxDef) (k : Nat) (wide : Bool) (ins outs : List Nat) : Option Act :=
  let t := s.tile k
  match (ins.find? fun ch => !portOk t ch false wide), (outs.find? fun ch => !portOk t ch true wide) with
  | some ch, _ => some (.exc 4 ch)
  | none, some ch => some (.exc 4 ch)
  | none, none =>
    match (ins ++ outs).find? (portHeld t) with
    | some ch => some (.stall (.portHeld ch))
    | none =>
      match ins.find? fun ch => !hasItem t ch with
      | some ch => some (.stall (.queueIn ch))
      | none =>
        match outs.find? fun ch => outFree s d k ch == 0 with
        | some ch => some (.stall (.queueOut ch))
        | none => none

/-- The item a source field holds. -/
def srcItem (t : Tile) (f : BitVec 5) : Item := if isPort f then headItem t (portOf f) else t.core.vreg f.toNat

/-- DETAIL of a consumption by a vector operand: a register or a queue item (R84). -/
def srcDetail (f : BitVec 5) : Nat := if isPort f then 2 ^ 26 + portOf f else 2 ^ 27 + f.toNat

/-- The first source field whose item is tagged. -/
def taggedSrc (t : Tile) (fs : List (BitVec 5)) : Option (BitVec 5) := fs.find? fun f => (srcItem t f).tagged

/-- The items of the source ports popped (R54). -/
def popAll (s : State) (d : CtxDef) (p : Coord) (ins : List Nat) : State :=
  ins.foldl (fun s ch => popItem s d p ch) s

/-- A vector result written to its register or pushed to its port (R54). -/
def putVec (s : State) (c : Nat) (d : CtxDef) (p : Coord) (f : BitVec 5) (i : Item) : State :=
  if isPort f then pushItem s c d p (portOf f) i
  else s.modTile (ckey p) fun t => { t with core := t.core.setV f.toNat i }

/-- The core of a tile changed. -/
def State.modCore (s : State) (p : Coord) (f : Core → Core) : State :=
  s.modTile (ckey p) fun t => { t with core := f t.core }

/-- The context of an issuing tile, for a body that needs it. -/
def withCtx (s : State) (p : Coord) (f : Nat → Ctx → Act) : Act :=
  match ctxAt s p with
  | some (c, x) => f c x
  | none => .go s

/-! ### Effective addresses (R65) -/

/-- Base plus scaled signed offset, 32 bits. -/
def effAddr (base : Word) (w : Nat) (off : Nat) (scale : Nat) : Nat :=
  (base + BitVec.ofInt 32 (signed w off * scale)).toNat

/-- The exception an address of `n` lines raises: BIN_BOUNDS, MISALIGNED, then BIN_BOUNDS of the first unmapped line
(R65, R162; the order is the model's, notes/assumptions/89.md). -/
def addrFault (t : Tile) (a align n : Nat) : Option Act :=
  if 2 ^ 18 ≤ a then some (.exc 3 (a % 2 ^ 29))
  else if a % align != 0 then some (.exc 2 a)
  else
    match firstUnmapped t (a / 64) n with
    | some l => some (.exc 3 (64 * l % 2 ^ 29))
    | none => none

end Sys2Proof.Machine
end

