-- ==== Sys2Proof/Machine/BinMem.lean ====
section
/-! DEFINITION. Bin access by the core: scalar loads and stores through the sheaf buffer and vector loads and stores
(R50, R65 to R67, R160 to R168, R178, R179). -/

namespace Sys2Proof.Machine

/-- Gather entries of a span of logical lines written back, with their trace records (R168, R172). -/
def flushSpan (s : State) (p : Coord) (l n : Nat) : State :=
  (List.range n).foldl (fun s i =>
    match physLine (s.tile (ckey p)) (l + i) with
    | some q =>
      if ((s.tile (ckey p)).bin.gatherOf q).isSome then
        traceRecord (s.modTile (ckey p) fun t => { t with bin := t.bin.writeBack q }) p 1 (64 * (l + i)) 0
      else s
    | none => s) s

/-- The bytes of a scalar access as a number: the line with its pending gather bytes laid over it (R167). -/
def scalarBytes (t : Tile) (q i n : Nat) : Nat :=
  let d := BitVec.ofNat 512 (t.bin.lineNat q)
  let d :=
    match t.bin.gatherOf q with
    | some g => (d &&& ~~~(bitMask g.mask)) ||| (g.data &&& bitMask g.mask)
    | none => d
  d.toNat / 256 ^ i % 256 ^ n

/-- A scalar load of `n` bytes (R65, R167, R173, R179). -/
def scalarLoad (h : Hdr) (r base : BitVec 5) (off : BitVec 11) (n : Nat) (sext : Bool) (s : State) : Out :=
  issue h false false s fun t =>
    let a := effAddr (t.core.sreg base) 11 off.toNat n
    match addrFault t a n 1 with
    | some x => x
    | none =>
      let q := (physLine t (a / 64)).getD 0
      let s := traceRecord s h.t 0 (64 * (a / 64)) 0
      if !t.bin.lineOk q then .go (binParity s h.t)
      else if t.bin.tag q then .exc 8 (64 * (a / 64))
      else
        let v := scalarBytes t q (a % 64) n
        .fin (s.modCore h.t fun k => k.setS r (if sext then BitVec.ofInt 32 (signed (8 * n) v) else BitVec.ofNat 32 v))

/-- A scalar store of `n` bytes into the gather entry of its line (R166). -/
def scalarStore (h : Hdr) (r base : BitVec 5) (off : BitVec 11) (n : Nat) (s : State) : Out :=
  issue h false false s fun t =>
    let a := effAddr (t.core.sreg base) 11 off.toNat n
    match addrFault t a n 1 with
    | some x => x
    | none =>
      let q := (physLine t (a / 64)).getD 0
      let r := t.bin.store q (a % 64) n (t.core.sreg r).toNat
      .fin (traceWriteBacks (s.setTile (ckey h.t) { t with bin := r.1 }) h.t r.2)

def execLd32 (h : Hdr) (r base : BitVec 5) (off : BitVec 11) (s : State) : Out := scalarLoad h r base off 4 false s
def execLd16u (h : Hdr) (r base : BitVec 5) (off : BitVec 11) (s : State) : Out := scalarLoad h r base off 2 false s
def execLd16s (h : Hdr) (r base : BitVec 5) (off : BitVec 11) (s : State) : Out := scalarLoad h r base off 2 true s
def execLd8u (h : Hdr) (r base : BitVec 5) (off : BitVec 11) (s : State) : Out := scalarLoad h r base off 1 false s
def execLd8s (h : Hdr) (r base : BitVec 5) (off : BitVec 11) (s : State) : Out := scalarLoad h r base off 1 true s
def execSt32 (h : Hdr) (r base : BitVec 5) (off : BitVec 11) (s : State) : Out := scalarStore h r base off 4 s
def execSt16 (h : Hdr) (r base : BitVec 5) (off : BitVec 11) (s : State) : Out := scalarStore h r base off 2 s
def execSt8 (h : Hdr) (r base : BitVec 5) (off : BitVec 11) (s : State) : Out := scalarStore h r base off 1 s

/-- The poison tags of two lines read into the halves of a vector (R179). -/
def spanTag (t : Tile) (l : Nat) : Bool :=
  match physLine t l with
  | some q => t.bin.tag q
  | none => false

/-- `vld`: 128 B into a register or an output port, each half with the tag of its line (R65, R179). -/
def execVld (h : Hdr) (v base : BitVec 5) (off : BitVec 12) (s : State) : Out :=
  issue h false false s fun t => withCtx s h.t fun c x =>
    match portsBlock s x.cdef (ckey h.t) true [] (portsOf [v]) with
    | some b => b
    | none =>
      let a := effAddr (t.core.sreg base) 12 off.toNat 64
      match addrFault t a 64 2 with
      | some e => e
      | none =>
        let l := a / 64
        let s := flushSpan s h.t l 2
        let t := s.tile (ckey h.t)
        match readLines t l 2 with
        | (_, .ok d _) =>
          .fin (putVec s c x.cdef h.t v { data := BitVec.ofNat 1024 d, tagLo := spanTag t l, tagHi := spanTag t (l + 1) })
        | _ => .go (binParity s h.t)

/-- `vst`: two full lines from a register or an input port, each with the tag of its half (R65, R178). -/
def execVst (h : Hdr) (v base : BitVec 5) (off : BitVec 12) (s : State) : Out :=
  issue h false false s fun t => withCtx s h.t fun _ x =>
    match portsBlock s x.cdef (ckey h.t) true (portsOf [v]) [] with
    | some b => b
    | none =>
      let a := effAddr (t.core.sreg base) 12 off.toNat 64
      match addrFault t a 64 2 with
      | some e => e
      | none =>
        let l := a / 64
        let i := srcItem t v
        let s := popAll (flushSpan s h.t l 2) x.cdef h.t (portsOf [v])
        .fin (s.modTile (ckey h.t) fun t =>
          writeLogLine (writeLogLine t l (i.data.toNat % 2 ^ 512) i.tagLo) (l + 1) (i.data.toNat / 2 ^ 512) i.tagHi)

end Sys2Proof.Machine
end

