-- ==== Sys2Proof/Machine/DmaMsg.lean ====
section
/-! DEFINITION. The tile DMA and messages between tiles: the DMA and MSG classes, and the transactions, replies, messages and
credits that follow (R68 to R78, R169, R170, R303, R306 to R308). -/

namespace Sys2Proof.Machine

/-! ### Descriptors (R68, R69) -/

/-- The descriptor that 256 bits hold. -/
def descOf (n : Nat) (at_ : Nat) (tensor : Word) (pc : BitVec 13) : DmaDesc :=
  { remote := BitVec.ofNat 64 (bits n 0 64), binAddr := bits n 64 18, rowBytes := bits n 96 19, rows := bits n 128 16
    remoteStride := bits n 160 32, binStride := bits n 192 18, toRemote := bitAt n 224
    counter := BitVec.ofNat 3 (bits n 225 3), at_ := at_, tensor := tensor, pc := pc, issued := 0, done := 0 }

/-- Bytes from the first byte of the first row to the last byte of the last one, on the remote side. -/
def DmaDesc.span (d : DmaDesc) : Nat := (d.rows - 1) * d.remoteStride + d.rowBytes

/-- Bytes in all. -/
def DmaDesc.total (d : DmaDesc) : Nat := d.rows * d.rowBytes

/-- The fields of a descriptor are in range and its bin span fits (R69). -/
def descOk (n : Nat) (d : DmaDesc) : Bool :=
  bits n 82 14 == 0 && bits n 115 13 == 0 && bits n 144 16 == 0 && bits n 210 14 == 0 && bits n 228 28 == 0
  && d.remote.toNat % 64 == 0 && d.binAddr % 64 == 0
  && 64 ≤ d.rowBytes && d.rowBytes ≤ 262144 && d.rowBytes % 64 == 0 && 1 ≤ d.rows
  && d.remoteStride % 64 == 0 && d.binStride % 64 == 0
  && d.binAddr + (d.rows - 1) * d.binStride + d.rowBytes ≤ 262144

/-- A bin-space offset names a tile of the rectangle (R33, R69). -/
def binInRect (c : CtxDef) (off : Nat) : Bool := bits off 31 11 == 0 && binRelX off < c.w && binRelY off < c.h

/-- The remote span of a descriptor can be reached by the context (R69, R261, R279, R303, R308, R411). -/
def reachable (s : State) (c : CtxDef) (d : DmaDesc) : Bool :=
  let a := d.remote.toNat
  let off := gOff a
  let own := gCoord a == ownCoord s
  let row (r : Nat) : Nat := off + r * d.remoteStride
  let physical := c.owns off d.span && !((List.range d.rows).any fun r => c.touchesTally (row r) d.rowBytes)
  off + d.span ≤ 2 ^ 42 &&
    (match gSpace a with
     | 0 =>
       gCoord a == 0 &&
         (if writeViewBase ≤ off then off - writeViewBase + d.span ≤ c.verW
          else if readViewBase ≤ off then !d.toRemote && off - readViewBase + d.span ≤ c.verW
          else physical)
     | 1 => if own then physical else mayReach s c (gCoord a) && off + d.span ≤ readViewBase
     | 2 =>
       if gCoord a == 0 || own then
         (List.range d.rows).all fun r => binInRect c (row r) && binInRect c (row r + d.rowBytes - 1)
       else
         mayReach s c (gCoord a) && (List.range d.rows).all fun r => bits (row r + d.rowBytes - 1) 31 11 == 0
     | _ => false)

/-- The first bin line of a descriptor that no handle maps (R162). -/
def descUnmapped (t : Tile) (d : DmaDesc) : Option Nat :=
  (List.range d.rows).findSome? fun r => firstUnmapped t ((d.binAddr + r * d.binStride) / 64) (d.rowBytes / 64)

/-- `dma rs`: the descriptor read and checked, and taken into work; a fifth one stalls (R68 to R70). -/
def execDma (h : Hdr) (rs : BitVec 5) (s : State) : Out :=
  issue h false false s fun t => withCtx s h.t fun _ x =>
    let a := (t.core.sreg rs).toNat
    match addrFault t a 32 1 with
    | some e => e
    | none =>
      if 4 ≤ t.dma.descs.length then .stall .dmaSlot
      else
        let s := flushSpan s h.t (a / 64) 1
        let t := s.tile (ckey h.t)
        match readLine t (a / 64) with
        | (_, .ok line poison) =>
          if poison then .exc 8 (5 * 2 ^ 26 + 64 * (a / 64))
          else
            let n := bits line (8 * (a % 64)) 256
            let d := descOf n a t.core.tensorId t.core.pc
            if !descOk n d then .exc 6 a
            else if !reachable s x.cdef d then .exc 5 a
            else
              match descUnmapped t d with
              | some l => .exc 3 (64 * l)
              | none =>
                .fin (s.setTile (ckey h.t) { t with dma := { t.dma with descs := mput t.dma.descs (nextFree t.dma.descs) d } })
        | _ => .go (binParity s h.t)

/-! ### Counters (R73, R77) -/

/-- A completion counter. -/
def Core.kreg (c : Core) (k : BitVec 3) : BitVec 16 := mget c.k 0 k.toNat

/-- A completion counter written. -/
def Core.setK (c : Core) (k : BitVec 3) (v : BitVec 16) : Core := { c with k := mset c.k 0 k.toNat v }

/-- The counter has reached its target, modulo 65,536 over half the range. -/
def countReached (k : BitVec 16) (target : Word) : Bool :=
  let d := (target.toNat + 65536 - k.toNat) % 65536
  d == 0 || 32768 ≤ d

/-- `dwait k, rs` (R73). -/
def execDwait (h : Hdr) (k : BitVec 3) (rs : BitVec 5) (s : State) : Out :=
  issue h false false s fun t =>
    if countReached (t.core.kreg k) (t.core.sreg rs) then .fin s else .stall (.dmaCount k (t.core.sreg rs))

/-- `dwaitt pd, k, rs` (R77). -/
def execDwaitt (h : Hdr) (k pd : BitVec 3) (rs rt : BitVec 5) (s : State) : Out :=
  issueAny h false false s fun t =>
    timedWait h s t (.dmaCount k (t.core.sreg rs)) (countReached (t.core.kreg k) (t.core.sreg rs)) pd (t.core.sreg rt)

/-- `dclr k` (R73). -/
def execDclr (h : Hdr) (k : BitVec 3) (s : State) : Out :=
  issue h false false s fun _ => .fin (s.modCore h.t fun c => c.setK k 0)

/-! ### Messages (R74 to R77) -/

/-- The tile a relative coordinate code names. -/
def codeTile (d : CtxDef) (w : Word) : Coord := ⟨d.x0 + bits w.toNat 0 7, d.y0 + bits w.toNat 7 7⟩

/-- A relative coordinate code. -/
def codeOf (w : Word) : Nat := bits w.toNat 0 14

/-- `msend vs, rs`; it stalls while the tile's port to the mesh has no room in the request class (R74, R75, R255). -/
def execMsend (h : Hdr) (v rs : BitVec 5) (s : State) : Out :=
  issue h false false s fun t => withCtx s h.t fun c x =>
    match portsBlock s x.cdef (ckey h.t) true (portsOf [v]) [] with
    | some e => e
    | none =>
      let w := t.core.sreg rs
      let q := codeTile x.cdef w
      if !x.cdef.has q || !(s.tile (ckey q)).dma.senders.contains (x.cdef.relCode h.t) then .exc 7 (codeOf w)
      else if t.dma.msgOut.contains (ckey q) then .stall (.msgDest (ckey q))
      else if portRoom s h.t .request = 0 then .stall .meshPort
      else
        let i := srcItem t v
        let s := popAll s x.cdef h.t (portsOf [v])
        let s := s.modTile (ckey h.t) fun t => { t with dma := { t.dma with msgOut := sadd t.dma.msgOut (ckey q) } }
        .fin (s.send { cls := .request, ctx := BitVec.ofNat 4 c, op := 6, dst := q, src := h.t, item := i })

/-- What `mrecv` and `mwait` wait for: any sender, or one; bits 31:14 are ignored (R76, notes/assumptions/29.md). -/
def wantedSender (w : Word) : Option Nat := if w == BitVec.allOnes 32 then none else some (codeOf w)

/-- The place in the mailbox of the oldest message wanted. -/
def mailIndex (t : Tile) (o : Option Nat) : Option Nat :=
  t.dma.mailbox.findIdx? fun m =>
    match o with
    | some c => m.sender == c
    | none => true

/-- `mrecv vd, rs`: the oldest message of a sender, or of any; its credit returns (R74, R76). -/
def execMrecv (h : Hdr) (v rs : BitVec 5) (s : State) : Out :=
  issue h false false s fun t => withCtx s h.t fun c x =>
    match portsBlock s x.cdef (ckey h.t) true [] (portsOf [v]) with
    | some e => e
    | none =>
      let o := wantedSender (t.core.sreg rs)
      match mailIndex t o with
      | none => .stall (.mail o)
      | some i =>
        let m := t.dma.mailbox.getD i ⟨0, {}⟩
        let s := s.modTile (ckey h.t) fun t => { t with dma := { t.dma with mailbox := t.dma.mailbox.eraseIdx i } }
        let s := pumpPort (oweCredit s h.t (4 * (32 * ckey (codeTile x.cdef (BitVec.ofNat 32 m.sender))) + 2) 1) h.t
        .fin (putVec s c x.cdef h.t v m.data)

/-- `mwait pd, rs, rt` (R77). -/
def execMwait (h : Hdr) (pd : BitVec 3) (rs rt : BitVec 5) (s : State) : Out :=
  issueAny h false false s fun t =>
    let o := wantedSender (t.core.sreg rs)
    timedWait h s t (.mail o) (mailIndex t o).isSome pd (t.core.sreg rt)

/-- A context's own traffic reaches a tile of it that runs (R373, R374). -/
def live (s : State) (c : Nat) (p : Coord) : Option Ctx :=
  match ctxAt s p with
  | some (n, x) => if n = c && x.rec_.state == 1 then some x else none
  | none => none

/-- MESSAGE_ARRIVE: a message enters the mailbox of its destination, which has room for it (R75). -/
def execMessageArrive (f : Nat) (s : State) : Out :=
  match s.arrived f with
  | some fl =>
    if fl.op == 6 then
      let s := s.dropFlit f
      match live s fl.ctx.toNat fl.dst with
      | some x =>
        .next (s.modTile (ckey fl.dst) fun t =>
          { t with dma := { t.dma with mailbox := t.dma.mailbox ++ [⟨x.cdef.relCode fl.src, fl.item⟩] } })
      | none => .next s
    else .next s
  | none => .next s

/-- MESSAGE_CREDIT_ARRIVE: the sender may send to that destination again (R74). -/
def execMessageCreditArrive (f : Nat) (s : State) : Out :=
  match s.arrived f with
  | some fl =>
    if fl.op == 1 && fl.cls == .reply then
      let s := s.dropFlit f
      match live s fl.ctx.toNat fl.dst with
      | some _ =>
        .next (s.modTile (ckey fl.dst) fun t => { t with dma := { t.dma with msgOut := sdel t.dma.msgOut (ckey fl.src) } })
      | none => .next s
    else .next s
  | none => .next s

/-- What a timed wait awaits is there: the item, the count or the message (R73, R76, R77). -/
def Tile.awaited (t : Tile) (on : WaitOn) : Bool :=
  match on with
  | .queueIn ch => hasItem t ch
  | .dmaCount k target => countReached (t.core.kreg k) target
  | .mail o => (mailIndex t o).isSome
  | _ => false

/-- TIMED_WAIT_EXPIRY: the wait ends with 0, or with 1 and LATE_ACCEPT where what it awaits is there: a wait that is still
standing has seen it come in this very cycle (R77, R78). -/
def execTimedWaitExpiry (t : Coord) (s : State) : Out :=
  match (s.tile (ckey t)).core.timed with
  | some w =>
    if canIssue s t then
      let met := (s.tile (ckey t)).awaited w.on
      let s := s.modCore t fun k => { k.setPred w.pd met with timed := none }
      let s :=
        if met then
          match ctxAt s t with
          | some (c, _) => (s.modTally c fun y => { y with late := y.late + 1 }).modRec c fun r => { r with late := satAdd r.late 1 16383 }
          | none => s
        else s
      .next (advance s t)
    else .next s
  | none => .next s

/-! ### Transactions (R70, R71, R169, R170, R261, R262, R303, R306) -/

/-- A 64-bit address goes to the granary of the south side (R262, R306). -/
def southOf (s : State) (p : Coord) (a : Nat) : Bool :=
  if gSpace a == 2 && gCoord a != 0 && gCoord a != ownCoord s then 24 ≤ p.y else southSide (gOff a)

/-- Where a transaction's flit goes: a tile for a bin of this module, otherwise a granary port of the column. -/
def txnDest (s : State) (d : CtxDef) (p : Coord) (a : Nat) : Coord :=
  if gSpace a == 2 && (gCoord a == 0 || gCoord a == ownCoord s) then ⟨d.x0 + binRelX (gOff a), d.y0 + binRelY (gOff a)⟩
  else granaryPort p.x (!southOf s p a)

/-- What reading the lines of an outbound transaction gives. -/
inductive OutRead where
  | parity
  | poison (line : Nat)
  | lines (l : List Line)

/-- The lines of an outbound transaction read from the bin, each copied to the capture lane under its normalised address
(R73, R169, R170, R402). -/
def readOut (s : State) (c : Nat) (x : Ctx) (p : Coord) (tensor : Word) (pos binAddr addr : Nat) : Nat → State × OutRead
  | 0 => (s, .lines [])
  | n + 1 =>
    match readOut s c x p tensor pos binAddr addr n with
    | (s, .lines ls) =>
      let b := binAddr + 64 * n
      let s := flushSpan s p (b / 64) 1
      match readLine (s.tile (ckey p)) (b / 64) with
      | (_, .ok d tag) =>
        if tag then (s, .poison (b / 64))
        else
          let s := traceRecord s p 3 b tensor.toNat
          let s :=
            if digestsOn x then
              capturePush s c (ckey p)
                { op := 3, tensor := tensor, pos := pos + 64 * n, norm := normAddr s x.cdef (addr + 64 * n), binAddr := BitVec.ofNat 18 b
                  data := BitVec.ofNat 512 d }
            else s
          (s, .lines (ls ++ [⟨BitVec.ofNat 512 d, false⟩]))
      | _ => (s, .parity)
    | r => r

/-- The remote and the bin address of a byte of a descriptor's transfer (R69). -/
def DmaDesc.place (d : DmaDesc) (pos : Nat) : Nat × Nat :=
  let r := pos / d.rowBytes
  let off := pos % d.rowBytes
  (d.remote.toNat + r * d.remoteStride + off, d.binAddr + r * d.binStride + off)

/-- The length of the next transaction of a descriptor: within its row and a 4 KiB page (R70). -/
def DmaDesc.nextLen (d : DmaDesc) : Nat :=
  min (d.rowBytes - d.issued % d.rowBytes) (4096 - (d.place d.issued).1 % 4096)

/-- A flit of a DMA transaction, which starts at place `pos` of the transfer (R70, R227). -/
def dmaFlit (s : State) (c : Nat) (x : Ctx) (p : Coord) (d : DmaDesc) (tag : Nat) (pos len : Nat) : Flit :=
  let a := (d.place pos).1
  { cls := .request, ctx := BitVec.ofNat 4 c, op := if d.toRemote then 4 else 2, dst := txnDest s x.cdef p a, src := p
    tag := BitVec.ofNat 12 tag, addr := BitVec.ofNat 64 a, len := len
    aux := if d.toRemote then BitVec.ofNat 16 (flitCount (len / 64)) else 0 }

/-- A transaction of a tile changed. -/
def putTxn (s : State) (p : Coord) (tag : Nat) (x : DmaTxn) : State :=
  s.modTile (ckey p) fun t => { t with dma := { t.dma with txns := mput t.dma.txns tag x } }

/-- A flit with its lines put into the staging entries (R169). -/
def stageFlit (s : State) (p : Coord) (f : Flit) : State :=
  s.modTile (ckey p) fun t => { t with bin := { t.bin with staging := t.bin.staging ++ [f] } }

/-- The lines of a write transaction read into staging, two a flit, while staging has room; a parity failure and poison end it (R73,
R169). -/
def stageWrite (c : Nat) (x : Ctx) (p : Coord) (d : DmaDesc) (tag : Nat) : Nat → State → Out
  | 0, s => .next (pumpPort s p)
  | n + 1, s =>
    let s := pumpPort s p
    let t := s.tile (ckey p)
    match mfind t.dma.txns tag with
    | none => .next s
    | some w =>
      let k := min 2 ((w.len - w.sent) / 64)
      if k = 0 || !stageRoom t k then .next s
      else
        let pos := w.pos + w.sent
        match readOut s c x p d.tensor pos (d.place pos).2 (d.place pos).1 k with
        | (s, .parity) => .next (binParity s p)
        | (s, .poison l) => .next (takeExc s p 8 d.pc.toNat false (64 * l))
        | (s, .lines ls) =>
          let s := putTxn s p tag { w with sent := w.sent + 64 * k }
          stageWrite c x p d tag n
            (stageFlit s p { dmaFlit s c x p d tag w.pos w.len with seq := BitVec.ofNat 16 (w.sent / 128), lines := ls })

/-- A write transaction of a descriptor that still has lines to stage. -/
def openWrite (t : Tile) (d : Nat) : Option Nat := (t.dma.txns.find? fun x => x.2.desc == d && x.2.sent < x.2.len).map (·.1)

/-- DMA_TRANSACTION_ISSUE: the next transaction of a descriptor leaves the tile: a read as one request, a write flit by flit as
staging and the tile port take its lines; issued again, a write that had to wait goes on (R70, R169, R255). -/
def execDmaTransactionIssue (t : Coord) (d : Nat) (s : State) : Out :=
  match ctxAt s t with
  | none => .next s
  | some (c, x) =>
    let tl := s.tile (ckey t)
    match mfind tl.dma.descs d with
    | none => .next s
    | some e =>
      if x.rec_.state != 1 || s.clk.tilesStopped then .next s
      else
        match openWrite tl d with
        | some tag => stageWrite c x t e tag 40 s
        | none =>
          if e.issued < e.total && tl.dma.txns.length < 16 && (e.toRemote || 0 < portRoom s t .request) then
            let len := e.nextLen
            let tag := nextFree tl.dma.txns
            let s := putTxn s t tag { desc := d, pos := e.issued, len := len, sent := if e.toRemote then 0 else len }
            let s := s.modTile (ckey t) fun tl =>
              { tl with dma := { tl.dma with descs := mput tl.dma.descs d { e with issued := e.issued + len } } }
            if e.toRemote then stageWrite c x t e tag 40 s else .next (s.send (dmaFlit s c x t e tag e.issued len))
          else .next s

/-- A transaction of a descriptor done: the counter advances when its bytes are all completed (R71). -/
def dmaComplete (s : State) (p : Coord) (tag : Nat) (x : DmaTxn) : State :=
  s.modTile (ckey p) fun t =>
    let txns := mdel t.dma.txns tag
    match mfind t.dma.descs x.desc with
    | none => { t with dma := { t.dma with txns := txns } }
    | some d =>
      let done := d.done + x.len
      if done = d.total then
        { t with
          dma := { t.dma with txns := txns, descs := mdel t.dma.descs x.desc }
          core := t.core.setK d.counter (t.core.kreg d.counter + 1) }
      else { t with dma := { t.dma with txns := txns, descs := mput t.dma.descs x.desc { d with done := done } } }

/-- Lines written to the bin as whole lines with their poison tags, from a bin address on (R169, R178). -/
def writeIn (s : State) (p : Coord) (op addr : Nat) (ls : List Line) : State :=
  ((List.range ls.length).zip ls).foldl (fun s e =>
    let l := addr / 64 + e.1
    let s := flushSpan s p l 1
    let s := s.modTile (ckey p) fun t => writeLogLine t l e.2.data.toNat e.2.poison
    traceRecord s p op (64 * l) 0) s

/-- What comes back to the spill engine: read data line by line, or the acknowledge of a write (R211, R213). -/
def spillReply (x : SpillTxn) (fl : Flit) : SpillTxn :=
  if fl.op == 5 then { x with got := x.len }
  else
    { x with
      got := x.got + 64 * fl.lines.length
      poison := x.poison ++ (((List.range fl.lines.length).zip fl.lines).filter fun e => e.2.poison).map fun e => 2 * fl.seq.toNat + e.1 }

/-- DMA_REPLY_ARRIVE: read data is written into the bin as staging takes it, or a write is acknowledged, and the transaction and its
descriptor complete by count; a reply to the spill engine is kept for it, and that of a trace record ends with it (R71, R73, R169,
R172, R211). -/
def execDmaReplyArrive (f : Nat) (s : State) : Out :=
  match s.arrived f with
  | none => .next s
  | some fl =>
    if (fl.op == 3 || fl.op == 5) && fl.cls == .reply && !isGranary fl.dst then
      let tag := fl.tag.toNat
      let t := s.tile (ckey fl.dst)
      match live s fl.ctx.toNat fl.dst with
      | none => .next (s.dropFlit f)
      | some _ =>
        match mfind t.spill tag, mfind t.dma.txns tag with
        | some x, _ => .next ((s.dropFlit f).setTile (ckey fl.dst) { t with spill := mput t.spill tag (spillReply x fl) })
        | none, none => .next (s.dropFlit f)
        | none, some x =>
          match mfind t.dma.descs x.desc with
          | none => .next (s.dropFlit f)
          | some d =>
            if fl.op == 5 then .next (dmaComplete (s.dropFlit f) fl.dst tag x)
            else if !stageRoom t fl.lines.length then .next s
            else
              let s := writeIn (s.dropFlit f) fl.dst 2 ((d.place x.pos).2 + 128 * fl.seq.toNat) fl.lines
              let got := x.got + 64 * fl.lines.length
              .next (if got = x.len then dmaComplete s fl.dst tag x else putTxn s fl.dst tag { x with got := got })
    else .next s

/-- DMA_ERROR_REPLY_ARRIVE: an error reply completes nothing and raises DMA_ADDRESS with the descriptor's bin address (R308);
an error reply of the donor aborts an admission (R323). -/
def execDmaErrorReplyArrive (f : Nat) (s : State) : Out :=
  match s.arrived f with
  | none => .next s
  | some fl =>
    if fl.op == 0xD && !isGranary fl.dst then
      let s := s.dropFlit f
      match live s fl.ctx.toNat fl.dst with
      | none => .next s
      | some _ =>
        let t := s.tile (ckey fl.dst)
        match mfind t.dma.txns fl.tag.toNat with
        | none => .next s
        | some x =>
          match mfind t.dma.descs x.desc with
          | none => .next s
          | some d =>
            let s := s.modTile (ckey fl.dst) fun t => { t with dma := { t.dma with txns := mdel t.dma.txns fl.tag.toNat } }
            let remote := gSpace d.remote.toNat == 1 && gCoord d.remote.toNat != ownCoord s
            if remote && admitting s fl.ctx.toNat then .next (stopCtx (abortAdm s 1) fl.ctx.toNat 15 none [])
            else .next (takeExc s fl.dst 5 d.pc.toNat false d.at_)
    else .next s

/-- The reply of a tile to a bin-space access. -/
def binReplyFlit (fl : Flit) (op : BitVec 4) : Flit :=
  { cls := .reply, ctx := fl.ctx, op := op, dst := fl.src, src := fl.dst, tag := fl.tag }

/-- The key of a bin-space write under way at a tile. -/
def inboundKey (fl : Flit) : Nat := 4096 * ckey fl.src + fl.tag.toNat

/-- A flit of a bin-space write: its lines are written as they arrive, and the last one is answered. A write that is refused writes
nothing (R162, R169, R179). -/
def binWriteFlit (s : State) (f : Nat) (fl : Flit) (bad : Bool) : State :=
  let k := ckey fl.dst
  let t := s.tile k
  let was := mget t.dma.inbound (0, false) (inboundKey fl)
  let bad := bad || was.2
  let n := was.1 + fl.lines.length
  if !stageRoom t fl.lines.length || (64 * n = fl.len && portRoom s fl.dst .reply = 0) then s
  else
    let s := s.dropFlit f
    let s := if bad then s else writeIn s fl.dst 4 (binAddrOf (gOff fl.addr.toNat) + 128 * fl.seq.toNat) fl.lines
    if 64 * n = fl.len then
      (s.modTile k fun t => { t with dma := { t.dma with inbound := mdel t.dma.inbound (inboundKey fl) } }).send
        (binReplyFlit fl (if bad then 0xD else 5))
    else s.modTile k fun t => { t with dma := { t.dma with inbound := mput t.dma.inbound (inboundKey fl) (n, bad) } }

/-- The lines of a bin-space read brought into staging, two a flit, while staging has room; a line that fails its check is a
failed bin read (R169, R173). -/
def stageRead (f : Nat) : Nat → State → Flit → State
  | 0, s, fl => s.putFlit f fl
  | n + 1, s, fl =>
    let s := pumpPort s fl.dst
    let b := binAddrOf (gOff fl.addr.toNat) / 64 + 2 * fl.done
    let k := min 2 (fl.len / 64 - 2 * fl.done)
    if k = 0 then s.dropFlit f
    else if !stageRoom (s.tile (ckey fl.dst)) k then s.putFlit f fl
    else
      let s := flushSpan s fl.dst b k
      let rs := (List.range k).map fun i => (readLine (s.tile (ckey fl.dst)) (b + i)).2
      let ls := rs.filterMap fun r => match r with
        | .ok d tag => some (⟨BitVec.ofNat 512 d, tag⟩ : Line)
        | _ => none
      if ls.length < k then binParity (s.dropFlit f) fl.dst
      else
        stageRead f n
          (stageFlit s fl.dst { binReplyFlit fl 3 with
            seq := BitVec.ofNat 16 fl.done, aux := BitVec.ofNat 16 (flitCount (fl.len / 64)), lines := ls })
          { fl with done := fl.done + 1 }

/-- BIN_SPACE_ACCESS_ARRIVE: a flit of a bin-space read or write reaches its tile: a write goes through staging into the bin, a read
through staging to the tile port, and an access that names an unmapped line gets an error reply; what finds no room waits at the
port (R162, R169, R173, R179, R255). A write gives a trace record, a read gives none (R170, notes/assumptions/94.md). -/
def execBinSpaceAccessArrive (f : Nat) (s : State) : Out :=
  match s.arrived f with
  | none => .next s
  | some fl =>
    if (fl.op == 2 || fl.op == 4) && !isGranary fl.dst then
      let room := 0 < portRoom s fl.dst .reply
      let refuse : State := if room then (s.dropFlit f).send (binReplyFlit fl 0xD) else s
      match live s fl.ctx.toNat fl.dst with
      | none => .next (if fl.op == 2 || fl.seq.toNat + 1 = fl.aux.toNat then refuse else s.dropFlit f)
      | some _ =>
        let b := binAddrOf (gOff fl.addr.toNat)
        let t := s.tile (ckey fl.dst)
        let bad := 2 ^ 18 < b + fl.len || (firstUnmapped t (b / 64) (fl.len / 64)).isSome
        if t.moveStage != 0 then .next s
        else if fl.op == 4 then .next (binWriteFlit s f fl bad)
        else if bad then .next refuse
        else .next (pumpPort (stageRead f 40 s fl) fl.dst)
    else .next s

end Sys2Proof.Machine
end

