-- ==== Sys2Proof/Machine/LinkOps.lean ====
section
/-! DEFINITION. Packets and link transmitters: the class and size of a packet, its route from this module, its place in a
transmit queue, and the packets of this module's own transactions (R298, R301, R306 to R315). -/

namespace Sys2Proof.Machine

/-- Number of a class in a link frame (R293). -/
def clsNum : MClass → Nat
  | .request => 0
  | .reply => 1
  | .forward => 2
  | .collective => 3
  | .management => 4
  | .circuit => 5

/-- Class of a packet by its OP (R306, R307). -/
def packetClass (p : Packet) : MClass :=
  match p.op.toNat with
  | 0 => .request
  | 2 => .forward
  | 1 => .reply
  | 3 => .reply
  | 4 => .reply
  | 5 => .collective
  | _ => .management

/-- Size of a packet in 16 B units: a header of 32 B and its lines (R307). -/
def packetUnits (p : Packet) : Nat := 2 + 4 * p.data.length

/-- Buffer of a class at a link input, in 16 B units (R298). -/
def bufUnits : MClass → Nat
  | .request => 1024
  | .reply => 20480
  | .forward => 20480
  | .collective => 8192
  | _ => 256

/-- Largest packet of a class, in 16 B units (R298). -/
def maxUnits : MClass → Nat
  | .reply => 258
  | .forward => 258
  | .collective => 66
  | _ => 2

/-- A link. -/
def State.link (s : State) (l : Nat) : Link := mget s.hall.links {} l

/-- A link changed. -/
def State.modLink (s : State) (l : Nat) (f : Link → Link) : State :=
  { s with hall := { s.hall with links := mmod s.hall.links {} l f } }

/-- A link of the South plane (R288). -/
def linkSouth (l : Nat) : Bool := 16 ≤ l

/-- Slot of a link (R288). -/
def linkSlot (l : Nat) : Nat := l % 16

/-- Number by which a packet chooses among the links of a group: COLL_ID for a chunk, TAG otherwise (R313). -/
def packetPick (p : Packet) : Nat := if p.op == 5 then p.collId.toNat else p.tag.toNat

/-- The dimension a hop corrects. -/
def hopDim : Hop → Option Nat
  | .dim i _ => some i
  | _ => none

/-- The dimension a link's slot serves. -/
def slotDim (s : State) (l : Nat) : Option Nat :=
  let w := linkMap s (linkSlot l)
  if bits w 30 2 == 1 then some (bits w 28 2) else none

/-- The links of a group that are up and that a mask of slots allows (R311). -/
def upAllowed (s : State) (south : Bool) (mask : Nat) (h : Hop) : List Nat :=
  (upLinks s south h).filter fun l => bitAt mask (linkSlot l)

/-- A packet of a group chosen by its number among the links that are up and allowed (R313). -/
def pickOf (p : Packet) (l : List Nat) : Option Nat := l[packetPick p % l.length]?

/-- The dimension along which the packets that a link receives travel, and whether toward lower coordinates. -/
def travelOf (s : State) (l : Nat) : Option (Nat × Bool) :=
  let w := linkMap s (linkSlot l)
  if bits w 30 2 == 1 then some (bits w 28 2, !bitAt w 27) else none

/-- The way of a packet out of this module: the link, whether it goes the other way round a ring, and whether it enters the dimension
there (R314, R315). -/
structure Way where
  link : Nat
  fallback : Bool
  enters : Bool

/-- The way of a packet, of the slots a mask allows, that comes travelling along a dimension or, with none, from this module: by its
TAG in the group of the first hop; the other way round a ring whose group has no link up; and on the way it already goes round a ring
(R313 to R315). -/
def routeFrom (s : State) (south : Bool) (mask : Nat) (p : Packet) (travel : Option (Nat × Bool)) : Option Way :=
  match firstHop s (ownCoord s) p.dest.toNat with
  | none => none
  | some (.dim i m) =>
    if dimWrap s i && travel == some (i, !m) then
      (pickOf p (upAllowed s south mask (.dim i (!m)))).map fun l => ⟨l, true, false⟩
    else
      match pickOf p (upAllowed s south mask (.dim i m)) with
      | some l => some ⟨l, travel == some (i, m) && p.age != 0, travel.map (·.1) != some i⟩
      | none =>
        if dimWrap s i && (upLinks s south (.dim i m)).isEmpty then
          (pickOf p (upAllowed s south mask (.dim i (!m)))).map fun l => ⟨l, true, true⟩
        else none
  | some h => (pickOf p (upAllowed s south mask h)).map fun l => ⟨l, false, true⟩

/-- All slots: a packet in transit is not bound by an allocation of this module. -/
def allSlots : Nat := 65535

/-- Number of this module's own granary among the inputs of a link transmitter. -/
def ownInput : Nat := 32

/-- A packet put into the transmit queue of its link; `inp` is the link input whose buffer it holds (R298, R314, R315). -/
def queuePacket (s : State) (w : Way) (inp : Nat) (p : Packet) : State :=
  s.modLink w.link fun k => { k with outq := k.outq ++ [⟨p, w.enters, w.fallback, inp⟩] }

/-- A packet sent from this module, or none where no path remains (R301, R306). -/
def sendPacket (s : State) (south : Bool) (mask : Nat) (p : Packet) : Option State :=
  (routeFrom s south mask p none).map fun w => queuePacket s w ownInput p

/-- A packet without data. -/
def plainPacket (op job dest src space offset lines tag epoch : Nat) : Packet :=
  { op := BitVec.ofNat 4 op, job := BitVec.ofNat 16 job, dest := BitVec.ofNat 20 dest, src := BitVec.ofNat 20 src
    space := BitVec.ofNat 2 space, offset := BitVec.ofNat 42 offset, lines := BitVec.ofNat 7 lines
    tag := BitVec.ofNat 16 tag, epoch := BitVec.ofNat 8 epoch, age := 0, collId := 0, data := [], poison := [] }

/-- A packet that carries lines. -/
def packetCarry (p : Packet) (ls : List Line) : Packet :=
  { p with lines := BitVec.ofNat 7 ls.length, data := ls.map (·.data), poison := ls.map (·.poison) }

/-- The lines a packet carries. -/
def packetLines (p : Packet) : List Line :=
  ((List.range p.data.length).zip p.data).map fun e => ⟨e.2, p.poison.getD e.1 false⟩

/-- The live context that carries a job tag; the destination accepts only where exactly one does (R308). -/
def jobCtx (s : State) (job : Nat) : Option (Nat × Ctx) :=
  if job = 0 then none
  else
    match s.ctxs.filter fun e => e.2.cdef.job == job with
    | [e] => some e
    | _ => none

/-- The reply to a request, addressed to its source with its tag and epoch (R307, R313, R379). -/
def replyPacket (s : State) (p : Packet) (op : Nat) : Packet :=
  plainPacket op p.job.toNat p.src.toNat (ownCoord s) p.space.toNat p.offset.toNat 0 p.tag.toNat p.epoch.toNat

/-- A reply sent on the plane its request came by; it is lost where no path remains. -/
def sendReply (s : State) (south : Bool) (p : Packet) : State := (sendPacket s south allSlots p).getD s

/-! ### Timers under a recovery hold (R386) -/

/-- The time until which the hold received last for a job is current. -/
def holdEnd (s : State) (job : Nat) : Nat := ((s.hall.holds.find? fun h => h.job.toNat == job).map fun h => h.at_ + 3000).getD 0

/-- The time from which a timer of a job counts: a hold that is current suspends it. -/
def timerStart (s : State) (job : Nat) : Nat := max (now s) (holdEnd s job)

/-! ### Buffers of link inputs (R298, R309, R311) -/

/-- Units of a link input that become free, to be returned to the far end (R298). -/
def oweUnits (s : State) (l : Nat) (cls : MClass) (n : Nat) : State :=
  if l < 32 then s.modLink l fun k => { k with owe := mput k.owe (clsNum cls) (mget k.owe 0 (clsNum cls) + n) } else s

/-- A packet that has left the buffer of a link input. -/
def freeInput (s : State) (l : Nat) (p : Packet) : State := oweUnits s l (packetClass p) (packetUnits p)

/-- A packet waits for its sink at a link input. -/
def waitsAt (s : State) (l : Nat) (p : Packet) : Bool := (s.link l).inq.contains p

/-- A packet taken out of the buffer of a link input by its sink. -/
def takeIn (s : State) (l : Nat) (p : Packet) : State :=
  freeInput (s.modLink l fun k => { k with inq := k.inq.erase p }) l p

/-- The first link input at which a packet with a property waits, and that packet. -/
def findIn (s : State) (f : Packet → Bool) : Option (Nat × Packet) :=
  s.hall.links.findSome? fun e => (e.2.inq.find? f).map fun p => (e.1, p)

/-- The share of a class buffer, in eighths, that the job of a packet may hold: the job's allocation here, or 6 where the job has no
context in this module (R298, R311). -/
def jobShare (s : State) (p : Packet) : Nat :=
  match jobCtx s p.job.toNat with
  | none => 6
  | some (_, x) =>
    let w := x.cdef.link.toNat
    match packetClass p with
    | .request => bits w 28 4
    | .reply => bits w 24 4
    | .forward => bits w 20 4
    | .collective => bits w 16 4
    | _ => 6

/-- Units of a job in the far end's buffer of a class. -/
def heldUnits (job : Nat) (l : List (Nat × Nat)) : Nat := ((l.filter fun e => e.1 == job).map (·.2)).sum

/-- Credits returned free the oldest units in the far end's buffer first. -/
def landUnits : Nat → List (Nat × Nat) → List (Nat × Nat)
  | _, [] => []
  | n, (j, u) :: l => if u ≤ n then landUnits (n - u) l else (j, u - n) :: l

end Sys2Proof.Machine
end

