-- ==== Sys2Proof/Machine/Granary.lean ====
section
/-! DEFINITION. Main memory and the granaries: rows and parity, line reads with rebuild and poison, transaction-table entries,
row writes, channel retirement, lost stripes, scrub, and the copies of versioned pages (chapter Main Memory). -/

namespace Sys2Proof.Machine

/-! ### Places (R262) -/

/-- Data line index of an offset within its stripe. -/
def lineIndex (a : Nat) : Nat := a / 65536 * 64 + a / 64 % 64

/-- Row of an offset's line. -/
def lineRow (a : Nat) : Nat := lineIndex a / 11

/-- Position of an offset's line in its row. -/
def rowPos (a : Nat) : Nat := (lineRow a % 12 + 1 + lineIndex a % 11) % 12

/-- Channel of an offset's line. -/
def lineChannel (a : Nat) : Nat := 12 * stripeOf a + rowPos a

/-- The offset of data line `j` of a row of a stripe. -/
def lineAddr (stripe row j : Nat) : Nat :=
  let m := 11 * row + j
  m / 64 * 65536 + stripe * 4096 + m % 64 * 64

/-- The offset of the data line at a position of a row; none for the parity line. -/
def posAddr (stripe row q : Nat) : Option Nat :=
  if q = row % 12 then none else some (lineAddr stripe row ((q + 11 - row % 12) % 12))

/-! ### Metadata and parity (R260, R263) -/

/-- A bit taken into a CRC-24 of polynomial 0x864CFB. -/
def crc24Bit (r : BitVec 24) (b : Bool) : BitVec 24 := if Bool.xor r.msb b then (r <<< 1) ^^^ 0x864CFB#24 else r <<< 1

/-- The low `w` bits of a number, the highest first. -/
def msbBits (n w : Nat) : List Bool := (List.range w).map fun i => bitAt n (w - 1 - i)

/-- The CRC of half a line: its bytes in order, each from bit 7 down, then the poison bit, the channel in 8 bits and the line in
32 bits, from a register of zero (notes/assumptions/90.md). -/
def halfCrc (half : Nat) (poison : Bool) (ch row : Nat) : BitVec 24 :=
  (((List.range 32).flatMap fun i => msbBits (bits half (8 * i) 8) 8) ++ poison :: (msbBits ch 8 ++ msbBits row 32)).foldl crc24Bit 0

/-- The metadata word of a line: POISON_B, CRC_B, POISON_A and CRC_A. -/
def lineMeta (l : Line) (ch row : Nat) : BitVec 64 :=
  let n := l.data.toNat
  BitVec.ofNat 64 (b2n l.poison * 2 ^ 63 + (halfCrc (bits n 256 256) l.poison ch row).toNat * 2 ^ 32
    + b2n l.poison * 2 ^ 31 + (halfCrc (bits n 0 256) l.poison ch row).toNat)

/-- A line as its channel stores it: data in bits 511:0, metadata in bits 575:512. -/
def lineWord (l : Line) (ch row : Nat) : BitVec 576 := lineMeta l ch row ++ l.data

/-- A read passes its check: both CRCs match and the two poison copies agree. -/
def wordPass (w : BitVec 576) (ch row : Nat) : Bool :=
  let n := w.toNat
  bitAt n 543 == bitAt n 575 && bits n 512 24 == (halfCrc (bits n 0 256) (bitAt n 543) ch row).toNat
    && bits n 544 24 == (halfCrc (bits n 256 256) (bitAt n 575) ch row).toNat

/-- What a read of a stored line brings when some bits come back wrong: the line, or none where its check fails. -/
def readBack (l : Line) (err : BitVec 576) (ch row : Nat) : Option Line :=
  if err = 0 then some l
  else
    let w := lineWord l ch row ^^^ err
    if wordPass w ch row then some ⟨w.setWidth 512, w.getLsbD 543⟩ else none

/-- The line stored at an offset. -/
def storedLine (s : State) (a : Nat) : Line := ⟨lineOf (cellRead s.mem.data a 64), s.mem.poison.contains (a / 64)⟩

/-- Two lines combined by XOR, data and poison bit alike. -/
def xorLine (a b : Line) : Line := ⟨a.data ^^^ b.data, Bool.xor a.poison b.poison⟩

/-- The parity line of a row: the XOR of its 11 data lines, with the XOR of their poison bits. -/
def parityLine (s : State) (stripe row : Nat) : Line :=
  (List.range 11).foldl (fun p j => xorLine p (storedLine s (lineAddr stripe row j))) ⟨0, false⟩

/-- The line at a position of a row. -/
def rowLine (s : State) (stripe row q : Nat) : Line :=
  match posAddr stripe row q with
  | some a => storedLine s a
  | none => parityLine s stripe row

/-- A stripe changed. -/
def State.modStripe (s : State) (n : Nat) (f : Stripe → Stripe) : State :=
  { s with mem := { s.mem with stripes := mmod s.mem.stripes {} n f } }

/-! ### Lines (R260, R264, R270, R284, R286) -/

/-- The context whose region holds a line. -/
def lineOwner (s : State) (a : Nat) : Option Nat := (s.ctxs.find? fun e => e.2.cdef.owns a 64).map (·.1)

/-- A creation of poison entered in the log, newest first, of 16 entries (R286). -/
def logPoison (s : State) (a source : Nat) : State :=
  let own := lineOwner s a
  let w : Nat := 2 ^ 63 + own.getD 0 * 2 ^ 59 + b2n own.isSome * 2 ^ 58 + source * 2 ^ 56 + a / 64 % 2 ^ 36
  { s with mem := { s.mem with log := (BitVec.ofNat 64 w :: s.mem.log).take 16 } }

/-- UNCORRECTABLE counted once. -/
def countUncorr (s : State) (a : Nat) : State :=
  s.modStripe (stripeOf a) fun t => { t with uncorr := satAdd t.uncorr 1 65535 }

/-- A line whose true value cannot be delivered: stored again as poison over zero data, reported, counted and logged (R284). -/
def createPoison (s : State) (a source : Nat) : State :=
  let s := { s with mem := { s.mem with data := cellClear s.mem.data (a / 64 * 64) 64, poison := sadd s.mem.poison (a / 64) } }
  let s := raise s .memUncorrectable [stripeOf a, lineChannel a, lineRow a]
  logPoison (countUncorr s a) a source

/-- A read of a channel fails both attempts (R267). -/
def countFail (s : State) (ch : Nat) : State :=
  let l := now s :: ((mget s.mem.fails [] ch).filter fun t => now s < t + 1000000)
  let s := { s with mem := { s.mem with fails := mput s.mem.fails ch l } }
  if cfgField s 0x2280 1 16 8 < l.length then { s with mem := { s.mem with due := sadd s.mem.due ch } } else s

/-- A line of a lost stripe: delivered poisoned, the first one after the loss logged and counted (R270). -/
def lostLine (s : State) (a : Nat) : State × Line :=
  let (n, s) := s.draw
  let s :=
    if (s.stripe (stripeOf a)).logged then s
    else (logPoison (countUncorr s a) a 3).modStripe (stripeOf a) fun t => { t with logged := true }
  (s, ⟨Config.lostLine n, true⟩)

/-- A line written whole with its poison; a line of a lost stripe is not rewritten (R270, R284). -/
def lineWrite (s : State) (a : Nat) (l : Line) : State :=
  if (s.stripe (stripeOf a)).state == 2 then s
  else
    let s := putLine s a (lineBytes l.data)
    if l.poison then { s with mem := { s.mem with poison := sadd s.mem.poison (a / 64) } } else s

/-- What a command meets at a channel line; nothing where it names none. -/
def lineCheck (errs : List LineCheck) (ch row : Nat) : LineCheck :=
  (errs.find? fun k => k.ch == ch && k.row == row).getD ⟨ch, row, 0, 0, 0, 0⟩

/-- The channel is retired. -/
def retiredAt (s : State) (ch : Nat) : Bool := s.mem.retired.contains ch

/-- On-die corrections counted in their stripe, and command/address parity errors, of which three within 1 ms are a retirement
condition (R259, R267, R271). -/
def noteReports (s : State) (errs : List LineCheck) : State :=
  errs.foldl (fun s k =>
    if retiredAt s k.ch || 192 ≤ k.ch then s
    else
      let s := s.modStripe (k.ch / 12) fun t => { t with odecc := satAdd t.odecc k.odecc (2 ^ 22 - 1) }
      if k.ca = 0 then s
      else
        let l := List.replicate (min k.ca 3) (now s) ++ ((mget s.mem.caErrs [] k.ch).filter fun t => now s < t + 1000)
        let s := { s with mem := { s.mem with caErrs := mput s.mem.caErrs k.ch (l.take 3) } }
        if 3 ≤ l.length then { s with mem := { s.mem with due := sadd s.mem.due k.ch } } else s) s

/-- A line of a row read from its channel, once more where the check fails; none where both reads fail, which counts toward
retirement (R264, R267). -/
def chanRead (s : State) (errs : List LineCheck) (stripe row q : Nat) : State × Option Line :=
  let ch := 12 * stripe + q
  let k := lineCheck errs ch row
  let l := rowLine s stripe row q
  match readBack l k.err1 ch row with
  | some v => (s, some v)
  | none =>
    match readBack l k.err2 ch row with
    | some v => (s, some v)
    | none => (countFail s ch, none)

/-- Several lines of a row read: the XOR of those that passed, and the positions that failed. -/
def rowRead (s : State) (errs : List LineCheck) (stripe row : Nat) (qs : List Nat) : State × Line × List Nat :=
  qs.foldl (fun r q =>
    match chanRead r.1 errs stripe row q with
    | (s, some l) => (s, xorLine r.2.1 l, r.2.2)
    | (s, none) => (s, r.2.1, r.2.2 ++ [q])) (s, ⟨0, false⟩, [])

/-- The data lines at some positions of a row that cannot be rebuilt become poison (R284). -/
def rowLost (s : State) (stripe row : Nat) (qs : List Nat) (source : Nat) : State :=
  qs.foldl (fun s q =>
    match posAddr stripe row q with
    | some a => createPoison s a source
    | none => s) s

/-- Retired positions of a stripe. -/
def retiredPos (s : State) (stripe : Nat) : List Nat := (List.range 12).filter fun q => retiredAt s (12 * stripe + q)

/-- A line rebuilt from the other 11 of its row, data and poison bit alike, and written back to its channel if that is in
service; where another of them fails or is retired, every line of the row that cannot be told becomes poison (R264, R268,
R284, notes/assumptions/43.md). -/
def rebuildLine (s : State) (errs : List LineCheck) (a source : Nat) : State × Line :=
  let stripe := stripeOf a
  let row := lineRow a
  let q := rowPos a
  let gone := (retiredPos s stripe).filter fun p => p != q
  if gone.isEmpty then
    match rowRead s errs stripe row ((List.range 12).filter fun p => p != q) with
    | (s, l, []) =>
      let s := s.modStripe stripe fun t => { t with recon := satAdd t.recon 1 (2 ^ 32 - 1) }
      (if retiredAt s (12 * stripe + q) then s else lineWrite s a l, l)
    | (s, _, bad) => (rowLost s stripe row (q :: bad) source, ⟨0, true⟩)
  else (rowLost s stripe row (q :: gone) source, ⟨0, true⟩)

/-- A line read: passed, read again, rebuilt, or delivered poisoned (R264, R268, R270, R284). -/
def lineRead (s : State) (errs : List LineCheck) (a source : Nat) : State × Line :=
  if s.lostAt a then lostLine s a
  else if retiredAt s (lineChannel a) then rebuildLine s errs a source
  else
    match chanRead s errs (stripeOf a) (lineRow a) (rowPos a) with
    | (s, some l) => (s, l)
    | (s, none) => rebuildLine s errs a source

/-- `n` lines read from an offset on. -/
def linesRead (s : State) (errs : List LineCheck) (a source : Nat) : Nat → State × List Line
  | 0 => (s, [])
  | n + 1 =>
    match linesRead s errs a source n with
    | (s, ls) =>
      match lineRead s errs (a + 64 * n) source with
      | (s, l) => (s, ls ++ [l])

/-! ### Entries (R263, R275, R279) -/

/-- An entry of a context's share, as against one of the link attachment (R275, R309). -/
def TxnKind.own : TxnKind → Bool
  | .inboundRead => false
  | .inboundWrite => false
  | _ => true

/-- The kind writes local memory. -/
def TxnKind.writes : TxnKind → Bool
  | .writeLocal => true
  | .inboundWrite => true
  | _ => false

/-- The kind works on local memory lines. -/
def onMemory (t : Txn) : Bool :=
  match t.kind with
  | .readLocal => !t.bad
  | .writeLocal => !t.bad
  | .inboundRead => (match t.packet with
      | some p => p.space == 0
      | none => false)
  | .inboundWrite => (match t.packet with
      | some p => p.space == 0
      | none => false)
  | _ => false

/-- Entries of a context's share in use in one granary. -/
def entriesUsed (s : State) (c : Nat) (north : Bool) : Nat :=
  (s.mem.txns.filter fun e => e.2.kind.own && e.2.ctx.toNat == c && e.2.north == north).length

/-- A transaction to another module. -/
def remoteTxn (t : Txn) : Bool := t.kind == .readRemote || t.kind == .writeRemote || t.kind == .collCopy

/-- The time from which the deadline of an entry counts: its acceptance, or the end of a hold that suspends it (R380, R386). -/
def deadlineStart (s : State) (t : Txn) : Nat :=
  if remoteTxn t then timerStart s (((s.ctx t.ctx.toNat).map fun x => x.cdef.job).getD 0) else now s

/-- An entry taken, numbered in the order of acceptance; entries of the link attachment have numbers of their own. -/
def addTxn (s : State) (t : Txn) : Nat × State :=
  let key := if t.kind.own then nextFree s.mem.txns else freeKey s.mem.txns.length s.mem.txns 65536
  (key, { s with mem := { s.mem with
    txns := mput s.mem.txns key { t with order := s.mem.nextOrder, since := deadlineStart s t }, nextOrder := s.mem.nextOrder + 1 } })

/-- An entry freed. -/
def dropTxn (s : State) (x : Nat) : State := { s with mem := { s.mem with txns := mdel s.mem.txns x } }

/-- The copy of a page is in progress (R279). -/
def copying (s : State) (c page : Nat) : Bool := s.mem.copies.any fun k => k.ctx.toNat == c && k.page == page

/-- What the offset of a transaction stands for (R261, R279). -/
inductive Target where
  | phys (a : Nat)
  | refused
  | waits
  | recordLost

/-- The physical place of a transaction to local memory. -/
def localTarget (s : State) (c : Nat) (x : Ctx) (off len : Nat) (write : Bool) : Target :=
  if off + len ≤ memCap s then .phys off
  else if writeViewBase ≤ off then
    let v := off - writeViewBase
    if x.cdef.verW < v + len then .refused
    else if Sys2Proof.Machine.recordLost s x.cdef then .recordLost
    else if copying s c (v / 4096) then .waits
    else
      let r := verRec s x.cdef
      if write || x.run.written.contains (v / 4096) then .phys (x.cdef.slotBase r.build + v)
      else .phys (x.cdef.slotBase r.newest + v)
  else if readViewBase ≤ off then
    let v := off - readViewBase
    if write || x.cdef.verW < v + len then .refused
    else if Sys2Proof.Machine.recordLost s x.cdef then .recordLost
    else .phys (x.cdef.slotBase (verRec s x.cdef).newest + v)
  else .refused

/-- What accepting a write to the write view begins: a whole page is marked written, a smaller write to an unwritten page
starts its copy (R279). -/
def beginViewWrite (s : State) (c : Nat) (x : Ctx) (off len key : Nat) : State :=
  if writeViewBase ≤ off then
    let page := (off - writeViewBase) / 4096
    if x.run.written.contains page then s
    else if len = 4096 then s.modRun c fun r => { r with written := sadd r.written page }
    else { s with mem := { s.mem with copies := s.mem.copies ++ [⟨BitVec.ofNat 4 c, page, some key⟩] } }
  else s

/-- Rows of a stripe that an entry has still to read or write. -/
def rowsLeft (t : Txn) : List (Nat × Nat) :=
  if onMemory t then
    (List.range (t.len / 64 - t.done)).map fun i =>
      (stripeOf t.addr.toNat, lineRow (t.addr.toNat + 64 * (t.done + i)))
  else []

/-- An entry accepted before a place in the order has still to work on a row; a read waits only for writes (R263). -/
def rowHeld (s : State) (below : Nat) (write : Bool) (stripe row : Nat) : Bool :=
  s.mem.txns.any fun e => e.2.order < below && (e.2.kind.writes || write) && (rowsLeft e.2).contains (stripe, row)

/-- An operation on a row waits for every operation on it that was accepted earlier (R263). -/
def rowWaits (s : State) (t : Txn) (stripe row : Nat) : Bool := rowHeld s t.order t.kind.writes stripe row

/-- An operation on a span of lines waits for the operations on their rows that were accepted earlier. -/
def spanWaits (s : State) (below : Nat) (write : Bool) (a n : Nat) : Bool :=
  (spanLines a n).any fun l => rowHeld s below write (stripeOf l) (lineRow l)

/-! ### Acceptance (R261, R275, R306, R309, R380) -/

/-- An entry written back. -/
def putEntry (s : State) (x : Nat) (t : Txn) : State := { s with mem := { s.mem with txns := mput s.mem.txns x t } }

/-- The flits that an entry sends over the mesh: its reply to the requesting tile, or the access to a bin that a packet asks for, once
that is under way (R275, R309). -/
def entryFlits (t : Txn) : List Flit :=
  let f (cls : MClass) (op : BitVec 4) (ls : List Line) : List Flit :=
    (List.range (flitCount ls.length)).map fun i =>
      { cls := cls, ctx := t.ctx, op := op, dst := t.src, src := granaryPort t.src.x t.north, seq := BitVec.ofNat 16 i, tag := t.tag
        aux := if ls.isEmpty then 0 else BitVec.ofNat 16 (flitCount ls.length), lines := flitLines ls i }
  match t.reply, t.packet with
  | some op, _ => f .reply op (if op == 3 then t.lines else [])
  | none, some p =>
    if p.space == 0 || t.done = 0 then []
    else (f .request (if p.op == 2 then 4 else 2) t.lines).map fun g =>
      { g with addr := BitVec.ofNat 64 (2 ^ 63 + p.offset.toNat), len := t.len }
  | none, none => []

/-- The flits of an entry leave as the router of its column has slots; with the last one of a reply the entry is freed (R275). -/
def pumpEntry (s : State) (x : Nat) : State :=
  match mfind s.mem.txns x with
  | none => s
  | some t =>
    let l := entryFlits t
    let r := (l.drop t.sent).foldl (fun (r : State × Nat) f =>
      if granaryRoom r.1 f then (r.1.sendGranary f, r.2 + 1) else r) (s, t.sent)
    if t.reply.isSome && r.2 = l.length then dropTxn r.1 x else putEntry r.1 x { t with sent := r.2 }

/-- A granary port goes on with the flits that wait there, when a slot of its router has come free. -/
def pumpGranary (s : State) (x : Nat) (north : Bool) : State :=
  (s.mem.txns.filter fun e => e.2.src.x == x && e.2.north == north && e.2.sent < (entryFlits e.2).length).foldl
    (fun s e => pumpEntry s e.1) s

/-- An entry ends in a reply, which leaves over the mesh. -/
def answerEntry (s : State) (x : Nat) (t : Txn) (op : BitVec 4) (ls : List Line) : State :=
  pumpEntry (putEntry s x { t with reply := some op, sent := 0, lines := ls, done := t.len / 64 }) x

/-- The entry of a request flit; a request for part of a line stands for that line (R172, R210). -/
def entryOf (s : State) (fl : Flit) (kind : TxnKind) (a : Nat) (north : Bool) : Txn :=
  let small := fl.len % 64 != 0
  { kind := kind, ctx := fl.ctx, epoch := epochOf s fl.ctx.toNat, north := north, src := fl.src, tag := fl.tag
    addr := BitVec.ofNat 64 (if small then a / 64 * 64 else a), len := if small then 64 else fl.len
    lines := [], done := 0, order := 0, packet := none, link := 0
    part := if small then some (a % 64, fl.len) else none }

/-- An entry whose request is all there: a refused one answers, and one to another module sends its packet on a link of the context's
allocation, or answers with an error where no path remains (R301, R306, R308, R311). -/
def beginEntry (s : State) (x : Nat) : State :=
  match mfind s.mem.txns x with
  | none => s
  | some t =>
    if t.bad then answerEntry s x t 0xD []
    else
      match t.kind, s.ctx t.ctx.toNat with
      | .readRemote, some c => go s x t c 0 []
      | .writeRemote, some c => go s x t c 2 t.lines
      | _, _ => s
where
  /-- The packet of a remote request leaves. -/
  go (s : State) (x : Nat) (t : Txn) (c : Ctx) (op : Nat) (ls : List Line) : State :=
    let a := t.addr.toNat
    let p := plainPacket op c.cdef.job (gCoord a) (ownCoord s) (if gSpace a == 2 then 2 else 0) (gOff a) (t.len / 64) x t.epoch.toNat
    match sendPacket s (!t.north) c.cdef.slotMask (if op == 2 then packetCarry p ls else p) with
    | some s => s
    | none => answerEntry s x t 0xD []

/-- An entry that collects the flits of this write (R71). -/
def openEntry (s : State) (fl : Flit) (north : Bool) : Option (Nat × Txn) :=
  s.mem.txns.find? fun e =>
    (e.2.kind == .writeLocal || e.2.kind == .writeRemote) && e.2.north == north && e.2.ctx == fl.ctx && e.2.src == fl.src
    && e.2.tag == fl.tag && e.2.reply.isNone && e.2.lines.isEmpty

/-- A flit of a write joins its entry; with the last one the write can go on. -/
def addPart (s : State) (x : Nat) (t : Txn) (fl : Flit) : State :=
  let parts := mput t.parts fl.seq.toNat fl.lines
  if parts.length = fl.aux.toNat then
    beginEntry (putEntry s x { t with parts := [], lines := parts.flatMap (·.2) }) x
  else putEntry s x { t with parts := parts }

/-- The first flit of a request takes an entry of its context's share, or leaves the request waiting at the port; one that is refused
takes its entry until its error reply has left (R261, R275, R308). -/
def acceptRequest (s : State) (f : Nat) (fl : Flit) (c : Nat) (x : Ctx) (north : Bool) : State :=
  let a := fl.addr.toNat
  let write := fl.op == 4
  let take (t : Txn) (view : Bool) : State :=
    let r := addTxn (s.dropFlit f) t
    let s := if view && write then beginViewWrite r.2 c x (gOff a) fl.len r.1 else r.2
    if write then
      match mfind s.mem.txns r.1 with
      | some t => addPart s r.1 t fl
      | none => s
    else beginEntry s r.1
  if gSpace a == 0 || gCoord a == ownCoord s then
    let kind : TxnKind := if write then .writeLocal else .readLocal
    match localTarget s c x (gOff a) fl.len write with
    | .waits => s
    | .recordLost => loseRecord (s.dropFlit f) c
    | .refused => take { entryOf s fl kind 0 north with bad := true } false
    | .phys b => take (entryOf s fl kind b north) true
  else take (entryOf s fl (if write then .writeRemote else .readRemote) a north) false

/-- The reply of a bin to an entry of the link attachment leaves as a packet once all of it is there (R309, R310). -/
def binReply (s : State) (f : Nat) (fl : Flit) : State :=
  let s := s.dropFlit f
  let north := fl.dst.y == northRow
  match s.mem.txns.find? fun e => e.2.packet.isSome && !onMemory e.2 && e.2.src.x == fl.dst.x && e.2.north == north && e.2.tag == fl.tag with
  | none => s
  | some (x, t) =>
    match t.packet with
    | none => s
    | some p =>
      let parts := mput t.parts fl.seq.toNat fl.lines
      if fl.op == 3 && parts.length < fl.aux.toNat then putEntry s x { t with parts := parts }
      else
        let r := replyPacket s p (if fl.op == 3 then 1 else if fl.op == 5 then 3 else 4)
        sendReply (dropTxn s x) (!t.north) (if fl.op == 3 then packetCarry r (parts.flatMap (·.2)) else r)

/-- GRANARY_REQUEST_ACCEPT: a request at a granary port takes an entry of its context's share, or waits for one; the further
flits of a write join its entry; a request of a context that is being reset is absorbed. The port also takes the replies of bins
to remote accesses (R71, R275, R276, R306). -/
def execGranaryRequestAccept (f : Nat) (s : State) : Out :=
  match s.arrived f with
  | none => .next s
  | some fl =>
    if isGranary fl.dst then
      let north := fl.dst.y == northRow
      if fl.cls == .reply then .next (binReply s f fl)
      else if fl.op == 2 || fl.op == 4 then
        match live s fl.ctx.toNat fl.src with
        | none => .next (s.dropFlit f)
        | some x =>
          match (if fl.op == 4 then openEntry s fl north else none) with
          | some e => .next (addPart (s.dropFlit f) e.1 e.2 fl)
          | none =>
            if x.cdef.share ≤ entriesUsed s fl.ctx.toNat north then .next s
            else .next (acceptRequest s f fl fl.ctx.toNat x north)
      else .next s
    else .next s

/-! ### Reads and writes (R263 to R266, R270) -/

/-- An entry that has read every line answers: the tile over the mesh, or the requesting module by a packet. -/
def finishRead (s : State) (x : Nat) (t : Txn) (ls : List Line) : State :=
  match t.packet with
  | some p => sendReply (dropTxn s x) (!t.north) (packetCarry (replyPacket s p 1) ls)
  | none => answerEntry s x t 3 ls

/-- An entry that has written every line acknowledges. -/
def finishWrite (s : State) (x : Nat) (t : Txn) (ok : Bool) : State :=
  match t.packet with
  | some p => sendReply (dropTxn s x) (!t.north) (replyPacket s p (if ok then 3 else 4))
  | none => answerEntry s x t (if ok then 5 else 0xD) []

/-- GRANARY_LINE_READ: the next line of a read entry is delivered, carrying its poison, rebuilt, or delivered poisoned (R264,
R284). -/
def execGranaryLineRead (x : Nat) (errs : List LineCheck) (s : State) : Out :=
  match mfind s.mem.txns x with
  | none => .next s
  | some t =>
    let a := t.addr.toNat + 64 * t.done
    if s.mem.selfRefresh || t.kind.writes || !onMemory t || t.bad || t.len / 64 ≤ t.done
        || rowWaits s t (stripeOf a) (lineRow a) then .next s
    else
      match lineRead (noteReports s errs) errs a 0 with
      | (s, l) =>
        let ls := t.lines ++ [l]
        if t.done + 1 = t.len / 64 then .next (finishRead s x t ls)
        else .next (putEntry s x { t with lines := ls, done := t.done + 1 })

/-- The positions of a row that a write of some of its data positions reads (R265). -/
def writeReads (s : State) (stripe row : Nat) (written : List Nat) : List Nat :=
  let par := row % 12
  let unwritten := (List.range 12).filter fun q => q != par && !written.contains q
  if unwritten.isEmpty then []
  else
    match retiredPos s stripe with
    | [] => unwritten
    | r :: _ =>
      if r = par then []
      else if written.contains r then unwritten
      else (List.range 12).filter fun q => q != r

/-- The reads of a row write: a data line as every read of one, and a parity line that fails takes the line of the retired
channel with it (R264, R265, R284). -/
def readForWrite (s : State) (errs : List LineCheck) (stripe row : Nat) (qs : List Nat) : State :=
  qs.foldl (fun s q =>
    match posAddr stripe row q with
    | some a => (lineRead s errs a 0).1
    | none =>
      match chanRead s errs stripe row q with
      | (s, some _) => s
      | (s, none) => rowLost s stripe row (retiredPos s stripe) 0) s

/-- Consecutive lines of one row written, with the reads that the row's parity needs (R263, R265). -/
def storeRow (s : State) (errs : List LineCheck) (a : Nat) (ls : List Line) : State :=
  let written := (List.range ls.length).map fun i => rowPos (a + 64 * i)
  let s := readForWrite s errs (stripeOf a) (lineRow a) (writeReads s (stripeOf a) (lineRow a) written)
  ((List.range ls.length).zip ls).foldl (fun s e => lineWrite s (a + 64 * e.1) e.2) s

/-- Lines of one row from an offset on, of `left` lines. -/
def rowRun (a left : Nat) : Nat := min (11 - lineIndex a % 11) left

/-- Lines within one page written row by row. -/
def storeRows (errs : List LineCheck) : Nat → State → Nat → List Line → State
  | 0, s, _, _ => s
  | n + 1, s, a, ls =>
    if ls.isEmpty then s
    else
      let k := rowRun a ls.length
      storeRows errs n (storeRow s errs a (ls.take k)) (a + 64 * k) (ls.drop k)

/-- The lines that an entry writes: those of its flits, or for part of a line the old line with that part replaced. A line
written from its first byte on is written anew, any other keeps its poison (notes/assumptions/16.md). -/
def entryLines (s : State) (errs : List LineCheck) (t : Txn) : State × List Line :=
  match t.part with
  | none => (s, t.lines)
  | some (off, n) =>
    match lineRead s errs t.addr.toNat 0 with
    | (s, old) =>
      let mask : LineData := BitVec.ofNat 512 ((2 ^ (8 * n) - 1) * 2 ^ (8 * off))
      let new := (t.lines.headD ⟨0, false⟩).data
      (s, [⟨(old.data &&& ~~~mask) ||| (new &&& mask), old.poison && off != 0⟩])

/-- GRANARY_ROW_WRITE: the lines of one row of a write entry, and the row's parity, are written; the write is acknowledged
with its last row. A write to a lost stripe is refused and its context reset as for a consumption (R263, R265, R266, R270). -/
def execGranaryRowWrite (x : Nat) (errs : List LineCheck) (s : State) : Out :=
  match mfind s.mem.txns x with
  | none => .next s
  | some t =>
    let a := t.addr.toNat + 64 * t.done
    let left := t.len / 64 - t.done
    if s.mem.selfRefresh || !t.kind.writes || !onMemory t || left = 0 || 64 * t.lines.length != t.len
        || rowWaits s t (stripeOf a) (lineRow a)
        || (s.mem.copies.any fun c => c.txn == some x) then .next s
    else if s.lostAt a then
      let s := finishWrite s x t false
      .next (if t.packet.isNone then stopCtx s t.ctx.toNat 5 none [] else s)
    else
      let n := rowRun a left
      match entryLines (noteReports s errs) errs t with
      | (s, ls) =>
        let s := storeRow s errs a ((ls.drop t.done).take n)
        .next (if n = left then finishWrite s x t true else putEntry s x { t with done := t.done + n })

/-- An accepted write completed at once, parity included; of one whose flits have not all come, the lines that have (R276). -/
def storeEntry (s : State) (errs : List LineCheck) (t : Txn) : State :=
  if t.bad || t.kind != .writeLocal || t.reply.isSome then s
  else if t.lines.isEmpty then
    t.parts.foldl (fun s e => storeRows errs 64 s (t.addr.toNat + 128 * e.1) e.2) s
  else
    match entryLines s errs t with
    | (s, ls) => storeRows errs 64 s (t.addr.toNat + 64 * t.done) (ls.drop t.done)

/-! ### Retirement and scrub (R267, R268, R270, R272) -/

/-- A channel is retired: its stripe degraded, or lost when it was degraded already (R268, R270). -/
def retireChannel (s : State) (ch : Nat) : State :=
  let n := ch / 12
  let st := s.stripe n
  let s := kaWatch (gazDecided { s with mem := { s.mem with retired := sadd s.mem.retired ch, due := sdel s.mem.due ch } })
  match st.state.toNat with
  | 0 =>
    let s := s.modStripe n fun t => { t with state := 1, retiredPos := BitVec.ofNat 4 (ch % 12) }
    addFaultAll (raise s .memChannelRetired [ch, n]) 0x32 (BitVec.ofNat 64 ch)
  | 1 =>
    raise (s.modStripe n fun t => { t with state := 2, lostPos := BitVec.ofNat 4 (ch % 12) }) .stripeLost [n]
  | _ => s

/-- CHANNEL_RESPONSE_TIMEOUT: a channel that does not answer a command has met a retirement condition (R267). -/
def execChannelResponseTimeout (ch : Nat) (s : State) : Out :=
  .next (if ch < 192 && !s.mem.retired.contains ch then { s with mem := { s.mem with due := sadd s.mem.due ch } } else s)

/-- CHANNEL_RETIRE: a channel that has met a retirement condition is retired: one marked due, or one that fails drift tracking
(R267, R268). -/
def execChannelRetire (ch : Nat) (drift : Bool) (s : State) : Out :=
  .next (if ch < 192 && !retiredAt s ch && (drift || s.mem.due.contains ch) then retireChannel s ch else s)

/-- Rows of a channel (R262). -/
def memRows (s : State) : Nat := if bits s.factory.product.toNat 16 8 == 0x30 then 201326592 else 134217728

/-- A row scrubbed: a line that fails is rebuilt and rewritten, or poisoned where the row cannot tell it; a parity line that
fails in a degraded row takes the line of the retired channel with it (R264, R272, R284). -/
def scrubRow (s : State) (errs : List LineCheck) (stripe row : Nat) : State :=
  let gone := retiredPos s stripe
  match rowRead s errs stripe row ((List.range 12).filter fun q => !gone.contains q) with
  | (s, _, []) => s
  | (s, l, [q]) =>
    if gone.isEmpty then
      let s := s.modStripe stripe fun t => { t with recon := satAdd t.recon 1 (2 ^ 32 - 1) }
      match posAddr stripe row q with
      | some a => lineWrite s a l
      | none => s
    else rowLost s stripe row (q :: gone) 1
  | (s, _, bad) => rowLost s stripe row (bad ++ gone) 1

/-- GRANARY_SCRUB_ROW: the next row of a stripe is read and mended, when no accepted operation holds it (R263, R272, R284). -/
def execGranaryScrubRow (stripe : Nat) (errs : List LineCheck) (s : State) : Out :=
  let row := mget s.mem.scrubRow 0 stripe
  if 16 ≤ stripe || s.mem.selfRefresh || cfgField s 0x2280 1 0 8 = 0 || (s.stripe stripe).state == 2
      || rowHeld s s.mem.nextOrder true stripe row then .next s
  else
    let s := scrubRow (noteReports s errs) errs stripe row
    .next { s with mem := { s.mem with scrubRow := mput s.mem.scrubRow stripe ((row + 1) % memRows s) } }

/-! ### Page copies (R279, R280) -/

/-- A page of the versioned range copied from NEWEST to BUILD, poison carried exactly. -/
def copyPage (s : State) (errs : List LineCheck) (d : CtxDef) (page : Nat) : State :=
  let r := verRec s d
  match linesRead s errs (d.slotBase r.newest + 4096 * page) 2 64 with
  | (s, ls) => storeRows errs 64 s (d.slotBase r.build + 4096 * page) ls

/-- Operations accepted before a copy hold its rows: those before the write that waits for it, or every one at a boundary. -/
def copyWaits (s : State) (c : Nat) (d : CtxDef) (page : Nat) : Bool :=
  let below := match (s.mem.copies.find? fun k => k.ctx.toNat == c && k.page == page).bind (·.txn) with
    | some x => ((mfind s.mem.txns x).map (·.order)).getD s.mem.nextOrder
    | none => s.mem.nextOrder
  let r := verRec s d
  spanWaits s below false (d.slotBase r.newest + 4096 * page) 4096
    || spanWaits s below true (d.slotBase r.build + 4096 * page) 4096

/-- PAGE_COPY_COMPLETE: a copy for a waiting write, or one of a step boundary, completes; a copy into a lost stripe is a write
to it, and a version record that cannot be read ends the context (R263, R270, R279, R280, R285). -/
def execPageCopyComplete (c : Nat) (page : Nat) (errs : List LineCheck) (s : State) : Out :=
  match s.ctx c with
  | none => .next s
  | some x =>
    let boundary := x.run.phase == .boundary && x.run.toCopy.contains page
    if s.mem.selfRefresh || !(copying s c page || boundary) || copyWaits s c x.cdef page then .next s
    else if recordLost s x.cdef then .next (loseRecord s c)
    else
      let lost := (s.stripe (page % 16)).state == 2
      let s := copyPage (noteReports s errs) errs x.cdef page
      let s := { s with mem := { s.mem with copies := s.mem.copies.filter fun p => !(p.ctx.toNat == c && p.page == page) } }
      let s := s.modRun c fun r =>
        { r with written := if boundary then r.written else sadd r.written page, toCopy := sdel r.toCopy page }
      .next (if lost then stopCtx s c 5 none [] else s)

end Sys2Proof.Machine
end

