-- ==== Sys2Proof/Machine/Vector.lean ====
section
/-! DEFINITION. The vector unit: VALU and VSFU instructions and the vector conversions (R50, R51, R61 to R64, R67, R138 to
R147). -/

namespace Sys2Proof.Machine

/-! ### VALU -/

/-- Which operands a VALU operation reads. -/
inductive VKind where
  /-- va and vb. -/
  | two
  /-- va alone; the vb field must be zero. -/
  | one
  /-- va, vb and vd; vd must be a register (R52). -/
  | acc
  deriving DecidableEq, Repr

/-- The source fields of a VALU operation. -/
def VKind.srcs (k : VKind) (va vb : BitVec 5) : List (BitVec 5) := if k = .one then [va] else [va, vb]

/-- An invalid VALU encoding (R52). -/
def VKind.invalid (k : VKind) (vd va vb : BitVec 5) : Bool :=
  dupPort (vd :: k.srcs va vb) || (k = .one && vb != 0) || (k = .acc && isPort vd)

/-- Lane results of an operation on va, vb and vd. -/
def laneMap (f : BitVec 32 → BitVec 32 → BitVec 32 → LaneRes) (a b d : VecData) : List LaneRes :=
  ((lanes a).zip ((lanes b).zip (lanes d))).map fun x => f x.1 x.2.1 x.2.2

/-- A VALU operation that consumes its operands lane by lane. -/
def valu (h : Hdr) (vd va vb : BitVec 5) (k : VKind) (f : BitVec 32 → BitVec 32 → BitVec 32 → LaneRes) (s : State) : Out :=
  issue h true (k.invalid vd va vb) s fun t => withCtx s h.t fun c x =>
    let fs := k.srcs va vb
    match portsBlock s x.cdef (ckey h.t) true (portsOf fs) (portsOf [vd]) with
    | some b => b
    | none =>
      match taggedSrc t (if k = .acc then fs ++ [vd] else fs) with
      | some g => .exc 8 (srcDetail g)
      | none =>
        let r := laneMap f (srcItem t va).data (if k = .one then 0 else (srcItem t vb).data)
          (if k = .acc then (srcItem t vd).data else 0)
        let s := popAll s x.cdef h.t (portsOf fs)
        let s := s.modCore h.t fun q => q.addFlags (orFlags r)
        .fin (putVec s c x.cdef h.t vd { data := ofLanes (r.map (·.1)) })

/-- A lane function without flags. -/
def noFlags (f : BitVec 32 → BitVec 32 → BitVec 32) (a b _d : BitVec 32) : LaneRes := (f a b, 0)

/-- All ones or zero (R51). -/
def maskW (b : Bool) : BitVec 32 := if b then BitVec.allOnes 32 else 0

/-- `va < vb` or `va = vb` of one lane, a NaN unordered (R62). -/
def laneCmp (less : Bool) (a b _d : BitVec 32) : LaneRes :=
  let x := ofF32 a
  let y := ofF32 b
  (maskW (if less then x.lt y else x.eq y), cmpFlags less x y)

def execVadd (h : Hdr) (vd va vb : BitVec 5) (s : State) : Out := valu h vd va vb .two (fun a b _ => f32Add a b) s
def execVsub (h : Hdr) (vd va vb : BitVec 5) (s : State) : Out := valu h vd va vb .two (fun a b _ => f32Sub a b) s
def execVmul (h : Hdr) (vd va vb : BitVec 5) (s : State) : Out := valu h vd va vb .two (fun a b _ => f32Mul a b) s
def execVfma (h : Hdr) (vd va vb : BitVec 5) (s : State) : Out := valu h vd va vb .acc (fun a b d => f32Fma false a b d) s
def execVfms (h : Hdr) (vd va vb : BitVec 5) (s : State) : Out := valu h vd va vb .acc (fun a b d => f32Fma true a b d) s
def execVmax (h : Hdr) (vd va vb : BitVec 5) (s : State) : Out := valu h vd va vb .two (noFlags (f32Pick true)) s
def execVmin (h : Hdr) (vd va vb : BitVec 5) (s : State) : Out := valu h vd va vb .two (noFlags (f32Pick false)) s
def execVabs (h : Hdr) (vd va vb : BitVec 5) (s : State) : Out :=
  valu h vd va vb .one (noFlags fun a _ => a &&& 0x7FFFFFFF#32) s
def execVneg (h : Hdr) (vd va vb : BitVec 5) (s : State) : Out :=
  valu h vd va vb .one (noFlags fun a _ => a ^^^ 0x80000000#32) s
def execVcmplt (h : Hdr) (vd va vb : BitVec 5) (s : State) : Out := valu h vd va vb .two (laneCmp true) s
def execVcmpeq (h : Hdr) (vd va vb : BitVec 5) (s : State) : Out := valu h vd va vb .two (laneCmp false) s
def execVand (h : Hdr) (vd va vb : BitVec 5) (s : State) : Out := valu h vd va vb .two (noFlags (· &&& ·)) s
def execVor (h : Hdr) (vd va vb : BitVec 5) (s : State) : Out := valu h vd va vb .two (noFlags (· ||| ·)) s
def execVxor (h : Hdr) (vd va vb : BitVec 5) (s : State) : Out := valu h vd va vb .two (noFlags (· ^^^ ·)) s
def execVaddi (h : Hdr) (vd va vb : BitVec 5) (s : State) : Out := valu h vd va vb .two (noFlags (· + ·)) s
def execVsubi (h : Hdr) (vd va vb : BitVec 5) (s : State) : Out := valu h vd va vb .two (noFlags (· - ·)) s

/-- `vmov`: a copy with its tags (R67). -/
def execVmov (h : Hdr) (vd va vb : BitVec 5) (s : State) : Out :=
  issue h true (VKind.one.invalid vd va vb) s fun t => withCtx s h.t fun c x =>
    match portsBlock s x.cdef (ckey h.t) true (portsOf [va]) (portsOf [vd]) with
    | some b => b
    | none =>
      let i := srcItem t va
      .fin (putVec (popAll s x.cdef h.t (portsOf [va])) c x.cdef h.t vd i)

/-- A half of `vsel`'s result takes a lane from a tagged half of va or vb (R67). -/
def selTag (d : List (BitVec 32)) (a b : Bool) : Bool := d.any fun w => if w != 0 then a else b

/-- `vsel`: lanes of va where vd is nonzero, else of vb; vd is tested, va and vb are moved with their tags (R67). -/
def execVsel (h : Hdr) (vd va vb : BitVec 5) (s : State) : Out :=
  issue h true (VKind.acc.invalid vd va vb) s fun t => withCtx s h.t fun c x =>
    match portsBlock s x.cdef (ckey h.t) true (portsOf [va, vb]) [] with
    | some b => b
    | none =>
      if (srcItem t vd).tagged then .exc 8 (srcDetail vd)
      else
        let a := srcItem t va
        let b := srcItem t vb
        let d := lanes (srcItem t vd).data
        let r := laneMap (fun a b d => (if d != 0 then a else b, 0)) a.data b.data (srcItem t vd).data
        let i : Item := { data := ofLanes (r.map (·.1)), tagLo := selTag (d.take 16) a.tagLo b.tagLo
                          tagHi := selTag (d.drop 16) a.tagHi b.tagHi }
        .fin (putVec (popAll s x.cdef h.t (portsOf [va, vb])) c x.cdef h.t vd i)

/-! ### VSFU -/

/-- A VSFU operation on a consumed source: `f` gives the result, its flags, and a further change of the state. -/
def vsfu (h : Hdr) (vd va : BitVec 5) (invalid : Bool) (f : Nat → Ctx → Core → VecData → VecData × BitVec 5)
    (after : Nat → Ctx → Core → VecData → State → State) (s : State) : Out :=
  issue h true (invalid || dupPort [vd, va]) s fun t => withCtx s h.t fun c x =>
    match portsBlock s x.cdef (ckey h.t) true (portsOf [va]) (portsOf [vd]) with
    | some b => b
    | none =>
      if (srcItem t va).tagged then .exc 8 (srcDetail va)
      else
        let a := (srcItem t va).data
        let r := f c x t.core a
        let s := popAll s x.cdef h.t (portsOf [va])
        let s := s.modCore h.t fun q => q.addFlags r.2
        .fin (putVec (after c x t.core a s) c x.cdef h.t vd { data := r.1 })

/-- A lane-wise special function. -/
def sfuLanes (f : BitVec 32 → LaneRes) (a : VecData) : VecData × BitVec 5 :=
  let r := (lanes a).map f
  (ofLanes (r.map (·.1)), orFlags r)

/-- Adjacent lanes combined, with the flags of the level (R64). -/
def pairUp (f : BitVec 32 → BitVec 32 → LaneRes) : List (BitVec 32) → List LaneRes
  | a :: b :: t => f a b :: pairUp f t
  | _ => []

/-- The fixed tree of a reduction (R64): `n` levels. -/
def redTree (f : BitVec 32 → BitVec 32 → LaneRes) : Nat → List (BitVec 32) → BitVec 5 → BitVec 32 × BitVec 5
  | 0, l, fl => (l.headD 0, fl)
  | n + 1, l, fl =>
    let r := pairUp f l
    redTree f n (r.map (·.1)) (fl ||| orFlags r)

/-- A reduction of 32 lanes, in every lane of the result (R64). -/
def redAll (f : BitVec 32 → BitVec 32 → LaneRes) (a : VecData) : VecData × BitVec 5 :=
  let r := redTree f 5 (lanes a) 0
  (ofLanes (List.replicate 32 r.1), r.2)

/-- A VSFU operation other than a conversion: its format fields must be zero (R51). -/
def sfu (h : Hdr) (vd va : BitVec 5) (dfmt sfmt : BitVec 4) (f : VecData → VecData × BitVec 5) (s : State) : Out :=
  vsfu h vd va (dfmt != 0 || sfmt != 0) (fun _ _ _ a => f a) (fun _ _ _ _ s => s) s

def execVexp (h : Hdr) (vd va : BitVec 5) (dfmt sfmt : BitVec 4) (s : State) : Out := sfu h vd va dfmt sfmt (sfuLanes f32Exp) s
def execVlog (h : Hdr) (vd va : BitVec 5) (dfmt sfmt : BitVec 4) (s : State) : Out := sfu h vd va dfmt sfmt (sfuLanes f32Log) s
def execVrsqrt (h : Hdr) (vd va : BitVec 5) (dfmt sfmt : BitVec 4) (s : State) : Out :=
  sfu h vd va dfmt sfmt (sfuLanes f32Rsqrt) s
def execVrcp (h : Hdr) (vd va : BitVec 5) (dfmt sfmt : BitVec 4) (s : State) : Out := sfu h vd va dfmt sfmt (sfuLanes f32Rcp) s
def execVredsum (h : Hdr) (vd va : BitVec 5) (dfmt sfmt : BitVec 4) (s : State) : Out := sfu h vd va dfmt sfmt (redAll f32Add) s
def execVredmax (h : Hdr) (vd va : BitVec 5) (dfmt sfmt : BitVec 4) (s : State) : Out :=
  sfu h vd va dfmt sfmt (redAll fun a b => (f32Pick true a b, 0)) s
def execVredmin (h : Hdr) (vd va : BitVec 5) (dfmt sfmt : BitVec 4) (s : State) : Out :=
  sfu h vd va dfmt sfmt (redAll fun a b => (f32Pick false a b, 0)) s

/-! ### Conversions (R139 to R141) -/

/-- The narrow floating-point formats by code (R51). -/
def narrowFmt (code : BitVec 4) : Option Fmt :=
  match code.toNat with
  | 1 => some fBF16
  | 2 => some fE4M3
  | 3 => some fE5M2
  | 4 => some fE3M2
  | 5 => some fE2M3
  | 6 => some fE2M1
  | _ => none

/-- The conversions of `vcvt`. -/
inductive Cvt where
  | narrow (f : Fmt)
  | widen (f : Fmt)
  | toInt | toFloat | rawPack | rawUnpack
  deriving DecidableEq, Repr

/-- The conversion of a format pair, if R139 lists it. -/
def cvtOf (dfmt sfmt : BitVec 4) : Option Cvt :=
  if sfmt == 0 && dfmt == 7 then some .toInt
  else if sfmt == 7 && dfmt == 0 then some .toFloat
  else if sfmt == 7 && dfmt == 1 then some .rawPack
  else if sfmt == 1 && dfmt == 7 then some .rawUnpack
  else if sfmt == 0 then (narrowFmt dfmt).map .narrow
  else if dfmt == 0 then (narrowFmt sfmt).map .widen
  else none

/-- Element codes packed densely and repeated over 128 B (R129, R141). -/
def packRepeat (w : Nat) (codes : List Nat) : VecData :=
  let one := codes.foldr (fun c a => c % 2 ^ w + 2 ^ w * a) 0
  let n := 4 * w
  BitVec.ofNat 1024 (leNat ((List.range 128).map fun i => BitVec.ofNat 8 (one / 256 ^ (i % n))))

/-- Element `n` of a dense packing (R129, R141). -/
def unpackAt (w : Nat) (a : VecData) (n : Nat) : Nat := bits a.toNat (w * n) w

/-- The random word of an element (R144). -/
def randomWord (seed step : DWord) (tensor index : Word) : BitVec 32 :=
  let (a, b, c, d) := philox (index.toNat / 4) tensor.toNat (step.toNat % 2 ^ 32) (step.toNat / 2 ^ 32)
    (seed.toNat % 2 ^ 32) (seed.toNat / 2 ^ 32)
  BitVec.ofNat 32 (match index.toNat % 4 with
    | 0 => a
    | 1 => b
    | 2 => c
    | _ => d)

/-- E5M2_INF of NUMERICS_MODE in force (R136, R153). -/
def e5m2Inf (x : Ctx) : Bool := bitAt x.run.numerics.toNat 3

/-- Rounding mode of lane n: nearest for `vcvt`, stochastic for `vcvtsr` (R139, R144). -/
def laneMode (sr : Bool) (x : Ctx) (k : Core) (n : Nat) : RMode :=
  if sr then .stochastic (randomWord x.cdef.seed x.run.step k.tensorId (k.elementBase + BitVec.ofNat 32 n)) else .nearest

/-- The narrowed lanes. -/
def narrowLanes (sr : Bool) (x : Ctx) (k : Core) (f : Fmt) (a : VecData) : List (Num × Conv) :=
  (lanes a).mapIdx fun n w => (ofF32 w, f.convert (e5m2Inf x) (laneMode sr x k n) (ofF32 w))

/-- One conversion of 32 lanes: the result and its flags. -/
def convert32 (sr : Bool) (x : Ctx) (k : Core) (c : Cvt) (a : VecData) : VecData × BitVec 5 :=
  match c with
  | .narrow f =>
    let r := narrowLanes sr x k f a
    (packRepeat f.width (r.map (·.2.code)), r.foldl (fun m q => m ||| q.2.flags) 0)
  | .widen f =>
    let r := (List.range 32).map fun n =>
      let v := f.decode (unpackAt f.width a n)
      if v.isNan then (canonNaN, flagNV) else roundF32 true v
    (ofLanes (r.map (·.1)), orFlags r)
  | .toInt =>
    let r := (lanes a).map f32ToInt
    (ofLanes (r.map (·.1)), r.foldl (fun m q => m ||| q.2.1) 0)
  | .toFloat =>
    let r := (lanes a).map intToF32
    (ofLanes (r.map (·.1)), orFlags r)
  | .rawPack => (packRepeat 16 ((lanes a).map fun w => w.toNat % 65536), 0)
  | .rawUnpack => (ofLanes ((List.range 32).map fun n => BitVec.ofNat 32 (unpackAt 16 a n)), 0)

/-- What a conversion adds to the counters of its tensor (R138). -/
def convert32Count (sr : Bool) (x : Ctx) (k : Core) (c : Cvt) (a : VecData) : Option TallyEnt :=
  let id := tallyId x.cdef k.tensorId
  match c with
  | .narrow f =>
    some ((narrowLanes sr x k f a).foldl (fun e q => e.merge (convCount id q.1 (f.decode q.2.code) q.2.saturated))
      { tensor := id })
  | .toInt =>
    some ((lanes a).foldl (fun e w =>
      let r := f32ToInt w
      e.merge (convCount id (ofF32 w) (Num.ofInt r.1.toInt 0) r.2.2)) { tensor := id })
  | _ => none

/-- `vcvt` and `vcvtsr`: the conversion, its counters, and for `vcvtsr` the advance of ELEMENT_BASE (R46). -/
def vconv (sr : Bool) (h : Hdr) (vd va : BitVec 5) (dfmt sfmt : BitVec 4) (s : State) : Out :=
  match cvtOf dfmt sfmt with
  | none => issue h true true s fun _ => .go s
  | some c =>
    vsfu h vd va (sr && !(match c with | .narrow _ => true | _ => false))
      (fun _ x k a => convert32 sr x k c a)
      (fun n x k a s =>
        let s := if sr then s.modCore h.t fun q => { q with elementBase := k.elementBase + 32 } else s
        match convert32Count sr x k c a with
        | some e => tallyAdd s n (ckey h.t) e
        | none => s) s

def execVcvt (h : Hdr) (vd va : BitVec 5) (dfmt sfmt : BitVec 4) (s : State) : Out := vconv false h vd va dfmt sfmt s
def execVcvtsr (h : Hdr) (vd va : BitVec 5) (dfmt sfmt : BitVec 4) (s : State) : Out := vconv true h vd va dfmt sfmt s

end Sys2Proof.Machine
end

