-- ==== Sys2Proof/Machine/MatrixOps.lean ====
section
/-! DEFINITION. The arithmetic of the matrix array: formats and layouts of rows and blocks, scales, block terms, the witness
sums, and the conversion of a drain (R91 to R94, R101, R105 to R116, R127 to R153). -/

namespace Sys2Proof.Machine

/-! ### Configuration words (R91, R96, R97) -/

def cfA (w : Nat) : Nat := bits w 24 4
def cfW (w : Nat) : Nat := bits w 20 4
def cfASc (w : Nat) : Nat := bits w 18 2
def cfWSc (w : Nat) : Nat := bits w 16 2
def cfBlk (w : Nat) : Nat := bits w 14 2
def cdFmt (w : Nat) : Nat := bits w 28 4
def cdScale (w : Nat) : Nat := bits w 26 2
def cdBlk (w : Nat) : Nat := bits w 24 2
def cdRound (w : Nat) : Nat := bits w 22 2

/-- Block length of a code. -/
def blockLen (c : Nat) : Nat := 16 * 2 ^ c

/-- The element format of a code, FP32 for the others (R51). -/
def elemFmt (c : Nat) : Fmt := (narrowFmt (BitVec.ofNat 4 c)).getD fFP32

/-- BF16 pairs with itself only (R91). -/
def pairOk (a w : Nat) : Bool := (a == 1) == (w == 1)

/-- A FORMAT word that `mcfg` may write (R96, R97). -/
def formatOk (w : Nat) : Bool :=
  bits w 28 4 == 0 && bits w 0 14 == 0 && cfA w ≤ 6 && cfW w ≤ 6 && cfASc w ≤ 2 && cfWSc w ≤ 2
  && (cfA w == 0 || cfW w == 0 || pairOk (cfA w) (cfW w))
  && !(cfA w == 1 && cfASc w != 0) && !(cfW w == 1 && cfWSc w != 0)

/-- A DRAIN word that `mcfg` may write (R96, R97). -/
def drainOk (w : Nat) : Bool :=
  bits w 0 22 == 0 && (cdFmt w ≤ 6 || cdFmt w == 8) && cdScale w ≤ 2 && cdRound w ≤ 1
  && !((cdFmt w == 0 || cdFmt w == 1 || cdFmt w == 8) && cdScale w != 0)
  && !((cdFmt w == 0 || cdFmt w == 8) && cdRound w == 1)

/-! ### Layouts (R92, R93, R109) -/

/-- Scale bytes of a row of 64 elements. -/
def rowScales (blk : Nat) : Nat := if blk == 3 then 1 else 64 / blockLen blk

/-- Bytes of an activation row. -/
def rowBytes (w : Nat) : Nat := 8 * (elemFmt (cfA w)).width + (if cfASc w == 0 then 0 else rowScales (cfBlk w))

/-- Bytes of a stationary image. -/
def imageBytes (w : Nat) : Nat := 512 * (elemFmt (cfW w)).width + (if cfWSc w == 0 then 0 else 64 * rowScales (cfBlk w))

/-- Bits of a drained element. -/
def outWidth (w : Nat) : Nat := if cdFmt w == 8 then 48 else (elemFmt (cdFmt w)).width

/-- Bytes of a drained row of `n` elements. -/
def outRowBytes (w n : Nat) : Nat := n * outWidth w / 8 + (if cdScale w == 0 then 0 else n / blockLen (cdBlk w))

/-! ### Scales (R132) -/

/-- The value of a scale byte: none is 1, E8M0, or E4M3 with its sign ignored. -/
def scaleVal (enc : Nat) (c : Nat) : Num :=
  match enc with
  | 0 => .fin false 1 0
  | 1 => if c == 255 then .nan else .fin false 1 ((c : Int) - 127)
  | _ => fE4M3.decode (c % 128)

/-- The exponent that the witness takes of a scale byte. -/
def scaleExp (enc : Nat) (c : Nat) : Int :=
  match enc with
  | 0 => 0
  | 1 => (c : Int) - 127
  | _ =>
    match fE4M3.decode (c % 128) with
    | .fin _ m e => if m = 0 then 0 else (Nat.log2 m : Int) + e
    | _ => 0

/-- A block whose scale is NaN has every element read as NaN. -/
def underScale (s x : Num) : Num := if s.isNan then .nan else x

/-! ### Operands of a row (R92, R93, R105) -/

/-- Element `i` of an activation row. -/
def rowElem (r : MRow) (i : Nat) : Num :=
  let f := elemFmt (cfA r.cfg.toNat)
  f.decode (bits r.data (f.width * i) f.width)

/-- Block of element `i` of a row. -/
def rowBlock (blk i : Nat) : Nat := if blk == 3 then 0 else i / blockLen blk

/-- Scale byte of block `b` of a row. -/
def rowScale (r : MRow) (b : Nat) : Nat := bits r.scales (8 * b) 8

/-- Element (k, n) of a stationary block. -/
def statElem (b : StatBuf) (k n : Nat) : Num :=
  let f := elemFmt b.fmt.toNat
  f.decode (bits b.data (f.width * (64 * k + n)) f.width)

/-- Scale byte of the K-block of k at column n. -/
def statScale (b : StatBuf) (k n : Nat) : Nat := bits b.scales (8 * (64 * rowBlock b.blk.toNat k + n)) 8

/-- The scale value at (k, n). -/
def statScaleVal (b : StatBuf) (k n : Nat) : Num := scaleVal b.scaleEnc.toNat (statScale b k n)

/-! ### Block terms (R106) -/

/-- A sum of exact values; an exact zero is +0. -/
def sumNums (l : List Num) : Num :=
  match l.foldl Num.add (.fin false 0 0) with
  | .fin _ 0 _ => .fin false 0 0
  | x => x

/-- The products of output entry `o`: contraction index i against the row. -/
def rowProduct (r : MRow) (b : StatBuf) (o i : Nat) : Num :=
  let w := if r.t then statElem b o i else statElem b i o
  let sw := if r.t then statScaleVal b o i else statScaleVal b i o
  (underScale sw w).mul (rowElem r i)

/-- A scaled block term: the exact sum of the products of one block of the row, under the scales of both operands. The scale
of the stationary block belongs to its K-block, so with T = 1 each product carries its own (R105). A scale of zero leaves the
sign of the sum (notes/assumptions/93.md). -/
def scaledTerm (r : MRow) (b : StatBuf) (o blk : Nat) : Num :=
  let bc := cfBlk r.cfg.toNat
  let sa := scaleVal (cfASc r.cfg.toNat) (rowScale r blk)
  let is := (List.range 64).filter fun i => rowBlock bc i == blk
  if r.t then
    (sumNums (is.map fun i => underScale sa ((rowProduct r b o i).mul (statScaleVal b o i)))).mul sa
  else
    match is with
    | [] => .fin false 0 0
    | i0 :: _ => ((sumNums (is.map fun i => underScale sa (rowProduct r b o i))).mul sa).mul (statScaleVal b i0 o)

/-- The exponent of a product, by its value. -/
def productExp (x : Num) : Option Int :=
  match x with
  | .fin _ m e => if m = 0 then none else some ((Nat.log2 m : Int) + e)
  | _ => none

/-- A product without the bits of its magnitude more than 72 binades below `top`. -/
def windowed (top : Int) (x : Num) : Num :=
  match x with
  | .fin n m e =>
    let q := top - 72
    if q ≤ e then x else .fin n (m / 2 ^ (q - e).toNat) q
  | y => y

/-- The BF16 term: 64 products in an 80-bit window below the largest product exponent. -/
def bfTerm (r : MRow) (b : StatBuf) (o : Nat) : Num :=
  let ps := (List.range 64).map (rowProduct r b o)
  match (ps.filterMap productExp).max? with
  | some top => sumNums (ps.map (windowed top))
  | none => sumNums ps

/-- The block terms of output entry `o`, in ascending block order. -/
def blockTerms (r : MRow) (b : StatBuf) (o : Nat) : List Num :=
  if cfA r.cfg.toNat == 1 then [bfTerm r b o]
  else (List.range (rowScales (cfBlk r.cfg.toNat))).map (scaledTerm r b o)

/-! ### A48 (R107, R130) -/

/-- One A48 addition. -/
def a48Add (a : BitVec 48) (t : Num) : BitVec 48 :=
  BitVec.ofNat 48 (fA48.convert true .nearest ((fA48.decode a.toNat).add t)).code

/-- An accumulator entry after the block terms of a row. -/
def accumulate (r : MRow) (b : StatBuf) (a : BitVec 48) (o : Nat) : BitVec 48 :=
  (blockTerms r b o).foldl a48Add (if r.z then 0 else a)

/-! ### The witness (R111 to R116) -/

/-- An element as an integer in units of the smallest positive value of its format. -/
def unitInt (f : Fmt) (x : Num) : Int :=
  match x with
  | .fin n m e => scaledInt n m e (f.emin - (f.mbits : Int))
  | _ => 0

/-- Exponents of the scales of a stationary block. -/
def statExps (b : StatBuf) : List Int :=
  if b.scaleEnc == 0 then [0]
  else (List.range (64 * rowScales b.blk.toNat)).map fun i => scaleExp b.scaleEnc.toNat (bits b.scales (8 * i) 8)

/-- Exponent of the scale at (k, n). -/
def statExp (b : StatBuf) (k n : Nat) : Int := scaleExp b.scaleEnc.toNat (statScale b k n)

/-- An FP32 sum: one rounding for each exact term added, in order (notes/assumptions/92.md). -/
def f32Sum (l : List Num) : Word := l.foldl (fun a x => (roundF32 true ((ofF32 a).add x)).1) 0

/-- What the load engine records of a block (R111). -/
def recordBlock (b : StatBuf) : StatBuf :=
  let es := statExps b
  let lo := (es.min?).getD 0
  let f := elemFmt b.fmt.toNat
  let ix := List.range 64
  let whole (k n : Nat) : Int := 2 ^ (statExp b k n - lo).toNat * unitInt f (statElem b k n)
  let real (k n : Nat) : Num :=
    if b.scaleEnc == 0 then statElem b k n
    else (underScale (statScaleVal b k n) (statElem b k n)).mul ((statScaleVal b k n).mul (.fin false 1 (-lo)))
  let exact := b.fmt != 1 && b.scaleEnc != 2
  { b with
    ewMin := lo
    ewMax := (es.max?).getD 0
    wkExact := if exact then ix.map fun k => (ix.map (whole k)).foldl (· + ·) 0 else []
    wnExact := if exact then ix.map fun n => (ix.map fun k => whole k n).foldl (· + ·) 0 else []
    wkF := ix.map fun k => f32Sum (ix.map (real k))
    wnF := ix.map fun n => f32Sum (ix.map fun k => real k n) }

/-- The spread limit of a format (R112). -/
def spreadLimit (c : Nat) : Int :=
  match c with
  | 2 => 40
  | 3 => 16
  | _ => 64

/-- Exponents of the scales of a row. -/
def rowExps (r : MRow) : List Int :=
  let w := r.cfg.toNat
  if cfASc w == 0 then [0] else (List.range (rowScales (cfBlk w))).map fun b => scaleExp (cfASc w) (rowScale r b)

/-- The row is checked in exact mode (R112). -/
def exactMode (r : MRow) (b : StatBuf) : Bool :=
  let w := r.cfg.toNat
  let es := rowExps r
  let spread := (es.max?).getD 0 - (es.min?).getD 0 + (b.ewMax - b.ewMin)
  cfA w != 1 && b.fmt != 1 && cfASc w != 2 && b.scaleEnc != 2
  && spread ≤ min (spreadLimit (cfA w)) (spreadLimit b.fmt.toNat)

/-- An operand of the row holds an infinite or NaN element or scale (R116). -/
def specialOperand (r : MRow) (b : StatBuf) : Bool :=
  let w := r.cfg.toNat
  (List.range 64).any (fun i => (rowElem r i).special)
  || (cfASc w != 0 && (List.range (rowScales (cfBlk w))).any fun j => (scaleVal (cfASc w) (rowScale r j)).special)
  || (List.range 4096).any (fun i => (statElem b (i / 64) (i % 64)).special)
  || (b.scaleEnc != 0 && (List.range (64 * rowScales b.blk.toNat)).any fun i =>
      (scaleVal b.scaleEnc.toNat (bits b.scales (8 * i) 8)).special)

/-- Both sums of the exact check (R113). -/
def exactSums (r : MRow) (b : StatBuf) : Int × Int :=
  let w := r.cfg.toNat
  let lo := ((rowExps r).min?).getD 0
  let f := elemFmt (cfA w)
  let g := elemFmt b.fmt.toNat
  let ix := List.range 64
  let fac (i : Nat) : Int := 2 ^ (scaleExp (cfASc w) (rowScale r (rowBlock (cfBlk w) i)) - lo).toNat * unitInt f (rowElem r i)
  let wgt (k n : Nat) : Int := 2 ^ (statExp b k n - b.ewMin).toNat * unitInt g (statElem b k n)
  let l := (ix.map fun o => (ix.map fun i => fac i * (if r.t then wgt o i else wgt i o)).foldl (· + ·) 0).foldl (· + ·) 0
  let v := (ix.map fun i => fac i * ((if r.t then b.wnExact else b.wkExact).getD i 0)).foldl (· + ·) 0
  (l, v)

/-- The column terms of a row, each converted to FP32 (R115). -/
def columnTerms (r : MRow) (b : StatBuf) : List Word :=
  (List.range 64).map fun o => (roundF32 true (sumNums (blockTerms r b o))).1

/-- The terms of S_wit (R115). -/
def witnessTerms (r : MRow) (b : StatBuf) : List Num :=
  let w := r.cfg.toNat
  (List.range 64).map fun i =>
    ((scaleVal (cfASc w) (rowScale r (rowBlock (cfBlk w) i))).mul (rowElem r i)).mul
      ((ofF32 ((if r.t then b.wnF else b.wkF).getD i 0)).mul (.fin false 1 b.ewMin))

/-- Verdicts of a row (R113, R115, R116). -/
inductive Verdict where
  | exact (pass : Bool)
  | bounded (pass : Bool)
  | unchecked
  deriving DecidableEq, Repr

/-- `x ≤ y` of finite values. -/
def Num.le (x y : Num) : Bool := !(y.lt x)

/-- The verdict of a row: `upset` is what a physical fault adds to the sum of its column terms, in units of the exact sum, or
as a value in bounded mode. -/
def verdict (r : MRow) (b : StatBuf) (upset : Int) : Verdict :=
  if specialOperand r b then .unchecked
  else if exactMode r b then
    let v := exactSums r b
    .exact (v.1 + upset == v.2)
  else
    let cs := (columnTerms r b).map ofF32
    let ws := witnessTerms r b
    let out := f32Sum (if upset == 0 then cs else cs ++ [Num.ofInt upset 0])
    let wit := f32Sum ws
    let mag := (roundF32 true ((ofF32 (f32Sum (cs.map Num.abs))).add (ofF32 (f32Sum (ws.map Num.abs))))).1
    if (ofF32 out).special || (ofF32 wit).special || (ofF32 mag).special then .unchecked
    else
      let d := ((ofF32 out).add (ofF32 wit).negate).abs
      .bounded (d.le (((ofF32 mag).mul (.fin false 1 (-16))).add (.fin false 1 (-126))))

/-! ### Drain (R109, R110, R131, R136 to R138, R142, R148, R149) -/

/-- What the drain of one block writes: its scale byte, element codes and what they add to the tensor's counters. -/
structure OutBlock where
  scale : Nat
  codes : List Nat
  count : TallyEnt
  /-- The block's amax as a finite magnitude, none where it holds an infinity or NaN (R149). -/
  amax : Option Mag

/-- Parameters of a drain. -/
structure DrainCtx where
  word : Nat
  seed : DWord
  step : DWord
  tensor : Word
  tallyId : Word
  base : Nat
  e5m2Inf : Bool
  fitRule : Bool
  /-- Scale exponent of delayed scaling, where it applies. -/
  delayed : Option Int

/-- The magnitude of a value divided by a scale of `sn / sd * 2 ^ se`. -/
def divScale (x : Num) (sn : Nat) (se : Int) : Mag :=
  match x with
  | .fin _ m e => ⟨m, sn, e - se⟩
  | _ => ⟨0, 1, 0⟩

/-- Rounding mode of element index `i`. -/
def drainMode (c : DrainCtx) (i : Nat) : RMode :=
  if cdRound c.word == 1 then .stochastic (randomWord c.seed c.step c.tensor (BitVec.ofNat 32 i)) else .nearest

/-- The largest magnitude of a block. -/
def blockMax (xs : List Num) : Mag := xs.foldl (fun a x => if a.lt x.mag then x.mag else a) ⟨0, 1, 0⟩

/-- The largest finite value of a format. -/
def Fmt.maxMag (f : Fmt) : Mag :=
  match f.magOfCode f.maxCode with
  | (m, e) => ⟨m, 1, e⟩

/-- The quotient of two magnitudes. -/
def Mag.div (a b : Mag) : Mag := ⟨a.n * b.d, a.d * b.n, a.e - b.e⟩

/-- The E8M0 exponent of a block and whether it was clamped (R142). -/
def scaleE8 (fit : Bool) (f : Fmt) (amax : Mag) : Int × Bool :=
  let x := if fit then (amax.div f.maxMag).log2Ceil else amax.log2 - f.emax
  if x < -127 then (-127, true) else if 127 < x then (127, true) else (x, false)

/-- The E4M3 scale code of a block and whether it was clamped (R142). -/
def scaleE4 (f : Fmt) (amax : Mag) : Nat × Bool :=
  let q := amax.div f.maxMag
  if (⟨448, 1, 0⟩ : Mag).lt q then (0x7E, true)
  else if q.lt ⟨1, 1, -9⟩ then (1, true)
  else
    (((List.range 127).find? fun c =>
      match fE4M3.decode c with
      | .fin _ m e => !((⟨m, 1, e⟩ : Mag).lt q)
      | _ => false).getD 0x7E, false)

/-- Elements of a block converted under a scale of value `sn * 2 ^ se`. -/
def convertBlock (c : DrainCtx) (f : Fmt) (sn : Nat) (se : Int) (xs : List (Num × Nat)) : List Nat × TallyEnt :=
  xs.foldl (fun (a : List Nat × TallyEnt) e =>
    let r := f.deliver (f.overflowsToInf c.e5m2Inf) (drainMode c e.2) e.1.neg (divScale e.1 sn se)
    let res := (f.decode r.code).mul (.fin false sn se)
    (a.1 ++ [r.code], a.2.merge (convCount c.tallyId e.1 res r.saturated))) ([], { tensor := c.tallyId })

/-- One scaled block: its scale selected from the block itself, or the delayed scale of its tensor (R142, R149). -/
def scaledBlock (c : DrainCtx) (xs : List (Num × Nat)) : OutBlock :=
  let f := elemFmt (cdFmt c.word)
  let vs := xs.map (·.1)
  let e8 := cdScale c.word == 1
  let none_ : TallyEnt := { tensor := c.tallyId }
  if vs.any Num.special then
    { scale := if e8 then 0xFF else 0x7F, codes := xs.map fun _ => 0, count := { none_ with nanInf := xs.length }, amax := none }
  else
    let amax := blockMax vs
    match c.delayed with
    | some x =>
      let r := convertBlock c f 1 x xs
      { scale := (x + 127).toNat, codes := r.1, count := r.2, amax := some amax }
    | none =>
      if amax.n = 0 then
        { scale := if e8 then 0x7F else 0x38, codes := vs.map fun v => f.withSign v.neg 0, count := none_, amax := some amax }
      else if e8 then
        let x := scaleE8 c.fitRule f amax
        let r := convertBlock c f 1 x.1 xs
        { scale := (x.1 + 127).toNat, codes := r.1, count := { r.2 with scaleClamp := b2n x.2 }, amax := some amax }
      else
        let x := scaleE4 f amax
        let v := fE4M3.magOfCode x.1
        let r := convertBlock c f v.1 v.2 xs
        { scale := x.1, codes := r.1, count := { r.2 with scaleClamp := b2n x.2 }, amax := some amax }

/-- A list cut into pieces of `n`. -/
def chunks {α : Type} (n : Nat) (l : List α) : List (List α) :=
  if n = 0 then [l] else (List.range ((l.length + n - 1) / n)).map fun i => (l.drop (n * i)).take n

/-- Codes of `w` bits packed densely into bytes (R129). -/
def packBytes (w : Nat) (codes : List Nat) : List Byte :=
  toLE (codes.length * w / 8) (codes.foldr (fun c a => c % 2 ^ w + 2 ^ w * a) 0)

/-- One output row: its bytes, its counts and the amax of its finite blocks. The drain counts every element it writes, an
unconverted A48 entry too (R138). -/
def drainRow (c : DrainCtx) (xs : List (BitVec 48 × Nat)) : List Byte × TallyEnt × List Mag :=
  let none_ : TallyEnt := { tensor := c.tallyId }
  let vs := xs.map fun e => (fA48.decode e.1.toNat, e.2)
  if cdFmt c.word == 8 then 
    (packBytes 48 (xs.map fun e => e.1.toNat), vs.foldl (fun a v => a.merge (convCount c.tallyId v.1 v.1 false)) none_, [])
  else if cdScale c.word == 0 then
    let f := elemFmt (cdFmt c.word)
    let rs := vs.map fun e => (e.1, f.convert c.e5m2Inf (drainMode c e.2) e.1)
    (packBytes f.width (rs.map (·.2.code)),
      rs.foldl (fun a r => a.merge (convCount c.tallyId r.1 (f.decode r.2.code) r.2.saturated)) none_, [])
  else
    let bs := (chunks (blockLen (cdBlk c.word)) vs).map (scaledBlock c)
    (packBytes (elemFmt (cdFmt c.word)).width (bs.flatMap (·.codes)) ++ bs.map (fun b => BitVec.ofNat 8 b.scale),
      bs.foldl (fun a b => a.merge b.count) none_, bs.filterMap (·.amax))

end Sys2Proof.Machine
end

