-- ==== Sys2Proof/Machine/Matrix.lean ====
section
/-! DEFINITION. The matrix array: the MATRIX class as the core issues it, the engines behind the matrix queue, the witness, and
current smoothing (R89 to R126). -/

namespace Sys2Proof.Machine

/-! ### Issue (R95, R98, R100, R162) -/

/-- Nothing of the array's work is left (R90, R98). -/
def Matrix.idle (m : Matrix) : Bool :=
  m.queue.isEmpty && m.loadQ.isEmpty && m.arrayQ.isEmpty && m.drainQ.isEmpty && m.rows.isEmpty && m.outBytes.isEmpty

/-- The configuration word that an instruction issued now will capture: the last one queued, or the one in force (R96). -/
def progCfg (m : Matrix) (sel : BitVec 2) (cur : Word) : Nat :=
  ((m.queue.filterMap fun e =>
    match e.op with
    | .mcfg n w => if n == sel then some w else none
    | _ => none).getLastD cur).toNat

/-- A matrix instruction issued: its checks, a port that an earlier one holds, and the queue of 8 (R95, R98, R100). -/
def matIssue (h : Hdr) (invalid : Bool) (check : Tile → Option Act) (op : Tile → MOp) (s : State) : Out :=
  issue h true invalid s fun t =>
    match check t with
    | some a => a
    | none =>
      let o := op t
      match o.port.filter (portHeld t) with
      | some ch => .stall (.portHeld ch)
      | none =>
        if 8 ≤ t.mx.queue.length then .stall .matrixQueue
        else
          let e : MEntry :=
            { num := t.mx.nextNum, pc := t.core.pc, op := o, cfg := 0, base := 0, tensor := t.core.tensorId, pos := 0
              swapped := false }
          .fin (s.setTile (ckey h.t) { t with mx := { t.mx with queue := t.mx.queue ++ [e], nextNum := t.mx.nextNum + 1 } })

/-- Fields of rs and rt (R95). -/
def mAddr (w : Word) : Nat := bits w.toNat 0 18
def mRow (w : Word) : Nat := bits w.toNat 18 8
def mCount (w : Word) : Nat := bits w.toNat 0 9

/-- The limits of R95 on rs, and on rt and the accumulator range where the instruction has them. -/
def rangeOk (a : Word) (b : Option Word) : Bool :=
  bits a.toNat 26 6 == 0 &&
    (match b with
     | some c => bits c.toNat 9 23 == 0 && 1 ≤ mCount c && mCount c ≤ 256 && mRow a + mCount c ≤ 256
     | none => true)

/-- The address and binding checks of an instruction that moves `n` bytes (R95, R162). -/
def moveCheck (t : Tile) (a : Nat) (n : Nat) (q : Option Nat) (out : Bool) : Option Act :=
  match q with
  | some ch => if portOk t ch out true then none else some (.exc 4 ch)
  | none =>
    if a % 64 != 0 then some (.exc 2 a)
    else
      match firstUnmapped t (a / 64) ((n + 63) / 64) with
      | some l => some (.exc 3 (64 * l % 2 ^ 29))
      | none => none

/-- The port an instruction with Q = 1 names. -/
def qPort (q : Bool) (port : BitVec 4) : Option Nat := if q then some port.toNat else none

/-- `mcfg rs, sel`: a word that breaks R97 raises ILLEGAL_INSTR. -/
def mcfg (h : Hdr) (rs : BitVec 5) (sel : BitVec 2) (ok : Nat → Bool) (s : State) : Out :=
  matIssue h false (fun t => if ok (t.core.sreg rs).toNat then none else some (.exc 1 0))
    (fun t => .mcfg sel (t.core.sreg rs)) s

def execMcfgFormat (h : Hdr) (rs : BitVec 5) (s : State) : Out := mcfg h rs 0 formatOk s
def execMcfgDrain (h : Hdr) (rs : BitVec 5) (s : State) : Out := mcfg h rs 1 drainOk s
def execMcfgElementBase (h : Hdr) (rs : BitVec 5) (s : State) : Out := mcfg h rs 2 (fun _ => true) s

/-- Bytes a stationary load will read, none where its configuration is refused later (R93, R97). -/
def loadSpan (w : Nat) : Nat := if cfA w == 0 || cfW w == 0 then 0 else imageBytes w

/-- Bytes a pass will read. -/
def passSpan (w n : Nat) : Nat := if cfA w == 0 || cfW w == 0 then 0 else n * rowBytes w

/-- Bytes a drain will write (R109). -/
def drainSpan (w d : Nat) (t : Bool) : Nat := if t then 64 * outRowBytes w d else d * outRowBytes w 64

/-- `mld rs` (R95). -/
def execMld (h : Hdr) (rs : BitVec 5) (q : Bool) (port : BitVec 4) (s : State) : Out :=
  matIssue h (!q && port != 0)
    (fun t =>
      let a := t.core.sreg rs
      if !rangeOk a none then some (.exc 1 0)
      else moveCheck t (mAddr a) (loadSpan (progCfg t.mx 0 t.mx.cfgFormat)) (qPort q port) false)
    (fun t => .mld (mAddr (t.core.sreg rs)) (qPort q port)) s

/-- `mswap` (R101). -/
def execMswap (h : Hdr) (s : State) : Out := matIssue h false (fun _ => none) (fun _ => .mswap) s

/-- `mmul rs, rt` (R95). -/
def execMmul (h : Hdr) (rs rt : BitVec 5) (tr z q : Bool) (port : BitVec 4) (s : State) : Out :=
  matIssue h (!q && port != 0)
    (fun t =>
      let a := t.core.sreg rs
      let b := t.core.sreg rt
      if !rangeOk a (some b) then some (.exc 1 0)
      else moveCheck t (mAddr a) (passSpan (progCfg t.mx 0 t.mx.cfgFormat) (mCount b)) (qPort q port) false)
    (fun t => .mmul (mAddr (t.core.sreg rs)) (mRow (t.core.sreg rs)) (mCount (t.core.sreg rt)) tr z (qPort q port)) s

/-- `mdrain rs, rt` (R95, R109). -/
def execMdrain (h : Hdr) (rs rt : BitVec 5) (tr clr q : Bool) (port : BitVec 4) (s : State) : Out :=
  matIssue h (!q && port != 0)
    (fun t =>
      let a := t.core.sreg rs
      let b := t.core.sreg rt
      if !rangeOk a (some b) then some (.exc 1 0)
      else moveCheck t (mAddr a) (drainSpan (progCfg t.mx 1 t.mx.cfgDrain) (mCount b) tr) (qPort q port) true)
    (fun t => .mdrain (mAddr (t.core.sreg rs)) (mRow (t.core.sreg rs)) (mCount (t.core.sreg rt)) tr clr (qPort q port)) s

/-- `msync`: the core stalls until every earlier matrix instruction has completed (R98). -/
def execMsync (h : Hdr) (s : State) : Out :=
  issue h true false s fun t => if t.mx.idle then .fin s else .stall .msync

/-- `mramp level` (R95, R122). -/
def execMramp (h : Hdr) (level : BitVec 5) (s : State) : Out :=
  matIssue h (16 < level.toNat) (fun _ => none) (fun _ => .mramp level.toNat) s

/-! ### Dispatch (R96 to R98, R101, R102) -/

/-- The array of a tile works: its context runs, no exception has stopped the tile and no third failure the array. -/
def arrayLive (s : State) (p : Coord) : Option (Nat × Ctx) :=
  match ctxAt s p with
  | some (c, x) =>
    let t := s.tile (ckey p)
    if x.rec_.state == 1 && t.core.run != .excepted && !t.mx.dead && !s.clk.tilesStopped then some (c, x) else none
  | none => none

/-- The buffer an instruction uses: a load writes the shadow at its place in program order (R98). -/
def MEntry.usesB (e : MEntry) : Bool :=
  match e.op with
  | .mld _ _ => !e.swapped
  | _ => e.swapped

/-- A stationary buffer. -/
def Matrix.buf (m : Matrix) (b : Bool) : StatBuf := if b then m.bufB else m.bufA

/-- A stationary buffer written. -/
def Matrix.setBuf (m : Matrix) (b : Bool) (x : StatBuf) : Matrix := if b then { m with bufB := x } else { m with bufA := x }

/-- Format and block length that a buffer will have for the next instruction in program order: those of its last load still
queued, or those recorded (R101). -/
def Matrix.spec (m : Matrix) (b : Bool) : Option (Nat × Nat) :=
  match (m.loadQ.filter fun e => e.usesB == b).getLast? with
  | some e => some (cfW e.cfg.toNat, cfBlk e.cfg.toNat)
  | none => if (m.buf b).loaded then some ((m.buf b).fmt.toNat, (m.buf b).blk.toNat) else none

/-- A buffer awaits a load earlier in program order. -/
def Matrix.awaits (m : Matrix) (b : Bool) (num : Nat) : Bool := m.loadQ.any fun e => e.usesB == b && e.num < num

/-- Swaps at the head of the array queue take effect once the block they make active has loaded (R98). -/
def Matrix.settle : Nat → Matrix → Matrix
  | 0, m => m
  | n + 1, m =>
    match m.arrayQ with
    | e :: r =>
      if e.op == .mswap && !m.awaits (!e.swapped) e.num then Matrix.settle n { m with arrayQ := r, activeB := !e.swapped }
      else m
    | [] => m

/-- The array after its leading swaps. -/
def Matrix.settled (m : Matrix) : Matrix := m.settle 4

/-- What an instruction that captures its configuration is refused for (R97, R101). -/
def Matrix.captureOk (m : Matrix) (op : MOp) (w : Nat) : Bool :=
  match op with
  | .mld _ _ => cfA w != 0 && cfW w != 0
  | .mswap => (m.spec (!m.swapIssued)).isSome
  | .mmul _ _ _ _ _ _ =>
    cfA w != 0 && cfW w != 0 &&
      (match m.spec m.swapIssued with
       | some f => f.2 == cfBlk w && pairOk (cfA w) f.1
       | none => false)
  | .mdrain _ _ d t _ _ => if t then d % blockLen (cdBlk w) == 0 else cdBlk w != 3
  | _ => true

/-- The engine queue of an instruction has room (R98). -/
def Matrix.room (m : Matrix) (op : MOp) : Bool :=
  match op with
  | .mld _ _ => m.loadQ.length < 2
  | .mswap => m.arrayQ.length < 4
  | .mmul _ _ _ _ _ _ => m.arrayQ.length < 4
  | .mdrain _ _ _ _ _ _ => m.drainQ.length < 2
  | _ => true

/-- An instruction that has left the matrix queue acts, or enters the queue of its engine (R96, R98, R110). -/
def Matrix.enter (m : Matrix) (e : MEntry) (w : Word) : Matrix :=
  let f := { e with cfg := w, base := m.cfgBase, swapped := m.swapIssued }
  match e.op with
  | .mcfg sel v => if sel == 0 then { m with cfgFormat := v } else if sel == 1 then { m with cfgDrain := v } else { m with cfgBase := v }
  | .mld _ _ => { m with loadQ := m.loadQ ++ [f] }
  | .mswap => { m with arrayQ := m.arrayQ ++ [f], swapIssued := !m.swapIssued }
  | .mmul _ _ _ _ _ _ => { m with arrayQ := m.arrayQ ++ [f] }
  | .mdrain _ _ d _ _ _ => { m with drainQ := m.drainQ ++ [f], cfgBase := m.cfgBase + BitVec.ofNat 32 (64 * d) }
  | .mramp _ => m

/-- The configuration word an instruction captures. -/
def Matrix.capture (m : Matrix) (op : MOp) : Word :=
  match op with
  | .mdrain _ _ _ _ _ _ => m.cfgDrain
  | _ => m.cfgFormat

/-- The level target after an instruction at the head of the matrix queue (R122). -/
def Ramp.act (r : Ramp) (op : MOp) : Ramp :=
  match op with
  | .mramp l => { r with target := l }
  | _ => r

/-- No instruction is in an engine and no row in the cells: everything that has left the matrix queue has completed. -/
def Matrix.enginesIdle (m : Matrix) : Bool := m.rows.isEmpty && m.arrayQ.isEmpty && m.loadQ.isEmpty && m.drainQ.isEmpty

/-- MATRIX_DISPATCH: the instruction at the head of the matrix queue captures its configuration, is checked and goes to its
engine; one that fails its check raises its exception once every earlier one has completed (R96 to R98, R101, R102). -/
def execMatrixDispatch (t : Coord) (s : State) : Out :=
  match arrayLive s t with
  | none => .next s
  | some _ =>
    let tl := s.tile (ckey t)
    match tl.mx.queue with
    | [] => .next s
    | e :: rest =>
      let w := tl.mx.capture e.op
      if !tl.mx.room e.op then .next s
      else if !tl.mx.captureOk e.op w.toNat then
        if tl.mx.enginesIdle then .next (takeExc s t 1 e.pc.toNat true 0) else .next s
      else
        .next (s.setTile (ckey t)
          { tl with mx := (({ tl.mx with queue := rest }).enter e w).settled, ramp := tl.ramp.act e.op })

/-! ### Program order (R98, R102)

The engines overlap only where no result can differ. A load and a drain wait for the last row of every earlier `mmul` to have
entered the cells, so that an `mmul` found poisoned leaves no later instruction with an effect; and an instruction waits for
the bin bytes that an earlier one has still to read or write. -/

/-- An `mmul` earlier in program order has rows that have not entered the cells. -/
def Matrix.entering (m : Matrix) (num : Nat) : Bool := m.arrayQ.any fun e => e.num < num && e.op != .mswap

/-- Bin bytes that an instruction has still to read, as address and length. -/
def MEntry.reads (e : MEntry) : Option (Nat × Nat) :=
  match e.op with
  | .mld a none => some (a, imageBytes e.cfg.toNat)
  | .mmul a _ n _ _ none => some (a + e.pos * rowBytes e.cfg.toNat, (n - e.pos) * rowBytes e.cfg.toNat)
  | _ => none

/-- Bin bytes that a drain writes. -/
def MEntry.writes (e : MEntry) : Option (Nat × Nat) :=
  match e.op with
  | .mdrain a _ n t _ none => some (a, drainSpan e.cfg.toNat n t)
  | _ => none

/-- Two spans of bytes meet. -/
def spansMeet (a b : Option (Nat × Nat)) : Bool :=
  match a, b with
  | some x, some y => x.1 < y.1 + y.2 && y.1 < x.1 + x.2
  | _, _ => false

/-- A drain earlier in program order has still to write some of these bytes. -/
def Matrix.unwritten (m : Matrix) (num : Nat) (span : Option (Nat × Nat)) : Bool :=
  m.drainQ.any fun e => e.num < num && spansMeet e.writes span

/-- A load earlier in program order has still to read some of these bytes. -/
def Matrix.unread (m : Matrix) (num : Nat) (span : Option (Nat × Nat)) : Bool :=
  m.loadQ.any fun e => e.num < num && spansMeet e.reads span

/-- Every instruction earlier in program order than one whose rows enter has completed, and so have its own earlier rows. -/
def Matrix.olderDone (m : Matrix) (num : Nat) : Bool :=
  m.rows.isEmpty && !(m.loadQ ++ m.drainQ).any fun e => e.num < num

/-- The accumulator as it was before an `mmul` began to update it. -/
def Matrix.undone (m : Matrix) (num : Nat) : Matrix :=
  match m.undo with
  | some (n, a) => if n = num then { m with acc := a, undo := none } else m
  | none => m

/-! ### Items of a queue operand (R92, R93, R100) -/

/-- The bytes of an item with the tag of their half. -/
def itemBytes (i : Item) : List (Byte × Bool) :=
  ((List.range 128).zip (toLE 128 i.data.toNat)).map fun e => (e.2, if e.1 < 64 then i.tagLo else i.tagHi)

/-- Items popped until `n` bytes are held or the channel is empty. -/
def gatherItems (s : State) (c : Nat) (d : CtxDef) (p : Coord) (ch n : Nat) :
    Nat → List (Byte × Bool) → State × List (Byte × Bool)
  | 0, l => (s, l)
  | k + 1, l =>
    if n ≤ l.length then (s, l)
    else
      match ((s.tile (ckey p)).cst ch).store with
      | [] => (s, l)
      | i :: _ => gatherItems (popItem s d p ch) c d p ch n k (l ++ itemBytes i)

/-- Items that `n` bytes take. -/
def itemsFor (n : Nat) : Nat := (n + 127) / 128

/-! ### The load engine (R98, R103, R111, R126) -/

/-- A buffer that holds an image of the given bytes, with what the load engine records. -/
def imageBuf (w : Nat) (image : Nat) (poisoned : Bool) : StatBuf :=
  let n := 512 * (elemFmt (cfW w)).width
  recordBlock
    { loaded := true, fmt := BitVec.ofNat 4 (cfW w), scaleEnc := BitVec.ofNat 2 (cfWSc w), blk := BitVec.ofNat 2 (cfBlk w)
      data := image % 256 ^ n, scales := image / 256 ^ n % 256 ^ (imageBytes w - n), poisoned := poisoned }

/-- A load completed: the buffer written and the swaps that waited for it applied. -/
def loadDone (t : Tile) (e : MEntry) (rest : List MEntry) (image : Nat) (poisoned : Bool) : Tile :=
  { t with mx := (({ t.mx with loadQ := rest, loadBytes := [] }).setBuf e.usesB (imageBuf e.cfg.toNat image poisoned)).settled }

/-- MLD_COMPLETE: the image of the oldest load, from the bin or a queue, is in its buffer. The load waits until no row uses
the buffer, and for the bytes that an earlier drain writes (R98). -/
def execMldComplete (t : Coord) (s : State) : Out :=
  match arrayLive s t with
  | none => .next s
  | some (c, x) =>
    let tl := s.tile (ckey t)
    match tl.mx.loadQ with
    | [] => .next s
    | e :: rest =>
      let busy := tl.mx.rows.any (fun r => r.swapped == e.usesB)
        || tl.mx.entering e.num || tl.mx.unwritten e.num e.reads
      let n := imageBytes e.cfg.toNat
      if busy then .next s
      else
        match e.op with
        | .mld a none =>
          let s := flushSpan s t (a / 64) ((n + 63) / 64)
          match readLines (s.tile (ckey t)) (a / 64) ((n + 63) / 64) with
          | (_, .ok d poison) => .next (s.modTile (ckey t) fun tl => loadDone tl e rest d poison)
          | _ => .next (binParity s t)
        | .mld _ (some ch) =>
          let r := gatherItems s c x.cdef t ch n (itemsFor n) tl.mx.loadBytes
          if n ≤ r.2.length then
            .next (r.1.modTile (ckey t) fun tl =>
              loadDone tl e rest (leNat ((r.2.take n).map (·.1))) (r.2.any (·.2)))
          else .next (r.1.modTile (ckey t) fun tl => { tl with mx := { tl.mx with loadBytes := r.2 } })
        | _ => .next s

/-! ### Rows (R92, R104, R117, R120 to R122, R126) -/

/-- What the stager finds for a row: not there yet, poisoned by a source, failed its parity, or its bytes. -/
inductive RowRead where
  | waits
  | poison (detail : Nat)
  | parity
  | bytes (n : Nat)

/-- The first line of a span that carries poison. -/
def poisonLine (t : Tile) (l n : Nat) : Option Nat :=
  (List.range n).findSome? fun i =>
    match physLine t (l + i) with
    | some q => if t.bin.tag q then some (l + i) else none
    | none => none

/-- The bytes of the next row of a pass. -/
def readRow (s : State) (c : Nat) (d : CtxDef) (p : Coord) (e : MEntry) (n : Nat) : State × RowRead :=
  match e.op with
  | .mmul a _ _ _ _ none =>
    let b := a + e.pos * n
    let l := b / 64
    let k := (b + n - 1) / 64 + 1 - l
    let s := flushSpan s p l k
    match readLines (s.tile (ckey p)) l k with
    | (_, .ok v _) =>
      match poisonLine (s.tile (ckey p)) l k with
      | some m => (s, .poison (64 * m))
      | none => (s, .bytes (v / 256 ^ (b % 64) % 256 ^ n))
    | _ => (s, .parity)
  | .mmul _ _ _ _ _ (some ch) =>
    let r := gatherItems s c d p ch n (itemsFor n + 1) (s.tile (ckey p)).mx.inBytes
    let s := r.1.modTile (ckey p) fun t => { t with mx := { t.mx with inBytes := r.2 } }
    if r.2.length < n then (s, .waits)
    else if (r.2.take n).any (·.2) then (s, .poison (2 ^ 26 + ch))
    else
      (s.modTile (ckey p) fun t => { t with mx := { t.mx with inBytes := r.2.drop n } }, .bytes (leNat ((r.2.take n).map (·.1))))
  | _ => (s, .waits)

/-- Pass slots that a row takes: 1 for FP4 with FP4, 8 for BF16, 2 otherwise (R91). -/
def rowSlots (w : Nat) (b : StatBuf) : Nat :=
  if cfA w == 1 then 8 else if cfA w == 6 && b.fmt == 6 then 1 else 2

/-- The ramp in a window of 16 tile cycles: slots used beyond the level of a window count in the next ones (R121). -/
def Ramp.atWin (r : Ramp) (w : Nat) : Ramp := { r with win := w, used := r.used - r.level * (w - r.win) }

/-- A slot of the window is free for a real row (R121). -/
def Ramp.slotFree (r : Ramp) : Bool := r.used < r.level

/-- A real row waits for a slot (R122). -/
def Ramp.wait (r : Ramp) : Ramp := { r with waited := true, idle := 0 }

/-- The window of 16 tile cycles of a tile's quarter. -/
def slotWindow (s : State) (p : Coord) : Nat := tileCycles s p / 16

/-- The first discarded row re-enters (R117). -/
def reenter : List MRow → List MRow
  | [] => []
  | r :: t => if r.entered then r :: reenter t else { r with entered := true } :: t

/-- The row that a pass enters next. -/
def passRowOf (e : MEntry) (v : Nat) : Option MRow :=
  match e.op with
  | .mmul _ row0 _ tr z _ =>
    let w := e.cfg.toNat
    let m := 8 * (elemFmt (cfA w)).width
    some
      { num := e.num, index := e.pos, accRow := row0 + e.pos, t := tr, z := z, swapped := e.swapped, cfg := e.cfg
        data := v % 256 ^ m, scales := v / 256 ^ m, attempts := 1, passed := false, entered := true }
  | _ => none

/-- A row of an `mmul` placed in the cells; with its last row the instruction leaves the array queue (R98, R104). -/
def enterRow (t : Tile) (e : MEntry) (rest : List MEntry) (v win : Nat) : Tile :=
  match e.op, passRowOf e v with
  | .mmul _ _ count _ _ q, some r =>
    let last := count ≤ e.pos + 1
    let mx := { t.mx with
      rows := t.mx.rows ++ [r]
      arrayQ := if last then rest else { e with pos := e.pos + 1 } :: rest
      inBytes := if last && q.isSome then [] else t.mx.inBytes }
    let ramp := t.ramp.atWin win
    { t with
      mx := mx.settled
      ramp := { ramp with used := ramp.used + rowSlots e.cfg.toNat (t.mx.buf e.usesB), last := some r } }
  | _, _ => t

/-- A row of a pass is ready for the cells: its bytes stand in the bin, or their items in the queue (R120). -/
def rowReady (t : Tile) (e : MEntry) (n : Nat) : Bool :=
  match e.op with
  | .mmul _ _ _ _ _ (some ch) => n ≤ t.mx.inBytes.length + 128 * (t.cst ch).store.length
  | .mmul _ _ _ _ _ none => true
  | _ => false

/-- A row that meets poison as it enters: once every earlier instruction has completed the `mmul` raises POISON_CONSUMED, and
none of its rows has an effect (R102, R126). A poisoned stationary block is named before a poisoned row
(notes/assumptions/88.md). -/
def poisonRow (s : State) (t : Coord) (e : MEntry) (detail : Nat) : State :=
  if ((s.tile (ckey t)).mx).olderDone e.num then
    takeExc (s.modTile (ckey t) fun tl => { tl with mx := tl.mx.undone e.num }) t 8 e.pc.toNat true detail
  else s

/-- MMUL_ROW_ENTER: a discarded row re-enters, or the next row of the oldest `mmul` enters the cells, where the activity level
leaves a slot of the window; a row that is ready and finds none waits (R104, R117, R120 to R122, R126). -/
def execMmulRowEnter (t : Coord) (s : State) : Out :=
  match arrayLive s t with
  | none => .next s
  | some (c, x) =>
    let k := ckey t
    let tl := s.tile k
    let win := slotWindow s t
    let free := (tl.ramp.atWin win).slotFree
    let hold : State := s.modTile k fun tl => { tl with ramp := (tl.ramp.atWin win).wait }
    match tl.mx.rows.find? fun r => !r.entered with
    | some r =>
      if free then
        .next (s.modTile k fun tl =>
          { tl with
            mx := { tl.mx with rows := reenter tl.mx.rows }
            ramp := { tl.ramp.atWin win with
              used := (tl.ramp.atWin win).used + rowSlots r.cfg.toNat (tl.mx.buf r.swapped), last := some r } })
      else .next hold
    | none =>
      match tl.mx.arrayQ with
      | [] => .next s
      | e :: rest =>
        let n := rowBytes e.cfg.toNat
        if e.op == .mswap || tl.mx.awaits e.usesB e.num || !(tl.mx.buf e.usesB).loaded || tl.mx.unwritten e.num e.reads
            || !rowReady tl e n then .next s
        else if !free then .next hold
        else
          match readRow s c x.cdef t e n with
          | (s, .waits) => .next s
          | (s, .parity) => .next (binParity s t)
          | (s, .poison d) => .next (poisonRow s t e (if (tl.mx.buf e.usesB).poisoned then 6 * 2 ^ 26 else d))
          | (s', .bytes v) =>
            if (tl.mx.buf e.usesB).poisoned then .next (poisonRow s t e (6 * 2 ^ 26))
            else .next (s'.modTile k fun tl => enterRow tl e rest v win)

/-! ### The witness and the accumulator (R107, R117 to R119) -/

/-- The oldest row that awaits its verdict, if it is in the cells. -/
def Matrix.judged (m : Matrix) : Option MRow :=
  match m.rows.find? fun r => !r.passed with
  | some r => if r.entered then some r else none
  | none => none

/-- The oldest row that awaits its verdict has passed. -/
def passRow : List MRow → List MRow
  | [] => []
  | r :: t => if r.passed then r :: passRow t else { r with passed := true } :: t

/-- Every row that has not passed leaves the cells (R117). -/
def discardRows (l : List MRow) : List MRow := l.map fun r => if r.passed then r else { r with entered := false }

/-- The failed row leaves the cells for another attempt, and every row behind it leaves with it (R117). -/
def failRow : List MRow → List MRow
  | [] => []
  | r :: t =>
    if r.passed then r :: failRow t else { r with entered := false, attempts := r.attempts + 1 } :: discardRows t

/-- A third failed attempt: the array stops, the event and the fault entry are raised, and the tile is reported (R118, R119,
R342, R401). -/
def persistent (s : State) (t : Coord) (c : Nat) : State :=
  let q := quarterOf s t
  let s := s.modTile (ckey t) fun tl => { tl with mx := { tl.mx with dead := true } }
  let s := raise s .witnessPersistent [c, q]
  let s := s.count q fun n => { n with persistent := satAdd n.persistent 1 65535 }
  let s := addFault s c 0x20 (BitVec.ofNat 64 q)
  logicalHealth s (ckey t) .witnessPersistent

/-- The counts of a row that passes (R116, R119, R342). -/
def countPass (s : State) (t : Coord) (c : Nat) (r : MRow) (bounded unchecked : Bool) : State :=
  let s := s.modTally c fun y =>
    { y with bounded := y.bounded + b2n bounded, unchecked := y.unchecked + b2n unchecked, retries := y.retries + (r.attempts - 1) }
  if 1 < r.attempts then
    logicalHealth (s.count (quarterOf s t) fun n => { n with retried := satAdd n.retried 1 (2 ^ 32 - 1) }) (ckey t) .witnessRetried
  else s

/-- The verdict on a row as pass, bounded and unchecked. -/
def Verdict.parts : Verdict → Bool × Bool × Bool
  | .exact p => (p, false, false)
  | .bounded p => (p, true, false)
  | .unchecked => (true, false, true)

/-- WITNESS_VERDICT: both sums of the oldest row in the cells are compared. `upset` is what a physical fault adds to the sum
of the column terms, and `mismatch` that the two accumulator datapaths differ (R107, R112 to R118). -/
def execWitnessVerdict (t : Coord) (upset : Int) (mismatch : Bool) (s : State) : Out :=
  match arrayLive s t with
  | none => .next s
  | some (c, _) =>
    let tl := s.tile (ckey t)
    match tl.mx.judged with
    | none => .next s
    | some r =>
      let v := (verdict r (tl.mx.buf r.swapped) upset).parts
      if v.1 && !mismatch then
        let s := s.modTile (ckey t) fun tl => { tl with mx := { tl.mx with rows := passRow tl.mx.rows } }
        .next (countPass s t c r v.2.1 v.2.2)
      else if r.attempts < 3 then
        .next (s.modTile (ckey t) fun tl => { tl with mx := { tl.mx with rows := failRow tl.mx.rows } })
      else .next (persistent s t c)

/-- An `mdrain` earlier in program order has still to read an accumulator row. -/
def Matrix.drainPending (m : Matrix) (num row : Nat) : Bool :=
  m.drainQ.any fun e =>
    e.num < num &&
      (match e.op with
       | .mdrain _ row0 count _ _ _ => row0 + e.pos ≤ row && row < row0 + count
       | _ => false)

/-- An accumulator entry. -/
def Matrix.accGet (m : Matrix) (row col : Nat) : BitVec 48 := mget m.acc 0 (64 * row + col)

/-- The accumulator row of a pass row updated (R105 to R107); the first row of a pass keeps the accumulator before it (R102). -/
def Matrix.update (m : Matrix) (r : MRow) : Matrix :=
  { m with
    undo := (match m.undo with
      | some u => if u.1 = r.num then some u else some (r.num, m.acc)
      | none => some (r.num, m.acc))
    acc := (List.range 64).foldl (fun a o =>
      mset a 0 (64 * r.accRow + o) (accumulate r (m.buf r.swapped) (m.accGet r.accRow o) o)) m.acc }

/-- ACCUMULATOR_UPDATE: the oldest row that has passed adds its block terms, once no earlier `mdrain` has still to read its
accumulator row (R98, R107). -/
def execAccumulatorUpdate (t : Coord) (s : State) : Out :=
  match arrayLive s t with
  | none => .next s
  | some _ =>
    let tl := s.tile (ckey t)
    match tl.mx.rows with
    | [] => .next s
    | r :: rest =>
      if r.passed && !tl.mx.drainPending r.num r.accRow then
        .next (s.setTile (ckey t) { tl with mx := { tl.mx.update r with rows := rest } })
      else .next s

/-! ### The drain (R98, R100, R109, R110, R120, R148, R149) -/

/-- An `mmul` earlier in program order has still to update an accumulator row. -/
def Matrix.mmulPending (m : Matrix) (num row : Nat) : Bool :=
  (m.rows.any fun r => r.num < num && r.accRow == row)
  || m.arrayQ.any fun e =>
      e.num < num &&
        (match e.op with
         | .mmul _ row0 count _ _ _ => row0 + e.pos ≤ row && row < row0 + count
         | _ => false)

/-- The delayed-scaling entry of a drain, where R148 puts it in force. -/
def delayOf (t : Tile) (x : Ctx) (e : MEntry) : Option DelayEnt :=
  let w := e.cfg.toNat
  if bitAt x.run.numerics.toNat 4 && (cdFmt w == 2 || cdFmt w == 3) && cdScale w == 1 then
    t.delays.find? fun d => d.tensor == e.tensor
  else none

/-- The exponent of delayed scaling from the largest amax of a history, and whether it was clamped (R149). -/
def delayScale (hist : Word) (f : Fmt) (margin : Nat) : Int × Bool :=
  match ofF32 hist with
  | .fin _ m e =>
    if m = 0 then (0, false)
    else
      let x := ((⟨m, 1, e⟩ : Mag).div f.maxMag).log2Ceil + (margin : Int)
      if x < -127 then (-127, true) else if 127 < x then (127, true) else (x, false)
  | _ => (127, true)

/-- The exponent in force for a drain under delayed scaling; none in cold start. -/
def delayExp (t : Tile) (x : Ctx) (e : MEntry) : Option (Int × Bool) :=
  (delayOf t x e).bind fun d => d.hist.map fun h => delayScale h (elemFmt (cdFmt e.cfg.toNat)) (bits x.run.numerics.toNat 8 2)

/-- The context of a conversion by the drain. -/
def drainCtx (t : Tile) (x : Ctx) (e : MEntry) : DrainCtx :=
  { word := e.cfg.toNat, seed := x.cdef.seed, step := x.run.step, tensor := e.tensor, tallyId := tallyId x.cdef e.tensor
    base := e.base.toNat, e5m2Inf := bitAt x.run.numerics.toNat 3, fitRule := bits x.run.numerics.toNat 0 2 == 1
    delayed := (delayExp t x e).map (·.1) }

/-- A magnitude as FP32 (R149). -/
def magF32 (m : Mag) : Word := BitVec.ofNat 32 (fFP32.deliver true .nearest false m).code

/-- Block maxima folded into the running amax of a tensor, with a clamp of its exponent noted (R149); non-negative FP32 values
order as their codes. -/
def foldAmax (t : Tile) (tensor : Word) (ms : List Mag) (clamped : Bool) : Tile :=
  let top := ms.foldl (fun a m => max a (magF32 m).toNat) 0
  { t with delays := t.delays.map fun d =>
      if d.tensor == tensor then
        { d with amax := if d.amax.toNat < top then BitVec.ofNat 32 top else d.amax, clamped := d.clamped || clamped }
      else d }

/-- The accumulator entries an output row takes, with their element indices modulo 2^32: accumulator row `j` (T = 0), or
column `j` of the rows read (T = 1) (R109, R110). -/
def outRow (c : DrainCtx) (rows : List (List (BitVec 48))) (t : Bool) (j : Nat) : List (BitVec 48 × Nat) :=
  if t then
    ((List.range rows.length).zip rows).map fun e => (e.2.getD j 0, (c.base + rows.length * j + e.1) % 2 ^ 32)
  else
    (rows.headD []).mapIdx fun i a => (a, (c.base + 64 * j + i) % 2 ^ 32)

/-- Output rows converted and counted, each with its bytes (R138, R149). -/
def drainOut (s : State) (c : Nat) (x : Ctx) (p : Coord) (e : MEntry) (rows : List (List (BitVec 48))) (js : List Nat)
    (t : Bool) : State × List (List Byte) :=
  let k := drainCtx (s.tile (ckey p)) x e
  let delayed := (delayOf (s.tile (ckey p)) x e).isSome
  let clamped := match delayExp (s.tile (ckey p)) x e with
    | some v => v.2
    | none => false
  js.foldl (fun (a : State × List (List Byte)) j =>
    match drainRow k (outRow k rows t j) with
    | (bs, count, ms) =>
      let s := tallyAdd a.1 c (ckey p) count
      let s := if delayed then s.modTile (ckey p) fun tl => foldAmax tl e.tensor ms clamped else s
      (s, a.2 ++ [bs])) (s, [])

/-- Items of a drain pushed while the port has a free entry; the last one of a finished drain is padded (R92, R100, R120). -/
def pushOut (s : State) (c : Nat) (d : CtxDef) (p : Coord) (ch : Nat) (final : Bool) : Nat → State
  | 0 => s
  | n + 1 =>
    let t := s.tile (ckey p)
    let o := t.mx.outBytes
    if outFree s d (ckey p) ch = 0 || o.isEmpty || (o.length < 128 && !final) then s
    else
      let i : Item := { data := BitVec.ofNat 1024 (leNat (o.take 128)) }
      let s := s.setTile (ckey p) { t with mx := { t.mx with outBytes := o.drop 128 } }
      pushOut (pushItem s c d p ch i) c d p ch final n

/-- The drain has read all its rows and pushed all its bytes: it leaves its engine. -/
def drainEnd (s : State) (p : Coord) (count : Nat) : State :=
  s.modTile (ckey p) fun t =>
    match t.mx.drainQ with
    | e :: rest =>
      if count ≤ e.pos && t.mx.outBytes.isEmpty then { t with mx := { t.mx with drainQ := rest, drainBuf := [] } } else t
    | [] => t

/-- The next accumulator row of the oldest drain read, and cleared with C = 1 (R109). -/
def Matrix.takeRow (m : Matrix) (e : MEntry) (rest : List MEntry) (row : Nat) (t clr : Bool) : Matrix :=
  let line := (List.range 64).map (m.accGet row)
  { m with
    drainQ := { e with pos := e.pos + 1 } :: rest
    drainBuf := if t then m.drainBuf ++ [line] else [line]
    undo := m.undo.map fun u => (u.1, if clr then u.2.filter fun a => a.1 / 64 != row else u.2)
    acc := if clr then m.acc.filter fun a => a.1 / 64 != row else m.acc }

/-- An output row written to the bin: pending gather entries of its lines are written back first, with their trace records; a line
that the row does not fill keeps its tag (R168, R172, R178). -/
def writeRow (s : State) (p : Coord) (addr : Nat) (bs : List Byte) : State :=
  (flushSpan s p (addr / 64) ((addr + bs.length - 1) / 64 + 1 - addr / 64)).modTile (ckey p) fun tl => writeSpan tl addr bs

/-- Output rows written one behind the other from an address on. -/
def writeRows (s : State) (p : Coord) : Nat → List (List Byte) → State
  | _, [] => s
  | a, bs :: t => writeRows (writeRow s p a bs) p (a + bs.length) t

/-- MDRAIN_ROW_READ: the oldest drain reads its next accumulator row, converts what is complete, and writes it or pushes it;
with its output buffer full it only pushes (R98, R109, R120). -/
def execMdrainRowRead (t : Coord) (s : State) : Out :=
  match arrayLive s t with
  | none => .next s
  | some (c, x) =>
    let tl := s.tile (ckey t)
    match tl.mx.drainQ with
    | [] => .next s
    | e :: rest =>
      match e.op with
      | .mdrain a row0 count tr clr q =>
        let row := row0 + e.pos
        let finish (s : State) : State :=
          match q with
          | some ch =>
            let final := match (s.tile (ckey t)).mx.drainQ with
              | f :: _ => count ≤ f.pos
              | [] => true
            drainEnd (pushOut s c x.cdef t ch final 8) t count
          | none => drainEnd s t count
        if count ≤ e.pos || 1024 ≤ tl.mx.outBytes.length then .next (finish s)
        else if tl.mx.mmulPending e.num row || tl.mx.entering e.num || tl.mx.unread e.num e.writes then .next s
        else
          let s := s.setTile (ckey t) { tl with mx := tl.mx.takeRow e rest row tr clr }
          let rows := (s.tile (ckey t)).mx.drainBuf
          let js := if tr then (if rows.length = count then List.range 64 else []) else [e.pos]
          let r := drainOut s c x t e rows js tr
          let at_ := a + (if tr then 0 else e.pos * outRowBytes e.cfg.toNat 64)
          let s :=
            match q with
            | some _ => r.1.modTile (ckey t) fun tl => { tl with mx := { tl.mx with outBytes := tl.mx.outBytes ++ r.2.flatten } }
            | none => writeRows r.1 t at_ r.2
          .next (finish s)
      | _ => .next s

/-! ### Current smoothing (R121 to R123) -/

/-- The ramp after one interval of RAMP_STEP_CYCLES tile cycles (R122). -/
def Ramp.step (r : Ramp) (cycles hold : Nat) : Ramp :=
  let idle := if r.waited then 0 else r.idle + 1
  let level :=
    if r.waited || r.level < r.target then min 16 (r.level + 1)
    else if r.target < r.level && hold ≤ idle * cycles then r.level - 1
    else r.level
  { r with level := level, idle := idle, waited := false }

/-- ARRAY_LEVEL_STEP: an interval of RAMP_STEP_CYCLES ends (R122, R125). -/
def execArrayLevelStep (t : Coord) (s : State) : Out :=
  if s.clk.tilesStopped then .next s
  else
    let w := (cfgInForce s 0x2240 1).toNat
    .next (s.modTile (ckey t) fun tl => { tl with ramp := tl.ramp.step (bits w 0 11) (64 * bits w 16 8) })

/-- The verdict of a dummy pass: it repeats the operands of the last real row, or zero operands, whose two sums are zero
(R123). -/
def dummyPasses (t : Tile) (upset : Int) : Bool :=
  match t.ramp.last with
  | some r => (verdict r (t.mx.buf r.swapped) upset).parts.1
  | none => upset == 0

/-- DUMMY_PASS: a dummy pass in a slot no real row takes, with what a physical fault adds to the sum of its column terms; a
failed verdict is counted and is a health input (R119, R123, R342). -/
def execDummyPass (t : Coord) (upset : Int) (s : State) : Out :=
  if s.clk.tilesStopped || (s.tile (ckey t)).ramp.level = 0 || dummyPasses (s.tile (ckey t)) upset then .next s
  else
    .next (logicalHealth (s.count (quarterOf s t) fun n => { n with dummyFails := satAdd n.dummyFails 1 65535 }) (ckey t) .dummyFail)

end Sys2Proof.Machine
end

