-- ==== Sys2Proof/Machine/System.lean ====
section
/-! DEFINITION. The SYS class: `nop`, the control and status registers, fallow points and the ends of sections and steps
(R46, R47, R50, R52, R80 to R82, R166, R216, R219). -/

namespace Sys2Proof.Machine

/-- `nop` (R50). -/
def execNop (h : Hdr) (s : State) : Out := issue h false false s fun _ => .fin s

/-! ### Control and status registers (R46, R47) -/

/-- The value of a register, none for an unlisted index. -/
def csrValue (s : State) (p : Coord) (c : Nat) (x : Ctx) (i : Nat) : Option Word :=
  let k := (s.tile (ckey p)).core
  let w (n : Nat) : Option Word := some (BitVec.ofNat 32 n)
  match i with
  | 0x000 => w (tileCycles s p)
  | 0x001 => some k.cycleHi
  | 0x002 => w x.run.step.toNat
  | 0x003 => w (x.run.step.toNat / 2 ^ 32)
  | 0x010 => w (p.x - x.cdef.x0)
  | 0x011 => w (p.y - x.cdef.y0)
  | 0x012 => w x.cdef.w
  | 0x013 => w x.cdef.h
  | 0x014 => w c
  | 0x020 => some k.tensorId
  | 0x021 => some k.elementBase
  | 0x030 => w k.fpFlags.toNat
  | 0x040 => some (mget k.c 0 0)
  | 0x041 => some (mget k.c 0 1)
  | 0x042 => some (mget k.c 0 2)
  | 0x043 => some (mget k.c 0 3)
  | _ => none

/-- Reading CYCLE_LO latches CYCLE_HI. -/
def latchHi (s : State) (p : Coord) (i : Nat) (k : Core) : Core :=
  if i = 0 then { k with cycleHi := BitVec.ofNat 32 (tileCycles s p / 2 ^ 32) } else k

/-- `csrr rd, csr`; an unlisted index raises ILLEGAL_INSTR (R46). -/
def execCsrr (h : Hdr) (r : BitVec 5) (csr : BitVec 12) (s : State) : Out :=
  issue h false false s fun _ => withCtx s h.t fun c x =>
    match csrValue s h.t c x csr.toNat with
    | none => .exc 1 0
    | some v => .fin (s.modCore h.t fun k => (latchHi s h.t csr.toNat k).setS r v)

/-- `csrw csr, rs`; a read-only or unlisted index raises ILLEGAL_INSTR (R46). A write of FP_FLAGS that sets a reserved bit is
refused as a whole: the register keeps its value and the instruction ends (R19, notes/assumptions/86.md). -/
def execCsrw (h : Hdr) (r : BitVec 5) (csr : BitVec 12) (s : State) : Out :=
  issue h false false s fun t =>
    let v := t.core.sreg r
    match csr.toNat with
    | 0x020 => .fin (s.modCore h.t fun k => { k with tensorId := v })
    | 0x021 => .fin (s.modCore h.t fun k => { k with elementBase := v })
    | 0x030 => .fin (if bits v.toNat 5 27 = 0 then s.modCore h.t fun k => { k with fpFlags := v.setWidth 5 } else s)
    | _ => .exc 1 0

/-! ### Fallow points, step ends and section ends (R80 to R82, R166, R219) -/

/-- Every pending gather entry of a tile written back, with its trace records (R166, R172). -/
def flushGather (s : State) (p : Coord) : State :=
  let ls := ((s.tile (ckey p)).bin.gather.filter (·.mask != 0)).map (·.line)
  traceWriteBacks (s.modTile (ckey p) fun t => { t with bin := t.bin.writeBackAll }) p ls

/-- A tile stands at a fallow point other than a `fallow` instruction (R219). -/
def atFallow (r : RunState) : Bool :=
  match r with
  | .off => true
  | .stepEnd => true
  | .secEnd => true
  | .held => true
  | .entryWait => true
  | _ => false

/-- The tile has reached a fallow point now, and its next gap begins (R223). -/
def markFallow (s : State) (p : Coord) : State := s.modTile (ckey p) fun t => { t with lastFallow := now s, gapLate := false }


/-- A context draining or paused holds its tiles at fallow points (R216). -/
def CtxRun.holds (r : CtxRun) : Bool := r.pauseState != 0

/-- `fallow`: with a move of the tile pending the core stops for it, in a draining context it is held before the next
instruction, and otherwise it goes on; with a move pending the gather entries are written back (R80, R81, R166, R216). -/
def execFallow (h : Hdr) (s : State) : Out :=
  issue h false false s fun _ => withCtx s h.t fun _ x =>
    let s := markFallow s h.t
    let s := if (s.tile (ckey h.t)).moveTo.isSome then flushGather s h.t else s
    if x.run.holds then .fin (s.modCore h.t fun k => { k with run := .held })
    else if moveReady s (ckey h.t) then .go (s.modCore h.t fun k => { k with run := .moving, wait := none })
    else .fin s

/-- A tile's part of the step ends, at a fallow point (R82, R166, R219). -/
def endStep (s : State) (p : Coord) : State :=
  (flushGather (markFallow s p) p).modCore p fun k => { k with run := .stepEnd, wait := none }

/-- The tiles of a cluster, by its north-west one: north-west, north-east, south-west, south-east (R85). -/
def clusterTiles (p : Coord) : List Coord := [p, ⟨p.x + 1, p.y⟩, ⟨p.x, p.y + 1⟩, ⟨p.x + 1, p.y + 1⟩]

/-- The tile is the north-west one of a cluster of a running cluster-mode context, and its program runs (R85). -/
def clusterRuns (s : State) (p : Coord) : Bool :=
  (match ctxAt s p with
   | some (_, x) => x.cdef.cluster && x.rec_.state == 1 && (p.x - x.cdef.x0) % 2 == 0 && (p.y - x.cdef.y0) % 2 == 0
   | none => false)
  && (s.tile (ckey p)).core.run == .running && !(s.tile (ckey p)).core.halted && !s.clk.tilesStopped

/-- `stepend`: the tile's part of the step ends (R82). In a cluster the Ligiune 1 step end that the north-west tile decodes ends
the step of the four tiles (R85, R88). -/
def execStepend (h : Hdr) (s : State) : Out :=
  if clusterRuns s h.t then .next ((clusterTiles h.t).foldl endStep s)
  else issue h false false s fun _ => .go (endStep s h.t)

/-- `secend`: the tile's part of the section ends (R82). -/
def execSecend (h : Hdr) (s : State) : Out :=
  issue h false false s fun _ => .go ((flushGather (markFallow s h.t) h.t).modCore h.t fun k => { k with run := .secEnd, wait := none })

end Sys2Proof.Machine
end

