-- ==== Sys2Proof/Machine/Dataflow.lean ====
section
/-! DEFINITION. Streams at a tile: items and credits that arrive, steering units, blocked tiles and the wait graph, spill, and
the pause of a context (R186 to R199, R207 to R218, R223). -/

namespace Sys2Proof.Machine

/-! ### Arrivals (R190, R191, R222) -/

/-- CHANNEL_ITEM_ARRIVE: an item is placed in its inbound channel by its sequence number; while the tile moves or is not yet
loaded it is held at the router (R191, R222). -/
def execChannelItemArrive (f : Nat) (s : State) : Out :=
  match s.arrived f with
  | none => .next s
  | some fl =>
    if (fl.op == 0 || fl.op == 8) && (fl.cls == .forward || fl.cls == .collective) then
      match live s fl.ctx.toNat fl.dst with
      | none => .next (s.dropFlit f)
      | some _ =>
        let t := s.tile (ckey fl.dst)
        if t.moveStage != 0 || !t.loaded then .next s
        else .next (arriveItem (s.dropFlit f) fl.ctx.toNat fl.dst fl.chan.toNat fl.seq fl.item)
    else .next s

/-- CHANNEL_CREDIT_ARRIVE: freed positions return to an outbound channel (R190). -/
def execChannelCreditArrive (f : Nat) (s : State) : Out :=
  match s.arrived f with
  | none => .next s
  | some fl =>
    if fl.op == 1 && (fl.cls == .forward || fl.cls == .collective) then
      match live s fl.ctx.toNat fl.dst with
      | none => .next (s.dropFlit f)
      | some _ =>
        let s := s.dropFlit f
        .next (s.modTile (ckey fl.dst) fun t =>
          let st := t.cst fl.chan.toNat
          t.setCst fl.chan.toNat { st with credits := st.credits + fl.aux.toNat })
    else .next s

/-! ### Steering units (R193 to R199, R222) -/

def tkOp (w : BitVec 32) : Nat := bits w.toNat 29 3
def tkSel (w : BitVec 32) : Nat := bits w.toNat 28 1
def tkCount (w : BitVec 32) : Nat := bits w.toNat 0 24

/-- A token with a reserved OP or field, or COUNT 0 (R193, R199). -/
def tkBad (w : BitVec 32) : Bool := 2 < tkOp w || bits w.toNat 24 4 != 0 || tkCount w == 0

/-- The steering units of a tile work: its context runs, no exception has stopped it and it is not being copied. -/
def steerLive (s : State) (p : Coord) : Option (Nat × Ctx) :=
  match ctxAt s p with
  | some (c, x) =>
    let t := s.tile (ckey p)
    if x.rec_.state == 1 && t.core.run != .excepted && t.moveStage == 0 && !s.clk.tilesStopped then some (c, x) else none
  | none => none

/-- The entry of a steering unit. -/
def Tile.steerEnt (t : Tile) (u : Nat) : DWord := mget t.steer 0 u

/-- The moving part of a steering unit. -/
def Tile.unit (t : Tile) (u : Nat) : SteerUnit := mget t.units {} u

/-- A steering unit between tokens looks at the token at the head of its channel: poison is consumed, a bad token raises
STEER_TOKEN, and a token of the given OP is taken up (R195 to R199). -/
def takeToken (t : Coord) (u : BitVec 2) (op : Nat) (s : State) : Out :=
  match steerLive s t with
  | none => .next s
  | some _ =>
    let tl := s.tile (ckey t)
    let e := tl.steerEnt u.toNat
    if stMode e = 0 || (tl.unit u.toNat).tok.isSome || !hasItem tl (stTok e) then .next s
    else
      let i := headItem tl (stTok e)
      let w := i.toWord
      if i.tagLo then .next (takeExc s t 8 0 false (3 * 2 ^ 26 + u.toNat))
      else if tkBad w then .next (takeExc s t 0x0B 0 false u.toNat)
      else if tkOp w != op then .next s
      else .next (s.setTile (ckey t) { tl with units := mput tl.units u.toNat { tok := some w, left := tkCount w, held := none } })

/-- TOKEN_PASS (R195, R196). -/
def execTokenPass (t : Coord) (u : BitVec 2) (s : State) : Out := takeToken t u 0 s

/-- TOKEN_DROP (R195, R196). -/
def execTokenDrop (t : Coord) (u : BitVec 2) (s : State) : Out := takeToken t u 1 s

/-- TOKEN_REPEAT (R195, R196). -/
def execTokenRepeat (t : Coord) (u : BitVec 2) (s : State) : Out := takeToken t u 2 s

/-- The input a unit takes from under a token, and the output it gives to. -/
def stInput (e : DWord) (w : BitVec 32) : Nat := if stMode e = 2 && tkSel w = 1 then stIn1 e else stIn0 e
def stOutput (e : DWord) (w : BitVec 32) : Nat := if stMode e = 1 && tkSel w = 1 then stOut1 e else stOut0 e

/-- Room for an item at an output: an outbound channel's free entries, or free positions of an inbound local channel. -/
def outRoom (s : State) (d : CtxDef) (k ch : Nat) : Nat :=
  if chOut ((s.tile k).chan ch) then outFree s d k ch else chFree d (s.tile k) ch

/-- Credit of an output, whatever room the tile port has. -/
def outCredit (s : State) (d : CtxDef) (k ch : Nat) : Nat :=
  if chOut ((s.tile k).chan ch) then chanCredit s d k ch else chFree d (s.tile k) ch

/-- An item given to an output. -/
def giveItem (s : State) (c : Nat) (d : CtxDef) (p : Coord) (ch : Nat) (i : Item) : State :=
  if chOut ((s.tile (ckey p)).chan ch) then pushItem s c d p ch i
  else
    let s := unblock s p
    let r := placeItem (s.tile (ckey p)) ch i
    countSpillItems (s.setTile (ckey p) r.1) c p (b2n r.2)

/-- After an item of a token: its count falls, and with the last item the token is popped (R197). -/
def tokenStep (s : State) (d : CtxDef) (p : Coord) (u : Nat) (held : Option Item) : State :=
  let t := s.tile (ckey p)
  let n := t.unit u
  if n.left ≤ 1 then
    popItem (s.setTile (ckey p) { t with units := mdel t.units u }) d p (stTok (t.steerEnt u))
  else s.setTile (ckey p) { t with units := mput t.units u { n with left := n.left - 1, held := held } }

/-- STEER_ITEM_MOVE: a unit moves, discards or repeats one item, once the item, the token and a credit of the output are
present (R195 to R197). A poisoned item moves with its tag (R67). -/
def execSteerItemMove (t : Coord) (u : BitVec 2) (s : State) : Out :=
  match steerLive s t with
  | none => .next s
  | some (c, x) =>
    let tl := s.tile (ckey t)
    let e := tl.steerEnt u.toNat
    let n := tl.unit u.toNat
    match n.tok with
    | none => .next s
    | some w =>
      let inp := stInput e w
      let out := stOutput e w
      let room := 0 < outRoom s x.cdef (ckey t) out
      let there := hasItem tl inp
      let i := headItem tl inp
      match tkOp w with
      | 0 =>
        if there && room then
          .next (tokenStep (giveItem (popItem s x.cdef t inp) c x.cdef t out i) x.cdef t u.toNat none)
        else .next s
      | 1 => if there then .next (tokenStep (popItem s x.cdef t inp) x.cdef t u.toNat none) else .next s
      | _ =>
        match n.held with
        | some j => if room then .next (tokenStep (giveItem s c x.cdef t out j) x.cdef t u.toNat (some j)) else .next s
        | none =>
          if there && room then
            .next (tokenStep (giveItem (popItem s x.cdef t inp) c x.cdef t out i) x.cdef t u.toNat (some i))
          else .next s

/-! ### Blocked tiles (R207, R208) -/

/-- The tiles that feed an entry of a router, up its tree, each with its outbound channel. -/
def contributors (s : State) : Nat → Nat → Nat → Nat → List (Nat × Nat)
  | 0, _, _, _ => []
  | fuel + 1, x, y, n =>
    let e := redEntry s (tkey x y) n
    (rInputs e).flatMap fun code =>
      let at_ (x y : Nat) (port : Nat) : List (Nat × Nat) :=
        match (List.range 32).find? fun m =>
          let u := redEntry s (tkey x y) m
          rNext u == n && (if rType u == 1 then rOut u == port else rType u == 2 && rMask u port) with
        | some m => contributors s fuel x y m
        | none => []
      match code with
      | 0 => at_ x (y - 1) 1
      | 1 => at_ x (y + 1) 0
      | 2 => at_ (x + 1) y 3
      | 3 => at_ (x - 1) y 2
      | 4 => [(tkey x y, rTileCh e)]
      | _ => []

/-- The tiles at the other end of a channel. -/
def chanPeers (s : State) (d : CtxDef) (k ch : Nat) : List Nat :=
  let e := (s.tile k).chan ch
  match chKind e with
  | 0 => [tkey (d.x0 + chPeerX e) (d.y0 + chPeerY e)]
  | 1 =>
    if chOut e then [tkey (d.x0 + chPeerX e) (d.y0 + chPeerY e)]
    else
      match fedByEntry s k ch with
      | some n => ((contributors s (d.w * d.h + 1) (k % 128) (k / 128) n).map (·.1)).dedup
      | none => []
  | _ => [k]

/-- What one agent of a tile does in a cycle. -/
inductive AgentWait where
  /-- It can go on, or waits for something else than a channel. -/
  | active
  /-- It has nothing to do, or waits for another agent of the tile. -/
  | rest
  /-- It waits on an empty inbound channel, or for a credit. -/
  | on (ch : Nat) (credit : Bool)
  deriving DecidableEq, Repr

/-- The core's wait. -/
def coreWait (s : State) (d : CtxDef) (k : Nat) : AgentWait :=
  let t := s.tile k
  if t.core.timed.isSome then .active
  else
    match t.core.run, t.core.wait with
    | .running, some (.queueIn ch) => if hasItem t ch then .active else .on ch false
    | .running, some (.queueOut ch) => if chanCredit s d k ch = 0 then .on ch true else .active
    | .running, some (.portHeld _) => .rest
    | .running, some .matrixQueue => .rest
    | .running, some .msync => .rest
    | .off, _ => .rest
    | .held, _ => .rest
    | _, _ => .active

/-- The load engine's wait. -/
def loadWait (t : Tile) : AgentWait :=
  match t.mx.loadQ with
  | [] => .rest
  | e :: _ =>
    match e.op with
    | .mld _ (some ch) => if hasItem t ch then .active else .on ch false
    | _ => if t.mx.arrayQ.any fun a => a.num < e.num && a.op != .mswap && a.usesB == e.usesB then .rest else .active

/-- The array's wait. -/
def passWait (t : Tile) : AgentWait :=
  if !t.mx.rows.isEmpty then .active
  else
    match t.mx.arrayQ with
    | [] => .rest
    | e :: _ =>
      match e.op with
      | .mmul _ _ _ _ _ (some ch) =>
        if t.mx.awaits e.usesB e.num then .rest else if hasItem t ch then .active else .on ch false
      | .mswap => if t.mx.awaits (!e.swapped) e.num then .rest else .active
      | _ => if t.mx.awaits e.usesB e.num then .rest else .active

/-- The drain's wait. -/
def drainWait (s : State) (d : CtxDef) (k : Nat) : AgentWait :=
  let t := s.tile k
  match t.mx.drainQ with
  | [] => .rest
  | e :: _ =>
    match e.op with
    | .mdrain _ row0 count _ _ (some ch) =>
      if t.mx.outBytes.length < 128 && e.pos < count then (if t.mx.mmulPending e.num (row0 + e.pos) then .rest else .active)
      else if chanCredit s d k ch = 0 then .on ch true else .active
    | .mdrain _ row0 _ _ _ none => if t.mx.mmulPending e.num (row0 + e.pos) then .rest else .active
    | _ => .active

/-- A steering unit's wait. -/
def unitWait (s : State) (d : CtxDef) (k u : Nat) : AgentWait :=
  let t := s.tile k
  let e := t.steerEnt u
  let n := t.unit u
  if stMode e = 0 then .rest
  else
    match n.tok with
    | none => if hasItem t (stTok e) then .active else .on (stTok e) false
    | some w =>
      if n.held.isNone && !hasItem t (stInput e w) then .on (stInput e w) false
      else if tkOp w != 1 && outCredit s d k (stOutput e w) = 0 then .on (stOutput e w) true
      else .active

/-- The waits of a tile's agents. -/
def agentWaits (s : State) (d : CtxDef) (k : Nat) : List AgentWait :=
  [coreWait s d k, loadWait (s.tile k), passWait (s.tile k), drainWait s d k] ++ (List.range 4).map (unitWait s d k)

/-- A tile is blocked: nothing of it can go on, and what waits waits on a channel (R207). -/
def blocked (s : State) (d : CtxDef) (k : Nat) : Bool :=
  let t := s.tile k
  let w := agentWaits s d k
  !t.inMove && t.loaded && !w.contains .active
  && (match t.mx.queue with
      | [] => true
      | e :: _ => !t.mx.room e.op)
  && w.any fun a => match a with
      | .on _ _ => true
      | _ => false

/-- The wait edges of a tile (R208). -/
def waitEdges (s : State) (d : CtxDef) (k : Nat) : List WaitEdge :=
  (agentWaits s d k).flatMap fun a =>
    match a with
    | .on ch credit => (chanPeers s d k ch).map fun p => ⟨BitVec.ofNat 5 ch, credit, p⟩
    | _ => []

/-- BLOCKED_REPORT: a tile blocked for BLOCK_REPORT tile cycles sends a report of its wait edges over the management class, when
its port has room for the packet (R208, R255). -/
def execBlockedReport (t : Coord) (s : State) : Out :=
  match steerLive s t with
  | some (c, x) =>
    let k := ckey t
    let l := reportFlits c t (waitEdges s x.cdef k)
    if blocked s x.cdef k && !(s.tile k).reported && !(s.tile k).unreport && l.length ≤ portRoom s t .management then
      .next (l.foldl State.send (s.modTile k fun tl => { tl with reported := true }))
    else .next s
  | none => .next s

/-! ### The wait graph (R209, R370) -/

/-- A path along wait edges that returns to its start. -/
def pathBack (edges : AMap (List WaitEdge)) (start : Nat) : Nat → List Nat → Nat → Option (List Nat)
  | 0, _, _ => none
  | fuel + 1, path, k =>
    ((mfind edges k).getD []).findSome? fun e =>
      if e.peer = start then some (path ++ [k])
      else if path.contains e.peer || k == e.peer then none
      else pathBack edges start fuel (path ++ [k]) e.peer

/-- A closed wait cycle among the tiles that have reported (R209). -/
def waitCycle (edges : AMap (List WaitEdge)) : Option (List Nat) :=
  edges.findSome? fun p => pathBack edges p.1 (edges.length + 1) [] p.1

/-- A context whose waits are watched: running, and neither draining nor paused (R217, R370). -/
def watched (x : Ctx) : Bool := x.rec_.state == 1 && !x.run.holds

/-- A closed cycle that stands while its context is watched, and under no window yet, starts a hang window (R209, R370). -/
def watchCycles (s : State) (c : Nat) : State :=
  match s.ctx c with
  | none => s
  | some x =>
    if watched x && x.rec_.hang.isNone then
      s.modRec c fun r => { r with hang := waitCycle r.edges, hangAt := r.slow }
    else s

/-- A hang window on a cycle through a tile ends (R370). -/
def endWindow (s : State) (c k : Nat) : State :=
  s.modRec c fun r => { r with hang := r.hang.filter fun cyc => !cyc.contains k }

/-- WAIT_GRAPH_REPORT: the engine takes the oldest report of a tile that has reached it: a blocked report's edges, of which a
cycle they close starts a hang window, or an unblocked report, which ends the tile's edges and the hang window of a cycle
through it (R208, R209, R370). -/
def execWaitGraphReport (t : Coord) (s : State) : Out :=
  match ctxAt s t with
  | none => .next s
  | some (c, x) =>
    let k := ckey t
    match x.rec_.reports.find? fun e => e.1 == k with
    | none => .next s
    | some e =>
      let s := s.modRec c fun r => { r with reports := r.reports.erase e }
      if e.2.isEmpty then
        .next (watchCycles (endWindow (s.modRec c fun r => { r with edges := mdel r.edges k }) c k) c)
      else .next (watchCycles (s.modRec c fun r => { r with edges := mput r.edges k e.2 }) c)

/-- Tiles that wait edges lead to from some tiles, within `n` edges. -/
def edgeReach (edges : AMap (List WaitEdge)) : Nat → List Nat → List Nat
  | 0, l => l
  | n + 1, l => edgeReach edges n ((l.flatMap fun k => ((mfind edges k).getD []).map (·.peer)).foldl sadd l)

/-- An edge of a tile lies on a closed cycle of tiles that have all reported. -/
def onCycle (edges : AMap (List WaitEdge)) (k : Nat) (e : WaitEdge) : Bool :=
  (edgeReach edges edges.length [e.peer]).contains k

/-- The inbound channel that an edge which waits for a credit leads to: its tile and number. -/
def creditTarget (s : State) (k : Nat) (e : WaitEdge) : Option (Nat × Nat) :=
  let ent := (s.tile k).chan e.ch.toNat
  if !e.credit then none
  else if !chOut ent then some (k, e.ch.toNat)
  else if chKind ent == 0 || chKind ent == 2 then some (e.peer, chPeerCh ent)
  else none

/-- A channel that the engine may order into spill state (R209). -/
def mayEnterSpill (s : State) (d : CtxDef) (k ch : Nat) : Bool :=
  let t := s.tile k
  let e := t.chan ch
  let c := t.cst ch
  chKind e != 1 && bitAt (cfgInForce s 0x2260 1).toNat 31 && !c.spilling && chFree d t ch == 0
  && (c.binSeg.length < chBinCap e || c.memSeg.length < chMemCap d t ch)

/-- SPILL_ORDER: of every edge of a closed cycle that waits for credit, the consumer's channel is ordered to spill if it may (R209,
R214, R217). -/
def execSpillOrder (c : Nat) (s : State) : Out :=
  match s.ctx c with
  | none => .next s
  | some x =>
    if !watched x then .next s
    else
      let targets := x.rec_.edges.flatMap fun p =>
        p.2.filterMap fun e => if onCycle x.rec_.edges p.1 e then creditTarget s p.1 e else none
      .next ((targets.filter fun q => mayEnterSpill s x.cdef q.1 q.2).foldl (fun s q =>
        s.modTile q.1 fun t => t.setCst q.2 { t.cst q.2 with ordered := true }) s)

/-! ### Spill (R210 to R213) -/

/-- SPILL_ENTER: a channel that has received a spill order enters spill state, is counted, and grants new credit (R209, R210,
R212). -/
def execSpillEnter (t : Coord) (ch : BitVec 5) (s : State) : Out :=
  match steerLive s t with
  | none => .next s
  | some (c, x) =>
    if ((s.tile (ckey t)).cst ch.toNat).ordered then
      let s := s.modTile (ckey t) fun tl => tl.setCst ch.toNat { tl.cst ch.toNat with ordered := false, spilling := true }
      let s := s.count (quarterOf s t) fun q => { q with spills := satAdd q.spills 1 65535 }
      let s := s.modTally c fun y => { y with spills := y.spills + 1 }
      let s := addFault s c 0x40 (BitVec.ofNat 64 ((t.x - x.cdef.x0) * 2 ^ 11 + (t.y - x.cdef.y0) * 2 ^ 5 + ch.toNat))
      .next (grantCredits s x.cdef t ch.toNat)
    else .next s

/-- An item as a refill read brings it: with its tag, and with one for every half that was delivered poisoned (R213). -/
def refilled (e : DWord) (r : SpillTxn) (off : Nat) (i : Item) : Item :=
  let p (l : Nat) : Bool := r.poison.contains l
  { i with tagLo := i.tagLo || p (off / 64), tagHi := i.tagHi || (chWide e && p (off / 64 + 1)) }

/-- The oldest items of the memory segment, read back, moved into the bin segment, or where the channel has none into the store
(R210). -/
def refill (d : CtxDef) (t : Tile) (r : SpillTxn) : Tile :=
  let e := t.chan r.ch
  let c := t.cst r.ch
  let room := if chBinCap e = 0 then chCap e - c.store.length else chBinCap e - c.binSeg.length
  let n := min r.items room
  let first := c.memAt % (4096 / chItemBytes e)
  let l := ((List.range n).zip c.memSeg).map fun p => refilled e r ((first + p.1) * chItemBytes e) p.2
  let t := t.setCst r.ch { c with
    memSeg := c.memSeg.drop n, memAt := (c.memAt + n) % max 1 (chMemCap d t r.ch), memSent := c.memSent - n }
  l.foldl (fun t i =>
    if chBinCap e = 0 then t.setCst r.ch { t.cst r.ch with store := (t.cst r.ch).store ++ [i] } else putBin t r.ch i) t

/-- SPILL_TRANSFER_COMPLETE: a transaction of the spill engine whose replies have all come completes: a write frees its place,
and what a read brought moves up (R210, R211). -/
def execSpillTransferComplete (t : Coord) (ch : BitVec 5) (s : State) : Out :=
  match steerLive s t with
  | none => .next s
  | some (_, x) =>
    let tl := s.tile (ckey t)
    match tl.spill.find? fun e => e.2.ch == ch.toNat && e.2.got = e.2.len with
    | none => .next s
    | some (tag, r) =>
      let tl := { tl with spill := mdel tl.spill tag }
      if r.write then .next (pumpPort (s.setTile (ckey t) tl) t)
      else
        let s := s.setTile (ckey t) (refill x.cdef tl r)
        .next (grantCredits (moveUp (chCap (tl.chan ch.toNat)) s t ch.toNat) x.cdef t ch.toNat)

/-! ### Pause (R216, R217, R223) -/

/-- A tile stands at a fallow point or is blocked (R216, R219). -/
def atRest (s : State) (d : CtxDef) (k : Nat) : Bool :=
  match (s.tile k).core.run with
  | .held => true
  | .stepEnd => true
  | .secEnd => true
  | .entryWait => true
  | .off => true
  | _ => blocked s d k

/-- No item, transaction, matrix instruction or message of a context is in flight (R216). -/
def nothingInFlight (s : State) (c : Nat) (d : CtxDef) : Bool :=
  !(s.mesh.flits.any fun f => f.2.ctx.toNat == c && f.2.cls != .management)
  && !(s.mem.txns.any fun x => x.2.ctx.toNat == c)
  && d.keys.all fun k =>
      let t := s.tile k
      t.dma.descs.isEmpty && t.mx.idle && t.spill.isEmpty && t.bin.staging.isEmpty && t.bin.trace.isEmpty
      && (List.range 32).all fun e => (List.range 5).all fun i => (staged s k e i).isEmpty

/-- CONTEXT_PAUSE_REACHED: a draining context at rest becomes paused (R216). -/
def execContextPauseReached (c : Nat) (s : State) : Out :=
  match s.ctx c with
  | none => .next s
  | some x =>
    if x.rec_.state == 1 && x.run.pauseState == 1 && x.cdef.keys.all (atRest s x.cdef) && nothingInFlight s c x.cdef then
      .next (raise (s.modRun c fun r => { r with pauseState := 2 }) .contextPaused [c])
    else .next s

/-- MAX_FALLOW_GAP of the section that a context is in (R220, R539). -/
def maxFallowGap (s : State) (x : Ctx) : Nat :=
  leNat (cellRead s.mem.data (x.cdef.imgBase + leNat (cellRead s.mem.data (x.cdef.imgBase + 0x20) 8) + 32 * x.run.section_ + 8) 4)

/-- PAUSE_DEADLINE_EXPIRY: a context still draining 2 × MAX_FALLOW_GAP tile cycles of its slowest quarter after the request is
reported, once, and keeps draining (R20, R217). -/
def execPauseDeadlineExpiry (c : Nat) (s : State) : Out :=
  match s.ctx c with
  | none => .next s
  | some x =>
    if x.run.pauseState == 1 && !x.run.pauseLate && !x.cdef.cluster && x.run.pauseAt + 2 * maxFallowGap s x ≤ x.rec_.slow then
      .next (raise (s.modRun c fun r => { r with pauseLate := true }) .contextPauseLate [c])
    else .next s

/-- FALLOW_GAP_LATE: the gap since a tile's last fallow point has grown longer than the fallow interval; it is counted, once a gap. A
tile that stands at a fallow point, or belongs to no context, has no gap (R219, R223). -/
def execFallowGapLate (t : Coord) (s : State) : Out :=
  match ctxAt s t with
  | none => .next s
  | some (c, _) =>
    let tl := s.tile (ckey t)
    let gap := now s - tl.lastFallow
    if cfgField s 0x2310 4 0 16 < gap && !tl.gapLate && !atFallow tl.core.run then
      let s := s.modTile (ckey t) fun tl => { tl with gapLate := true }
      let s := s.count (quarterOf s t) fun q => { q with fallowLate := satAdd q.fallowLate 1 65535 }
      .next (addFault (s.modTally c fun y => { y with fallowLate := y.fallowLate + 1 }) c 0x41 (BitVec.ofNat 64 gap))
    else .next s

end Sys2Proof.Machine
end

