-- ==== Sys2Proof/Machine/Hash.lean ====
section
/-! DEFINITION. The hashes of the module: SHA-256 (FIPS 180-4), which forms STEP_DIGEST, the configuration digest and the
measurements, and the CRC-32 of IEEE 802.3 that closes flash records (R358, R399, R408, R415, R461, R473, R506). -/

namespace Sys2Proof.Machine

/-- Round constants of SHA-256. -/
def shaK : List Word := [
  0x428A2F98, 0x71374491, 0xB5C0FBCF, 0xE9B5DBA5, 0x3956C25B, 0x59F111F1, 0x923F82A4, 0xAB1C5ED5,
  0xD807AA98, 0x12835B01, 0x243185BE, 0x550C7DC3, 0x72BE5D74, 0x80DEB1FE, 0x9BDC06A7, 0xC19BF174,
  0xE49B69C1, 0xEFBE4786, 0x0FC19DC6, 0x240CA1CC, 0x2DE92C6F, 0x4A7484AA, 0x5CB0A9DC, 0x76F988DA,
  0x983E5152, 0xA831C66D, 0xB00327C8, 0xBF597FC7, 0xC6E00BF3, 0xD5A79147, 0x06CA6351, 0x14292967,
  0x27B70A85, 0x2E1B2138, 0x4D2C6DFC, 0x53380D13, 0x650A7354, 0x766A0ABB, 0x81C2C92E, 0x92722C85,
  0xA2BFE8A1, 0xA81A664B, 0xC24B8B70, 0xC76C51A3, 0xD192E819, 0xD6990624, 0xF40E3585, 0x106AA070,
  0x19A4C116, 0x1E376C08, 0x2748774C, 0x34B0BCB5, 0x391C0CB3, 0x4ED8AA4A, 0x5B9CCA4F, 0x682E6FF3,
  0x748F82EE, 0x78A5636F, 0x84C87814, 0x8CC70208, 0x90BEFFFA, 0xA4506CEB, 0xBEF9A3F7, 0xC67178F2]

/-- Initial value of SHA-256. -/
def shaInit : List Word := [
  0x6A09E667, 0xBB67AE85, 0x3C6EF372, 0xA54FF53A, 0x510E527F, 0x9B05688C, 0x1F83D9AB, 0x5BE0CD19]

/-- Rotation right of a word. -/
def rotr (w : Word) (n : Nat) : Word := w.rotateRight n

/-- The big-endian word of four bytes. -/
def beWord (l : List Byte) : Word := BitVec.ofNat 32 (leNat (l.take 4).reverse)

/-- The message schedule, extended from its last sixteen words. -/
def shaExtend : Nat → List Word → List Word
  | 0, w => w
  | n + 1, w =>
    let a := w.getD (w.length - 15) 0
    let b := w.getD (w.length - 2) 0
    let s0 := rotr a 7 ^^^ rotr a 18 ^^^ (a >>> 3)
    let s1 := rotr b 17 ^^^ rotr b 19 ^^^ (b >>> 10)
    shaExtend n (w ++ [w.getD (w.length - 16) 0 + s0 + w.getD (w.length - 7) 0 + s1])

/-- One round: the eight working words after the schedule word and constant given. -/
def shaRound (v : List Word) (kw : Word × Word) : List Word :=
  match v with
  | [a, b, c, d, e, f, g, h] =>
    let t1 := h + (rotr e 6 ^^^ rotr e 11 ^^^ rotr e 25) + ((e &&& f) ^^^ (~~~e &&& g)) + kw.1 + kw.2
    let t2 := (rotr a 2 ^^^ rotr a 13 ^^^ rotr a 22) + ((a &&& b) ^^^ (a &&& c) ^^^ (b &&& c))
    [t1 + t2, a, b, c, d + t1, e, f, g]
  | _ => v

/-- One block of 64 bytes compressed into the hash value. -/
def shaBlock (h : List Word) (block : List Byte) : List Word :=
  let w := shaExtend 48 ((List.range 16).map fun i => beWord (block.drop (4 * i)))
  ((shaK.zip w).foldl shaRound h).zipWith (· + ·) h

/-- A padded message block by block. -/
def shaBlocks : Nat → List Byte → List Word → List Word
  | 0, _, h => h
  | n + 1, m, h => shaBlocks n (m.drop 64) (shaBlock h (m.take 64))

/-- SHA-256 of a list of bytes, as 32 bytes in order. -/
def sha256 (m : List Byte) : List Byte :=
  let pad := (119 - m.length % 64) % 64
  let p := m ++ [0x80] ++ List.replicate pad 0 ++ (toLE 8 (8 * m.length)).reverse
  (shaBlocks (p.length / 64) p shaInit).flatMap fun w => (toLE 4 w.toNat).reverse

/-- SHA-256 as a number whose least significant byte is its first byte. -/
def shaNum (m : List Byte) : BitVec 256 := BitVec.ofNat 256 (leNat (sha256 m))

/-- One bit of the CRC-32 of IEEE 802.3, reflected. -/
def crcBit (c : Word) : Word := if c.getLsbD 0 then (c >>> 1) ^^^ 0xEDB88320 else c >>> 1

/-- One byte of it. -/
def crcByte (c : Word) (b : Byte) : Word :=
  (List.range 8).foldl (fun c _ => crcBit c) (c ^^^ b.setWidth 32)

/-- The CRC-32 of a list of bytes. -/
def crc32 (m : List Byte) : Word := ~~~(m.foldl crcByte 0xFFFFFFFF)

end Sys2Proof.Machine
end

