-- ==== Sys2Proof/Machine/Mesh.lean ====
section
/-! DEFINITION. The mesh: hops of flits, failed links and fallback, injection throttles, management packets, barriers,
circuits and in-network reduction (R226 to R253). -/

namespace Sys2Proof.Machine

/-! ### Hops (R22, R27, R228, R229, R236) -/

/-- The facing port. -/
def portFacing : Port → Port
  | .north => .south
  | .south => .north
  | .east => .west
  | .west => .east
  | .tile => .tile

/-- The number of a port, as in entries of the mesh. -/
def portNum : Port → Nat
  | .north => 0
  | .south => 1
  | .east => 2
  | .west => 3
  | .tile => 4

/-- The neighbour of a logical coordinate across a port. -/
def portStep (p : Port) (x y : Nat) : Nat × Nat :=
  match p with
  | .north => (x, y - 1)
  | .south => (x, y + 1)
  | .east => (x + 1, y)
  | .west => (x - 1, y)
  | .tile => (x, y)

/-- The output that dimension order takes at a router: along the row to the column, then along the column; the granary ports
stand beyond rows 0 and 47 (R236). -/
def dorPort (dst : Coord) (x y : Nat) : Port :=
  if x < dst.x then .east
  else if dst.x < x then .west
  else if dst.y = northRow then .north
  else if dst.y = southRow then .south
  else if y < dst.y then .south
  else if dst.y < y then .north
  else .tile

/-- An output leads off the mesh, to the sink of the flit. -/
def leaves (dst : Coord) (y : Nat) (p : Port) : Bool :=
  p == .tile || (p == .north && y == 0 && dst.y == northRow) || (p == .south && 47 ≤ y && dst.y == southRow)

/-- A mesh link in one form: the end with the smaller coordinate, its direction east or south. -/
def linkNorm (l : MeshLink) : MeshLink :=
  match l.dir with
  | .west => ⟨if l.x = 60 then 0 else l.die, l.x - 1, l.y, .east⟩
  | .north => ⟨l.die, l.x, l.y - 1, .south⟩
  | _ => l

/-- The link of a physical router at package coordinates. -/
def linkAt (px py : Nat) (dir : Port) : MeshLink := linkNorm ⟨px / 60, px, py, dir⟩

/-- A link has failed. -/
def linkDead (s : State) (l : MeshLink) : Bool := s.mesh.failed.contains (linkNorm l)

/-- Vertical links from a physical router down to one of a lower row: the skew switch of the first reaches the column of the
second, and a bypassed row adds a link of its own (R229). -/
def downLinks (a b : Nat) : List MeshLink :=
  (List.range (physRow b - physRow a)).map fun i => linkAt (if i = 0 then physX a else physX b) (physRow a + i) .south

/-- The physical links that a logical hop passes: those of bypassed positions and rows included (R229). -/
def hopLinks (s : State) (x y : Nat) (p : Port) : List MeshLink :=
  let q := portStep p x y
  match physOf s (tkey x y), physOf s (tkey q.1 q.2) with
  | some a, some b =>
    let ax := physX a
    let bx := physX b
    match p with
    | .east => (List.range (bx - ax)).map fun i => linkAt (ax + i) (if ax + i < 60 ∨ 60 ≤ ax then physRow a else physRow b) .east
    | .west => (List.range (ax - bx)).map fun i => linkAt (bx + i) (if bx + i < 60 ∨ 60 ≤ bx then physRow b else physRow a) .east
    | .south => downLinks a b
    | .north => downLinks b a
    | .tile => []
  | _, _ => []

/-- A hop crosses the seam (R256). -/
def seamHop (s : State) (x y : Nat) (p : Port) : Bool :=
  let q := portStep p x y
  match physOf s (tkey x y), physOf s (tkey q.1 q.2) with
  | some a, some b => physDie a != physDie b
  | _, _ => false

/-- A hop needs a failed link. -/
def hopDead (s : State) (x y : Nat) (p : Port) : Bool := (hopLinks s x y p).any (linkDead s)

/-- The rest of the dimension-ordered route needs a failed link (R241). -/
def dorDead (s : State) (dst : Coord) : Nat → Nat → Nat → Bool
  | 0, _, _ => false
  | n + 1, x, y =>
    let p := dorPort dst x y
    if leaves dst y p then false
    else hopDead s x y p || dorDead s dst n (portStep p x y).1 (portStep p x y).2

/-- Outputs on a minimal path (R241). -/
def minimalPorts (dst : Coord) (x y : Nat) : List Port :=
  let row := if dst.y = northRow then 0 else if dst.y = southRow then 47 else dst.y
  (if x < dst.x then [.east] else if dst.x < x then [.west] else [])
  ++ (if y < row then [.south] else if row < y then [.north] else [])

/-- The output a flit takes: dimension order, and in fallback any healthy output on a minimal path. -/
def outPort (s : State) (f : Flit) (x y : Nat) : Option Port :=
  let p := dorPort f.dst x y
  if leaves f.dst y p then some p
  else if f.fallback then (minimalPorts f.dst x y).find? fun q => !hopDead s x y q
  else if hopDead s x y p then none
  else some p

/-! ### Escape routes (R240, R241) -/

/-- Neighbours of a physical router over healthy links, in the order north, east, south, west. -/
def healthyNext (s : State) (q : Nat × Nat) : List (Nat × Nat) :=
  let c (ok : Bool) (l : MeshLink) (n : Nat × Nat) : List (Nat × Nat) := if ok && !linkDead s l then [n] else []
  c (0 < q.2) (linkAt q.1 (q.2 - 1) .south) (q.1, q.2 - 1)
  ++ c (q.1 + 1 < 120) (linkAt q.1 q.2 .east) (q.1 + 1, q.2)
  ++ c (q.2 + 1 < 50) (linkAt q.1 q.2 .south) (q.1, q.2 + 1)
  ++ c (0 < q.1) (linkAt (q.1 - 1) q.2 .east) (q.1 - 1, q.2)

/-- The spanning tree, breadth first: each router reached, with its parent, in the order of discovery. -/
def spanTree (s : State) : Nat → List (Nat × Nat) → AMap Nat → AMap Nat
  | 0, _, m => m
  | _, [], m => m
  | n + 1, q :: rest, m =>
    let new := (healthyNext s q).filter fun r => (mfind m (tkey r.1 r.2)).isNone
    spanTree s n (rest ++ new) (new.foldl (fun m r => mput m (tkey r.1 r.2) (tkey q.1 q.2)) m)

/-- Parents in the tree from the north-west router of the West die. -/
def escapeTree (s : State) : AMap Nat := spanTree s 6000 [(0, 0)] [(0, 0)]

/-- The routers from one up to the root. -/
def treePath (m : AMap Nat) : Nat → Nat → List Nat
  | 0, k => [k]
  | n + 1, k => if k = 0 then [0] else k :: treePath m n (mget m 0 k)

/-- The next router of the escape route from one to another: up to a common ancestor, then down. -/
def escapeNext (s : State) (a b : Nat) : Nat :=
  let m := escapeTree s
  let up := treePath m 200 a
  let down := treePath m 200 b
  if down.contains a then ((down.takeWhile fun k => k != a).getLast?).getD a else (up.getD 1 a)

/-- The physical router, by its key, at which an escaping flit leaves the mesh. -/
def escapeEnd (s : State) (dst : Coord) : Nat :=
  let row := if dst.y = northRow then 0 else if dst.y = southRow then 47 else dst.y
  match physOf s (tkey dst.x row) with
  | some p => tkey (physX p) (physRow p)
  | none => 0

/-! ### Arbitration (R232 to R234, R237, R241, R243) -/

/-- The number of a class. -/
def classNum : MClass → Nat
  | .request => 0
  | .reply => 1
  | .forward => 2
  | .collective => 3
  | .management => 4
  | .circuit => 5

/-- A barrier flit (R244). -/
def barrierFlit (f : Flit) : Bool := f.cls == .management && (f.op == 9 || f.op == 0xA)

/-- The place that a hop leads to: the input buffer of the next router, or the seam's FIFO in front of it (R256). -/
def hopTo (s : State) (x y : Nat) (p : Port) : FlitLoc :=
  let q := portStep p x y
  if seamHop s x y p then .seam q.1 q.2 (portFacing p) else .router q.1 q.2 (portFacing p)

/-- The next router can take a flit: a slot of its class, and across the seam one of the 8 places of the FIFO (R232, R233, R256). -/
def hopRoom (s : State) (x y : Nat) (p : Port) (f : Flit) : Bool :=
  let q := portStep p x y
  hasSlot s q.1 q.2 (portFacing p) f
  && (!seamHop s x y p || (s.mesh.flits.filter fun g => g.2.loc == .seam q.1 q.2 (portFacing p)).length < 8)

/-- What is addressed to a tile is held at its router while the tile moves, and items also until it is loaded (R185, R222). -/
def heldAt (s : State) (f : Flit) : Bool :=
  let t := s.tile (ckey f.dst)
  !isGranary f.dst && (t.moveStage != 0 || (f.op == 0 && f.cls == .forward && !t.loaded))

/-- There is a downstream credit for a flit on an output: room at the sink, or in the next router. -/
def outRoomFor (s : State) (x y : Nat) (p : Port) (f : Flit) : Bool :=
  if leaves f.dst y p then sinkRoom s f && !heldAt s f else hopRoom s x y p f

/-- A flit does not overtake one of its class in the same buffer that goes the same way from the same source. -/
def isHead (s : State) (f : Flit) : Bool :=
  !s.mesh.flits.any fun g => g.2.loc == f.loc && g.2.cls == f.cls && g.2.src == f.src && g.2.dst == f.dst && g.2.stamp < f.stamp

/-- A packet of the management class is forwarded only once what is left of it is all in the buffer (R243). -/
def packetWhole (s : State) (f : Flit) : Bool :=
  f.op != 0xB
  || f.len - f.seq.toNat ≤ (s.mesh.flits.filter fun g =>
      g.2.loc == f.loc && g.2.cls == f.cls && g.2.op == 0xB && g.2.src == f.src && g.2.dst == f.dst && f.stamp ≤ g.2.stamp).length

/-- The output that a flit in an input buffer is ready to leave by, with a downstream credit for it. -/
def readyPort (s : State) (f : Flit) : Option Port :=
  match f.loc with
  | .router x y _ =>
    if f.cls == .circuit || barrierFlit f || !isHead s f || !packetWhole s f then none
    else (outPort s f x y).filter fun p => outRoomFor s x y p f
  | _ => none

/-- The flits that are ready at an output of a router. -/
def readyAt (s : State) (x y : Nat) (p : Port) : List Flit :=
  (s.mesh.flits.map (·.2)).filter fun g =>
    (match g.loc with
     | .router a b _ => a == x && b == y
     | _ => false) && readyPort s g == some p

/-- The input port of a flit at a router. -/
def flitInput (f : Flit) : Nat :=
  match f.loc with
  | .router _ _ inp => portNum inp
  | _ => 4

/-- The key of an output. -/
def outKey (x y : Nat) (p : Port) : Nat := 8 * tkey x y + portNum p

/-- Within one class an output takes the oldest by AGE, then the inputs in turn, then the first to have arrived (R234, R241). -/
def beats (s : State) (k : Nat) (f g : Flit) : Bool :=
  let last := mget s.mesh.turns 4 (8 * k + classNum f.cls)
  let turn (h : Flit) : Nat := (flitInput h + 9 - last) % 5
  f.age.toNat > g.age.toNat || (f.age == g.age && (turn f < turn g || (turn f == turn g && f.stamp ≤ g.stamp)))

/-- A barrier flit that can go is ready at an output: the release on its way down (R234, R244). -/
def barrierReady (s : State) (x y : Nat) (p : Port) : Bool :=
  s.mesh.flits.any fun g => barrierFlit g.2 && g.2.op == 0xA && p != .tile && hopRoom s x y p g.2 &&
    (match g.2.loc with
     | .router a b _ => a == x && b == y
     | _ => false)

/-- Circuits have used 5 of the last 8 mesh cycles of an output: 24 root cycles (R31, R234). -/
def circuitsSpent (s : State) (k : Nat) : Bool :=
  5 ≤ ((mget s.mesh.circuitSends [] k).filter fun t => s.clk.root.toNat < t + 24).length

/-- The entry by which a circuit flit leaves its router. -/
def circuitEnt (s : State) (f : Flit) : Option (Nat × Nat × CircuitEnt) :=
  match f.loc with
  | .router x y inp =>
    ((mfind s.mesh.circuits (8 * tkey x y + f.tag.toNat % 8)).filter fun e => f.cls == .circuit && e.enabled && e.inp == inp).map
      fun e => (x, y, e)
  | _ => none

/-- The ports of a mask: bits 0 to 4 for north, south, east, west and tile. -/
def maskPorts (m : BitVec 5) : List Port :=
  [Port.north, Port.south, Port.east, Port.west, Port.tile].filter fun p => m.getLsbD (portNum p)

/-- Every port of a circuit flit's entry can take its copy. -/
def circuitRoom (s : State) (x y : Nat) (e : CircuitEnt) (f : Flit) : Bool :=
  (maskPorts e.mask).all fun p => if p == .tile then sinkRoom s { f with dst := ⟨x, y⟩ } else hopRoom s x y p f

/-- A circuit flit is ready at an output. -/
def circuitReady (s : State) (x y : Nat) (p : Port) : Bool :=
  s.mesh.flits.any fun g => match circuitEnt s g.2 with
    | some (a, b, e) => a == x && b == y && e.mask.getLsbD (portNum p) && isHead s g.2 && circuitRoom s a b e g.2
    | none => false

/-- An output gives this mesh cycle to a flit: barriers first, then management, circuits within their budget, then the four classes in
rotation (R234). -/
def granted (s : State) (x y : Nat) (p : Port) (f : Flit) : Bool :=
  let k := outKey x y p
  let l := readyAt s x y p
  let peers := l.filter fun g => g.cls == f.cls
  let last := mget s.mesh.served 3 k
  let turn (c : MClass) : Nat := (classNum c + 7 - last) % 4
  !barrierReady s x y p
  && (f.cls == .management
      || (!(l.any fun g => g.cls == .management)
          && (circuitsSpent s k || !circuitReady s x y p)
          && l.all fun g => turn f.cls ≤ turn g.cls))
  && peers.all fun g => g == f || beats s k f g

/-- The output has served a flit: the next turns go on from it. -/
def noteServed (s : State) (x y : Nat) (p : Port) (f : Flit) : State :=
  let k := outKey x y p
  { s with mesh := { s.mesh with
    served := if f.cls == .management then s.mesh.served else mput s.mesh.served k (classNum f.cls)
    turns := mput s.mesh.turns (8 * k + classNum f.cls) (flitInput f) } }

/-! ### Flit events (R228, R239 to R241, R255, R256) -/

/-- A slot of the end router of a column has come free on the side of its granary port, which goes on there. -/
def afterLeave (s : State) (loc : FlitLoc) : State :=
  match loc with
  | .router x 0 .north => pumpGranary s x true
  | .router x 47 .south => pumpGranary s x false
  | _ => s

/-- A contribution taken straight into the staging of its entry; one of a context that does not run is discarded (R232, R251,
R373). -/
def takeContribution (s : State) (f : Nat) (fl : Flit) : State :=
  let k := ckey fl.dst
  let e := fl.tag.toNat % 32
  let i := fl.tag.toNat / 32 % 8
  let s := s.dropFlit f
  if (live s fl.ctx.toNat fl.dst).isSome then setStaged s k e i (staged s k e i ++ [⟨fl.seq, fl.item⟩]) else s

/-- The credit of a branch taken by its tree entry (R252). -/
def takeBranchCredit (s : State) (f : Nat) (fl : Flit) : State :=
  let s := s.dropFlit f
  if (live s fl.ctx.toNat fl.dst).isSome then
    { s with mesh := { s.mesh with
      branch := mmod s.mesh.branch 0 (8 * (32 * ckey fl.dst + fl.tag.toNat % 32) + fl.tag.toNat / 32 % 8) (· + fl.aux.toNat) } }
  else s

/-- What has no buffer at a router goes straight to its entry: contributions, and the credits of tree entries (R232). -/
def takeDirect (s : State) (f : Nat) (fl : Flit) : Option State :=
  if fl.cls != .collective then none
  else if fl.op == 7 then some (takeContribution s f fl)
  else if fl.op == 1 && fl.tag.getLsbD 11 then some (takeBranchCredit s f fl)
  else none

/-- A throttled tile injects one flit of the class in THROTTLE_GAP mesh cycles (R237). -/
def gapHeld (s : State) (x y : Nat) (cls : MClass) : Bool :=
  let k := 8 * tkey x y + classNum cls
  s.mesh.throttled.contains k &&
    (match mfind s.mesh.injected k with
     | some t => s.clk.root.toNat < t + 3 * cfgField s 0x2270 1 16 8
     | none => false)

/-- A flit enters its router from the tile port. -/
def inject (s : State) (f : Nat) (fl : Flit) (x y : Nat) : State :=
  if !isHead s fl then s
  else
    match takeDirect s f fl with
    | some s => pumpPort s ⟨x, y⟩
    | none =>
      if hasSlot s x y .tile fl && !gapHeld s x y fl.cls then
        let s := s.moveFlit f fl (.router x y .tile)
        let k := 8 * tkey x y + classNum fl.cls
        let s := if s.mesh.throttled.contains k then { s with mesh := { s.mesh with injected := mput s.mesh.injected k s.clk.root.toNat } } else s
        pumpPort s ⟨x, y⟩
      else s

/-- The escape slot of a class at an input port of a physical router is free (R232, R241). -/
def escapeFree (s : State) (x y : Nat) (inp : Port) (cls : MClass) : Bool :=
  !s.mesh.flits.any fun g => g.2.loc == .escape x y inp && g.2.cls == cls

/-- The input port at which a flit from one physical router reaches the next. -/
def physInput (a b : Coord) : Port := if a.x < b.x then .west else if b.x < a.x then .east else if a.y < b.y then .north else .south

/-- A flit in an escape slot goes on along the escape route, or leaves it at its end (R241). -/
def escapeForward (s : State) (f : Nat) (fl : Flit) (x y : Nat) : State :=
  let e := escapeEnd s fl.dst
  if tkey x y = e then
    match takeDirect s f fl with
    | some s => s
    | none =>
      if barrierFlit fl then s.moveFlit f fl (.router fl.dst.x fl.dst.y .tile)
      else if sinkRoom s fl && !heldAt s fl then s.moveFlit f fl .sink
      else s
  else
    let n := keyXY (escapeNext s (tkey x y) e)
    let inp := physInput ⟨x, y⟩ n
    if escapeFree s n.x n.y inp fl.cls then s.moveFlit f fl (.escape n.x n.y inp) else s

/-- Tree children of a router in the barrier tree of its context: east along the row, and in the first column south. -/
def barrierChildren (d : CtxDef) (t : Coord) : List Coord :=
  (if t.x + 1 < d.x0 + d.w then [⟨t.x + 1, t.y⟩] else [])
  ++ (if t.x = d.x0 ∧ t.y + 1 < d.y0 + d.h then [⟨t.x, t.y + 1⟩] else [])

/-- The port that leads to a neighbour. -/
def portToward (a b : Coord) : Port := if a.x < b.x then .east else if b.x < a.x then .west else if a.y < b.y then .south else .north

/-- The place where a flit of a tree waits for its next router: across the hop, or where the hop's link has failed in the router's
escape slot; none where there is no room (R241, R244, R251). -/
def treeHop (s : State) (a b : Coord) (f : Flit) : Option FlitLoc :=
  let p := portToward a b
  if hopDead s a.x a.y p then
    match physOf s (ckey a) with
    | some q => if s.mesh.escape && escapeFree s (physX q) (physRow q) .tile f.cls then some (.escape (physX q) (physRow q) .tile) else none
    | none => none
  else if hopRoom s a.x a.y p f then some (hopTo s a.x a.y p)
  else none

/-- The release at a router: it reaches the router's own tile and is copied to every branch below, once each has room; when it has
reached every tile the barrier is over (R244). -/
def releaseForward (s : State) (f : Nat) (fl : Flit) (x y : Nat) : State :=
  match s.ctx fl.ctx.toNat with
  | none => s.dropFlit f
  | some c =>
    let t : Coord := ⟨x, y⟩
    let hops := (barrierChildren c.cdef t).map fun q => (q, treeHop s t q fl)
    if hops.any fun h => h.2.isNone then s
    else
      let s := hops.foldl (fun s h => s.addFlit { fl with src := t, dst := h.1, loc := h.2.getD .sink }) (s.dropFlit f)
      s.modRun fl.ctx.toNat fun r =>
        let heard := sadd r.heard (ckey t)
        { r with heard := heard, released := r.released || heard.length = c.cdef.w * c.cdef.h }

/-- A flit in an input buffer leaves by its output when it is granted the cycle (R228, R229, R234, R236, R241). -/
def routerForward (s : State) (f : Nat) (fl : Flit) (x y : Nat) : State :=
  let fl := { fl with fallback := fl.fallback || (s.mesh.escape && dorDead s fl.dst 200 x y) }
  let s := s.putFlit f fl
  match readyPort s fl with
  | none => s
  | some p =>
    if granted s x y p fl then
      afterLeave ((noteServed s x y p fl).moveFlit f fl (if leaves fl.dst y p then .sink else hopTo s x y p)) fl.loc
    else s

/-- FLIT_FORWARD: a flit enters its router from the tile port, leaves the seam's FIFO, or moves one hop of its route into a
buffer that has a slot, or to its sink; a release is copied down the barrier tree (R228, R229, R233, R234, R236, R241, R244,
R255, R256). -/
def execFlitForward (f : Nat) (s : State) : Out :=
  match s.flit f with
  | none => .next s
  | some fl =>
    match fl.loc with
    | .sink => .next (if fl.cls == .circuit then s.dropFlit f else s)
    | .port x y => .next (inject s f fl x y)
    | .seam x y inp => .next (if isHead s fl then s.moveFlit f fl (.router x y inp) else s)
    | .escape x y _ => .next (escapeForward s f fl x y)
    | .router x y _ =>
      if barrierFlit fl then .next (if fl.op == 0xA then releaseForward s f fl x y else s)
      else if fl.cls == .circuit then .next s
      else .next (routerForward s f fl x y)

/-! ### Hop checks (R227, R239, R240) -/

/-- Bits 127:32 of a flit's header (R227). -/
def flitHead (f : Flit) : Nat :=
  let poison := b2n (f.item.tagLo || (f.lines[0]?.map (·.poison)).getD false)
    + 2 * b2n (f.item.tagHi || (f.lines[1]?.map (·.poison)).getD false)
  let cls := classNum f.cls
  ((((((((((cls * 2 ^ 4 + f.ctx.toNat) * 2 ^ 4 + f.op.toNat) * 2 ^ 7 + f.dst.x % 128) * 2 ^ 6 + f.dst.y % 64) * 2 ^ 7 + f.src.x % 128) * 2 ^ 6
    + f.src.y % 64) * 2 ^ 5 + f.chan.toNat) * 2 ^ 16 + f.seq.toNat) * 2 ^ 2 + poison) * 2 ^ 8 + f.age.toNat) * 2 ^ 28
    + f.tag.toNat * 2 ^ 16 + f.aux.toNat

/-- The payload of a flit: its lines, or its item. -/
def flitPayload (f : Flit) : Nat :=
  match f.lines with
  | [] => f.item.data.toNat
  | a :: l => a.data.toNat + 2 ^ 512 * (l.headD ⟨0, false⟩).data.toNat

/-- HOP_CRC over header bits 127:32, highest byte first, and the payload in byte order (R227, notes/assumptions/8.md). -/
def hopCrc (head payload : Nat) : Word := crc32 ((toLE 12 head).reverse ++ toLE 128 payload)

/-- A flit on the wire: header in bits 1151:1024, payload below. -/
def flitWire (f : Flit) : BitVec 1152 :=
  BitVec.ofNat 1152 ((flitHead f * 2 ^ 32 + (hopCrc (flitHead f) (flitPayload f)).toNat) * 2 ^ 1024 + flitPayload f)

/-- What arrives of a flit fails its check: HOP_CRC does not match, or CLASS or OP is reserved (R227, R239). -/
def hopFails (w : BitVec 1152) : Bool :=
  let n := w.toNat
  (hopCrc (bits n 1056 96) (bits n 0 1024)).toNat != bits n 1024 32 || 5 < bits n 1149 3 || 13 < bits n 1141 4

/-- The key of a link in the count of resends. -/
def resendKey (l : MeshLink) : Nat := 8 * tkey l.x l.y + portNum l.dir

/-- The far end of a link in its normal form. -/
def linkFar (l : MeshLink) : Nat × Nat := portStep l.dir l.x l.y

/-- A mesh link declared failed: both routers stop using it, it is counted in the quarter of the router that received, reported to the
fence, and recorded in the step of the context it interrupts (R239, R240, R258, R342, R401). -/
def failLink (s : State) (l : MeshLink) (c quarter : Nat) : State :=
  if linkDead s l then s
  else
    let r := linkFar l
    let a := physAt (l.x / 60) l.y (l.x % 60)
    let b := physAt (r.1 / 60) r.2 (r.1 % 60)
    let s := { s with mesh := { s.mesh with failed := s.mesh.failed ++ [l] } }
    let s := s.count quarter fun q => { q with linksFailed := satAdd q.linksFailed 1 255 }
    let s := gazDecided (raise s .meshLinkFailed [l.x, l.y, r.1, r.2])
    let s := addFault s c 0x30 (BitVec.ofNat 64 (l.x * 2 ^ 24 + l.y * 2 ^ 16 + r.1 * 2 ^ 8 + r.2))
    healthInput (healthInput s a .meshLinkFailed) b .meshLinkFailed

/-- FLIT_HOP_NAK: a flit's next hop arrives with some bits wrong; where its check fails the sender resends it, in order, from
the copy it keeps. A third resend of one flit that fails, or more than 64 resends on the link within 2,400,000 mesh cycles,
declare the link failed (R227, R239, R240, R258). -/
def execFlitHopNak (f : Nat) (err : BitVec 1152) (s : State) : Out :=
  match s.flit f with
  | none => .next s
  | some fl =>
    match fl.loc with
    | .router x y _ =>
      match outPort s fl x y with
      | none => .next s
      | some p =>
        if leaves fl.dst y p || !hopFails (flitWire fl ^^^ err) then .next s
        else
          match hopLinks s x y p with
          | [] => .next s
          | l :: _ =>
            let q := portStep p x y
            let quarter := quarterOf s ⟨q.1, q.2⟩
            if 3 ≤ fl.resends then .next (failLink s l fl.ctx.toNat quarter)
            else
              let root := s.clk.root.toNat
              let times := root :: (mget s.mesh.linkResends [] (resendKey l)).filter fun t => root < t + 7200000
              let s := s.count quarter fun n => { n with hopRetries := satAdd n.hopRetries 1 (2 ^ 32 - 1) }
              let s := { s with mesh := { s.mesh with linkResends := mput s.mesh.linkResends (resendKey l) times } }
              let s := s.putFlit f { fl with resends := fl.resends + 1 }
              .next (if 64 < times.length then failLink s l fl.ctx.toNat quarter else s)
    | _ => .next s

/-- ESCAPE_TABLES_LOADED: fallback routing begins (R240). -/
def execEscapeTablesLoaded (s : State) : Out :=
  if s.mesh.failed.isEmpty then .next s else .next { s with mesh := { s.mesh with escape := true } }

/-- FLIT_AGE_TICK: AGE rises by 1 for 16 mesh cycles that a fallback flit waits at a router (R241). -/
def execFlitAgeTick (f : Nat) (s : State) : Out :=
  match s.flit f with
  | none => .next s
  | some fl =>
    if fl.fallback && fl.loc != .sink then
      .next (s.putFlit f { fl with age := if fl.age == 255 then 255 else fl.age + 1, waited := fl.waited + 16 })
    else .next s

/-- ESCAPE_ENTRY: a fallback flit that has waited 64 mesh cycles at a router enters the escape slot of its class at its input port, if
that is free (R232, R241). -/
def execEscapeEntry (f : Nat) (s : State) : Out :=
  match s.flit f with
  | none => .next s
  | some fl =>
    match fl.loc with
    | .router x y inp =>
      match physOf s (tkey x y) with
      | some p =>
        if fl.fallback && 64 ≤ fl.waited && escapeFree s (physX p) (physRow p) inp fl.cls then
          let s := s.count (quarterOf s ⟨x, y⟩) fun n => { n with escapes := satAdd n.escapes 1 255 }
          .next (afterLeave (s.moveFlit f fl (.escape (physX p) (physRow p) inp)) fl.loc)
        else .next s
      | none => .next s
    | _ => .next s

/-! ### Injection throttle (R237) -/

/-- An output of a router holds a flit of a class without a downstream credit. -/
def outputBlocked (s : State) (t : Coord) (cls : MClass) : Bool :=
  s.mesh.flits.any fun g => g.2.cls == cls &&
    (match g.2.loc with
     | .router x y _ =>
       x == t.x && y == t.y &&
         (match outPort s g.2 x y with
          | some p => !outRoomFor s x y p g.2
          | none => true)
     | _ => false)

/-- INJECTION_THROTTLE_ONSET: an output has been blocked in a class for CONGEST_THRESHOLD mesh cycles (R237, R238). -/
def execInjectionThrottleOnset (t : Coord) (cls : MClass) (s : State) : Out :=
  let k := 8 * ckey t + classNum cls
  if !rootStopped s && bitAt (cfgInForce s 0x2270 1).toNat 31 && classNum cls < 3 && !s.mesh.throttled.contains k && outputBlocked s t cls then
    let s := { s with mesh := { s.mesh with throttled := sadd s.mesh.throttled k, injected := mdel s.mesh.injected k } }
    .next (s.count (quarterOf s t) fun n => { n with throttles := satAdd n.throttles 1 65535 })
  else .next s

/-- INJECTION_THROTTLE_LIFT: no output has been blocked in the class for 256 mesh cycles (R237). -/
def execInjectionThrottleLift (t : Coord) (cls : MClass) (s : State) : Out :=
  if rootStopped s || outputBlocked s t cls then .next s
  else .next { s with mesh := { s.mesh with throttled := sdel s.mesh.throttled (8 * ckey t + classNum cls) } }

/-- The flits of a packet that have reached their sink, in order, when all of them have: the earliest of each index. -/
def wholePacket (s : State) (f : Flit) : Option (List (Nat × Flit)) :=
  let l := s.mesh.flits.filter fun g =>
    g.2.loc == .sink && g.2.cls == .management && g.2.op == f.op && g.2.src == f.src && g.2.dst == f.dst && g.2.ctx == f.ctx
  let at_ (i : Nat) : Option (Nat × Flit) :=
    (l.filter fun g => g.2.seq.toNat = i).foldl (fun (b : Option (Nat × Flit)) g =>
      match b with
      | some h => if h.2.stamp ≤ g.2.stamp then b else some g
      | none => some g) none
  let p := (List.range (max 1 f.len)).filterMap at_
  if p.length = max 1 f.len then some p else none

/-- MANAGEMENT_PACKET_ACCEPT: the sink takes a packet that has come whole; the report of a tile goes on to the wait-graph engine
(R208, R243). -/
def execManagementPacketAccept (f : Nat) (s : State) : Out :=
  match s.arrived f with
  | some fl =>
    if fl.cls == .management then
      match wholePacket s fl with
      | none => .next s
      | some p =>
        let s := p.foldl (fun s g => s.dropFlit g.1) s
        match live s fl.ctx.toNat fl.src with
        | some _ =>
          .next (s.modRec fl.ctx.toNat fun r => { r with reports := r.reports ++ [(ckey fl.src, p.flatMap fun g => g.2.edges)] })
        | none => .next s
    else .next s
  | none => .next s

/-! ### Barriers (R244) -/

/-- A tile has arrived at the end of its section or step; a tile without a program always has. -/
def tileArrived (s : State) (k : Nat) : Bool :=
  match (s.tile k).core.run with
  | .stepEnd => true
  | .secEnd => true
  | .off => true
  | _ => false

/-- The parent of a router in the barrier tree of its context: west along the row, and in the first column north; the north-west
tile has none. -/
def barrierParent (d : CtxDef) (t : Coord) : Option Coord :=
  if d.x0 < t.x then some ⟨t.x - 1, t.y⟩ else if d.y0 < t.y then some ⟨t.x, t.y - 1⟩ else none

/-- The arrive flit of a child that has reached a router. -/
def arriveOf (s : State) (c : Nat) (t q : Coord) : Option Nat :=
  (s.mesh.flits.find? fun g => barrierFlit g.2 && g.2.op == 9 && g.2.ctx.toNat == c && g.2.src == q && g.2.dst == t &&
    (match g.2.loc with
     | .router x y _ => x == t.x && y == t.y
     | _ => false)).map (·.1)

/-- BARRIER_ARRIVE: a router whose tile has arrived and which holds the arrive flit of every child forwards one combined arrive to its
parent, when that has room for it; at the north-west tile all have arrived (R244). -/
def execBarrierArrive (t : Coord) (s : State) : Out :=
  match ctxAt s t with
  | none => .next s
  | some (c, x) =>
    let kids := (barrierChildren x.cdef t).map (arriveOf s c t)
    if x.rec_.state != 1 || rootStopped s || !tileArrived s (ckey t) || x.run.arrived.contains (ckey t) || kids.any (·.isNone) then .next s
    else
      let done (s : State) : State :=
        ((kids.filterMap id).foldl State.dropFlit s).modRun c fun r => { r with arrived := sadd r.arrived (ckey t) }
      match barrierParent x.cdef t with
      | none => .next (done s)
      | some q =>
        let fl : Flit := { cls := .management, ctx := BitVec.ofNat 4 c, op := 9, dst := q, src := t }
        match treeHop s t q fl with
        | some l => .next ((done s).addFlit { fl with loc := l })
        | none => .next s

/-- The barriers of a context span the hall: it is linked, and not one being admitted (R316, R322). -/
def hallBarrier (s : State) (c : Nat) (x : Ctx) : Bool := x.cdef.linked && !admitting s c

/-- The release of a barrier starts at the north-west tile (R244). -/
def startRelease (s : State) (c : Nat) (d : CtxDef) : State :=
  let t : Coord := ⟨d.x0, d.y0⟩
  (s.modRun c fun r => { r with releasing := true, heard := [] }).addFlit
    { cls := .management, ctx := BitVec.ofNat 4 c, op := 0xA, dst := t, src := t, loc := .router d.x0 d.y0 .tile }

/-- BARRIER_RELEASE: once the north-west tile has arrived, the release starts down the tree (R244); the release of a barrier across
modules comes from the hall (R316). -/
def execBarrierRelease (c : Nat) (s : State) : Out :=
  match s.ctx c with
  | none => .next s
  | some x =>
    if !rootStopped s && x.run.arrived.contains (tkey x.cdef.x0 x.cdef.y0) && !x.run.releasing && !hallBarrier s c x then
      .next (startRelease s c x.cdef)
    else .next s

/-! ### Circuits (R246) -/

/-- CIRCUIT_ENABLE: the entries of a circuit are written and enabled in every router it passes (R246). -/
def execCircuitEnable (n : BitVec 3) (path : List CircuitHop) (s : State) : Out :=
  .next { s with mesh := { s.mesh with circuits := path.foldl (fun m h =>
    mput m (8 * ckey h.at_ + n.toNat) ⟨h.inp, h.mask, true⟩) s.mesh.circuits } }

/-- An output gives this mesh cycle to a circuit flit: no barrier or management flit is ready, and circuits keep within their
budget where another class is (R234). -/
def circuitGranted (s : State) (x y : Nat) (p : Port) : Bool :=
  let l := readyAt s x y p
  !barrierReady s x y p && !(l.any fun g => g.cls == .management) && (l.isEmpty || !circuitsSpent s (outKey x y p))

/-- CIRCUIT_FLIT_COPY: a circuit flit is copied to every port of its entry's mask, when each has room and gives it the cycle (R234,
R246). -/
def execCircuitFlitCopy (f : Nat) (s : State) : Out :=
  match s.flit f with
  | none => .next s
  | some fl =>
    match circuitEnt s fl with
    | none => .next s
    | some (x, y, e) =>
      let ps := maskPorts e.mask
      if isHead s fl && circuitRoom s x y e fl && ps.all (circuitGranted s x y) then
        .next (ps.foldl (fun s p =>
          let k := outKey x y p
          let root := s.clk.root.toNat
          let s := { s with mesh := { s.mesh with
            circuitSends := mput s.mesh.circuitSends k (root :: (mget s.mesh.circuitSends [] k).filter fun t => root < t + 24) } }
          s.addFlit { fl with loc := if p == .tile then .sink else hopTo s x y p, dst := if p == .tile then ⟨x, y⟩ else fl.dst })
          (s.dropFlit f))
      else .next s

/-! ### In-network reduction (R248 to R253, R542) -/

/-- The entry and input that an output port of an entry leads to. -/
def redNext (s : State) (x y : Nat) (e : DWord) (port : Nat) : Nat × Nat × Nat :=
  let q := ((match port with
    | 0 => Port.north
    | 1 => Port.south
    | 2 => Port.east
    | _ => Port.west) : Port)
  let q := portStep q x y
  let f := redEntry s (tkey q.1 q.2) (rNext e)
  (tkey q.1 q.2, rNext e, if rType f == 2 then 0 else rNextIn e)

/-- The flit by which an entry gives an item to an output: a result for the tile's inbound channel, or a contribution that names the
entry and input downstream (R227). -/
def redFlit (s : State) (c : BitVec 4) (x y : Nat) (e : DWord) (port : Nat) (i : Staged) : Flit :=
  let f : Flit := { cls := .collective, ctx := c, op := 8, dst := ⟨x, y⟩, src := ⟨x, y⟩, seq := i.seq, item := i.item }
  if port == 4 then { f with chan := BitVec.ofNat 5 (rInbound (s.tile (tkey x y)) e) }
  else
    match redNext s x y e port with
    | (k, n, inp) => { f with op := 7, dst := keyXY k, tag := BitVec.ofNat 12 (n + 32 * inp) }

/-- An output of an entry can take an item: the tile whose port has room, or a router with a free staging slot that the hop or
the escape route leads to (R241, R251, R255). -/
def redRoom (s : State) (x y : Nat) (e : DWord) (port : Nat) : Bool :=
  let f := redFlit s 0 x y e port ⟨0, {}⟩
  if port == 4 then sinkRoom s f && !heldAt s f
  else
    match redNext s x y e port with
    | (k, n, i) => 0 < stagingFree s k n i && (treeHop s ⟨x, y⟩ (keyXY k) f).isSome

/-- An item given to an output of an entry: to the tile's port, or straight into the staging downstream; where the link has failed it
takes the escape route there (R232, R241, R251). -/
def redGive (s : State) (c : BitVec 4) (x y : Nat) (e : DWord) (port : Nat) (i : Staged) : State :=
  let f := redFlit s c x y e port i
  if port == 4 then s.addFlit f
  else
    match redNext s x y e port, treeHop s ⟨x, y⟩ f.dst f with
    | _, some (.escape a b inp) =>
      (s.count (quarterOf s ⟨x, y⟩) fun n => { n with escapes := satAdd n.escapes 1 255 }).addFlit { f with loc := .escape a b inp, fallback := true }
    | (k, n, inp), _ => setStaged s k n inp (staged s k n inp ++ [i])

/-- The combination of two items by the OP of an entry (R250). -/
def redOp (op : Nat) (a b : VecData) : VecData :=
  ofLanes (((lanes a).zip (lanes b)).map fun p =>
    match op with
    | 0 => (f32Add p.1 p.2).1
    | 1 => f32Pick true p.1 p.2
    | _ => p.1 + p.2)

/-- The heads of an entry's inputs, when every input has one and all carry one SEQ. -/
def redHeads (s : State) (k n : Nat) (ins : Nat) : Option (List Staged) :=
  let hs := (List.range ins).map fun i => (staged s k n i).head?
  let l := hs.filterMap id
  if l.length = ins && (l.all fun h => some h.seq == l.head?.map (·.seq)) then some l else none

/-- The heads of an entry's inputs removed. -/
def redPop (s : State) (k n ins : Nat) : State :=
  (List.range ins).foldl (fun s i => setStaged s k n i ((staged s k n i).drop 1)) s

/-- REDUCE_COMBINE: the items of one SEQ from every input are combined in fixed order; an addition or maximum of poison is a
consumption, and a one-input entry forwards its item (R250, R253). -/
def execReduceCombine (t : Coord) (e : BitVec 5) (s : State) : Out :=
  match steerLive s t with
  | none => .next s
  | some (c, _) =>
    let k := ckey t
    let w := redEntry s k e.toNat
    let ins := (rInputs w).length
    if rType w != 1 || ins = 0 || !redRoom s t.x t.y w (rOut w) then .next s
    else
      match redHeads s k e.toNat ins with
      | none => .next s
      | some [] => .next s
      | some (h :: hs) =>
        if !hs.isEmpty && (h :: hs).any fun i => i.item.tagged then .next (takeExc s t 8 0 false (4 * 2 ^ 26 + e.toNat))
        else
          let v := hs.foldl (fun a i => redOp (rOp w) a i.item.data) h.item.data
          .next (redGive (redPop s k e.toNat ins) (BitVec.ofNat 4 c) t.x t.y w (rOut w) ⟨h.seq, { h.item with data := v }⟩)

/-- BCAST_COPY: an item of IN0 is copied to every port of OUT_MASK (R252). -/
def execBcastCopy (t : Coord) (e : BitVec 5) (s : State) : Out :=
  match steerLive s t with
  | none => .next s
  | some (c, _) =>
    let k := ckey t
    let w := redEntry s k e.toNat
    match rType w, (staged s k e.toNat 0).head? with
    | 2, some i =>
      if (rOuts w).all (redRoom s t.x t.y w) then
        .next ((rOuts w).foldl (fun s p => redGive s (BitVec.ofNat 4 c) t.x t.y w p i) (redPop s k e.toNat 1))
      else .next s
    | _, _ => .next s
where
  /-- Output ports of a BCAST entry. -/
  rOuts (w : DWord) : List Nat := (List.range 5).filter (rMask w)

/-- Credits for every tile that feeds an entry through a tree of REDUCE entries: a flit from its router to each, for the
outbound channel that feeds this tree (R252). -/
def creditContributors (s : State) (c : Nat) (fuel : Nat) (u : Coord) (n : Nat) (m : Nat) : State :=
  (contributors s fuel u.x u.y n).dedup.foldl (fun s q =>
    s.addFlit { cls := .collective, ctx := BitVec.ofNat 4 c, op := 1, dst := keyXY q.1, src := u, chan := BitVec.ofNat 5 q.2
                aux := BitVec.ofNat 16 m, loc := .router u.x u.y .tile }) s

/-- The port of a code of R248. -/
def codePort (code : Nat) : Port :=
  match code with
  | 0 => .north
  | 1 => .south
  | 2 => .east
  | 3 => .west
  | _ => .tile

/-- BCAST_CREDIT: a credit passes upstream once every branch below has returned one, to the entry above or to the tile that
feeds the tree (R252). -/
def execBcastCredit (t : Coord) (e : BitVec 5) (s : State) : Out :=
  match steerLive s t with
  | none => .next s
  | some (c, x) =>
    let k := ckey t
    let w := redEntry s k e.toNat
    let key (p : Nat) : Nat := 8 * (32 * k + e.toNat) + p
    let ports := (List.range 5).filter (rMask w)
    match rType w, (ports.map fun p => mget s.mesh.branch 0 (key p)).min? with
    | 2, some n =>
      let taken : State := { s with mesh := { s.mesh with branch := ports.foldl (fun m p => mmod m 0 (key p) (· - n)) s.mesh.branch } }
      let fl : Flit := { cls := .collective, ctx := BitVec.ofNat 4 c, op := 1, dst := t, src := t, chan := BitVec.ofNat 5 (rTileCh w)
                         aux := BitVec.ofNat 16 n }
      if n = 0 then .next s
      else if rIn w 0 = 4 then .next (if sinkRoom s fl && !heldAt s fl then taken.addFlit fl else s)
      else
        let q := codePort (rIn w 0)
        let up := portStep q t.x t.y
        let u : Coord := ⟨up.1, up.2⟩
        let facing := portNum (portFacing q)
        match (List.range 32).find? fun m =>
            let v := redEntry s (ckey u) m
            rNext v == e.toNat && (if rType v == 1 then rOut v == facing else rType v == 2 && rMask v facing) with
        | none => .next s
        | some m =>
          let fl := { fl with dst := u, chan := 0, tag := BitVec.ofNat 12 (2 ^ 11 + 32 * facing + m) }
          match treeHop s t u fl with
          | none => .next s
          | some l =>
            if rType (redEntry s (ckey u) m) == 1 then .next (creditContributors taken c (x.cdef.w * x.cdef.h + 1) u m n)
            else
              match l with
              | .escape a b inp => .next (taken.addFlit { fl with loc := .escape a b inp, fallback := true })
              | _ => .next { taken with mesh := { taken.mesh with
                  branch := mmod taken.mesh.branch 0 (8 * (32 * ckey u + m) + facing) (· + n) } }
    | _, _ => .next s

end Sys2Proof.Machine
end

