-- ==== Sys2Proof/Machine/CollOps.lean ====
section
/-! DEFINITION. Ordered collectives: the members of a collective, its pieces of 1 KiB, what a member sends, and what it makes
of a piece (R317 to R319, R322, R402). Notes/assumptions/22.md names what the rules leave open of a chunk's header. -/

namespace Sys2Proof.Machine

/-- A piece of a collective: 1 KiB (R317). -/
abbrev Piece := BitVec 8192

/-- The combination of two pieces (R250, R317). -/
def pieceOp (op : Nat) (a b : Piece) : Piece :=
  BitVec.ofNat 8192 ((List.range 8).foldl (fun n i =>
    n + (redOp op (BitVec.ofNat 1024 (bits a.toNat (1024 * i) 1024)) (BitVec.ofNat 1024 (bits b.toNat (1024 * i) 1024))).toNat
      * 2 ^ (1024 * i)) 0)

/-! ### Members (R312, R318) -/

/-- Pieces of a collective. -/
def CollEnt.pieces (e : CollEnt) : Nat := e.bytes / 1024

/-- Used dimensions with more than one member, in ascending order; a tree is one stage over all its levels. -/
def collDims (s : State) (e : CollEnt) : List Nat :=
  if isTree s then [0] else (List.range 4).filter fun d => e.dims.getLsbD d && 1 < dimSize s d

/-- Position of this module in a dimension. -/
def ownPos (s : State) (d : Nat) : Nat := coordDim (ownCoord s) d

/-- A coordinate with one dimension changed. -/
def withDim (c d v : Nat) : Nat := c - coordDim c d * 2 ^ (5 * d) + v * 2 ^ (5 * d)

/-- The neighbour one higher in a dimension. -/
def plusOf (s : State) (d : Nat) : Nat := withDim (ownCoord s) d ((ownPos s d + 1) % dimSize s d)

/-- The neighbour one lower in a dimension. -/
def minusOf (s : State) (d : Nat) : Nat := withDim (ownCoord s) d (ownPos s d - 1)

/-- The parent of this module in a tree. -/
def treeParent (s : State) : Nat := withDim (ownCoord s) (nodeDepth (ownCoord s) - 1) 0

/-- Children of this module in a tree, by index. -/
def treeChildren (s : State) : List Nat :=
  let k := nodeDepth (ownCoord s)
  if k < treeDepth s then (List.range (dimSize s k)).map (· + 1) else []

/-- The coordinate of a child. -/
def treeChild (s : State) (i : Nat) : Nat := withDim (ownCoord s) (nodeDepth (ownCoord s)) i

/-- Every coordinate of a tree, the root first, in order of their D0, D1, D2 and D3. -/
def treeMembers (s : State) : Nat → Nat → List Nat
  | 0, c => [c]
  | n + 1, c =>
    let k := treeDepth s - (n + 1)
    c :: (List.range (dimSize s k)).flatMap fun i => treeMembers s n (withDim c k (i + 1))

/-- Number of members of a collective, and the number of this member among them. -/
def memberIndex (s : State) (e : CollEnt) : Nat × Nat :=
  if isTree s then
    let l := treeMembers s (treeDepth s) 0
    (l.length, l.findIdx (· == ownCoord s))
  else
    (collDims s e).foldl (fun a d => (a.1 * dimSize s d, a.2 + ownPos s d * a.1)) (1, 0)

/-! ### Regions and chunks (R318) -/

/-- First piece and number of pieces of chunk `c` of `n` of a region. -/
def chunkOf (b l n c : Nat) : Nat × Nat := (b + c * l / n, (c + 1) * l / n - c * l / n)

/-- The chunk of `n` of a region that holds a piece. -/
def chunkNum (b l n q : Nat) : Nat := ((List.range n).find? fun c => q < b + (c + 1) * l / n).getD 0

/-- The region that a stage of a reduction works on at this member: all of it, or what earlier stages of a reduce-scatter left
here. -/
def stageRegion (s : State) (e : CollEnt) (t : Nat) : Nat × Nat :=
  if e.kind == 1 then
    if isTree s then (0, e.pieces)
    else ((collDims s e).take t).foldl (fun r d => chunkOf r.1 r.2 (dimSize s d) (ownPos s d)) (0, e.pieces)
  else (0, e.pieces)

/-- The pieces that a reduction leaves at this member. -/
def ownRegion (s : State) (e : CollEnt) : Nat × Nat :=
  if e.kind == 1 then
    if isTree s then chunkOf 0 e.pieces (memberIndex s e).1 (memberIndex s e).2
    else stageRegion s e (collDims s e).length
  else (0, e.pieces)

/-- The block of pieces that a gather or a broadcast takes from this member. -/
def ownBlock (s : State) (e : CollEnt) : Nat × Nat :=
  let m := memberIndex s e
  if e.kind == 2 then chunkOf 0 e.pieces m.1 m.2
  else if isTree s then (if e.source.toNat == ownCoord s then (0, e.pieces) else (0, 0))
  else if (collDims s e).all fun d => coordDim e.source.toNat d == ownPos s d then (0, e.pieces) else (0, 0)

/-- Position in a dimension of the member a gathered piece comes from. -/
def originPos (s : State) (e : CollEnt) (t q : Nat) : Nat :=
  let ds := collDims s e
  let d := ds.getD t 0
  if e.kind == 3 then coordDim e.source.toNat d
  else
    let m := (memberIndex s e).1
    let i := chunkNum 0 e.pieces m q
    i / ((ds.take t).foldl (fun a u => a * dimSize s u) 1) % dimSize s d

/-- Arrivals of a stage of a reduction at this member: operands, and results. -/
def stageNeeds (s : State) (e : CollEnt) (t : Nat) : Nat × Nat :=
  let d := (collDims s e).getD t 0
  let n := dimSize s d
  let r := stageRegion s e t
  let i := ownPos s d
  (if dimWrap s d then r.2 - (chunkOf r.1 r.2 n ((i + n - 1) % n)).2 else if i = 0 then 0 else r.2,
   if dimWrap s d then (if e.kind == 0 then r.2 - (chunkOf r.1 r.2 n i).2 else 0) else if i + 1 = n then 0 else r.2)

/-- Arrivals that end a collective at this member. -/
def collExpected (s : State) (e : CollEnt) : Nat :=
  if e.kind.toNat < 2 then
    if isTree s then
      e.pieces * ((treeChildren s).length + (if nodeDepth (ownCoord s) = 0 then 0 else 1))
    else ((List.range (collDims s e).length).map fun t => (stageNeeds s e t).1 + (stageNeeds s e t).2).sum
  else e.pieces - (ownBlock s e).2

/-! ### Sending and storing -/

/-- The entry of the image's table. -/
def collEntry (x : Ctx) (c : Coll) : Option CollEnt := x.cdef.colls[c.entry.toNat]?

/-- Physical offset of memory range 0. -/
def CtxDef.range0 (d : CtxDef) : Nat := (d.ranges.getD 0 (0, 0)).1

/-- A piece of SRC as the engine reads it, and whether it carries poison. -/
def srcPiece (s : State) (errs : List LineCheck) (d : CtxDef) (e : CollEnt) (q : Nat) : State × Piece × Bool :=
  match linesRead s errs (d.range0 + e.src + 1024 * q) 0 16 with
  | (s, ls) => (s, BitVec.ofNat 8192 (((List.range 16).zip ls).foldl (fun n l => n + l.2.data.toNat * 2 ^ (512 * l.1)) 0),
      ls.any (·.poison))

/-- The lines of a piece, all poisoned or none. -/
def pieceLines (v : Piece) (p : Bool) : List Line :=
  (List.range 16).map fun i => ⟨BitVec.ofNat 512 (bits v.toNat (512 * i) 512), p⟩

/-- A chunk sent to a neighbour on the plane of its page (R306, R313, R317). -/
def sendPiece (s : State) (d : CtxDef) (n : Nat) (e : CollEnt) (dest stage phase q : Nat) (v : Piece) (p : Bool) : State :=
  let south := 8 ≤ stripeOf (d.range0 + e.dst + 1024 * q)
  let pk := plainPacket 5 d.job dest (ownCoord s) 0 (1024 * q) 16 (2 * stage + phase) 0
  let pk := packetCarry { pk with collId := BitVec.ofNat 16 (1024 * n + q % 1024) } (pieceLines v p)
  (sendPacket s south d.slotMask pk).getD s

/-- A line that a collective engine writes to DST, hashed under its entry (R402, R404, R407). -/
def digestColl (s : State) (c n a : Nat) (l : Line) : State :=
  match s.ctx c with
  | none => s
  | some x =>
    if digestsOn x && !l.poison then
      let id : Word := BitVec.ofNat 32 (0xFFFFFF00 + n)
      let norm := normAddr s x.cdef a
      let h := lineHash norm id l.data
      let f := x.run.focus.toNat
      s.modTally c fun y =>
        { y with
          entries := mergeEntry y.entries { tensor := id, lines := 1, digest := h }
          focus := if bitAt f 63 && bits f 59 4 == c && bits f 0 32 == id.toNat
            then mmod y.focus 0 (bits norm.toNat 10 12) (· + h) else y.focus }
    else s

/-- Lines written to DST and hashed; a write to a lost stripe resets the context as for a consumption (R270). -/
def writeDst (s : State) (errs : List LineCheck) (c n a : Nat) (ls : List Line) : State :=
  let lost := spanLost s a (64 * ls.length)
  let s := storeRows errs 64 s a ls
  let s := ((List.range ls.length).zip ls).foldl (fun s l => if s.lostAt (a + 64 * l.1) then s else digestColl s c n (a + 64 * l.1) l.2) s
  if lost then stopCtx s c 5 none [] else s

/-- A piece written to DST: a reduce-scatter leaves its own region at the start of DST. -/
def storePiece (s : State) (errs : List LineCheck) (c : Nat) (d : CtxDef) (n : Nat) (e : CollEnt) (q : Nat) (v : Piece) (p : Bool) :
    State :=
  let r := ownRegion s e
  if r.1 ≤ q && q < r.1 + r.2 then
    writeDst s errs c n (d.range0 + e.dst + 1024 * (q - (if e.kind == 1 then r.1 else 0))) (pieceLines v p)
  else s

/-- A collective changed. -/
def modColl (s : State) (c n : Nat) (f : Coll → Coll) : State :=
  { s with hall := { s.hall with
      colls := s.hall.colls.map fun k => if k.ctx.toNat == c && k.entry.toNat == n then f k else k } }

/-- Key of the input of a stage. -/
def workKey (t q : Nat) : Nat := t * 2 ^ 32 + q

/-- This member starts the chunk that holds a piece in a stage of a reduction. -/
def initiates (s : State) (e : CollEnt) (t q : Nat) : Bool :=
  let d := (collDims s e).getD t 0
  let n := dimSize s d
  let r := stageRegion s e t
  if dimWrap s d then ownPos s d == (chunkNum r.1 r.2 n q + 1) % n else ownPos s d == 0

/-- The result of a stage for a piece at this member: the input of the next stage, which this member may start, or DST. -/
def stageResult (s : State) (errs : List LineCheck) (c : Nat) (d : CtxDef) (n : Nat) (e : CollEnt) (t q : Nat) (v : Piece) : State :=
  let ds := collDims s e
  let nx := stageRegion s e (t + 1)
  if t + 1 < ds.length then
    if nx.1 ≤ q && q < nx.1 + nx.2 then
      let s := modColl s c n fun k => { k with work := mput k.work (workKey (t + 1) q) v }
      if initiates s e (t + 1) q then sendPiece s d n e (plusOf s (ds.getD (t + 1) 0)) (t + 1) 0 q v false else s
    else s
  else storePiece s errs c d n e q v false

/-- The owner of a stage's result gives it on: round a ring for an all-reduce, back along a chain (R318). -/
def shareResult (s : State) (d : CtxDef) (n : Nat) (e : CollEnt) (t q : Nat) (v : Piece) : State :=
  let u := (collDims s e).getD t 0
  if dimWrap s u then (if e.kind == 0 then sendPiece s d n e (plusOf s u) t 1 q v false else s)
  else sendPiece s d n e (minusOf s u) t 1 q v false

/-- A gathered or broadcast piece goes on along every dimension after the one it came by. -/
def spread (s : State) (d : CtxDef) (n : Nat) (e : CollEnt) (from_ q : Nat) (v : Piece) (p : Bool) : State :=
  let ds := collDims s e
  ((List.range ds.length).filter fun t => from_ ≤ t).foldl (fun s t =>
    let u := ds.getD t 0
    let s := if dimWrap s u || ownPos s u + 1 < dimSize s u then sendPiece s d n e (plusOf s u) t 1 q v p else s
    if !dimWrap s u && 0 < ownPos s u then sendPiece s d n e (minusOf s u) t 1 q v p else s) s

/-- The tree neighbours of this module: its parent and its children. -/
def treeNeighbours (s : State) : List Nat :=
  (if nodeDepth (ownCoord s) = 0 then [] else [treeParent s]) ++ (treeChildren s).map (treeChild s)

/-- A piece sent to every tree neighbour but one. -/
def treeFlood (s : State) (d : CtxDef) (n : Nat) (e : CollEnt) (but q : Nat) (v : Piece) (p : Bool) : State :=
  ((treeNeighbours s).filter fun m => m != but).foldl (fun s m => sendPiece s d n e m 0 1 q v p) s

/-- The result of a tree reduction at a node, given on to its children. -/
def treeResult (s : State) (errs : List LineCheck) (c : Nat) (d : CtxDef) (n : Nat) (e : CollEnt) (q : Nat) (v : Piece) (p : Bool) : State :=
  (treeChildren s).foldl (fun s i => sendPiece s d n e (treeChild s i) 0 1 q v p) (storePiece s errs c d n e q v p)

/-- A node's own contribution, with those of all its children in ascending index, goes up, or is the root's result. -/
def treeUp (s : State) (errs : List LineCheck) (c : Nat) (d : CtxDef) (n : Nat) (e : CollEnt) (q : Nat) (v : Piece) (p : Bool) :
    State :=
  if nodeDepth (ownCoord s) = 0 then treeResult s errs c d n e q v p
  else sendPiece s d n e (treeParent s) 0 0 q v p

/-- An operand that would be combined carries poison: it is consumed and the context reset (R285, R319). -/
def collPoison (s : State) (c : Nat) : State := stopCtx (raise s .collectivePoison [c]) c 5 none []

/-- What this member does of itself with a piece when a collective starts. A member that combines nothing passes poison on
(R319). -/
def startPiece (s : State) (errs : List LineCheck) (c : Nat) (d : CtxDef) (n : Nat) (e : CollEnt) (q : Nat) : State :=
  let reduces := e.kind.toNat < 2
  let b := ownBlock s e
  if reduces then
    match srcPiece s errs d e q with
    | (s, v, p) =>
      if (collDims s e).isEmpty then storePiece s errs c d n e q v p
      else if isTree s then (if (treeChildren s).isEmpty then treeUp s errs c d n e q v p else s)
      else if initiates s e 0 q then sendPiece s d n e (plusOf s ((collDims s e).getD 0 0)) 0 0 q v p
      else s
  else if b.1 ≤ q && q < b.1 + b.2 then
    match srcPiece s errs d e (q - (if e.kind == 2 then b.1 else 0)) with
    | (s, v, p) =>
      let s := storePiece s errs c d n e q v p
      if isTree s then treeFlood s d n e (ownCoord s) q v p else spread s d n e 0 q v p
  else s

/-- The context replays a step of an admission (R322). -/
def replaying (s : State) (c : Nat) : Bool := s.hall.admCtx.toNat == c && s.hall.admState == 2

/-- A linked context runs a step again after a recovery (R386). -/
def rerunning (x : Ctx) : Bool :=
  x.cdef.linked && x.tally.attempts.any fun p => p.1 == x.run.step && 2 ≤ p.2

/-- The nearest member of a collective. -/
def nearestMember (s : State) (e : CollEnt) : Nat :=
  if isTree s then (treeNeighbours s).headD (ownCoord s)
  else
    match collDims s e with
    | [] => ownCoord s
    | d :: _ => if dimWrap s d || ownPos s d + 1 < dimSize s d then plusOf s d else minusOf s d

/-- A page of memory requested from another member: an outbound remote transaction, which holds an entry of the context's share in the
granary of the stripe it asks (R275, R306, R322, R386). -/
def copyFromMember (s : State) (c : Nat) (d : CtxDef) (n donor from_ dst len : Nat) : State :=
  let north := stripeOf from_ < 8
  let p (x : Nat) : Packet := plainPacket 0 d.job donor (ownCoord s) 0 from_ (len / 64) x (epochOf s c).toNat
  let r := addTxn s
    { kind := .collCopy, ctx := BitVec.ofNat 4 c, epoch := epochOf s c, north := north, src := ⟨0, 0⟩, tag := 0
      addr := BitVec.ofNat 64 dst, len := len, lines := [], done := 0, order := 0, packet := some (p 0), link := n }
  (sendPacket r.2 (!north) d.slotMask (p r.1)).getD r.2

/-- A page of DST requested from another member at the same offset (R322, R386). -/
def copyDstPage (s : State) (c : Nat) (d : CtxDef) (n donor : Nat) (e : CollEnt) (i : Nat) : State :=
  let a := d.range0 + e.dst + 4096 * i
  copyFromMember s c d n donor a a (min 4096 (e.bytes - 4096 * i))

/-- Number that stands for the copy of an admission's versioned range among the collectives of a context. -/
def admCopy : Nat := 64

/-- Pieces of 4 KiB of the versioned range. -/
def admPieces (d : CtxDef) : Nat := (d.verW + 4095) / 4096

/-- The next piece of the donor's slot is requested, as the share has room, for slot 0 of this module (R322). -/
def admStepCopy (c : Nat) (d : CtxDef) (slot : Nat) (s : State) : State :=
  let i := s.hall.admNext
  let a := d.slotBase slot + 4096 * i
  if i < admPieces d && entriesUsed s c (stripeOf a < 8) < d.share then
    copyFromMember { s with hall := { s.hall with admNext := i + 1 } } c d admCopy s.hall.admDonor.toNat a (d.slotBase 0 + 4096 * i)
      (min 4096 (d.verW - 4096 * i))
  else s

/-- The copy of the donor's version goes on (R322). -/
def pumpAdm (s : State) : State :=
  let c := s.hall.admCtx.toNat
  match s.ctx c, s.hall.admSlot with
  | some x, some slot =>
    if s.hall.admState == 1 then (List.range x.cdef.share).foldl (fun s _ => admStepCopy c x.cdef slot s) s else s
  | _, _ => s

/-- Pages still to be requested by a collective of a context are requested in order, as far as the share has room. -/
def pumpColl (s : State) (k : Coll) : State :=
  let c := k.ctx.toNat
  match s.ctx c with
  | none => s
  | some x =>
    match x.cdef.colls[k.entry.toNat]? with
    | none => s
    | some e =>
      k.copyLeft.foldl (fun s i =>
        if entriesUsed s c (stripeOf (x.cdef.range0 + e.dst + 4096 * i) < 8) < x.cdef.share then
          modColl (copyDstPage s c x.cdef k.entry.toNat k.copyFrom e i) c k.entry.toNat fun k => { k with copyLeft := k.copyLeft.erase i }
        else s) s

/-- Every copy with pages to request. -/
def pumpCopies (s : State) : State := (s.hall.colls.filter fun k => !k.copyLeft.isEmpty).foldl pumpColl (pumpAdm s)

/-- A collective starts at the end of its starting section: every member begins with its own pieces. A replay of an admission
copies DST from the donor and sends nothing else; a re-run sends its chunks again and copies DST from the nearest member
(R317, R322, R386). -/
def startColl (s : State) (errs : List LineCheck) (c n : Nat) : State :=
  match s.ctx c with
  | none => s
  | some x =>
    match x.cdef.colls[n]? with
    | none => s
    | some e =>
      let re := replaying s c
      let again := rerunning x
      let k : Coll :=
        { ctx := BitVec.ofNat 4 c, entry := BitVec.ofNat 6 n, replay := re || again, heard := timerStart s x.cdef.job, seen := [], work := [], staged := []
          copyLeft := if re || again then List.range ((e.bytes + 4095) / 4096) else []
          copyFrom := if re then s.hall.admDonor.toNat else nearestMember s e }
      let s := { s with hall := { s.hall with
        colls := (s.hall.colls.filter fun k => !(k.ctx.toNat == c && k.entry.toNat == n)) ++ [k] } }
      pumpCopies (if re then s else (List.range e.pieces).foldl (fun s q => startPiece s errs c x.cdef n e q) s)

/-- A collective is complete at this module (R317). -/
def collDone (s : State) (x : Ctx) (k : Coll) : Bool :=
  if k.replay then
    k.copyLeft.isEmpty && !(s.mem.txns.any fun t => t.2.kind == .collCopy && t.2.ctx == k.ctx && t.2.link == k.entry.toNat)
  else
    match collEntry x k with
    | some e => k.seen.length == collExpected s e
    | none => true

/-- No collective that a section waits for is in progress (R317). -/
def sectionFree (s : State) (c : Nat) (x : Ctx) (sec : Nat) : Bool :=
  s.hall.colls.all fun k =>
    k.ctx.toNat != c || collDone s x k ||
      (match collEntry x k with
       | some e => e.waitSec != sec
       | none => true)

end Sys2Proof.Machine
end

