-- ==== Sys2Proof/Machine/Image.lean ====
section
/-! DEFINITION. The program image and its loader: the header, the tables, the records of a section, what the loader refuses and
at which offset, and how a section's records become the tables of a tile (R34, R159, R161, R187, R189, R194, R200, R201, R203,
R220, R248, R249, R317, R338, R404, R538 to R542). An image is read through a function from an offset and a length to the
little-endian number there. -/

namespace Sys2Proof.Machine

/-- A reader of an image. -/
abbrev Rd := Nat → Nat → Nat

/-- The image that stands at a local offset. -/
def imgRd (s : State) (base : Nat) : Rd := fun off n => leNat (cellRead s.mem.data (base + off) n)

/-- The first offset whose check fails. -/
def firstBad (l : List (Bool × Nat)) : Option Nat := (l.find? fun e => !e.1).map (·.2)

/-! ### Header (R538) -/

def imLength (r : Rd) : Nat := r 0x10 8
def imSections (r : Rd) : Nat := r 0x18 2
def imBlocks (r : Rd) : Nat := r 0x1A 2
def imTensors (r : Rd) : Nat := r 0x1C 2
def imColls (r : Rd) : Nat := r 0x1E 1
def imSecTab (r : Rd) : Nat := r 0x20 8
def imCodeTab (r : Rd) : Nat := r 0x28 8
def imTenTab (r : Rd) : Nat := r 0x30 8
def imCollTab (r : Rd) : Nat := r 0x38 8
def imSpillBase (r : Rd) : Nat := r 0x40 8
def imSpillSize (r : Rd) : Nat := r 0x48 4
def imScaleBase (r : Rd) : Nat := r 0x50 8
def imCluster (r : Rd) : Bool := bitAt (r 0x0A 2) 0
def imAdmissible (r : Rd) : Bool := bitAt (r 0x0A 2) 1

/-- A table of `n` entries of `size` bytes stands at its offset inside the image; with no entries the offset is 0. -/
def tableOk (len off n size : Nat) : Bool :=
  if n = 0 then off == 0 else off % 8 == 0 && 256 ≤ off && off + n * size ≤ len

/-- What the loader expects of an image: the grid in force in its encoding, the plots of the grid and of the rectangle, the
memory region, and the longest run of tile cycles between fallow points that the fallow interval allows. -/
structure LoadCtx where
  grid : Nat
  gridPlots : Nat
  plotsW : Nat
  plotsH : Nat
  regionLen : Nat
  range0 : Nat
  gapLimit : Nat
  dims : List Nat

/-- The checks of the header, field by field. -/
def headerChecks (k : LoadCtx) (r : Rd) : List (Bool × Nat) :=
  let len := imLength r
  [ (r 0 4 == 0x4F565049, 0), (r 4 2 == 1, 4), (r 6 1 == 2, 6), (r 7 1 == k.grid, 7)
  , (r 8 1 == k.plotsW && r 8 1 ≤ k.gridPlots, 8), (r 9 1 == k.plotsH && r 9 1 ≤ 6, 9)
  , (r 0x0A 2 < 4, 0x0A), (r 0x0C 4 == 0, 0x0C), (256 ≤ len && len ≤ k.regionLen && len ≤ 2 ^ 35, 0x10)
  , (if imCluster r then imSections r == 0 else 1 ≤ imSections r && imSections r ≤ 4096, 0x18)
  , (!imCluster r || imBlocks r == 0, 0x1A), (imTensors r ≤ 4096, 0x1C), (imColls r ≤ 64, 0x1E), (r 0x1F 1 == 0, 0x1F)
  , (tableOk len (imSecTab r) (imSections r) 32, 0x20), (tableOk len (imCodeTab r) (imBlocks r) 16, 0x28)
  , (tableOk len (imTenTab r) (imTensors r) 8, 0x30), (tableOk len (imCollTab r) (imColls r) 48, 0x38)
  , (imSpillBase r % 4096 == 0 && (imSpillSize r != 0 || imSpillBase r == 0), 0x40)
  , (imSpillSize r % 4096 == 0 && imSpillSize r ≤ 2 ^ 20, 0x48), (r 0x4C 4 == 0, 0x4C), (imScaleBase r % 1024 == 0, 0x50)
  , (if imCluster r then r 0x58 8 % 8 == 0 && 256 ≤ r 0x58 8 else r 0x58 8 == 0, 0x58)
  , (if imCluster r then r 0x58 8 + r 0x60 8 ≤ len else r 0x60 8 == 0, 0x60), (r 0x68 152 == 0, 0x68) ]

/-! ### Tables (R539) -/

/-- Entry `i` of a table. -/
def entOff (tab size i : Nat) : Nat := tab + size * i

/-- The checks of the section table (R201, R220, R338, R539). -/
def sectionChecks (k : LoadCtx) (r : Rd) : List (Bool × Nat) :=
  (List.range (imSections r)).flatMap fun i =>
    let o := entOff (imSecTab r) 32 i
    [ (tableOk (imLength r) (r o 8) (64 * k.plotsW * k.plotsH) 712, o), (r (o + 8) 4 ≤ k.gapLimit, o + 8)
    , (tableOk (imLength r) (r (o + 0x10) 8) (r (o + 0x0C) 4) 8, o + 0x10), (r (o + 0x18) 8 == 0, o + 0x18) ]

/-- The checks of the code table (R539). -/
def codeChecks (r : Rd) : List (Bool × Nat) :=
  (List.range (imBlocks r)).flatMap fun i =>
    let o := entOff (imCodeTab r) 16 i
    let n := r (o + 8) 4
    [ (r o 8 % 8 == 0 && 256 ≤ r o 8 && r o 8 + n ≤ imLength r, o), (4 ≤ n && n ≤ 28672 && n % 4 == 0, o + 8)
    , (r (o + 12) 4 == 0, o + 12) ]

/-- The tensor of entry `i` of the tensor table. -/
def imTensor (r : Rd) (i : Nat) : TensorDecl :=
  let o := entOff (imTenTab r) 8 i
  { id := BitVec.ofNat 32 (r o 4), first := r (o + 4) 2, delayed := bitAt (r (o + 6) 2) 0 }

/-- The declared tensors. -/
def imTensorList (r : Rd) : List TensorDecl := (List.range (imTensors r)).map (imTensor r)

/-- The checks of the tensor table (R404, R539, R541). -/
def tensorChecks (r : Rd) : List (Bool × Nat) :=
  ((List.range (imTensors r)).flatMap fun i =>
    let o := entOff (imTenTab r) 8 i
    [ (r o 4 < 0xFFFFFF00 && (i == 0 || r (o - 8) 4 < r o 4), o), (r (o + 4) 2 < imSections r || imCluster r, o + 4)
    , (r (o + 6) 2 < 2, o + 6) ])
  ++ [(decide (((imTensorList r).filter (·.delayed)).length ≤ 64), imTenTab r)]

/-- Entry `e` of the collective table. -/
def imColl (r : Rd) (e : Nat) : CollEnt :=
  let o := entOff (imCollTab r) 48 e
  { op := BitVec.ofNat 8 (r o 1), kind := BitVec.ofNat 8 (r (o + 1) 1), dims := BitVec.ofNat 8 (r (o + 2) 1)
    source := BitVec.ofNat 20 (r (o + 4) 4), startSec := r (o + 8) 2, waitSec := r (o + 0x0A) 2, src := r (o + 0x10) 8
    dst := r (o + 0x18) 8, bytes := r (o + 0x20) 8 }

/-- The collective entries. -/
def imCollList (r : Rd) : List CollEnt := (List.range (imColls r)).map (imColl r)

/-- The checks of the collective table (R317, R539): BYTES is a multiple of n × 64 KiB for every used dimension of size n, and
SRC and DST lie in range 0. -/
def collChecks (k : LoadCtx) (r : Rd) : List (Bool × Nat) :=
  (List.range (imColls r)).flatMap fun e =>
    let o := entOff (imCollTab r) 48 e
    let c := imColl r e
    let used := (List.range 4).filter fun d => c.dims.getLsbD d
    [ (c.op.toNat ≤ 2, o), (c.kind.toNat ≤ 3, o + 1), (c.dims.toNat < 16, o + 2), (r (o + 3) 1 == 0, o + 3)
    , (r (o + 4) 4 < 2 ^ 20 && (c.kind == 3 || r (o + 4) 4 == 0), o + 4)
    , (c.startSec < imSections r || imCluster r, o + 8), (c.waitSec < imSections r || imCluster r, o + 0x0A)
    , (r (o + 0x0C) 4 == 0, o + 0x0C), (c.src + c.bytes ≤ k.range0, o + 0x10), (c.dst + c.bytes ≤ k.range0, o + 0x18)
    , (c.bytes % 65536 == 0 && used.all (fun d => c.bytes % (k.dims.getD d 1 * 65536) == 0), o + 0x20)
    , (r (o + 0x28) 8 == 0, o + 0x28) ]

/-! ### Records of a section (R201, R539) -/

/-- Offset of the record of the tile at a relative coordinate in a section. -/
def recOff (r : Rd) (w sec x y : Nat) : Nat := r (entOff (imSecTab r) 32 sec) 8 + 712 * (y * w + x)

/-- The code block number of a record, none where it names no block. -/
def recCode (r : Rd) (o : Nat) : Option Nat := if r o 4 == 0xFFFFFFFF then none else some (r o 4)

/-- Fields of a record. -/
def recEntry (r : Rd) (o : Nat) : Nat := r (o + 4) 2
def recHandle (r : Rd) (o i : Nat) : DWord := BitVec.ofNat 64 (r (o + 8 + 8 * i) 8)
def recChan (r : Rd) (o ch : Nat) : DWord := BitVec.ofNat 64 (r (o + 0x88 + 8 * ch) 8)
def recSteer (r : Rd) (o u : Nat) : DWord := BitVec.ofNat 64 (r (o + 0x188 + 8 * u) 8)
def recSender (r : Rd) (o i : Nat) : Nat := r (o + 0x1A8 + 2 * i) 2
def recDelay (r : Rd) (o i : Nat) : Nat := r (o + 0x1C8 + 4 * i) 4

/-- Instructions of a code block. -/
def blockLenOf (r : Rd) (b : Nat) : Nat := r (entOff (imCodeTab r) 16 b + 8) 4 / 4

/-- The words of a code block. -/
def blockWords (r : Rd) (b : Nat) : List Word :=
  let o := r (entOff (imCodeTab r) 16 b) 8
  (List.range (blockLenOf r b)).map fun i => BitVec.ofNat 32 (r (o + 4 * i) 4)

/-- The code field and entry index (R201). -/
def codeOk (r : Rd) (o : Nat) : Bool :=
  match recCode r o with
  | none => true
  | some b => b < imBlocks r && 1024 ≤ recEntry r o && recEntry r o ≤ 1023 + blockLenOf r b

/-! ### Handle tables (R161) -/

/-- Physical lines of a handle as rows of its banks: two handles map one line in common. -/
def handlesClash (a b : DWord) : Bool :=
  (List.range (hLen a)).any fun i =>
    let p := hPhys a + 8 * (i / hWays a) + i % hWays a
    hPhys b % 8 ≤ p % 8 && p % 8 < hPhys b % 8 + hWays b && hPhys b / 8 ≤ p / 8
      && (p / 8 - hPhys b / 8) * hWays b + (p % 8 - hPhys b % 8) < hLen b

/-- A used entry by itself. -/
def handleOk (h : DWord) : Bool :=
  hBase h + hLen h ≤ 4096 && hPhys h % 8 % hWays h == 0 && hPhys h / 8 + (hLen h + hWays h - 1) / hWays h - 1 ≤ 511
  && !(hKeep h && hZero h)

/-- The handle table of a record, each entry against those before it. -/
def handleChecks (r : Rd) (o : Nat) : List (Bool × Nat) :=
  (List.range 16).map fun i =>
    let h := recHandle r o i
    let before := ((List.range i).map (recHandle r o)).filter fun g => hLen g != 0
    (bits h.toNat 0 23 == 0 && (hLen h == 0 || (handleOk h
      && before.all fun g => (hBase g + hLen g ≤ hBase h || hBase h + hLen h ≤ hBase g) && !handlesClash g h)), o + 8 + 8 * i)

/-! ### Channel tables (R189, R542) -/

/-- Inbound entry. -/
def chIn (e : DWord) : Bool := chUsed e && !chOut e

/-- A span of logical bin lines lies in one used handle. -/
def inOneHandle (r : Rd) (o l n : Nat) : Bool :=
  (List.range 16).any fun i =>
    let h := recHandle r o i
    hLen h != 0 && hBase h ≤ l && l + n ≤ hBase h + hLen h

/-- Lines of a tile that a section's data list declares as data. -/
def dataSpans (r : Rd) (sec x y : Nat) : List (Nat × Nat) :=
  let e := entOff (imSecTab r) 32 sec
  (List.range (r (e + 0x0C) 4)).filterMap fun i =>
    let o := r (e + 0x10) 8 + 8 * i
    if r o 1 == x && r (o + 1) 1 == y then some (r (o + 2) 2, r (o + 4) 2) else none

/-- The checks of a channel entry against its own table and that of its peer; a local channel and its peer have one WIDTH
(notes/assumptions/96.md). -/
def chanOkAt (r : Rd) (w h sec x y ch : Nat) : Bool :=
  let o := recOff r w sec x y
  let e := recChan r o ch
  let spillers := ((List.range 32).map (recChan r o)).filter fun f => chIn f && chSpillMem f
  bits e.toNat 0 9 == 0 &&
  (!chUsed e ||
    (chKind e ≤ 2
      && (if chOut e then chDepth e == 0 else 1 ≤ chDepth e && chDepth e ≤ 64)
      && (!chWide e || chSpillLines e % 2 == 0)
      && (match chKind e with
          | 0 => chPeerX e < w && chPeerY e < h
          | 1 => if chOut e then chWide e && chPeerX e < w && chPeerY e < h
                 else chWide e && chPeerX e == 0 && chPeerY e == 0 && chPeerCh e == 0
          | _ => chPeerX e == 0 && chPeerY e == 0)
      && (if chOut e && chKind e == 0 then
            let f := recChan r (recOff r w sec (chPeerX e) (chPeerY e)) (chPeerCh e)
            chIn f && chKind f == 0 && chWide f == chWide e && chPeerX f == x && chPeerY f == y && chPeerCh f == ch
          else if chOut e && chKind e == 2 then
            let f := recChan r o (chPeerCh e)
            chIn f && chKind f == 2 && chWide f == chWide e
          else true)
      && (chKind e != 1 || (chSpillLines e == 0 && !chSpillMem e))
      && (chOut e || chSpillLines e == 0
          || (inOneHandle r o (chSpillLine e) (chSpillLines e)
            && (dataSpans r sec x y).all (fun d => d.1 + d.2 ≤ chSpillLine e || chSpillLine e + chSpillLines e ≤ d.1)
            && (List.range ch).all fun c =>
                let f := recChan r o c
                !(chIn f) || chSpillLines f == 0 || chSpillLine f + chSpillLines f ≤ chSpillLine e
                  || chSpillLine e + chSpillLines e ≤ chSpillLine f))
      && (chOut e || !chSpillMem e || spillers.length ≤ imSpillSize r / 4096)))

/-- The channel table of a record. -/
def chanChecks (r : Rd) (w h sec x y : Nat) : List (Bool × Nat) :=
  let o := recOff r w sec x y
  let depth := (((List.range 32).map (recChan r o)).filter chIn).foldl (fun a e => a + chDepth e) 0
  (depth ≤ 64, o + 0x88) :: (List.range 32).map fun ch => (chanOkAt r w h sec x y ch, o + 0x88 + 8 * ch)

/-! ### Steering entries (R194) -/

/-- An inbound channel of a record. -/
def steerIn (r : Rd) (o ch : Nat) (wide : Bool) : Bool := chIn (recChan r o ch) && chWide (recChan r o ch) == wide

/-- An output of a steering unit: an outbound channel, or an inbound local one. -/
def steerOut (r : Rd) (o ch : Nat) (wide : Bool) : Bool :=
  let e := recChan r o ch
  chUsed e && (chOut e || chKind e == 2) && chWide e == wide

/-- A steering entry by itself. -/
def steerOk (r : Rd) (o : Nat) (e : DWord) : Bool :=
  let wide := chWide (recChan r o (stIn0 e))
  bits e.toNat 0 37 == 0 &&
    (match stMode e with
     | 0 => true
     | 1 => steerIn r o (stTok e) false && steerIn r o (stIn0 e) wide && stIn1 e == 0 && steerOut r o (stOut0 e) wide
              && steerOut r o (stOut1 e) wide
     | 2 => steerIn r o (stTok e) false && steerIn r o (stIn0 e) wide && steerIn r o (stIn1 e) wide
              && steerOut r o (stOut0 e) wide && stOut1 e == 0
     | _ => false)

/-- The steering entries of a record; no channel serves two units or roles. -/
def steerChecks (r : Rd) (o : Nat) : List (Bool × Nat) :=
  (List.range 4).map fun u =>
    let e := recSteer r o u
    let before := (List.range u).flatMap fun v => stChans (recSteer r o v)
    (steerOk r o e && (stChans e).length == (stChans e).dedup.length && (stChans e).all (fun c => !before.contains c),
      o + 0x188 + 8 * u)

/-! ### Senders (R75) -/

/-- The declared senders of a record: bit 14 is zero, and a used entry names a tile of the rectangle. -/
def senderChecks (r : Rd) (w h o : Nat) : List (Bool × Nat) :=
  (List.range 16).map fun i =>
    let e := recSender r o i
    (!bitAt e 14 && (!bitAt e 15 || (bits e 0 7 < w && bits e 7 7 < h)), o + 0x1A8 + 2 * i)

/-! ### Reduction tables (R248, R249, R542) -/

/-- Reduction tables of a section by 128 * y + x, relative. -/
abbrev Reds := List (Nat × List DWord)

/-- Entry `e` of a table. -/
def redAt (t : Reds) (x y e : Nat) : DWord :=
  match t.find? fun p => p.1 == tkey x y with
  | some p => p.2.getD e redUnused
  | none => redUnused

/-- The neighbour across a port by its code, inside a rectangle. -/
def across (w h x y code : Nat) : Option (Nat × Nat) :=
  match code with
  | 0 => if 0 < y then some (x, y - 1) else none
  | 1 => if y + 1 < h then some (x, y + 1) else none
  | 2 => if x + 1 < w then some (x + 1, y) else none
  | 3 => if 0 < x then some (x - 1, y) else none
  | _ => none

/-- The port that faces a port. -/
def facing (code : Nat) : Nat := if code % 2 == 0 then code + 1 else code - 1

/-- Output ports of an entry, by code. -/
def rOuts (e : DWord) : List Nat :=
  match rType e with
  | 1 => [rOut e]
  | 2 => (List.range 5).filter (rMask e)
  | _ => []

/-- The inputs in force of an entry. -/
def rIns (e : DWord) : List Nat := if rType e == 2 then (rInputs e).take 1 else rInputs e

/-- The downstream entry across a port: its place and number. -/
def rDown (w h x y : Nat) (e : DWord) (port : Nat) : Option (Nat × Nat × Nat) :=
  (across w h x y port).map fun n => (n.1, n.2, rNext e)

/-- An entry by itself and against what is up and down of it. -/
def redOkAt (t : Reds) (r : Rd) (w h sec x y n : Nat) : Bool :=
  let e := redAt t x y n
  let o := recOff r w sec x y
  let ins := rIns e
  let red (ch : Nat) (out : Bool) : Bool :=
    let c := recChan r o ch
    chUsed c && chKind c == 1 && chWide c && chOut c == out
  let code (n : Nat) : Bool := n ≤ 4 || n == 7
  let ranges := rType e ≤ 2 && rOp e ≤ 2 && (rType e != 2 || rOp e == 0) && bits e.toNat 0 24 == 0
    && (List.range 5).all (fun i => code (rIn e i)) && code (rOut e) && rNextIn e ≤ 4
  if rType e == 0 then ranges
  else
    ranges
    && (((List.range 5).map (rIn e)).dropWhile fun c => c != 7).all (· == 7)
    && !ins.isEmpty && ins.length == ins.dedup.length
    && (rType e == 2 || rOut e ≤ 4)
    && ((List.range ins.length).zip ins).all (fun p =>
        p.2 == 4 ||
          (match across w h x y p.2 with
           | none => false
           | some q =>
             ((List.range 32).filter fun m =>
               let u := redAt t q.1 q.2 m
               (rOuts u).contains (facing p.2) && rNext u == n && (rType e == 2 || rNextIn u == p.1)).length == 1))
    && (rOuts e).all (fun port =>
        port == 4 ||
          (match rDown w h x y e port with
           | none => false
           | some d =>
             let f := redAt t d.1 d.2.1 d.2.2
             rType f != 0 && (if rType f == 2 then (rIns f).headD 7 else (rIns f).getD (rNextIn e) 7) == facing port))
    && (if rFromTile e then
          red (rTileCh e) true &&
            (!rToTile e ||
              (red (chPeerCh (recChan r o (rTileCh e))) false && chPeerX (recChan r o (rTileCh e)) == x
                && chPeerY (recChan r o (rTileCh e)) == y))
        else !rToTile e || red (rTileCh e) false)

/-- No path of `fuel` entries leads from an entry back to one: its tree is finite. -/
def redFinite (t : Reds) (w h : Nat) : Nat → Nat → Nat → Nat → Bool
  | 0, _, _, _ => false
  | fuel + 1, x, y, n =>
    let e := redAt t x y n
    (rOuts e).all fun port =>
      match rDown w h x y e port with
      | some d => redFinite t w h fuel d.1 d.2.1 d.2.2
      | none => true

/-- The inbound channel through which an entry of a tile gives to it. -/
def redGives (r : Rd) (o : Nat) (e : DWord) : Nat := if rFromTile e then chPeerCh (recChan r o (rTileCh e)) else rTileCh e

/-- Every reduction channel of a tile is named by exactly one entry (R249). -/
def redChannels (t : Reds) (r : Rd) (w sec x y : Nat) : Bool :=
  let o := recOff r w sec x y
  let es := (List.range 32).map (redAt t x y)
  (List.range 32).all fun ch =>
    let c := recChan r o ch
    !(chUsed c && chKind c == 1) ||
      (if chOut c then (es.filter fun e => rType e != 0 && rFromTile e && rTileCh e == ch).length == 1
       else (es.filter fun e => rType e != 0 && rToTile e && redGives r o e == ch).length == 1)

/-- The reduction checks of a tile. The tables have no offset in the image, so the record's offset is named. -/
def redChecks (t : Reds) (r : Rd) (w h sec x y : Nat) : List (Bool × Nat) :=
  let o := recOff r w sec x y
  let total := (t.map fun p => p.2.length).foldl (· + ·) 0
  [((List.range 32).all (fun n => redOkAt t r w h sec x y n && redFinite t w h (total + 1) x y n) && redChannels t r w sec x y, o)]

/-! ### Whole checks -/

/-- The checks of a section's records, tile by tile in ascending y, then x. -/
def recordChecks (t : Reds) (r : Rd) (w h sec : Nat) : List (Bool × Nat) :=
  (List.range (w * h)).flatMap fun i =>
    let x := i % w
    let y := i / w
    let o := recOff r w sec x y
    [(codeOk r o, o), (r (o + 6) 2 == 0, o + 6)] ++ handleChecks r o ++ chanChecks r w h sec x y ++ steerChecks r o
      ++ senderChecks r w h o ++ redChecks t r w h sec x y

/-- The data list of a section: each entry names a tile of the rectangle and bin lines, and its reserved bytes are zero (R539,
R541). -/
def dataChecks (k : LoadCtx) (r : Rd) (sec : Nat) : List (Bool × Nat) :=
  let e := entOff (imSecTab r) 32 sec
  (List.range (r (e + 0x0C) 4)).flatMap fun i =>
    let o := r (e + 0x10) 8 + 8 * i
    [(r o 1 < 8 * k.plotsW, o), (r (o + 1) 1 < 8 * k.plotsH, o + 1), (r (o + 2) 2 + r (o + 4) 2 ≤ 4096, o + 2), (r (o + 6) 2 == 0, o + 6)]

/-- What an image is refused for in a record of any section: a code block or entry index that R201 forbids, and reserved bits that are
not zero (R187, R194, R201, R541). -/
def recordShape (r : Rd) (w sec x y : Nat) : List (Bool × Nat) :=
  let o := recOff r w sec x y
  [(codeOk r o, o), (r (o + 6) 2 == 0, o + 6)]
  ++ ((List.range 16).map fun i => (bits (recHandle r o i).toNat 0 23 == 0, o + 8 + 8 * i))
  ++ ((List.range 32).map fun i => (bits (recChan r o i).toNat 0 9 == 0, o + 0x88 + 8 * i))
  ++ ((List.range 4).map fun i => (bits (recSteer r o i).toNat 0 37 == 0, o + 0x188 + 8 * i))
  ++ (List.range 16).map fun i => (!bitAt (recSender r o i) 14, o + 0x1A8 + 2 * i)

/-- The data lists and records of every section. -/
def shapeChecks (k : LoadCtx) (r : Rd) : List (Bool × Nat) :=
  (List.range (imSections r)).flatMap fun sec =>
    dataChecks k r sec ++ (List.range (64 * k.plotsW * k.plotsH)).flatMap fun i =>
      recordShape r (8 * k.plotsW) sec (i % (8 * k.plotsW)) (i / (8 * k.plotsW))

/-- The first offset at which the loader refuses an image: its header, its tables, and the shape of its data lists and records
(R541). -/
def imageBad (k : LoadCtx) (r : Rd) : Option Nat :=
  match firstBad (headerChecks k r) with
  | some o => some o
  | none =>
    match firstBad (sectionChecks k r ++ codeChecks r ++ tensorChecks r ++ collChecks k r) with
    | some o => some o
    | none => firstBad (shapeChecks k r)

/-- The first offset at which the loader refuses a section. -/
def sectionBad (t : Reds) (r : Rd) (w h sec : Nat) : Option Nat := firstBad (recordChecks t r w h sec)

/-! ### Loading (R45, R89, R181, R190, R203) -/

/-- Reduction tables of a context as the routers hold them, relative to its rectangle. -/
def heldReds (s : State) (d : CtxDef) : Reds :=
  d.tiles.map fun c => (tkey (c.x - d.x0) (c.y - d.y0), (List.range 32).map fun e => redEntry s (ckey c) e)

/-- The reduction tables of a section written to the routers of a context, with empty staging. -/
def putReds (s : State) (d : CtxDef) (t : Reds) : State :=
  let keys := d.keys
  let own (k : Nat) : Bool := keys.contains k
  let old := s.mesh.reduce.filter fun e => !own (e.1 / 32)
  let new := d.tiles.foldl (fun m c =>
    (List.range 32).foldl (fun m e => mset m redUnused (32 * ckey c + e) (redAt t (c.x - d.x0) (c.y - d.y0) e)) m) old
  { s with mesh := { s.mesh with
      reduce := new
      staging := s.mesh.staging.filter fun e => !own (e.1 / 8 / 32)
      branch := s.mesh.branch.filter fun e => !own (e.1 / 8 / 32) } }

/-- The routers of the two circuits of a section load in the columns of a context: from the north granary port down to the last row of
the rectangle, and from the south port up to its first, each giving to the tiles on the way (R247). -/
def loadHops (d : CtxDef) : List (Coord × Bool × CircuitEnt) :=
  (List.range 48).flatMap fun y => (List.range d.w).flatMap fun i =>
    let tile : Nat := if d.y0 ≤ y && y < d.y0 + d.h then 16 else 0
    let at_ : Coord := ⟨d.x0 + i, y⟩
    (if y < d.y0 + d.h then
      [(at_, false, ⟨.north, BitVec.ofNat 5 (tile + if y + 1 < d.y0 + d.h then 2 else 0), true⟩)] else [])
    ++ (if d.y0 ≤ y then [(at_, true, ⟨.south, BitVec.ofNat 5 (tile + if d.y0 < y then 1 else 0), true⟩)] else [])

/-- The first pair of circuit numbers that no router of some columns uses. -/
def freeCircuits (s : State) (d : CtxDef) : Option Nat :=
  [0, 2, 4, 6].find? fun n => !s.mesh.circuits.any fun e =>
    (e.1 % 8 = n || e.1 % 8 = n + 1) && d.x0 ≤ e.1 / 8 % 128 && e.1 / 8 % 128 < d.x0 + d.w

/-- The circuits of a section load set up (R247). -/
def setLoadCircuits (s : State) (c : Nat) (d : CtxDef) : State :=
  match if d.cluster then none else freeCircuits s d with
  | none => s
  | some n =>
    let l := (loadHops d).map fun h => (8 * ckey h.1 + n + b2n h.2.1, h.2.2)
    let m := if s.mesh.circuits.isEmpty then l else l.foldl (fun m e => mput m e.1 e.2) s.mesh.circuits
    ({ s with mesh := { s.mesh with circuits := m } } : State).modRun c fun r => { r with loadCircuit := some n }

/-- The circuits of a section load torn down (R247). -/
def dropLoadCircuits (s : State) (c : Nat) (d : CtxDef) : State :=
  match (s.ctx c).bind (·.run.loadCircuit) with
  | none => s
  | some n =>
    ({ s with mesh := { s.mesh with circuits := s.mesh.circuits.filter fun e =>
        !((e.1 % 8 = n || e.1 % 8 = n + 1) && d.x0 ≤ e.1 / 8 % 128 && e.1 / 8 % 128 < d.x0 + d.w) } } : State).modRun c fun r =>
      { r with loadCircuit := none }

/-- The smallest capacity among the inbound channels that a tree delivers to from an entry on (R251, R252). -/
def treeCap (t : Reds) (r : Rd) (w h sec : Nat) : Nat → Nat → Nat → Nat → Nat
  | 0, _, _, _ => 2048
  | fuel + 1, x, y, n =>
    let e := redAt t x y n
    (rOuts e).foldl (fun a port =>
      min a (
        if port == 4 then
          let o := recOff r w sec x y
          chCap (recChan r o (redGives r o e))
        else
          match rDown w h x y e port with
          | some d => treeCap t r w h sec fuel d.1 d.2.1 d.2.2
          | none => 2048)) 2048

/-- Credits an outbound channel starts with: the item positions of the inbound channels it leads to. -/
def firstCredits (t : Reds) (r : Rd) (w h sec x y ch : Nat) : Nat :=
  let o := recOff r w sec x y
  let e := recChan r o ch
  match chKind e with
  | 0 => chCap (recChan r (recOff r w sec (chPeerX e) (chPeerY e)) (chPeerCh e))
  | 1 =>
    match (List.range 32).find? fun n => rType (redAt t x y n) != 0 && rFromTile (redAt t x y n) && rTileCh (redAt t x y n) == ch with
    | some n => treeCap t r w h sec (32 * w * h + 1) x y n
    | none => 0
  | _ => 0

/-- A bank in which a used handle maps a line. -/
def bankMapped (hs : List DWord) (k : Nat) : Bool :=
  hs.any fun h => hLen h != 0 && hPhys h % 8 ≤ k && k < hPhys h % 8 + min (hWays h) (hLen h)

/-- Handles of a record. -/
def recHandles (r : Rd) (o : Nat) : List DWord := (List.range 16).map (recHandle r o)

/-- Banks without mapped lines gated, their contents lost (R181, R203 part 1). -/
def gateBin (hs : List DWord) (b : Bin) : Bin :=
  (List.range 8).foldl (fun b k =>
    if bankMapped hs k then b else { b.zeroBank k with gated := b.gated ||| (1#8 <<< k) }) b

/-- A tile whose next section load gates the banks that the section's handles do not map, where GATE_ENABLE is set (R180, R181). -/
def gateTile (s : State) (d : CtxDef) (sec : Nat) (p : Coord) (t : Tile) : Tile :=
  let r := imgRd s d.imgBase
  if bitAt (cfgInForce s 0x2250 1).toNat 31 && !d.cluster then
    { t with bin := gateBin (recHandles r (recOff r d.w sec (p.x - d.x0) (p.y - d.y0))) t.bin }
  else t

/-- Gated banks that the section maps ungated and zero-filled, and ZERO lines filled (R181, R203 part 3). -/
def fillBin (hs : List DWord) (b : Bin) : Bin :=
  let b := (List.range 8).foldl (fun (b : Bin) k =>
    if bankMapped hs k && b.gated.getLsbD k then { b.zeroBank k with gated := b.gated &&& ~~~(1#8 <<< k) } else b) b
  (hs.filter fun h => hLen h != 0 && hZero h).foldl (fun b h =>
    (List.range (hLen h)).foldl (fun b i =>
      match hMap h (hBase h + i) with
      | some p => b.zeroLine p
      | none => b) b) b

/-- Nonzero entries of a list as a table by index. -/
def asTable (l : List DWord) : AMap DWord := ((List.range l.length).zip l).filter fun e => e.2 != 0

/-! ### Delayed scaling at a load (R148 to R151, R540) -/

/-- The place of a declared delayed tensor among them, in table order (R539). -/
def delayIndex (d : CtxDef) (id : Word) : Option Nat := (d.tensors.filter (·.delayed)).findIdx? fun e => e.id == id

/-- Offset in a view of the scale record of delayed tensor `j` (R540). -/
def CtxDef.scaleRec (d : CtxDef) (j : Nat) : Nat := d.scaleBase + 1024 * j

/-- The amax values of a scale record at a physical offset: none where it counts as V = 0 under a history length (R151). -/
def scaleHist (s : State) (a hist : Nat) : List Word :=
  let v := leNat (cellRead s.mem.data a 4)
  if leNat (cellRead s.mem.data (a + 4) 4) != hist then []
  else (List.range (min v 128)).map fun i => BitVec.ofNat 32 (leNat (cellRead s.mem.data (a + 16 + 4 * i) 4))

/-- HISTORY_LEN in force for a context (R153). -/
def historyLen (x : Ctx) : Nat := bits x.run.numerics.toNat 12 8

/-- Physical offset of the scale record of tensor `j` in the newest committed version. -/
def newestScale (s : State) (d : CtxDef) (j : Nat) : Nat := d.slotBase (verRec s d).newest + d.scaleRec j

/-- The largest amax of a tensor's history in the newest committed version, none in cold start (R149, R151). -/
def delayHist (s : State) (x : Ctx) (id : Word) : Option Word :=
  match delayIndex x.cdef id with
  | none => none
  | some j =>
    if !x.cdef.versioned || x.run.histClear then none
    else
      match scaleHist s (newestScale s x.cdef j) (historyLen x) with
      | [] => none
      | a :: l => some (l.foldl (fun m v => if m.toNat < v.toNat then v else m) a)

/-- Delayed scaling is in force for a context (R148). -/
def delayedOn (x : Ctx) : Bool := bitAt x.run.numerics.toNat 4

/-- A scale record of some tensors, read in the newest committed version, delivers poison (R152, R284). -/
def delayPoison (s : State) (x : Ctx) (ids : List Word) : Bool :=
  x.cdef.versioned && delayedOn x && ids.any fun id =>
    match delayIndex x.cdef id with
    | none => false
    | some j => spanPoisoned s (newestScale s x.cdef j) 528

/-- The tensors that a load adds to a tile's delayed-scaling table: those of the record that the image declares delayed and the
tile does not hold. -/
def newDelays (d : CtxDef) (r : Rd) (o : Nat) (old : List DelayEnt) : List Word :=
  ((List.range 64).map fun i => BitVec.ofNat 32 (recDelay r o i)).dedup.filter fun id =>
    (d.tensors.any fun e => e.id == id && e.delayed) && !(old.any fun e => e.tensor == id)

/-- The delayed-scaling table of a tile after a load: the tensors that the load adds, and those the tile already holds, with their
running amax. -/
def loadDelays (hist : Word → Option Word) (d : CtxDef) (r : Rd) (o : Nat) (old : List DelayEnt) : List DelayEnt :=
  old ++ (newDelays d r o old).map fun id => { tensor := id, hist := hist id, amax := 0 }

/-- The tile after its record is loaded: tables, code and the state of R45 and R89 (R201, R203). -/
def loadRecord (hist : Word → Option Word) (t : Reds) (r : Rd) (d : CtxDef) (sec x y : Nat) (run : RunState) (tl : Tile) : Tile :=
  let o := recOff r d.w sec x y
  let cs := (List.range 32).map (recChan r o)
  let hs := recHandles r o
  { tl with
    core := { pc := BitVec.ofNat 13 (if (recCode r o).isSome then recEntry r o else 0)
              run := if (recCode r o).isSome then run else .off
              halted := tl.core.halted
              prog := match recCode r o with
                | some b => blockWords r b
                | none => [] }
    dma := { tl.dma with
      mailbox := []
      senders := (((List.range 16).map (recSender r o)).filter fun e => bitAt e 15).map fun e => bits e 0 14 }
    handles := asTable (hs.map fun h => if hLen h = 0 then 0 else h)
    chans := asTable cs
    chst := (List.range 32).filterMap fun ch =>
      let e := cs.getD ch 0
      if !chUsed e then none
      else if chOut e then some (ch, { credits := firstCredits t r d.w d.h sec x y ch })
      else some (ch, { outstanding := if chKind e == 2 then 0 else chCap e })
    steer := asTable ((List.range 4).map fun u => let e := recSteer r o u; if stMode e = 0 then 0 else e)
    units := []
    mx := {}
    bin := fillBin hs tl.bin
    delays := loadDelays hist d r o tl.delays
    reported := false
    unreport := false
    owed := tl.owed.filter fun e => e.1 % 4 == 2
    spill := []
    loaded := true }

end Sys2Proof.Machine
end

