-- ==== Sys2Proof/Machine/Boundary.lean ====
section
/-! DEFINITION. The step boundary: flushing the tally tables, committing the version with its scale records, sealing the
record with its trips, adopting a configuration set, and the start of the next step (R36, R47, R148 to R153, R280, R398 to
R417, R429, R460). -/

namespace Sys2Proof.Machine

/-! ### Adoption of a configuration set (R460) -/

/-- The context-scoped entries of the active set taken by a context. -/
def adoptRun (s : State) (r : CtxRun) : CtxRun :=
  let num : Word := (cfgActive s 0x2300 1).setWidth 32
  { r with
    gen := s.dict.activeGen
    histClear := r.histClear || bits num.toNat 12 8 != bits r.numerics.toNat 12 8
    numerics := num
    tallyCfg := (cfgActive s 0x4100 1).setWidth 32
    focus := cfgActive s 0x4100 2
    traceCtl := (cfgActive s 0x4210 1).setWidth 32
    traceBase := cfgActive s 0x4210 2
    trips := (List.range 8).map fun i => (cfgActive s 0x4110 (i + 1), (cfgActive s 0x4111 (i + 1)).setWidth 32) }

/-- The field port restarts, and is silent for a time of its own choice of at most 50 ms (R468). -/
def restartField (s : State) : State :=
  let (n, s) := s.draw
  { s with field := { s.field with silentUntil := now s + (Config.freeWord n).toNat % 50001 } }

/-- The entries that are not context-scoped take effect; with another LEGEND_CONFIG the field port restarts (R460, R468). -/
def adoptModule (s : State) : State :=
  let old := cfgInForce s 0x1800 1
  let s := { s with dict := { s.dict with inForce := s.dict.active, adopted := true } }
  if cfgInForce s 0x1800 1 = old then s else restartField s

/-- STATE returns to idle when no context runs under the previous generation; the other entries are then in force (R460). -/
def settleSwap (s : State) : State :=
  if s.dict.state == 2 && s.dict.prevUsers == 0 then adoptModule { s with dict := { s.dict with state := 0 } } else s

/-- A context leaves the list of those that run under the previous generation (R460, R462). -/
def leavePrev (s : State) (c : Nat) : State :=
  settleSwap { s with dict := { s.dict with prevUsers := s.dict.prevUsers &&& ~~~(1#16 <<< c) } }

/-- A context adopts the active set; the first to do so brings the other entries into force (R460). -/
def adoptCtx (s : State) (c : Nat) : State :=
  let s := if s.dict.adopted then s else adoptModule s
  match s.ctx c with
  | none => s
  | some x =>
    if x.run.gen = s.dict.activeGen then s
    else
      let s := s.modRun c (adoptRun s)
      leavePrev s c

/-! ### The beginning of a step boundary (R36, R47, R149, R405) -/

/-- Every capture entry of a tile hashed, and its tally table merged into the record being built. -/
def flushTile (s : State) (c : Nat) (k : Nat) : State :=
  let s := (s.tile k).bin.capture.foldl (fun s l => digestLine s c k l) s
  let s := s.modTile k fun t => { t with bin := { t.bin with capture := [] } }
  let es := (s.tile k).tally
  (s.modTile k fun t => { t with tally := [] }).modTally c fun y => { y with entries := es.foldl mergeEntry y.entries }

/-- The delayed tensors of a context whose scale was clamped in the step, each counted once (R149). -/
def countClamps (s : State) (c : Nat) (d : CtxDef) : State :=
  let ids := (d.keys.flatMap fun k => ((s.tile k).delays.filter (·.clamped)).map (·.tensor)).dedup
  s.modTally c fun y =>
    { y with entries := ids.foldl (fun l id => mergeEntry l { tensor := tallyId d id, scaleClamp := 1 }) y.entries }

/-- Pages of a versioned range. -/
def CtxDef.pages (d : CtxDef) : List Nat := List.range (d.verW / 4096)

/-- Nothing of the step is still being written (R36, R202). -/
def stepDrained (s : State) (c : Nat) (d : CtxDef) : Bool :=
  (d.keys.all fun k =>
    let t := s.tile k
    (t.core.run == .stepEnd || t.core.run == .off) && t.dma.descs.isEmpty && t.mx.idle)
  && !(s.mem.txns.any fun t => t.2.ctx.toNat == c && t.2.kind.own)

/-- STEP_BOUNDARY_BEGIN: every tile has executed `stepend` and every write of the step is in the channels; the tally tables
flush, FP_FLAGS clear, and the pages the step did not write are to be copied (R36, R47, R280, R405, R409). -/
def execStepBoundaryBegin (c : Nat) (s : State) : Out :=
  match s.ctx c with
  | none => .next s
  | some x =>
    let some_ := x.cdef.keys.any fun k => (s.tile k).core.run == .stepEnd
    if x.rec_.state == 1 && x.run.phase == .running && x.run.released && some_ && stepDrained s c x.cdef then
      let s := x.cdef.keys.foldl (fun s k => flushTile s c k) s
      let s := countClamps s c x.cdef
      let s := x.cdef.keys.foldl (fun s k => s.modTile k fun t => { t with core := { t.core with fpFlags := 0 } }) s
      .next (s.modRun c fun r =>
        { r with phase := .boundary, toCopy := x.cdef.pages.filter fun p => !r.written.contains p })
    else .next s

/-! ### The commit (R150, R280, R414) -/

/-- Sealed records not yet acknowledged (R413). -/
def CtxTally.unpulled (t : CtxTally) : Nat := (t.recs.filter fun r => !r.acked).length

/-- The commit waits for records to be pulled (R414). -/
def pullGated (x : Ctx) : Bool :=
  let n := bits x.run.tallyCfg.toNat 24 3
  n != 0 && n ≤ x.tally.unpulled

/-- Declared delayed tensors, in table order. -/
def CtxDef.delayedIds (d : CtxDef) : List Word := (d.tensors.filter (·.delayed)).map (·.id)

/-- The largest running amax of a tensor over the tiles of a context (R150). -/
def stepAmax (s : State) (d : CtxDef) (id : Word) : Word :=
  d.keys.foldl (fun m k =>
    match (s.tile k).delays.find? fun e => e.tensor == id with
    | some e => if m.toNat < e.amax.toNat then e.amax else m
    | none => m) 0

/-- A scale record without values (R151, R540). -/
def emptyScale (hist : Nat) : List Byte := toLE 4 0 ++ toLE 4 hist ++ List.replicate 1016 0

/-- The scale record of a tensor with a step's amax appended, the oldest value dropped when it is full (R150, R540). -/
def scaleBytes (hist : Nat) (old : List Word) (amax : Word) : List Byte :=
  let l := old ++ [amax]
  let l := l.drop (l.length - hist)
  toLE 4 l.length ++ toLE 4 hist ++ List.replicate 8 0 ++ (l.flatMap fun w => toLE 4 w.toNat)
    ++ List.replicate (4 * (128 - l.length)) 0 ++ List.replicate 496 0

/-- The history that a record of the version being built takes on: that of the newest version, or none where the length of
histories has changed (R150, R151). -/
def oldHist (s : State) (x : Ctx) (j : Nat) : List Word :=
  if x.run.histClear then [] else scaleHist s (newestScale s x.cdef j) (historyLen x)

/-- The scale records of a context written to the version being built: with the step's amax appended, or, where delayed scaling
is off and the length of histories has changed, with V = 0 (R150, R151, R153). -/
def writeScales (s : State) (x : Ctx) : State :=
  if x.cdef.versioned && (delayedOn x || x.run.histClear) then
    let build := x.cdef.slotBase (verRec s x.cdef).build
    ((List.range x.cdef.delayedIds.length).zip x.cdef.delayedIds).foldl (fun s e =>
      let bs := if delayedOn x then scaleBytes (historyLen x) (oldHist s x e.1) (stepAmax s x.cdef e.2) else emptyScale (historyLen x)
      putBytes s (build + x.cdef.scaleRec e.1) bs) s
  else s

/-- A scale record of the version being built stands in a lost stripe, whose lines are not rewritten (R270). -/
def scaleStripeLost (s : State) (x : Ctx) : Bool :=
  x.cdef.versioned && (delayedOn x || x.run.histClear) && (List.range x.cdef.delayedIds.length).any fun j =>
    spanLost s (x.cdef.slotBase (verRec s x.cdef).build + x.cdef.scaleRec j) 1024

/-- A scale record that a step or its commit would read delivers poison (R152). -/
def scalePoison (s : State) (x : Ctx) : Bool := delayPoison s x x.cdef.delayedIds

/-- The entries of the record marked with what the image and the histories say of their tensors (R151, R400). -/
def markEntries (s : State) (x : Ctx) (l : List TallyEnt) : List TallyEnt :=
  l.map fun e =>
    let dl := x.cdef.delayedIds.contains e.tensor
    { e with delayed := dl, coldStart := dl && delayedOn x && (delayHist s x e.tensor).isNone }

/-- The version of a step committed: scale records, the version record rewritten in one line, the written bits clear (R150,
R280). -/
def commitVersion (s : State) (c : Nat) (x : Ctx) : State :=
  let s := s.modTally c fun y => { y with entries := markEntries s x y.entries }
  let s := writeScales s x
  let s := putVerRec s x.cdef ((verRec s x.cdef).commit x.run.step.toNat)
  (s.modRun c fun r => { r with phase := .committed, written := [], histClear := false }).modRec c fun r =>
    { r with commits := ((x.run.step, now s) :: r.commits).take 5 }

/-- The step boundary of a context has nothing left to copy and may commit. -/
def commitReady (s : State) (c : Nat) (x : Ctx) : Bool :=
  x.rec_.state == 1 && x.run.phase == .boundary && x.run.toCopy.isEmpty && !pullGated x && !s.mem.selfRefresh
  && !(s.mem.copies.any fun k => k.ctx.toNat == c)

/-- What keeps a step from committing: a version record that cannot be read, a scale record whose reading would consume poison,
or a write to a lost stripe (R152, R270, R285). -/
def commitStop (s : State) (c : Nat) (x : Ctx) : Option State :=
  if recordLost s x.cdef then some (loseRecord s c)
  else if scalePoison s x || scaleStripeLost s x then some (stopCtx s c 5 none [])
  else none

/-- VERSION_COMMIT: with every page copied the version record is rewritten (R280); a replayed step of an admission commits
only once it has matched (R322). -/
def execVersionCommit (c : Nat) (s : State) : Out :=
  match s.ctx c with
  | none => .next s
  | some x =>
    let replay := s.hall.admCtx.toNat == c && (s.hall.admState == 2 || s.hall.admState == 3)
    if commitReady s c x && !replay then .next ((commitStop s c x).getD (commitVersion s c x)) else .next s

/-! ### The record (R399 to R401, R407 to R411) -/

/-- The bytes of a tensor entry (R400). -/
def entryBytes (e : TallyEnt) : List Byte :=
  let exp (o : Option Int) (d : Nat) : Nat := match o with
    | some v => (v % 65536).toNat
    | none => d
  toLE 80 (e.tensor.toNat * 2 ^ 608 + b2n e.coldStart * 2 ^ 607 + b2n e.delayed * 2 ^ 606 + e.lines * 2 ^ 544
    + e.viewLines * 2 ^ 512 + e.digest.toNat * 2 ^ 384 + e.viewDigest.toNat * 2 ^ 256 + e.nonzero * 2 ^ 208 + e.flush * 2 ^ 160
    + e.saturate * 2 ^ 128 + e.nanInf * 2 ^ 96 + e.scaleClamp * 2 ^ 64 + exp e.expMin 0x7FFF * 2 ^ 48 + exp e.expMax 0x8000 * 2 ^ 32)

/-- The bytes of a fault entry (R401). -/
def faultBytes (f : FaultEnt) : List Byte :=
  toLE 16 (f.time % 2 ^ 48 * 2 ^ 80 + f.kind.toNat * 2 ^ 72 + f.attempt.toNat * 2 ^ 64 + f.detail.toNat)

/-- Entries that a record carries: those with a line digested or an element counted (R400). -/
def recordEntries (t : CtxTally) : List TallyEnt :=
  t.entries.filter fun e => e.lines != 0 || e.nonzero != 0 || e.flush != 0 || e.saturate != 0 || e.nanInf != 0

/-- The tensor entries as the record holds them: a line that met an uncorrectable error is taken as zero (R420). -/
def entriesBytes (t : CtxTally) : List Byte :=
  let b := (recordEntries t).flatMap entryBytes
  match t.damaged with
  | none => b
  | some i => b.take (64 * i) ++ List.replicate (min 64 (b.length - 64 * i)) 0 ++ b.drop (64 * i + 64)

/-- The tensor entry that 80 bytes hold (R400). -/
def tallyEntryOf (b : List Byte) : TallyEnt :=
  let v := leNat b
  let exp (n none_ : Nat) : Option Int := if n = none_ then none else some (signed 16 n)
  { tensor := BitVec.ofNat 32 (bits v 608 32), coldStart := bitAt v 607, delayed := bitAt v 606, lines := bits v 544 32
    viewLines := bits v 512 32, digest := BitVec.ofNat 128 (bits v 384 128), viewDigest := BitVec.ofNat 128 (bits v 256 128)
    nonzero := bits v 208 48, flush := bits v 160 48, saturate := bits v 128 32, nanInf := bits v 96 32
    scaleClamp := bits v 64 32, expMin := exp (bits v 48 16) 0x7FFF, expMax := exp (bits v 32 16) 0x8000 }

/-- The tensor entries that a record shows, read back where a line of them was damaged (R400, R420). -/
def sealedEntries (t : CtxTally) : List TallyEnt :=
  if t.damaged.isNone then recordEntries t
  else (List.range (recordEntries t).length).map fun i => tallyEntryOf (((entriesBytes t).drop (80 * i)).take 80)

/-- STEP_DIGEST (R408). -/
def stepDigest (t : CtxTally) : List Byte := sha256 (toLE 8 t.bounded ++ toLE 8 t.unchecked ++ entriesBytes t)

/-- CONFIG_DIGEST: SHA-256 over the record of NUMERICS_MODE (R461). -/
def configDigest (numerics : Word) : List Byte := sha256 ([0x00, 0x23, 0x01, 0x04] ++ toLE 4 numerics.toNat)

/-- The record sealed by an admission replay (R399). -/
def admissionSeal (s : State) (c : Nat) (x : Ctx) : Bool :=
  s.hall.admCtx.toNat == c && s.hall.admState == 4 && s.hall.admStep == x.run.step

/-- Earlier attempts of a step number. -/
def countOf (l : List (DWord × Nat)) (st : DWord) : Nat := ((l.find? fun p => p.1 == st).map (·.2)).getD 0

/-- FLAGS of a record (R399). -/
def recordFlags (s : State) (c : Nat) (x : Ctx) (trip : Bool) : Nat :=
  let t := x.tally
  let f := x.run.focus.toNat
  b2n (digestsOn x) + 2 * b2n ((sealedEntries t).any (·.coldStart)) + 4 * b2n (2 ≤ countOf t.attempts x.run.step)
    + 8 * b2n (digestsOn x && bitAt f 63 && bits f 59 4 == c) + 16 * b2n (admissionSeal s c x) + 32 * b2n trip
    + 64 * b2n t.damaged.isSome

/-- Fault entries of the step that seals. -/
def sealedFaults (t : CtxTally) (st : DWord) : List FaultEnt := t.faults.filter fun f => f.step == st

/-- The record from offset 0 to its last tensor entry (R399). -/
def recordBytes (s : State) (c : Nat) (x : Ctx) (trip : Bool) : List Byte :=
  let t := x.tally
  let st := x.run.step
  let es := recordEntries t
  let fs := sealedFaults t st
  let f := x.run.focus.toNat
  let focus := digestsOn x && bitAt f 63 && bits f 59 4 == c
  toLE 4 1 ++ toLE 4 0x5EA10001 ++ toLE 8 st.toNat ++ toLE 2 (t.attempt st) ++ toLE 1 c ++ toLE 1 (recordFlags s c x trip)
    ++ toLE 2 x.cdef.job ++ toLE 2 es.length ++ toLE 2 fs.length ++ toLE 2 (countOf t.dropped st)
    ++ toLE 4 (if focus then bits f 0 32 else 0) ++ stepDigest t ++ configDigest x.run.numerics ++ toLE 32 x.cdef.imgDigest.toNat
    ++ toLE 8 x.cdef.seed.toNat ++ toLE 8 (topology s) ++ toLE 1 (bits s.factory.product.toNat 24 8) ++ toLE 1 x.cdef.w
    ++ toLE 1 x.cdef.h ++ List.replicate 13 0 ++ toLE 8 (t.startUs.getD 0) ++ toLE 8 (now s) ++ List.replicate 80 0
    ++ toLE 8 t.bounded ++ toLE 8 t.unchecked ++ toLE 8 t.retries ++ toLE 4 t.late ++ toLE 4 t.stale ++ toLE 4 t.spills
    ++ toLE 4 t.fallowLate ++ toLE 8 t.spillItems ++ List.replicate 16 0
    ++ fs.flatMap faultBytes ++ List.replicate (16 * (64 - fs.length)) 0 ++ entriesBytes t

/-! ### Trips (R416, R417) -/

/-- The value of a trip's counter in an entry. -/
def tripValue (n : Nat) (e : TallyEnt) : Int :=
  match n with
  | 0 => e.nonzero
  | 1 => e.flush
  | 2 => e.saturate
  | 3 => e.nanInf
  | 4 => e.scaleClamp
  | 5 => e.expMin.getD 0x7FFF
  | 6 => e.expMax.getD (-0x8000)
  | _ => b2n e.coldStart

/-- A value meets a trip's comparison. -/
def tripMeets (w : Nat) (v : Int) : Bool :=
  let th := signed 32 (bits w 11 32)
  match bits w 53 2 with
  | 0 => v ≤ th
  | 1 => th ≤ v
  | _ => v == th

/-- The entry of lowest TENSOR_ID that meets a trip. -/
def tripEntry (w : Nat) (tensor : Word) (es : List TallyEnt) : Option TallyEnt :=
  es.find? fun e => (bitAt w 62 || e.tensor == tensor) && tripMeets w (tripValue (bits w 55 3) e)

/-- One trip evaluated at a seal: whether it fired, and the state. -/
def evalTrip (s : State) (c : Nat) (x : Ctx) (n : Nat) (trip : DWord × Word) : State × Bool :=
  let w := trip.1.toNat
  if bitAt w 63 && bits w 58 4 == c then
    match tripEntry w trip.2 (sealedEntries x.tally) with
    | none => (s.modRun c fun r => { r with tripRuns := mput r.tripRuns n 0 }, false)
    | some e =>
      let k := mget x.run.tripRuns 0 n + 1
      if bits w 43 10 ≤ k then
        let v := tripValue (bits w 55 3) e
        (raise (s.modRun c fun r => { r with tripRuns := mput r.tripRuns n 0 }) .tallyTrip
          [c, x.run.step.toNat, n, e.tensor.toNat, (v % 2 ^ 64).toNat], true)
      else (s.modRun c fun r => { r with tripRuns := mput r.tripRuns n k }, false)
  else (s, false)

/-! ### Slots (R410, R413, R414) -/

/-- The slot the next record is built in, and whether an unacknowledged record is overwritten. -/
def nextSlot (slots : Nat) (recs : List SealRec) : Nat × Bool :=
  match (List.range slots).find? fun i => !(recs.any fun r => r.slot == i) with
  | some i => (i, false)
  | none =>
    match recs.find? (·.acked) with
    | some r => (r.slot, false)
    | none => ((recs.head?.map (·.slot)).getD 0, true)

/-- The record of a step is sealed and the next build takes its slot, whose SEAL becomes zero (R409, R414). -/
def sealRecord (s : State) (c : Nat) (x : Ctx) (trip : Bool) : State :=
  let t := x.tally
  let st := x.run.step
  let f := x.run.focus.toNat
  let s := putBytes s (x.cdef.tallySlot t.slot) (recordBytes s c x trip)
  let s :=
    if digestsOn x && bitAt f 63 && bits f 59 4 == c then
      putBytes s (x.cdef.tallySlot t.slot + 0x60000) ((List.range 4096).flatMap fun i => toLE 16 (mget t.focus 0 i).toNat)
    else s
  let recs := t.recs ++ [
    { slot := t.slot, step := st, attempt := t.attempt st, acked := false, digest := BitVec.ofNat 256 (leNat (stepDigest t)) }]
  let nx := nextSlot x.cdef.tallySlots recs
  let s := putBytes s (x.cdef.tallySlot nx.1 + 4) [0, 0, 0, 0]
  (s.modTally c fun y =>
    { y with
      slot := nx.1, entries := [], bounded := 0, unchecked := 0, retries := 0, late := 0, stale := 0, spills := 0
      fallowLate := 0, spillItems := 0, focus := [], damaged := none
      faults := y.faults.filter fun e => e.step != st
      dropped := y.dropped.filter fun e => e.1 != st
      recs := recs.filter fun r => r.slot != nx.1
      sealedCounts := bump y.sealedCounts st
      overwritten := if nx.2 then satAdd y.overwritten 1 65535 else y.overwritten }).modRun c fun r => { r with phase := .sealed_ }

/-- The record, or its focus block, would be written to a lost stripe (R270). -/
def sealLost (s : State) (c : Nat) (x : Ctx) : Bool :=
  let a := x.cdef.tallySlot x.tally.slot
  stripeLost s && (spanLost s a (recordBytes s c x false).length
    || (digestsOn x && bitAt x.run.focus.toNat 63 && bits x.run.focus.toNat 59 4 == c && spanLost s (a + 0x60000) 65536))

/-- TALLY_SEAL: after the commit the record is completed and sealed, the trips are evaluated, and a new configuration set is
adopted; a context reset does not prevent it, and a ring in a lost stripe resets the context. `damaged` is the line of the tensor
entries, if any, that met an uncorrectable error (R270, R409, R417, R420, R460). -/
def execTallySeal (c : Nat) (damaged : Option Nat) (s : State) : Out :=
  match s.ctx c with
  | none => .next s
  | some x =>
    if x.run.phase == .committed then
      let x := { x with tally := { x.tally with damaged := damaged } }
      let r := ((List.range 8).zip x.run.trips).foldl (fun (a : State × Bool) t =>
        let b := evalTrip a.1 c x t.1 t.2
        (b.1, a.2 || b.2)) (s, false)
      let lost := sealLost s c x
      let s := adoptCtx (sealRecord r.1 c x r.2) c
      .next (if lost then stopCtx s c 5 none [] else s)
    else .next s

/-! ### The next step (R151, R200, R398, R429) -/

/-- No step of the job begins after an aborted admission, until a later one replays its step or slot 0 is loaded (R323). -/
def stepBarred (s : State) (c : Nat) : Bool :=
  match s.ctx c with
  | some x => x.rec_.barred && !admitting s c
  | none => false

/-- The step epoch lets a step begin (R429). -/
def mayBegin (s : State) (c : Nat) (st : DWord) : Bool :=
  let w := (rwGet s 0x6145 (c + 1)).toNat
  !stepBarred s c && (bitAt w 63 || st.toNat ≤ bits w 0 63)

/-- Scale histories read at the start of a step (R149, R151). -/
def startDelays (s : State) (x : Ctx) : State :=
  x.cdef.keys.foldl (fun s k =>
    s.modTile k fun t =>
      { t with delays := t.delays.map fun e => { e with hist := delayHist s x e.tensor, amax := 0, clamped := false } }) s

/-- A tile begins the step: past its `stepend`, or at its entry instruction; a tile being moved goes on when the move ends,
and a draining context holds it (R82, R216, R333). -/
def startTile (s : State) (hold : Bool) (k : Nat) : State :=
  let t := s.tile k
  let run : RunState := if t.moveStage != 0 then .moving else if hold then .held else .running
  match t.core.run with
  | .stepEnd =>
    if t.moveStage != 0 then s.modTile k fun t => { t with core := { t.core with run := .moving } }
    else advance (s.modTile k fun t => { t with core := { t.core with run := run } }) (keyXY k)
  | .entryWait =>
    s.modTile k fun t => { t with core := { t.core with run := if hold || t.moveStage != 0 then .held else .running } }
  | _ => s

/-- An attempt of a step begins: its times and counts, its scales and its tiles. -/
def beginStep (s : State) (c : Nat) (x : Ctx) (st : DWord) (newStep : Bool) : State :=
  let t0 := if x.tally.starts.any fun p => p.1 == st then countOf x.tally.starts st else now s
  let s := s.modTally c fun y =>
    { y with
      attempts := bump y.attempts st
      starts := if y.starts.any fun p => p.1 == st then y.starts else y.starts ++ [(st, t0)]
      startUs := some t0 }
  let s := s.modRun c fun r =>
    { r with step := st, arrived := if newStep then [] else r.arrived, releasing := r.releasing && !newStep
             heard := if newStep then [] else r.heard, released := if newStep then false else r.released
             excSeen := if newStep then false else r.excSeen, phase := if newStep then .running else r.phase }
  let s :=
    if newStep then
      { s with hall := { s.hall with colls := s.hall.colls.filter fun k => k.ctx.toNat != c || !collDone s x k } }
    else s
  let s := match s.ctx c with
    | some y => startDelays s y
    | none => s
  let s := x.cdef.keys.foldl (fun s k => startTile s x.run.holds k) s
  let s :=
    if s.hall.admCtx.toNat == c && s.hall.admState == 4 && newStep then { s with hall := { s.hall with admState := 5 } } else s
  if scalePoison s x then stopCtx s c 5 none [] else s

/-- STEP_START: the next step begins when its number is admitted: after a sealed boundary, or before the entry instruction of
a context's first step or of a restart (R36, R429). -/
def execStepStart (c : Nat) (s : State) : Out :=
  match s.ctx c with
  | none => .next s
  | some x =>
    let waits := x.cdef.keys.any fun k => (s.tile k).core.run == .entryWait
    if x.rec_.state != 1 || (s.hall.admCtx.toNat == c && s.hall.admState == 1) then .next s
    else if x.run.phase == .sealed_ then
      if mayBegin s c (x.run.step + 1) then
        let s := adoptCtx s c
        match s.ctx c with
        | some y => .next (beginStep s c y (x.run.step + 1) true)
        | none => .next s
      else .next s
    else if waits && mayBegin s c x.run.step && (x.run.phase == .running || x.tally.startUs.isNone || x.run.phase == .loading) then
      let s := adoptCtx s c
      match s.ctx c with
      | some y => .next (beginStep s c y y.run.step false)
      | none => .next s
    else .next s

/-! ### The digest engine (R403, R405) -/

/-- CAPTURE_LINE_DIGEST: the oldest captured line of a tile is hashed (R403). -/
def execCaptureLineDigest (t : Coord) (s : State) : Out :=
  match ctxAt s t, (s.tile (ckey t)).bin.capture with
  | some (c, _), l :: _ =>
    .next ((digestLine s c (ckey t) l).modTile (ckey t) fun t => { t with bin := { t.bin with capture := t.bin.capture.drop 1 } })
  | _, _ => .next s

/-- TALLY_ENTRY_EVICT: a full table gives an entry to the record being built (R405). -/
def execTallyEntryEvict (t : Coord) (s : State) : Out :=
  match ctxAt s t with
  | some (c, _) => if 32 ≤ (s.tile (ckey t)).tally.length then .next (evictFirst s c (ckey t)) else .next s
  | none => .next s

end Sys2Proof.Machine
end

