-- ==== Sys2Proof/Machine/Branch.lean ====
section
/-! DEFINITION. Branches and hardware loops (R56 to R59). -/

namespace Sys2Proof.Machine

/-- The active loops a taken branch leaves running, and the counters of those it ends set to zero (R59). -/
def leaveLoops (target : Nat) : List LoopFrame → AMap Word → List LoopFrame × AMap Word
  | [], c => ([], c)
  | f :: fs, c =>
    if f.first ≤ target && target ≤ f.last then (f :: fs, c) else leaveLoops target fs (mset c 0 f.ck.toNat 0)

/-- A taken branch: PC_RANGE for a target outside the program region, else the target, the loops left behind ended, and for
`call` the return index in s31 (R56, R59). -/
def jump (s : State) (p : Coord) (t : Tile) (target : Int) (link : Bool) : Act :=
  if target < 1024 || 8191 < target then .exc 0x0A 0
  else
    let r := leaveLoops target.toNat t.core.loops t.core.c
    .go (s.modCore p fun k =>
      let k1 : Core := { k with pc := BitVec.ofNat 13 target.toNat, loops := r.1, c := r.2, wait := none, issued := k.issued + 1 }
      if link then k1.setS 31 (BitVec.ofNat 32 (t.core.pc.toNat + 1)) else k1)

def execBr (h : Hdr) (off : BitVec 22) (s : State) : Out :=
  issue h false false s fun t => jump s h.t t ((t.core.pc.toNat : Int) + off.toInt) false
def execCall (h : Hdr) (off : BitVec 22) (s : State) : Out :=
  issue h false false s fun t => jump s h.t t ((t.core.pc.toNat : Int) + off.toInt) true
def execJr (h : Hdr) (rs : BitVec 5) (s : State) : Out :=
  issue h false false s fun t => jump s h.t t (((t.core.sreg rs).toNat % 8192 : Nat) : Int) false
def execRet (h : Hdr) (s : State) : Out :=
  issue h false false s fun t => jump s h.t t (((t.core.sreg 31).toNat % 8192 : Nat) : Int) false

/-- A loop that R56 or R58 forbids: past index 8,191, an active counter, past the enclosing body, or a fifth level. -/
def loopBad (t : Tile) (ck : BitVec 2) (last : Nat) : Bool :=
  8191 < last || t.core.loops.any (fun f => f.ck == ck) || 4 ≤ t.core.loops.length
    || (match t.core.loops with
        | f :: _ => f.last < last
        | [] => false)

/-- `loop` (R57): the count comes from the immediate or from the register in bits 4:0; a count of zero skips the body. -/
def execLoop (h : Hdr) (ck : BitVec 2) (immCount : Bool) (body : BitVec 10) (count : BitVec 11) (s : State) : Out :=
  issue h false (body == 0 || (!immCount && count.extractLsb' 5 6 != 0)) s fun t =>
    let pc := t.core.pc.toNat
    let last := pc + body.toNat
    let n : Word := if immCount then count.setWidth 32 else t.core.sreg (count.extractLsb' 0 5)
    if loopBad t ck last then .exc 1 0
    else if n == 0 then
      .go (advanceAt (s.modCore h.t fun k => { k with c := mset k.c 0 ck.toNat 0 }) h.t last)
    else
      .fin (s.modCore h.t fun k => { k with c := mset k.c 0 ck.toNat n, loops := ⟨ck, pc + 1, last⟩ :: k.loops })

end Sys2Proof.Machine
end

