-- ==== Sys2Proof/Machine/Links.lean ====
section
/-! DEFINITION. The optical links: frame slots, reception, resends and acknowledgements, lost lanes and wavelengths, sparing,
links that go down, and training (R288 to R301, R305, R313 to R315). -/

namespace Sys2Proof.Machine

/-- A link carries frames. -/
def Link.up (k : Link) : Bool := k.state == 2 || k.state == 3

/-! ### Frames to be sent (R293 to R298, R311, R314, R315) -/

/-- Units of a packet, with the credits it needs to start: its own, or two packets of the largest size where it enters a ring
dimension (R298, R314). -/
def startNeed (ring : Bool) (q : Queued) : Nat :=
  if ring && q.enters then 2 * maxUnits (packetClass q.pk) else packetUnits q.pk

/-- The units of a packet, marked where a poisoned line starts. -/
def packetMarks (p : Packet) : List Bool :=
  [false, false] ++ (List.range p.data.length).flatMap fun i => [p.poison.getD i false, false, false, false]

/-- The POISON bits of a payload: those of the 64 B quarters in which a poisoned line starts (R293, R307). -/
def quarterBits (marks : List Bool) : BitVec 4 :=
  BitVec.ofNat 4 (((List.range 4).map fun i => b2n ((marks.drop (4 * i)).take 4).or * 2 ^ i).sum)

/-- A frame of one class as it fills: the packets left, an unfinished one first; those that end in it; the units placed, with
their marks; the units already placed of the unfinished packet; the credits left; the units in the far end's buffer; the input
served last. -/
structure Fill where
  qs : List Queued
  sent : List Queued
  marks : List Bool
  part : Nat
  credits : Nat
  flight : List (Nat × Nat)
  turn : Nat

/-- A barrier packet. -/
def isBarrier (p : Packet) : Bool := p.op == 6 || p.op == 7

/-- The class of a number, for its buffer. -/
def clsOf (n : Nat) : MClass :=
  match n with
  | 0 => .request
  | 1 => .reply
  | 2 => .forward
  | 3 => .collective
  | _ => .management

/-- A packet that lets others go first: its job holds its share of the far end's buffer, or it enters a ring whose bubble is missing
(R298, R311, R314). -/
def heldBack (s : State) (ring : Bool) (f : Fill) (q : Queued) : Bool :=
  let j := q.pk.job.toNat
  (j != 0 && bufUnits (packetClass q.pk) * jobShare s q.pk < 8 * (heldUnits j f.flight + packetUnits q.pk))
  || (ring && q.enters && f.credits < startNeed ring q)

/-- Distance of an input from the one served last, in turn. -/
def turnDist (turn : Nat) (q : Queued) : Nat := (q.inp + 32 - turn) % 33

/-- The packet that starts next: the oldest by AGE, inputs in turn, where the class holds a packet in fallback; otherwise a
barrier first, and the others in their order (R297, R315). -/
def nextOf (turn : Nat) (l : List Queued) : Option Queued :=
  match l with
  | [] => none
  | q :: r =>
    if l.any (·.fallback) then
      some (r.foldl (fun a b =>
        if a.pk.age.toNat < b.pk.age.toNat || (a.pk.age == b.pk.age && turnDist turn b < turnDist turn a) then b else a) q)
    else some ((l.find? fun q => isBarrier q.pk).getD q)

/-- Units of the first packet go into the frame, with no alignment (R293). -/
def Fill.place (f : Fill) : Fill :=
  match f.qs with
  | [] => f
  | q :: r =>
    let room := 16 - f.marks.length
    let left := packetUnits q.pk - f.part
    let marks := f.marks ++ ((packetMarks q.pk).drop f.part).take room
    if left ≤ room then { f with qs := r, sent := f.sent ++ [q], marks := marks, part := 0 }
    else { f with marks := marks, part := f.part + room }

/-- The next packet goes into a frame that still has room, if one may. -/
def fillStep (s : State) (ring : Bool) (f : Fill) : Option Fill :=
  if 16 ≤ f.marks.length then none
  else if f.part != 0 then some f.place
  else
    match nextOf f.turn (f.qs.filter fun q => !heldBack s ring f q) with
    | none => none
    | some q =>
      let n := packetUnits q.pk
      if f.credits < n then none
      else
        some { f with
          qs := q :: f.qs.erase q, credits := f.credits - n, flight := f.flight ++ [(q.pk.job.toNat, n)], turn := q.inp }.place

/-- A frame filled. -/
def fillFrame (s : State) (ring : Bool) : Nat → Fill → Fill
  | 0, f => f
  | n + 1, f =>
    match fillStep s ring f with
    | none => f
    | some g => fillFrame s ring n g

/-- The header of a frame (R293). -/
def frameHead (seq ack : BitVec 12) (nak : Bool) (cls units : Nat) (poison : BitVec 4) (creditClass credits : Nat) : BitVec 96 :=
  BitVec.ofNat 96 (seq.toNat * 2 ^ 52 + ack.toNat * 2 ^ 40 + b2n nak * 2 ^ 39 + cls * 2 ^ 36 + units * 2 ^ 31 + poison.toNat * 2 ^ 27
    + creditClass * 2 ^ 24 + credits * 2 ^ 15)

/-- A frame goes out: a data frame on active wavelength SEQ mod A, or a control frame, with ACK, a NAK that is due, and buffer units
returned to the far end (R293 to R296, R298, R300). -/
def Link.putWire (k : Link) (fr : Option TxFrame) : Link :=
  let owed := (k.owe.find? fun e => e.2 != 0).getD (0, 0)
  let n := min owed.2 511
  let h (seq : BitVec 12) (cls units : Nat) (poison : BitVec 4) : BitVec 96 :=
    frameHead seq k.seqRx k.nakDue cls units poison owed.1 n
  { k with
    owe := mset k.owe 0 owed.1 (owed.2 - n)
    nakDue := false, markDue := none, ackTx := k.seqRx
    wire := some
      { wave := fr.bind fun f => k.mapTx[f.seq.toNat % k.mapTx.length]?
        head := match fr with
          | some f => h f.seq (clsNum f.cls) f.units f.poison
          | none => h 0 0 0 0
        down := k.markDue
        packets := (fr.map fun f => f.packets.map (·.pk)).getD [] } }

/-- The dimension of a link's slot is a ring. -/
def onRing (s : State) (l : Nat) : Bool :=
  match slotDim s l with
  | some d => dimWrap s d
  | none => false

/-- A new data frame of a class; the packets that end in it leave the buffers of the inputs they came by. -/
def sendFrame (s : State) (l cls : Nat) : Option State :=
  let k := s.link l
  let mine (q : Queued) : Bool := clsNum (packetClass q.pk) == cls
  let f := fillFrame s (onRing s l) 16
    { qs := k.outq.filter mine, sent := [], marks := [], part := mget k.part 0 cls
      credits := mget k.credits (bufUnits (clsOf cls)) cls, flight := mget k.flight [] cls, turn := mget k.turn ownInput cls }
  if f.marks.isEmpty then none
  else
    let fr : TxFrame := ⟨k.seqTx, clsOf cls, f.sent, f.marks.length, quarterBits f.marks⟩
    let s := s.modLink l fun k =>
      { k with
        outq := f.qs ++ k.outq.filter fun q => !mine q
        part := mput k.part cls f.part
        credits := mput k.credits cls f.credits
        flight := mput k.flight cls f.flight
        turn := mput k.turn cls f.turn
        replay := k.replay ++ [fr]
        seqTx := k.seqTx + 1
        lastCls := if cls = 4 then k.lastCls else cls }
    some ((f.sent.foldl (fun s q => freeInput s q.inp q.pk) s).modLink l fun k => k.putWire (some fr))

/-! ### Delivery (R293, R301, R306 to R308, R313) -/

/-- An error reply for a packet that cannot go on: to this module's requester, or back to its source (R301, R308). -/
def undeliverable (s : State) (south : Bool) (p : Packet) : State :=
  if !(p.op == 0 || p.op == 2) then s
  else if p.src.toNat == ownCoord s then
    match mfind s.mem.txns p.tag.toNat with
    | none => s
    | some t =>
      if t.kind == .collCopy then s
      else answerEntry s p.tag.toNat t 0xD []
  else sendReply s south (replyPacket s p 4)

/-- A packet that came by a link, or waits at one, goes on in its plane, travelling along a dimension or from this module (R288,
R313 to R315). -/
def sendOn (s : State) (l inp : Nat) (travel : Option (Nat × Bool)) (p : Packet) : State :=
  match routeFrom s (linkSouth l) allSlots p travel with
  | some w => queuePacket s w inp p
  | none => undeliverable (freeInput s inp p) (linkSouth l) p

/-- A packet in transit goes on; it holds the buffer of its input until it has left (R298, R313). -/
def forwardPacket (s : State) (l : Nat) (p : Packet) : State := sendOn s l l (travelOf s l) p

/-- The donor's answer to the handshake of an admission: the slot that holds step t − 1 (R322). -/
def takeHandshake (s : State) (p : Packet) : State :=
  match s.ctx s.hall.admCtx.toNat with
  | none => s
  | some x =>
    if s.hall.admState == 1 && s.hall.admSlot.isNone && p.src == s.hall.admDonor && p.job.toNat == x.cdef.job then
      pumpCopies { s with hall := { s.hall with admSlot := some p.offset.toNat, admHeard := now s } }
    else s

/-- A packet of a frame delivered: in transit it goes on; the steward takes management at once; a barrier packet whose job has no live
context is absorbed; any other packet waits in its buffer for its sink (R298, R306, R307, R309, R374). -/
def deliver (s : State) (l : Nat) (p : Packet) : State :=
  if p.dest.toNat != ownCoord s then forwardPacket s l p
  else if p.op == 8 then takeHandshake (freeInput s l p) p
  else if 8 < p.op.toNat || (isBarrier p && (jobCtx s p.job.toNat).isNone) then freeInput s l p
  else s.modLink l fun k => { k with inq := k.inq ++ [p] }

/-- The packets that end in the units received, each line poisoned as the quarter in which it starts, and the marks left over. -/
def splitUnits : List Bool → List Packet → List Packet × List Bool
  | m, [] => ([], m)
  | m, p :: ps =>
    let n := packetUnits p
    if m.length < n then ([], m)
    else
      let r := splitUnits (m.drop n) ps
      ({ p with poison := (List.range p.data.length).map fun i => m.getD (2 + 4 * i) false } :: r.1, r.2)

/-- A frame accepted: its units join the class's stream, and the packets that end in it are delivered (R293, R295). -/
def acceptFrame (s : State) (l : Nat) (fr : LinkFrame) : State :=
  let k := s.link l
  let cls := fr.cls.toNat
  let r := splitUnits
    (mget k.inPart [] cls ++ (List.range fr.units.toNat).map fun u => fr.poison.getLsbD (u / 4))
    (fr.packets.filter fun p => clsNum (packetClass p) == cls)
  let s := s.modLink l fun k => { k with seqRx := k.seqRx + 1, nakked := false, inPart := mput k.inPart cls r.2 }
  r.1.foldl (fun s p => deliver s l p) s

/-- Frames acknowledged by an ACK leave the replay buffer (R296). -/
def ackFrames (ack : BitVec 12) (l : List TxFrame) : List TxFrame :=
  if l.any fun f => f.seq == ack then l.dropWhile fun f => f.seq != ack
  else if (l.getLast?.map fun f => f.seq + 1) == some ack then []
  else l

/-! ### Lanes, wavelengths and links that go down (R289 to R292, R299 to R301, R305) -/

/-- Healthy electrical lanes of a direction. -/
def healthyLanes (b : BitVec 8) : Nat := ((List.range 8).filter fun i => !b.getLsbD i).length

/-- Active wavelengths that a number of healthy lanes carries (R291). -/
def laneCapacity (h : Nat) : Nat := h * 20000 / 21258

/-- A fault entry in every live context whose allocation names the link's slot (R401). -/
def addLinkFault (s : State) (l kind detail : Nat) : State :=
  (s.ctxs.filter fun e => bitAt e.2.cdef.slotMask (linkSlot l)).foldl
    (fun s e => addFault s e.1 kind (BitVec.ofNat 64 detail)) s

/-- The far end that LINK_MAP declares for a slot; none where the declared hall has no such neighbour (R305, R312). -/
def mappedFar (s : State) (slot : Nat) : Option Nat :=
  let w := linkMap s slot
  let own := ownCoord s
  match bits w 30 2 with
  | 1 =>
    let i := bits w 28 2
    let n := dimSize s i
    let p := ownPos s i
    if isTree s || n < 2 then none
    else if bitAt w 27 then
      if 0 < p then some (withDim own i (p - 1)) else if dimWrap s i then some (withDim own i (n - 1)) else none
    else if p + 1 < n then some (withDim own i (p + 1))
    else if dimWrap s i then some (withDim own i 0) else none
  | 2 => if isTree s && 0 < nodeDepth own then some (treeParent s) else none
  | 3 => if isTree s && (treeChildren s).contains (bits w 22 5) then some (treeChild s (bits w 22 5)) else none
  | _ => none

/-- A route from this module to another remains in one of its planes. -/
def routeRemains (s : State) (dest : Nat) : Bool :=
  let p := plainPacket 0 0 dest (ownCoord s) 0 0 0 0 0
  (routeFrom s false allSlots p none).isSome || (routeFrom s true allSlots p none).isSome

/-- A donor to which no route remains is lost (R323). -/
def donorRoute (s : State) : State :=
  let c := s.hall.admCtx.toNat
  if admitting s c && !routeRemains s s.hall.admDonor.toNat then stopCtx (abortAdm s 1) c 15 none [] else s

/-- Packets of a down link queued again on what remains of the group, or answered with an error reply; one that entered its ring
dimension at this module enters it again (R301, R314). -/
def requeue (s : State) (l : Nat) (qs : List Queued) : State :=
  let w := linkMap s (linkSlot l)
  qs.foldl (fun s q => sendOn s l q.inp (if q.enters || bits w 30 2 != 1 then none else some (bits w 28 2, bitAt w 27)) q.pk) s

/-- Everything that a down link has not delivered up to a SEQ goes on without it. -/
def leaveLink (s : State) (l : Nat) (seq : Option (BitVec 12)) : State :=
  let k := s.link l
  let later := match k.replay.findIdx? fun f => some f.seq == seq with
    | some i => k.replay.drop (i + 1)
    | none => k.replay
  let qs := (later.flatMap fun f => f.packets.map fun q => { q with inp := ownInput }) ++ k.outq
  donorRoute (requeue (s.modLink l fun k => { k with replay := [], resend := [], outq := [], part := [] }) l qs)

/-- A link without an active wavelength, or out of lock, goes down. Its receiving attachment reports the last SEQ delivered to the far
end over another link of the group or the fallback path; where no path is left, what waits here is answered (R292, R301). -/
def linkDown (s : State) (l : Nat) : State :=
  if (s.link l).up then
    let s := s.modLink l fun k => { k with state := 0, inPart := [], flight := [], nakDue := false, markDue := none }
    let s := kaWatch (addLinkFault (raise s .linkDown [l]) l 0x33 (256 * l + 1))
    let report := (mappedFar s (linkSlot l)).bind fun far =>
      sendPacket s (linkSouth l) allSlots (plainPacket 8 0 far (ownCoord s) 0 ((s.link l).seqRx - 1).toNat 0 0 0)
    report.getD (leaveLink s l none)
  else s

/-- A link that has lost a wavelength for good runs on degraded (R301). -/
def linkDegrade (s : State) (l : Nat) : State :=
  addLinkFault (raise (s.modLink l fun k => { k with state := 3 }) .linkDegraded [l]) l 0x33 (256 * l)

/-- After a lane map has become shorter for good: degraded, or down when it is empty. -/
def shorterMap (s : State) (l : Nat) : State :=
  let k := s.link l
  if !k.up then s
  else if k.mapTx.isEmpty || k.mapRx.isEmpty then linkDown s l
  else kaWatch (linkDegrade s l)

/-- The spare that replaces a failed wavelength: the lowest one neither active nor failed nor already named (R289, R300). -/
def spareOf (used : List Nat) (failed : BitVec 8) : Option Nat :=
  (List.range 8).find? fun w => !used.contains w && !failed.getLsbD w

/-- Spares already named. -/
def namedSpares (l : List MapChange) : List Nat := l.filterMap fun c => c.spare.map (·.1)

/-- A transmitter names a change of its lane map at a SEQ in advance and tells the far end in a LANE_MAP packet on the link
itself. How far in advance is its own choice (R291, R300). -/
def nameChange (s : State) (l : Nat) (spare : Option (Nat × Nat)) (count : Nat) : State :=
  let (n, s) := s.draw
  let seq : BitVec 12 := (s.link l).seqTx + 1 + BitVec.ofNat 12 ((Config.freeWord n).toNat % 1024)
  let far := (mappedFar s (linkSlot l)).getD 0
  let body := (seq.toNat * 8 + ((spare.map (·.1)).getD 0)) * 8 + min count 7
  s.modLink l fun k =>
    { k with
      pendTx := k.pendTx ++ [⟨seq, spare, count⟩]
      outq := k.outq ++ [⟨plainPacket 8 0 far (ownCoord s) 0 body 0 0 0, false, false, ownInput⟩] }

/-- A wavelength leaves the transmitter's lane map at once; a spare that the lanes can carry is named for it, or the link is
degraded, or down (R291, R300, R301). -/
def withdrawTx (s : State) (l w : Nat) : State :=
  let s := gazDecided (s.modLink l fun k => { k with failedTx := k.failedTx ||| (1#8 <<< w) })
  let k := s.link l
  let pend := (k.pendTx.find? fun c => c.spare.map (·.1) == some w).bind (·.spare)
  if !k.mapTx.contains w && pend.isNone then s
  else
    let old := (pend.map (·.2)).getD w
    let s := s.modLink l fun k =>
      { k with mapTx := k.mapTx.filter fun x => x != w, pendTx := k.pendTx.filter fun c => c.spare.map (·.1) != some w }
    let k := s.link l
    let used := k.mapTx ++ namedSpares k.pendTx
    let cap := laneCapacity (healthyLanes k.lanesTx)
    if !k.up then s
    else if k.mapTx.isEmpty then linkDown s l
    else
      match spareOf used k.failedTx with
      | some sp => if used.length < cap then kaWatch (nameChange s l (some (sp, old)) cap) else shorterMap s l
      | none => shorterMap s l

/-- A receiver withdraws a wavelength and asks for a NAK with a lane-down mark (R300). -/
def withdrawRx (s : State) (l w : Nat) : State :=
  let s := gazDecided (s.modLink l fun k => { k with failedRx := k.failedRx ||| (1#8 <<< w), badWords := mput k.badWords w [] })
  let k := s.link l
  if !k.mapRx.contains w && !(namedSpares k.pendRx).contains w then s
  else
    let s := s.modLink l fun k =>
      { k with
        mapRx := k.mapRx.filter fun x => x != w, pendRx := k.pendRx.filter fun c => c.spare.map (·.1) != some w
        gone := k.gone ++ [w], nakked := true, nakDue := true, markDue := some (BitVec.ofNat 3 w) }
    let k := s.link l
    if !k.up then s
    else if k.mapRx.isEmpty then linkDown s l
    else if (spareOf (k.mapRx ++ namedSpares k.pendRx) k.failedRx).isNone then shorterMap s l
    else kaWatch s

/-- A SEQ has been reached. -/
def reached (seq at_ : BitVec 12) : Bool := (seq - at_).toNat < 2048

/-- The first change of a lane map takes effect where its SEQ has been reached: the spare enters and WAVELENGTH_SPARED is
raised; a map left shorter for good degrades the link (R291, R300, R301, R401). -/
def switchOne (s : State) (l : Nat) (tx : Bool) : State :=
  let k := s.link l
  match (if tx then k.pendTx else k.pendRx) with
  | [] => s
  | c :: r =>
    if !k.up || !reached (if tx then k.seqTx else k.seqRx) c.seq then s
    else
      let map := ((if tx then k.mapTx else k.mapRx) ++ (c.spare.map (·.1)).toList).take c.count
      let s := s.modLink l fun k => if tx then { k with mapTx := map, pendTx := r } else { k with mapRx := map, pendRx := r }
      let s := match c.spare with
        | some (spare, failed) =>
          if map.contains spare then addLinkFault (raise s .wavelengthSpared [l, failed, spare]) l 0x31 (256 * l + failed) else s
        | none => s
      if map.length < 6 && r.isEmpty then shorterMap s l else kaWatch s

/-- Every change whose SEQ has been reached. -/
def switchDue (s : State) (l : Nat) (tx : Bool) : State :=
  let k := s.link l
  (if tx then k.pendTx else k.pendRx).foldl (fun s _ => switchOne s l tx) s

/-- An uncorrectable codeword on a wavelength: the 17th within 1 ms fails the wavelength (R299). -/
def countBad (s : State) (l w : Nat) : State :=
  let k := s.link l
  let times := now s :: (mget k.badWords [] w).filter fun t => now s < t + 1000
  let s := s.modLink l fun k => { k with uncorr := satAdd k.uncorr 1 65535, badWords := mput k.badWords w times }
  if 16 < times.length then withdrawRx s l w else s

/-! ### The commands -/

/-- LINK_FRAME_SLOT: a frame being resent, then management, barriers first, then the other classes in rotation; with no data, a
control frame where a NAK or credits are due (R293 to R298). -/
def execLinkFrameSlot (l : Nat) (s : State) : Out :=
  if !(s.link l).up then .next s
  else
    let s := switchDue s l true
    let k := s.link l
    if !k.up then .next s
    else
      match k.resend with
      | f :: r => .next (s.modLink l fun k => { k with resend := r }.putWire (some f))
      | [] =>
        let sent :=
          if 1172 ≤ k.replay.length then none
          else ([4] ++ (List.range 4).map fun i => (k.lastCls + 1 + i) % 4).findSome? fun cls => sendFrame s l cls
        match sent with
        | some s' => .next s'
        | none => .next (if k.nakDue || k.owe.any fun e => e.2 != 0 then s.modLink l fun k => k.putWire none else s)

/-- A frame is not accepted: every later one is discarded until a resend, and NAK is sent (R295). -/
def Link.refuse (k : Link) (bad : Bool) : Link := { k with nakked := true, nakDue := k.nakDue || !k.nakked || bad }

/-- LINK_FRAME_RECEIVE: a frame returns acknowledgements, credits and a NAK; a data frame in sequence is accepted and its packets are
delivered; the first that fails is discarded with every later one until a resend, and NAK is sent (R293, R295, R296, R298). -/
def execLinkFrameReceive (l : Nat) (fr : LinkFrame) (s : State) : Out :=
  if !(s.link l).up then .next s
  else
    let s := if fr.uncorrectable then countBad s l fr.wave.toNat else s
    if !fr.good || fr.uncorrectable || 4 < fr.cls.toNat || 16 < fr.units.toNat then .next (s.modLink l fun k => k.refuse true)
    else
      let cc := fr.creditClass.toNat
      let s := s.modLink l fun k =>
        { k with
          replay := ackFrames fr.ack k.replay
          nakAt := if fr.nak then some fr.ack else k.nakAt
          credits := if fr.credits == 0 then k.credits
            else mput k.credits cc (min (bufUnits (clsOf cc)) (mget k.credits (bufUnits (clsOf cc)) cc + fr.credits.toNat))
          flight := if fr.credits == 0 then k.flight else mput k.flight cc (landUnits fr.credits.toNat (mget k.flight [] cc)) }
      let s := switchDue s l false
      if fr.units == 0 then .next s
      else if fr.seq == (s.link l).seqRx then .next (acceptFrame s l fr)
      else .next (s.modLink l fun k => k.refuse false)

/-- LINK_NAK_RESEND: on a NAK every frame from its ACK is to be resent, in order; the ones before it are acknowledged. A
lane-down mark withdraws the wavelength it names (R295, R300). -/
def execLinkNakResend (l : Nat) (down : Option (BitVec 3)) (s : State) : Out :=
  match (s.link l).nakAt with
  | none => .next s
  | some seq =>
    if !(s.link l).up then .next s
    else
      let s := s.modLink l fun k =>
        let r := ackFrames seq k.replay
        { k with replay := r, resend := r, resends := satAdd k.resends 1 65535, nakAt := none }
      .next (match down with
        | some w => withdrawTx s l w.toNat
        | none => s)

/-- LINK_ACK_TIMER: a control frame carries ACK (R296). -/
def execLinkAckTimer (l : Nat) (s : State) : Out :=
  .next (if (s.link l).up then s.modLink l fun k => k.putWire none else s)

/-- LINK_LANE_FAILED: an electrical lane leaves its bundle. Where the rest cannot carry the active wavelengths, a transmitter
names the shorter lane map in advance; a receiver tells the far end, which names it (R291). -/
def execLinkLaneFailed (l : Nat) (tx : Bool) (lane : BitVec 3) (s : State) : Out :=
  let k := s.link l
  let cur := if tx then k.lanesTx else k.lanesRx
  if cur.getLsbD lane.toNat || k.state == 4 then .next s
  else
    let lanes := cur ||| (1#8 <<< lane.toNat)
    let cap := laneCapacity (healthyLanes lanes)
    let s := raise s .linkLaneFailed [l, b2n tx, lane.toNat]
    let s := s.modLink l fun k => if tx then { k with lanesTx := lanes } else { k with lanesRx := lanes }
    let used := if tx then k.mapTx ++ namedSpares k.pendTx else k.mapRx ++ namedSpares k.pendRx
    if !k.up || used.length ≤ cap then .next s
    else if cap = 0 then .next (linkDown s l)
    else if tx then .next (nameChange s l none cap)
    else
      let far := (mappedFar s (linkSlot l)).getD 0
      .next (s.modLink l fun k => { k with outq := k.outq ++ [⟨plainPacket 8 0 far (ownCoord s) 0 cap 0 0 0, false, false, ownInput⟩] })

/-- WAVELENGTH_FAIL: a wavelength fails at the end that detects it, and the failure is recorded in the gazetteer. A bit-error
rate fails it above 10^−SPARE_BER_EXP; a laser line fails it on the four links of the engine (R299 to R301). -/
def execWavelengthFail (l : Nat) (tx : Bool) (cause : WaveFail) (w : BitVec 3) (s : State) : Out :=
  let fail (s : State) (l : Nat) : State :=
    let k := s.link l
    if (if tx then k.failedTx else k.failedRx).getLsbD w.toNat then s
    else if tx then withdrawTx s l w.toNat
    else withdrawRx s l w.toNat
  match cause with
  | .ber errors bits => .next (if bits < errors * 10 ^ cfgField s 0x2290 1 12 4 then fail s l else s)
  | .laser => .next ((List.range 4).foldl (fun s i => fail s (l / 4 * 4 + i)) s)
  | .lost => .next (fail s l)
  | .monitor => .next (fail s l)

/-- LANE_MAP_RECEIVE: the transmitter's packet names the change and its SEQ (R291, R300). -/
def execLaneMapReceive (l : Nat) (m : LaneMap) (s : State) : Out :=
  let k := s.link l
  if !k.up || (m.spare.map fun w => k.mapRx.contains w.toNat) == some true then .next s
  else
    let old := match m.failed with
      | some w => some w.toNat
      | none => k.gone.head?
    .next (s.modLink l fun k =>
      { k with
        mapRx := k.mapRx.filter fun x => old != some x || m.spare.isNone
        gone := k.gone.filter fun x => old != some x
        pendRx := k.pendRx ++ [⟨m.seq, m.spare.map fun w => (w.toNat, old.getD w.toNat), m.count.toNat⟩] })

/-- LANE_MAP_SWITCH: from the switch SEQ on the new lane map holds, and WAVELENGTH_SPARED is raised for a spare (R300, R401). -/
def execLaneMapSwitch (l : Nat) (tx : Bool) (s : State) : Out := .next (switchDue s l tx)

/-- LINK_DELIVERED_SEQ_REPORT: the far end has the link down and names the last frame it delivered; the link is down here too, and
every packet not wholly contained in frames up to it is queued again on what remains of the group, or answered with an error reply
(R292, R301). A donor to which no route remains is lost (R323). -/
def execLinkDeliveredSeqReport (l : Nat) (seq : BitVec 12) (s : State) : Out :=
  let s := linkDown s l
  .next (if (s.link l).state != 0 then s else leaveLink s l (some seq))

/-- LINK_FALLBACK_AGE_TICK: a microsecond passes for the fallback packets that wait at an attachment (R315). -/
def execLinkFallbackAgeTick (k : Nat) (s : State) : Out :=
  .next (s.modLink k fun x =>
    { x with outq := x.outq.map fun q =>
        if q.fallback then { q with pk := { q.pk with age := if q.pk.age == 255 then 255 else q.pk.age + 1 } } else q })

/-- The lane map of a link that has been trained. -/
def trainedMap (failed lanes : BitVec 8) : List Nat :=
  (((List.range 8).filter fun w => !failed.getLsbD w).take 6).take (laneCapacity (healthyLanes lanes))

/-- LINK_TRAIN_COMPLETE: from stage S8 on and while the root is locked, a trained link exchanges coordinates; a far end that does not
match the map leaves it down (R292, R305, R324). -/
def execLinkTrainComplete (l : Nat) (latency : BitVec 14) (far : BitVec 20) (s : State) : Out :=
  let k := s.link l
  if 32 ≤ l || s.clk.coasting || s.clk.change.isSome || k.up || k.state == 4 || bits (linkMap s (linkSlot l)) 30 2 == 0 then .next s
  else if mappedFar s (linkSlot l) != some far.toNat then
    .next (raise (s.modLink l fun k => { k with state := 0, latency := latency }) .linkMiswired [l])
  else
    let tx := trainedMap k.failedTx k.lanesTx
    let rx := trainedMap k.failedRx k.lanesRx
    .next (kaWatch (s.modLink l fun k =>
      { state := if tx.isEmpty || rx.isEmpty then 0 else if tx.length < 6 || rx.length < 6 then 3 else 2
        mapTx := tx, mapRx := rx, failedTx := k.failedTx, failedRx := k.failedRx, lanesTx := k.lanesTx, lanesRx := k.lanesRx
        latency := latency, resends := k.resends, uncorr := k.uncorr, outq := k.outq, inq := k.inq, badWords := k.badWords }))

end Sys2Proof.Machine
end

