-- ==== Sys2Proof/Machine/ClockOps.lean ====
section
/-! DEFINITION. Operations of the clock tree and the Meridian port that several families share: the throttle ladder and its
requests, the state of the port, the sources of the root, and the beginning of a change of root frequency (R257, R430, R431,
R434 to R437, R483, R520, R530). -/

namespace Sys2Proof.Machine

/-! ### Throttling (R436, R437, R438, R520, R530) -/

/-- The ladder of k (R436). -/
def ladder : List Nat := [1, 2, 3, 4, 5, 6, 7, 8, 10, 12, 16, 24, 32]

/-- The k of a number of steps above k = 1. -/
def ladderK (n : Nat) : Nat := ladder.getD n 32

/-- The step of the ladder that a k stands on. -/
def ladderStep (k : Nat) : Nat := (ladder.findIdx? fun e => e == k).getD 0

/-- Number of quarters. -/
abbrev quarters : List Nat := [0, 1, 2, 3]

/-- The throttle state of a quarter. -/
def State.quarter (s : State) (q : Nat) : Throttle := mget s.clk.qs {} q

/-- The throttle state of a quarter changed. -/
def State.modQuarter (s : State) (q : Nat) (f : Throttle → Throttle) : State :=
  { s with clk := { s.clk with qs := mmod s.clk.qs {} q f } }

/-- The least k that each coolant condition of R530 asks for, in the order of its table; the last two shed the load. -/
def coolK : List Nat := [2, 4, 8, 2, 4, 1, 1]

/-- The coolant request: the largest of the conditions in force. -/
def coolRequest (s : State) : Nat :=
  (List.range 7).foldl (fun a i => if (mget s.pow.cool {} i).active then max a (coolK.getD i 1) else a) 1

/-- The request of the power governor: the larger of its two (R520). -/
def govRequest (s : State) : Nat := max (ladderK s.pow.gov1ms) (ladderK s.pow.gov1s)

/-- THROTTLE_REQUEST of a quarter: K_MIN, or 1 where it asks for nothing (R438). -/
def controlRequest (s : State) (q : Nat) : Nat := max 1 (bits (rwGet s 0x61A0 (q + 1)).toNat 0 8)

/-- The requests in force for a quarter: thermal, coolant, power and control (R437). -/
def requests (s : State) (q : Nat) : List Nat :=
  [ladderK (s.quarter q).thermal, coolRequest s, govRequest s, controlRequest s q]

/-- The target k of a quarter (R437). -/
def throttleTarget (s : State) (q : Nat) : Nat := (requests s q).foldl max 1

/-- SOURCE of THROTTLE_STATUS: the first request, in the order of its codes, that sets the target (R439). -/
def throttleSource (s : State) (q : Nat) : Nat :=
  let t := throttleTarget s q
  if t = 1 then 0 else ((requests s q).findIdx? fun k => k == t).getD 0 + 1

/-- The root is locked to a meridian source or in holdover, and no change of its frequency is under way (R434). -/
def rootLocked (s : State) : Bool := !s.clk.coasting && s.clk.change.isNone

/-! ### The Meridian port (R430, R431, R442, R483) -/

/-- STATE of the port: 0 down, 1 degraded, 2 up. The port is down with no lane in either direction. -/
def portState (m : Meridian) : Nat :=
  if m.enabled && (m.rxM0 || m.rxM1) && (m.txM0 || m.txM1) then (if m.rxM0 && m.rxM1 && m.txM0 && m.txM1 then 2 else 1) else 0

/-- The port carries messages. -/
def portUp (s : State) : Bool := portState s.mer != 0

/-- The port changed: MERIDIAN_DOWN is raised when it goes down, and the steward feeds its watchdog for SELF_FEED_S after it has
come to up or degraded (R431, R483). -/
def setPort (s : State) (f : Meridian → Meridian) : State :=
  let a := portState s.mer
  let b := portState (f s.mer)
  let s := { s with mer := f s.mer }
  if a == b then s
  else if b == 0 then raise s .meridianDown []
  else { s with boot := { s.boot with
      fedAt := now s, selfFeedUntil := now s + 1000000 * cfgField s 0x22C0 1 8 8 } }

/-- Active transmit lanes in their order: false for M0, true for M1 (R423). -/
def Meridian.lanes (m : Meridian) : List Bool := (if m.txM0 then [false] else []) ++ if m.txM1 then [true] else []

/-- The port can transmit. -/
def Meridian.sends (m : Meridian) : Bool := m.enabled && !m.lanes.isEmpty

/-- The header of a frame: LANES_NEXT and SWITCH_SEQ name a switch to come, or the lanes now in use (R422, R430). -/
def Meridian.head (m : Meridian) (seq : BitVec 12) (units credits : Nat) : BitVec 96 :=
  let next := m.switchTx.getD (BitVec.ofNat 2 (b2n m.txM0 + 2 * b2n m.txM1), 0)
  BitVec.ofNat 96 (seq.toNat * 2 ^ 84 + m.seqRx.toNat * 2 ^ 72 + b2n m.nakDue * 2 ^ 71 + b2n m.downDue * 2 ^ 70 + units * 2 ^ 64
    + credits * 2 ^ 51 + next.1.toNat * 2 ^ 49 + next.2.toNat * 2 ^ 37)

/-- A frame goes out with ACK, a NAK that is due and buffer units returned to the far end; data frame n takes active lane n mod
A, and a frame without units is a control frame (R422, R423). -/
def Meridian.putFrame (m : Meridian) (seq : BitVec 12) (units : Nat) : Meridian :=
  let n := min m.owe 8191
  { m with
    owe := m.owe - n, nakDue := false, downDue := false, ackTx := m.seqRx
    wire := some { lane := if units = 0 then none else m.lanes[seq.toNat % m.lanes.length]?, head := m.head seq units n } }

/-- A new data frame, kept for replay. -/
def Meridian.putData (m : Meridian) (units : Nat) : Meridian :=
  let m := m.putFrame m.seqTx units
  { m with
    replay := m.replay ++ [{ seq := m.seqTx, units := BitVec.ofNat 5 units }], seqTx := m.seqTx + 1, outUnits := m.outUnits - units
    credits := m.credits - units }

/-- The lanes of a direction after a switch, and the events of those that rejoin (R430). -/
def switchTo (s : State) (rx : Bool) (lanes : BitVec 2) : State :=
  let old := if rx then (s.mer.rxM0, s.mer.rxM1) else (s.mer.txM0, s.mer.txM1)
  let s := setPort s fun m =>
    if rx then { m with rxM0 := lanes.getLsbD 0, rxM1 := lanes.getLsbD 1, switchRx := none }
    else { m with txM0 := lanes.getLsbD 0, txM1 := lanes.getLsbD 1, switchTx := none }
  let s := if lanes.getLsbD 0 && !old.1 then raise s .meridianRestored [b2n rx, 0] else s
  if lanes.getLsbD 1 && !old.2 then raise s .meridianRestored [b2n rx, 1] else s

/-- Messages fill data frames with no alignment, as long as the far end's buffer and the replay buffer of 4 µs have room (R423). -/
def pumpData : Nat → State → State
  | 0, s => s
  | n + 1, s =>
    let m := s.mer
    let u := min 16 m.outUnits
    if u = 0 || portState m = 0 || m.credits < u || 390 * m.lanes.length ≤ m.replay.length then s
    else
      let s := { s with mer := m.putData u }
      pumpData n (match s.mer.switchTx with
        | some (lanes, seq) => if seq == s.mer.seqTx then switchTo s false lanes else s
        | none => s)

/-- What waits at the port goes out: a NAK that no data frame carries in a control frame (R422, R423). -/
def pumpMer (s : State) : State :=
  let s := pumpData ((s.mer.outUnits + 15) / 16) s
  if s.mer.nakDue && s.mer.sends then { s with mer := s.mer.putFrame 0 0 } else s

/-- A response sent: its header and payload take 32 B and LENGTH bytes (R424, R426). -/
def respond (s : State) (r : Resp) : State :=
  pumpMer { s with mer :=
      { s.mer with
        outUnits := s.mer.outUnits + 2 + (r.payload.length + 15) / 16
        responses := s.mer.responses ++ [r], outSeq := s.mer.outSeq + 1 } }

/-! ### Changes of root frequency (R434, R435) -/

/-- The change of root frequency is decided: T of R435. -/
def decideChange (s : State) (src : Source) : State :=
  kaWatch { s with clk := { s.clk with change := some .decided, toward := src, began := now s } }

/-- The root follows a source without a change of frequency (R434). -/
def sourceOf (m1 : Bool) : Source := if m1 then .m1 else .m0

/-- A source is ready. -/
def Clocks.ready (c : Clocks) (m1 : Bool) : Bool := if m1 then c.readyM1 else c.readyM0

/-- Every link up or training goes down for a change of root frequency (R301, R435). -/
def linksDown (s : State) : State :=
  (List.range 32).foldl (fun s l => if (s.link l).state == 0 || (s.link l).state == 4 then s else linkDown s l) s

end Sys2Proof.Machine
end

