-- ==== Sys2Proof/Machine/Hall.lean ====
section
/-! DEFINITION. The hall: remote requests and replies at this module, barriers across modules, collective chunks, their
timeouts, and admission (R306 to R323, R374, R379 to R382, R386). -/

namespace Sys2Proof.Machine

/-! ### Holds (R386) -/

/-- A hold of a job received within the last 3 ms is current. -/
def holdCurrent (s : State) (job : Nat) : Bool := s.hall.holds.any fun h => h.job.toNat == job && now s < h.at_ + 3000

/-- A context holds its own job while it recovers, for at most HOLD_MAX. -/
def ownHold (s : State) (x : Ctx) : Bool :=
  x.rec_.recovering &&
    (match x.rec_.holdSince with
     | some t => now s < t + 10000 * cfgField s 0x22A0 1 0 11
     | none => false)

/-! ### Remote requests (R308 to R310, R374, R386) -/

/-- The tile a bin-space packet names in a context's rectangle. -/
def packetTile (d : CtxDef) (p : Packet) : Coord := ⟨d.x0 + binRelX p.offset.toNat, d.y0 + binRelY p.offset.toNat⟩

/-- The span of a packet lies where the destination accepts it: the context's region, or a tile of its rectangle (R308). -/
def packetInside (d : CtxDef) (p : Packet) : Bool :=
  if p.space == 0 then d.owns p.offset.toNat (64 * p.lines.toNat)
  else p.space == 2 && binInRect d p.offset.toNat

/-- The bin access of an inbound entry goes to its tile in the request class, as its granary port finds slots (R255, R309). -/
def sendInbound (s : State) (x : Nat) : State :=
  match mfind s.mem.txns x with
  | none => s
  | some t => pumpEntry (putEntry s x { t with done := 1 }) x

/-- Bin accesses that waited for a restart go on (R386). -/
def releaseInbound (s : State) (c : Nat) : State :=
  (s.mem.txns.filter fun e => !e.2.kind.own && e.2.ctx.toNat == c && !onMemory e.2 && e.2.done == 0).foldl
    (fun s e => sendInbound s e.1) s

/-- Inbound entries in use in one granary. -/
def inboundUsed (s : State) (north : Bool) : Nat :=
  (s.mem.txns.filter fun e => !e.2.kind.own && e.2.north == north).length

/-- The first mesh tag that no bin access from a granary port uses (R227). -/
def freeMeshTag (s : State) (x : Nat) (north : Bool) : Nat :=
  nextFree ((s.mem.txns.filter fun e => !e.2.kind.own && e.2.src.x == x && e.2.north == north).foldl
    (fun m e => mput m e.2.tag.toNat ()) ([] : AMap Unit))

/-- An accepted request takes an inbound entry; a bin access of a running context is sent to its tile. -/
def takeRequest (s : State) (l : Nat) (p : Packet) (c : Nat) (x : Ctx) : State :=
  let r := addTxn s
    { kind := if p.op == 2 then .inboundWrite else .inboundRead, ctx := BitVec.ofNat 4 c, epoch := epochOf s c
      north := !linkSouth l, src := packetTile x.cdef p
      tag := BitVec.ofNat 12 (freeMeshTag s (packetTile x.cdef p).x (!linkSouth l)), addr := BitVec.ofNat 64 p.offset.toNat
      len := 64 * p.lines.toNat, lines := packetLines p, done := 0, order := 0, packet := some p, link := l }
  if p.space == 2 && x.rec_.state == 1 then sendInbound r.2 r.1 else r.2

/-- REMOTE_REQUEST_ARRIVE: a request of another module that waits at a link input is accepted where exactly one live context
carries its job and it names memory or a tile of that context; otherwise, and for a context that is reset, it gets an error
reply. While the inbound table is full it stays in its buffer. Under the context's own recovery hold memory is served, and a bin
access waits (R298, R308, R309, R374, R386). -/
def execRemoteRequestArrive (l : Nat) (pk : Packet) (s : State) : Out :=
  if !waitsAt s l pk || !(pk.op == 0 || pk.op == 2) then .next s
  else if 8192 ≤ inboundUsed s (!linkSouth l) then .next s
  else
    let s := takeIn s l pk
    let refuse := sendReply s (linkSouth l) (replyPacket s pk 4)
    match jobCtx s pk.job.toNat with
    | none => .next refuse
    | some (c, x) =>
      if (x.rec_.state == 1 || ownHold s x) && packetInside x.cdef pk then .next (takeRequest s l pk c x) else .next refuse

/-! ### Replies (R307, R308, R310, R323, R379) -/

/-- An arrival discarded because of an old epoch (R368, R379). -/
def countStale (s : State) (c : Nat) : State :=
  (s.modTally c fun y => { y with stale := y.stale + 1 }).modRec c fun r => { r with stale := satAdd r.stale 1 65535 }

/-- An arrival accepted in the expiry cycle of a timeout (R368, R381). -/
def countLate (s : State) (c : Nat) : State :=
  (s.modTally c fun y => { y with late := y.late + 1 }).modRec c fun r => { r with late := satAdd r.late 1 16383 }

/-- The admission of a context aborts, and the context is reset with cause ADMISSION (R321, R323). -/
def stopAdmission (s : State) (cause : Nat) : State := stopCtx (abortAdm s cause) s.hall.admCtx.toNat 15 none []

/-- An entry whose request has left for another module and is not yet answered. -/
def awaitsReply (t : Txn) : Bool :=
  t.reply.isNone && (t.kind == .readRemote || t.kind == .collCopy || (t.kind == .writeRemote && !t.lines.isEmpty))

/-- A reply that its entry takes. A reply that frees an entry makes room for the next page of a copy. -/
def takeReply (s : State) (errs : List LineCheck) (x : Nat) (t : Txn) (pk : Packet) : State :=
  pumpCopies
    (match t.kind, pk.op.toNat with
     | .collCopy, 1 =>
       let s := { s with hall := { s.hall with admHeard := now s } }
       if t.link = admCopy then storeRows errs 64 (dropTxn s x) t.addr.toNat (packetLines pk)
       else writeDst (dropTxn s x) errs t.ctx.toNat t.link t.addr.toNat (packetLines pk)
     | .collCopy, _ => if admitting s t.ctx.toNat then stopAdmission (dropTxn s x) 1 else dropTxn s x
     | _, 1 => answerEntry s x t 3 (packetLines pk)
     | _, 3 => answerEntry s x t 5 []
     | _, _ => answerEntry s x t 0xD [])

/-- A packet that replies to the request of an entry. -/
def answers (t : Txn) (x : Nat) (p : Packet) : Bool :=
  (p.op == 1 || p.op == 3 || p.op == 4) && p.tag.toNat == x && p.epoch == t.epoch && awaitsReply t

/-- REMOTE_REPLY_ARRIVE: a reply that waits at a link input completes its entry where it has its epoch; one without an entry or with
another epoch is discarded and counted (R298, R310, R379). -/
def execRemoteReplyArrive (l : Nat) (pk : Packet) (errs : List LineCheck) (s : State) : Out :=
  if !waitsAt s l pk || !(pk.op == 1 || pk.op == 3 || pk.op == 4) then .next s
  else
    let s := takeIn s l pk
    let entry := (mfind s.mem.txns pk.tag.toNat).filter fun t => awaitsReply t && t.north == !linkSouth l
    match entry with
    | some t =>
      if t.epoch == pk.epoch then .next (takeReply (noteReports s errs) errs pk.tag.toNat t pk)
      else .next (countStale s t.ctx.toNat)
    | none =>
      match jobCtx s pk.job.toNat with
      | some (c, _) => .next (countStale s c)
      | none => .next s

/-! ### Barriers across modules (R316) -/

/-- The module one hop from another. -/
def stepCoord (s : State) (c : Nat) : Hop → Nat
  | .dim i minus => withDim c i ((coordDim c i + (if minus then dimSize s i - 1 else 1)) % dimSize s i)
  | .parent => withDim c (nodeDepth c - 1) 0
  | .child k => withDim c (nodeDepth c) k

/-- The parent of a module in the barrier tree: one hop toward the coordinate zero, dimension by dimension. -/
def hallParent (s : State) (c : Nat) : Option Nat := (firstHop s c 0).map (stepCoord s c)

/-- The children of this module in the barrier tree; every module of the declared hall is a member. -/
def hallChildren (s : State) : List Nat :=
  let own := ownCoord s
  if isTree s then (treeChildren s).map (treeChild s)
  else
    ((List.range 4).flatMap fun i => [stepCoord s own (.dim i false), stepCoord s own (.dim i true)]).dedup.filter fun q =>
      q != own && hallParent s q == some own

/-- Children whose arrive has been received. -/
def arrivedChildren (s : State) (c : Nat) : List Nat := mget s.hall.arrives [] c

/-- This module and every child have arrived. -/
def hallArrived (s : State) (c : Nat) : Bool :=
  s.hall.waiting.contains c && (hallChildren s).all fun q => (arrivedChildren s c).contains q

/-- A management packet of a barrier, sent in the plane of the North granary. -/
def barrierPacket (s : State) (c : Nat) (x : Ctx) (op dest : Nat) : State :=
  (sendPacket s false x.cdef.slotMask (plainPacket op x.cdef.job dest (ownCoord s) 0 0 0 0 (epochOf s c).toNat)).getD s

/-- One arrive goes toward the root when this module and every child have arrived. -/
def passArrive (s : State) (c : Nat) (x : Ctx) : State :=
  if hallArrived s c then
    match hallParent s (ownCoord s) with
    | some p => barrierPacket s c x 6 p
    | none => s
  else s

/-- A barrier packet of a job, from a module, that waits at a link input. -/
def findBarrier (s : State) (op : BitVec 4) (job src : Nat) : Option (Nat × Packet) :=
  findIn s fun p => p.op == op && p.job.toNat == job && p.src.toNat == src

/-- HALL_BARRIER_ARRIVE: the context's own barrier has completed on its mesh tree, or the arrive of a child that waits at a link
input is taken; one for a context that is being reset is absorbed (R316, R374, R382). -/
def execHallBarrierArrive (c : Nat) (child : Nat) (s : State) : Out :=
  match s.ctx c with
  | none => .next s
  | some x =>
    let runs := x.rec_.state == 1 && hallBarrier s c x
    if child == ownCoord s then
      if runs && x.run.arrived.contains (tkey x.cdef.x0 x.cdef.y0) && !x.run.releasing && !s.hall.waiting.contains c then
        .next (passArrive { s with hall := { s.hall with
          waiting := sadd s.hall.waiting c, waitSince := mput s.hall.waitSince c (timerStart s x.cdef.job) } } c x)
      else .next s
    else
      match findBarrier s 6 x.cdef.job child with
      | none => .next s
      | some (l, p) =>
        let s := takeIn s l p
        if runs && (hallChildren s).contains child && !(arrivedChildren s c).contains child then
          .next (passArrive { s with hall := { s.hall with arrives := mput s.hall.arrives c (sadd (arrivedChildren s c) child) } } c x)
        else .next s

/-- The release of a barrier at this module, passed on to its children. -/
def releaseHall (s : State) (c : Nat) (x : Ctx) : State :=
  let kids := hallChildren s
  let s := { s with hall := { s.hall with
    waiting := sdel s.hall.waiting c, waitSince := mdel s.hall.waitSince c, arrives := mdel s.hall.arrives c } }
  let s := kids.foldl (fun s q => barrierPacket s c x 7 q) s
  startRelease s c x.cdef

/-- The release is there: at the root once every arrive has come, elsewhere as the parent's packet at a link input, which is taken. -/
def takeRelease (s : State) (c : Nat) (x : Ctx) : Option State :=
  match hallParent s (ownCoord s) with
  | none => if hallArrived s c then some s else none
  | some p => (findBarrier s 7 x.cdef.job p).map fun f => takeIn s f.1 f.2

/-- HALL_BARRIER_RELEASE: the release goes down the tree; one for a context that does not wait for it is absorbed (R316, R374). -/
def execHallBarrierRelease (c : Nat) (s : State) : Out :=
  match s.ctx c with
  | none => .next s
  | some x =>
    match takeRelease s c x with
    | none => .next s
    | some s => .next (if x.rec_.state == 1 && s.hall.waiting.contains c then releaseHall s c x else s)

/-- The barrier and collective timeout, BARRIER_BASE + 2 × D × 3 µs (R316, R382). -/
def hallTimeout (s : State) : Nat := 100 * cfgField s 0x2290 1 24 8 + 6 * diameter s

/-- BARRIER_TIMEOUT_EXPIRY: a release in the expiry cycle is accepted and counted; otherwise the context stops. A current hold
suspends the timeout (R316, R381, R382, R386). -/
def execBarrierTimeoutExpiry (c : Nat) (s : State) : Out :=
  match s.ctx c with
  | none => .next s
  | some x =>
    if x.rec_.state != 1 || !s.hall.waiting.contains c || holdCurrent s x.cdef.job
        || now s < mget s.hall.waitSince 0 c + hallTimeout s then .next s
    else
      match takeRelease s c x with
      | some s => .next (releaseHall (countLate s c) c x)
      | none =>
        .next (stopCtx (raise { s with hall := { s.hall with waiting := sdel s.hall.waiting c, waitSince := mdel s.hall.waitSince c } }
          .barrierTimeout [c]) c 0x0A none [])

/-! ### Collective chunks (R317 to R319) -/

/-- The piece a chunk carries. -/
def chunkPiece (p : Packet) : Piece :=
  BitVec.ofNat 8192 (((List.range 16).zip p.data).foldl (fun n l => n + l.2.toNat * 2 ^ (512 * l.1)) 0)

/-- Child index of a sender in a tree. -/
def childIndex (s : State) (src : Nat) : Nat := coordDim src (nodeDepth (ownCoord s))

/-- A contribution to a ring or chain: this member's operand is combined on the right, and the piece goes on to the next
member or is the stage's result; none while the operand is not there yet (R318). -/
def combineLine (s : State) (errs : List LineCheck) (c : Nat) (x : Ctx) (k : Coll) (n : Nat) (e : CollEnt) (t q : Nat) (v : Piece) (p : Bool) :
    Option State :=
  let d := x.cdef
  let u := (collDims s e).getD t 0
  let own : Option (State × Piece × Bool) :=
    if t = 0 then some (srcPiece s errs d e q) else (mfind k.work (workKey t q)).map fun w => (s, w, false)
  own.map fun o =>
    let s := o.1
    if p || o.2.2 then collPoison s c
    else
      let w := pieceOp e.op.toNat v o.2.1
      let r := stageRegion s e t
      let last := if dimWrap s u then ownPos s u == chunkNum r.1 r.2 (dimSize s u) q else ownPos s u + 1 == dimSize s u
      if last then shareResult (stageResult s errs c d n e t q w) d n e t q w
      else sendPiece s d n e (plusOf s u) t 0 q w false

/-- A contribution of a tree child: when those of every child are there, they are combined with the own piece in ascending
index (R318). -/
def combineTree (s : State) (errs : List LineCheck) (c : Nat) (x : Ctx) (k : Coll) (n : Nat) (e : CollEnt) (q child : Nat) (v : Piece) (p : Bool) :
    State :=
  if p then collPoison s c
  else
    let key (i : Nat) : Nat := 32 * q + i
    let held := mput k.staged (key child) v
    let kids := treeChildren s
    if kids.all fun i => (mfind held (key i)).isSome then
      match srcPiece s errs x.cdef e q with
      | (s, o, po) =>
        let s := modColl s c n fun k => { k with staged := kids.foldl (fun m i => mdel m (key i)) held }
        if po then collPoison s c
        else treeUp s errs c x.cdef n e q (kids.foldl (fun a i => pieceOp e.op.toNat a (mget held 0 (key i))) o) false
    else modColl s c n fun k => { k with staged := held }

/-- The result of a reduction on its way to the other members (R318). -/
def takeResult (s : State) (errs : List LineCheck) (c : Nat) (x : Ctx) (n : Nat) (e : CollEnt) (t q : Nat) (v : Piece) (p : Bool) : State :=
  let d := x.cdef
  if isTree s then treeResult s errs c d n e q v p
  else
    let u := (collDims s e).getD t 0
    let s := stageResult s errs c d n e t q v
    if dimWrap s u then
      let r := stageRegion s e t
      if (ownPos s u + 1) % dimSize s u == chunkNum r.1 r.2 (dimSize s u) q then s else sendPiece s d n e (plusOf s u) t 1 q v p
    else if 0 < ownPos s u then sendPiece s d n e (minusOf s u) t 1 q v p
    else s

/-- A gathered or broadcast piece: stored, and passed on along its dimension and every later one (R317, R318). -/
def takeGather (s : State) (errs : List LineCheck) (c : Nat) (x : Ctx) (n : Nat) (e : CollEnt) (src t q : Nat) (v : Piece) (p : Bool) : State :=
  let d := x.cdef
  let s := storePiece s errs c d n e q v p
  if isTree s then treeFlood s d n e src q v p
  else
    let u := (collDims s e).getD t 0
    let s :=
      if dimWrap s u then
        if (ownPos s u + 1) % dimSize s u == originPos s e t q then s else sendPiece s d n e (plusOf s u) t 1 q v p
      else if coordDim src u < ownPos s u then
        if ownPos s u + 1 < dimSize s u then sendPiece s d n e (plusOf s u) t 1 q v p else s
      else if 0 < ownPos s u then sendPiece s d n e (minusOf s u) t 1 q v p
      else s
    spread s d n e (t + 1) q v p

/-- What a collective makes of a chunk; none while it has to wait for this member's operand. -/
def takeChunk (s : State) (errs : List LineCheck) (c : Nat) (x : Ctx) (k : Coll) (e : CollEnt) (pk : Packet) : Option State :=
  let n := k.entry.toNat
  let q := pk.offset.toNat / 1024
  let t := pk.tag.toNat / 2 % 8
  let p := pk.poison.any id
  let v := chunkPiece pk
  if e.kind.toNat < 2 then
    if pk.tag.toNat % 2 = 0 then
      if isTree s then some (combineTree s errs c x k n e q (childIndex s pk.src.toNat) v p) else combineLine s errs c x k n e t q v p
    else some (takeResult s errs c x n e t q v p)
  else some (takeGather s errs c x n e pk.src.toNat t q v p)

/-- The key of a chunk among those a collective has handled. -/
def chunkKey (s : State) (pk : Packet) : Nat :=
  ((pk.offset.toNat / 1024 * 2 + pk.tag.toNat % 2) * 8 + pk.tag.toNat / 2 % 8) * 32
    + (if isTree s then childIndex s pk.src.toNat else 0)

/-- What becomes of a chunk that waits at a link input: none while it has to wait on. It is combined or stored and goes on; one
already handled, or for a context that does not run, is discarded (R318, R319, R374, R386). -/
def takeChunkIn (s : State) (errs : List LineCheck) (l : Nat) (pk : Packet) : Option State :=
  let gone := some (takeIn s l pk)
  match jobCtx s pk.job.toNat with
  | none => gone
  | some (c, x) =>
    if x.rec_.state != 1 || replaying s c then gone
    else
      let n := pk.collId.toNat / 1024
      match s.hall.colls.find? (fun k => k.ctx.toNat == c && k.entry.toNat == n), x.cdef.colls[n]? with
      | some k, some e =>
        let key := chunkKey s pk
        if k.seen.contains key then gone
        else
          (takeChunk (noteReports s errs) errs c x k e pk).map fun s =>
            modColl (takeIn s l pk) c n fun k => { k with seen := sadd k.seen key, heard := timerStart s x.cdef.job }
      | _, _ => none

/-- COLLECTIVE_CHUNK_ARRIVE: a chunk that waits at a link input is taken, or waits on where its collective has not started here or the
operand it needs is not there yet (R318, R319, R374, R386). -/
def execCollectiveChunkArrive (pk : Packet) (errs : List LineCheck) (s : State) : Out :=
  if pk.op != 5 then .next s
  else
    match findIn s fun p => p == pk with
    | none => .next s
    | some (l, _) => .next ((takeChunkIn s errs l pk).getD s)

/-- Arrivals of a stage and phase so far. -/
def seenOf (k : Coll) (t phase : Nat) : Nat := (k.seen.filter fun y => y / 32 % 8 == t && y / 256 % 2 == phase).length

/-- The neighbour from which a gathered piece comes: along the last used dimension in which its origin lies elsewhere, or along
the tree. -/
def gatherFrom (s : State) (e : CollEnt) (q : Nat) : Nat :=
  let own := ownCoord s
  if isTree s then
    let origin :=
      if e.kind == 3 then e.source.toNat
      else ((treeMembers s (treeDepth s) 0)[chunkNum 0 e.pieces (memberIndex s e).1 q]?).getD own
    ((firstHop s own origin).map (stepCoord s own)).getD own
  else
    let ds := collDims s e
    match ((List.range ds.length).filter fun t => originPos s e t q != ownPos s (ds.getD t 0)).getLast? with
    | none => own
    | some t =>
      let u := ds.getD t 0
      if dimWrap s u then withDim own u ((ownPos s u + dimSize s u - 1) % dimSize s u)
      else if originPos s e t q < ownPos s u then minusOf s u
      else plusOf s u

/-- The member from which a collective still waits for a chunk (R368, R382). -/
def silentMember (s : State) (e : CollEnt) (k : Coll) : Nat :=
  let own := ownCoord s
  if e.kind.toNat < 2 then
    if isTree s then
      match (treeChildren s).find? fun i => (k.seen.filter fun y => y / 256 % 2 == 0 && y % 32 == i).length < e.pieces with
      | some i => treeChild s i
      | none => treeParent s
    else
      let ds := collDims s e
      let low (u : Nat) : Nat := withDim own u ((ownPos s u + dimSize s u - 1) % dimSize s u)
      ((List.range ds.length).findSome? fun t =>
        let u := ds.getD t 0
        let n := stageNeeds s e t
        if seenOf k t 0 < n.1 then some (low u)
        else if seenOf k t 1 < n.2 then some (if dimWrap s u then low u else plusOf s u)
        else none).getD own
  else
    let b := ownBlock s e
    match (List.range e.pieces).find? fun q => !(b.1 ≤ q && q < b.1 + b.2) && !(k.seen.any fun y => y / 512 == q) with
    | some q => gatherFrom s e q
    | none => own

/-- COLLECTIVE_TIMEOUT_EXPIRY: no chunk of a collective has come in time, and the context stops; a chunk that waits at a link input in
the expiry cycle is taken and counted, and a current hold suspends the timeout (R382, R386). -/
def execCollectiveTimeoutExpiry (c : Nat) (e : BitVec 6) (errs : List LineCheck) (s : State) : Out :=
  match s.ctx c with
  | none => .next s
  | some x =>
    match s.hall.colls.find? (fun k => k.ctx.toNat == c && k.entry == e), x.cdef.colls[e.toNat]? with
    | some k, some ent =>
      if x.rec_.state != 1 || collDone s x k || k.replay || holdCurrent s x.cdef.job || now s < k.heard + hallTimeout s then .next s
      else
        let late := (findIn s fun p => p.op == 5 && p.job.toNat == x.cdef.job && p.collId.toNat / 1024 == e.toNat).bind fun f =>
          takeChunkIn s errs f.1 f.2
        match late with
        | some s => .next (countLate s c)
        | none => .next (stopCtx (raise s .collectiveTimeout [c, e.toNat, silentMember s ent k]) c 0x0B none [])
    | _, _ => .next s

/-! ### Admission (R321 to R323) -/

/-- Copy reads of a context that are not answered yet. -/
def copyReads (s : State) (c : Nat) : List Txn := (s.mem.txns.filter fun e => e.2.kind == .collCopy && e.2.ctx.toNat == c).map (·.2)

/-- ADMISSION_LOAD_DONE: every piece of the donor's versioned range stands in slot 0, and step t may be replayed (R322). -/
def execAdmissionLoadDone (s : State) : Out :=
  let c := s.hall.admCtx.toNat
  match s.ctx c with
  | none => .next s
  | some x =>
    if s.hall.admState == 1 && s.hall.admSlot.isSome && admPieces x.cdef ≤ s.hall.admNext && (copyReads s c).isEmpty then
      .next { s with hall := { s.hall with admState := 2 } }
    else .next s

/-- Digest of a tensor as it was written through the write view (R322, R419). -/
def viewDigests (l : List TallyEnt) : List DonorEntry :=
  (l.filter fun e => e.viewLines != 0).map fun e => ⟨e.tensor, BitVec.ofNat 32 e.viewLines, e.viewDigest⟩

/-- Two tallies agree on every tensor written through the write view. -/
def sameDigests (a b : List DonorEntry) : Bool :=
  let b := b.filter fun e => e.viewLines != 0
  a.length == b.length && a.all fun e => b.contains e

/-- ADMISSION_REPLAY_DONE: the replayed step has ended and is matched with the donor's tally: equal digests commit version t and
end the admission, others abort it, and so does a tally that the donor no longer holds (R322, R419). -/
def execAdmissionReplayDone (donor : DonorTally) (s : State) : Out :=
  let c := s.hall.admCtx.toNat
  match s.ctx c with
  | none => .next s
  | some x =>
    if !(s.hall.admState == 2 || s.hall.admState == 3) || !commitReady s c x then .next s
    else
      match donor with
      | .pending =>
        .next (if s.hall.admState == 2 then { s with hall := { s.hall with admState := 3, admHeard := now s } } else s)
      | .missing => .next (stopAdmission s 4)
      | .held l =>
        if sameDigests (viewDigests (recordEntries x.tally)) l then
          let s := { s with hall := { s.hall with admState := 4 } }
          .next ((commitStop s c x).getD
            (raise ((commitVersion s c x).modRec c fun r => { r with barred := false }) .admissionDone [c]))
        else .next (stopAdmission s 2)

/-- The donor has been silent for ADMIT_TIMEOUT: on the handshake, on a copy read, or on its tally (R323, R325). -/
def donorSilent (s : State) : Bool :=
  let limit := 1000 * cfgField s 0x2290 1 16 8
  let reads := (copyReads s s.hall.admCtx.toNat).any fun t => max t.since s.hall.admHeard + limit ≤ now s
  let asked := s.hall.admHeard + limit ≤ now s
  match s.hall.admState.toNat with
  | 1 => if s.hall.admSlot.isNone then asked else reads
  | 2 => reads
  | 3 => asked
  | _ => false

/-- ADMIT_TIMEOUT_EXPIRY: the donor is silent for ADMIT_TIMEOUT before the match is complete (R323). -/
def execAdmitTimeoutExpiry (s : State) : Out := .next (if donorSilent s then stopAdmission s 1 else s)

/-- ADMISSION_HANDSHAKE: the donor answers an admitting module with the slot that holds step t − 1 (R322). -/
def execAdmissionHandshake (job : BitVec 16) (src : BitVec 20) (step : BitVec 64) (s : State) : Out :=
  match jobCtx s job.toNat with
  | none => .next s
  | some (c, x) =>
    match (verRec s x.cdef).slotOf (step - 1).toNat with
    | some i =>
      .next ((sendPacket s false x.cdef.slotMask
        (plainPacket 8 job.toNat src.toNat (ownCoord s) 0 i 0 0 (epochOf s c).toNat)).getD s)
    | none => .next s

end Sys2Proof.Machine
end

