-- ==== Sys2Proof/Machine/Sections.lean ====
section
/-! DEFINITION. Sections: the end of a section with its check for residue, and the load of a tile (R181, R199 to R206, R317,
R538 to R542). -/

namespace Sys2Proof.Machine

/-- Traffic of a context that a section end waits for: items, contributions, results and messages (R202). -/
def itemFlit (c : Nat) (f : Flit) : Bool :=
  f.ctx.toNat == c && ((f.cls == .forward && f.op == 0) || (f.cls == .collective && (f.op == 7 || f.op == 8)) || f.op == 6)

/-- Every engine of a context is done with the section (R202). -/
def sectionDrained (s : State) (c : Nat) (d : CtxDef) : Bool :=
  (d.keys.all fun k =>
    let t := s.tile k
    (t.core.run == .secEnd || t.core.run == .off) && t.dma.descs.isEmpty && t.mx.idle && t.spill.isEmpty && t.bin.staging.isEmpty
    && ((List.range 32).all fun e => (List.range 5).all fun i => (staged s k e i).isEmpty))
  && !(s.mesh.flits.any fun f => itemFlit c f.2)

/-- A channel holds an item, in its store or its spill segments. -/
def chanResidue (t : Tile) (ch : Nat) : Bool :=
  let c := t.cst ch
  chUsed (t.chan ch) && !chOut (t.chan ch) && !(c.store.isEmpty && c.early.isEmpty && c.binSeg.isEmpty && c.memSeg.isEmpty)

/-- DETAIL of what a tile is left with at a section end, if anything (R199). -/
def residue (t : Tile) : Option Nat :=
  let ch := (List.range 32).find? (chanResidue t)
  let mail := !t.dma.mailbox.isEmpty
  let part := t.units.any fun u => u.2.tok.isSome || u.2.held.isSome
  if ch.isSome || mail || part then some (ch.getD 0 + 32 * b2n mail + 64 * b2n part) else none

/-- The program image of a context, read where it stands. -/
def imageOf (s : State) (d : CtxDef) : Rd := imgRd s d.imgBase

/-- The section that follows (R200). -/
def nextSection (x : Ctx) : Nat := (x.run.section_ + 1) % max 1 x.cdef.sections

/-- Credits of channels that end with their section (R190). -/
def creditFlit (c : Nat) (f : Flit) : Bool := f.ctx.toNat == c && f.op == 1 && (f.cls == .forward || f.cls == .collective)

/-- The credits of a section that ends: those in flight belong to channels that are gone. -/
def dropCredits (s : State) (c : Nat) : State :=
  { s with mesh := { s.mesh with flits := s.mesh.flits.filter fun f => !creditFlit c f.2 } }

/-- What a section end does: banks gated, whatever the loader says of the next section, its reduction tables in the routers, its load
circuits set up, collectives started (R181, R203, R247, R317, R542, notes/assumptions/95.md). -/
def leaveSection (s : State) (errs : List LineCheck) (c : Nat) (x : Ctx) (reds : Reds) : State :=
  let d := x.cdef
  let sec := nextSection x
  let s := d.tiles.foldl (fun s p => s.modTile (ckey p) fun t =>
    { gateTile s d sec p t with loaded := false, owed := t.owed.filter fun e => e.1 % 4 == 2 }) s
  let s := setLoadCircuits (dropCredits (putReds s d reds) c) c d
  let s := s.modRun c fun u => { u with phase := .loading, section_ := sec, arrived := [], releasing := false, heard := [], released := false }
  ((List.range d.colls.length).filter fun n => (d.colls[n]?.map (·.startSec)) == some x.run.section_).foldl
    (fun s n => startColl s errs c n) s

/-- SECTION_END: every tile has executed `secend` and everything of the section has drained; what is left raises
SECTION_RESIDUE, and otherwise the next section's load begins (R199, R202, R203, R317). -/
def execSectionEnd (c : Nat) (reds : List (Nat × List (BitVec 64))) (errs : List LineCheck) (s : State) : Out :=
  match s.ctx c with
  | none => .next s
  | some x =>
    let some_ := x.cdef.keys.any fun k => (s.tile k).core.run == .secEnd
    if x.rec_.state == 1 && x.run.phase == .running && x.run.released && some_ && sectionDrained s c x.cdef then
      match x.cdef.tiles.findSome? fun p => (residue (s.tile (ckey p))).map fun n => (p, n) with
      | some (p, n) => .next (takeExc s p 0x0C (s.tile (ckey p)).core.pc.toNat false n)
      | none => .next (leaveSection (noteReports s errs) errs c x reds)
    else .next s

/-- Every tile of a context is loaded. -/
def allLoaded (s : State) (d : CtxDef) : Bool := d.keys.all fun k => (s.tile k).loaded

/-- How a tile stands after its load: before the first step epoch, held by a pause, or running (R206, R429). -/
def entryRun (x : Ctx) : RunState :=
  if x.tally.startUs.isNone then .entryWait else if x.run.holds then .held else .running

/-- SECTION_ENTRY: a tile's record is loaded and its entry instruction issues; a section that the loader refuses does not start,
the circuits of the load are torn down before the first one issues, a pending move is carried out first, a section that a
collective writes for waits for it, and a scale record that carries poison is consumed by the load (R152, R201, R203, R206,
R317, R541). -/
def execSectionEntry (t : Coord) (s : State) : Out :=
  match ctxAt s t with
  | none => .next s
  | some (c, x) =>
    let k := ckey t
    let tl := s.tile k
    let d := x.cdef
    let r := imageOf s d
    if x.rec_.state == 1 && x.run.phase == .loading && !tl.loaded && tl.moveStage = 0 && !moveReady s k
        && (sectionBad (heldReds s d) r d.w d.h x.run.section_).isNone && sectionFree s c x x.run.section_ then
      if delayPoison s x (newDelays d r (recOff r d.w x.run.section_ (t.x - d.x0) (t.y - d.y0)) tl.delays) then
        .next (stopCtx s c 5 none [])
      else
      let s := dropLoadCircuits s c d
      let s := markFallow (s.setTile k (loadRecord (delayHist s x) (heldReds s d) r d x.run.section_ (t.x - d.x0) (t.y - d.y0) (entryRun x) tl)) t
      .next (if allLoaded s d then s.modRun c fun u => { u with phase := .running } else s)
    else .next s

end Sys2Proof.Machine
end

