-- ==== Sys2Proof/Machine/Recovery.lean ====
section
/-! DEFINITION. Hangs, context resets and recovery: windows, stop orders, the end of a context reset and its outcome, the
restart, transaction deadlines and recovery holds (R366 to R396). -/

namespace Sys2Proof.Machine

/-! ### Hangs and stalls (R370 to R372) -/

/-- The smallest of some keys. -/
def minKey (l : List Nat) : Nat := l.foldl (fun m k => if k < m then k else m) (l.headD 0)

/-- HANG_RECORD of a wait cycle (R371). -/
def hangWord (s : State) (x : Ctx) (cyc : List Nat) : DWord :=
  let k := minKey cyc
  let p := keyXY k
  let es := (mfind x.rec_.edges k).getD []
  let e := es.find? fun e => cyc.contains e.peer
  BitVec.ofNat 64 ((p.x - x.cdef.x0) % 128 * 2 ^ 57 + (p.y - x.cdef.y0) % 64 * 2 ^ 51
    + (match e with
       | some e => e.ch.toNat * 2 ^ 46 + b2n e.credit * 2 ^ 45
       | none => 0)
    + min cyc.length 255 * 2 ^ 37 + now s % 2 ^ 37)

/-- A wait cycle persists: every tile of it is still blocked, and no unblocked report of one has reached the engine (R207, R370). -/
def cycleStands (s : State) (x : Ctx) (cyc : List Nat) : Bool :=
  cyc.all fun k => blocked s x.cdef k && !x.rec_.reports.any fun e => e.1 == k && e.2.isEmpty

/-- HANG_WINDOW_EXPIRY: a closed wait cycle has lasted 65,536 tile cycles of the slowest quarter, and the context is stopped;
where the cycle no longer stands, or an unblocked report has come in the same cycle, the window ends (R20, R370, R371). -/
def execHangWindowExpiry (c : Nat) (s : State) : Out :=
  match s.ctx c with
  | none => .next s
  | some x =>
    match x.rec_.hang with
    | none => .next s
    | some cyc =>
      if !watched x || x.rec_.slow < x.rec_.hangAt + 65536 then .next s
      else if !cycleStands s x cyc then .next (s.modRec c fun r => { r with hang := none })
      else
        let s := { s with hangRec := mput s.hangRec c (hangWord s x cyc) }
        .next (stopCtx (raise s .contextHung [c]) c 2 none [])

/-- An interval that does not count toward a stall: draining or paused, waiting for the step epoch, or waiting in a barrier or
collective under its own timeout or a hold (R372). -/
def stallExempt (s : State) (c : Nat) (x : Ctx) : Bool :=
  x.run.holds || (x.run.phase == .sealed_ && !mayBegin s c (x.run.step + 1))
  || (!mayBegin s c x.run.step && x.cdef.keys.any fun k => (s.tile k).core.run == .entryWait)
  || s.hall.waiting.contains c
  || s.hall.colls.any fun k => k.ctx.toNat == c && !collDone s x k

/-- What shows the activity of a tile: instructions issued, items moved, DMA transactions and matrix instructions completed (R372). -/
def tileActivity (t : Tile) : List Nat :=
  let ch := t.chst.flatMap fun e =>
    [e.2.seqOut.toNat, e.2.seqIn.toNat, e.2.credits, e.2.store.length, e.2.early.length, e.2.binSeg.length, e.2.memSeg.length]
  [t.core.issued, t.dma.descs.length, (t.dma.descs.map fun e => e.2.done).sum, t.dma.txns.length, t.dma.mailbox.length, t.mx.queue.length,
    t.mx.arrayQ.length, t.mx.loadQ.length, t.mx.drainQ.length, t.mx.nextNum, t.mx.rows.length, t.mx.outBytes.length, t.mx.inBytes.length,
    t.mx.loadBytes.length] ++ ch

/-- What shows the activity of a context: its tiles, its barrier and its collectives (R372). -/
def ctxActivity (s : State) (c : Nat) (x : Ctx) : List Nat :=
  [x.run.arrived.length, b2n x.run.releasing, x.run.heard.length, b2n x.run.released, x.run.section_, b2n (s.hall.waiting.contains c),
    (arrivedChildren s c).length]
  ++ ((s.hall.colls.filter fun k => k.ctx.toNat == c).flatMap fun k => [k.entry.toNat, k.seen.length, k.copyLeft.length])
  ++ x.cdef.keys.flatMap fun k => tileActivity (s.tile k)

/-- STALL_WINDOW_EXPIRY: nothing has happened in a running context for 2^STALL_LOG2 tile cycles of its slowest quarter (R20,
R372, R383). -/
def execStallWindowExpiry (c : Nat) (s : State) : Out :=
  match s.ctx c with
  | none => .next s
  | some x =>
    if x.rec_.state == 1 && !stallExempt s c x && x.rec_.activeAt + 2 ^ cfgField s 0x22A0 1 11 5 ≤ x.rec_.slow then
      .next (stopCtx (raise s .contextStalled [c]) c 3 none [])
    else .next s

/-! ### Stop orders (R276, R373, R374, R386) -/

/-- A tile stopped by a stop order: its queues, messages, descriptors and matrix work are discarded and the array ramps down. -/
def stopTile (t : Tile) : Tile :=
  { t with
    core := { t.core with run := if t.core.run == .off then .off else .stopped, wait := none, timed := none }
    dma := {}
    chst := []
    units := []
    owed := []
    spill := []
    unreport := false
    bin := { t.bin with staging := [], trace := [] }
    mx := { t.mx with
      queue := [], arrayQ := [], loadQ := [], drainQ := [], rows := [], drainBuf := [], outBytes := [], inBytes := []
      loadBytes := [] }
    ramp := { t.ramp with target := 0 }
    reported := false }

/-- The recovery of a linked context proceeds by itself: its image is admissible and its target is the newest version (R386). -/
def selfRecovers (s : State) (x : Ctx) : Bool :=
  x.rec_.recovering && (!x.cdef.linked || (x.cdef.admissible && x.rec_.target == some (newestStep s x)))

/-- Entries of the mesh that belong to the tiles of a context are cleared. -/
def clearRouters (s : State) (d : CtxDef) : State :=
  let mine (k : Nat) : Bool := d.has (keyXY k)
  { s with mesh := { s.mesh with
    flits := s.mesh.flits.filter fun f => !(barrierFlit f.2 && d.has f.2.src)
    reduce := s.mesh.reduce.filter fun e => !mine (e.1 / 32)
    staging := s.mesh.staging.filter fun e => !mine (e.1 / 256)
    branch := s.mesh.branch.filter fun e => !mine (e.1 / 256)
    circuits := s.mesh.circuits.filter fun e => !mine (e.1 / 8) } }

/-- An entry placed among others in the order of acceptance. -/
def insertEntry (e : Nat × Txn) : List (Nat × Txn) → List (Nat × Txn)
  | [] => [e]
  | f :: l => if e.2.order ≤ f.2.order then e :: f :: l else f :: insertEntry e l

/-- Entries in the order of acceptance (R263). -/
def inOrder (l : List (Nat × Txn)) : List (Nat × Txn) := l.foldr insertEntry []

/-- The granary's treatment of a context: copies in progress and accepted writes complete, in the order of acceptance, reads are
discarded, entries and collectives end (R263, R276, R373). -/
def stopGranary (s : State) (errs : List LineCheck) (c : Nat) (x : Ctx) (north : Bool) : State :=
  let mine (k : PageCopy) : Bool := k.ctx.toNat == c && (k.page % 16 < 8) == north
  let s := noteReports s errs
  let s := (s.mem.copies.filter mine).foldl (fun s k => copyPage s errs x.cdef k.page) s
  let s := { s with mem := { s.mem with copies := s.mem.copies.filter fun k => !mine k } }
  let own := s.mem.txns.filter fun e => e.2.kind.own && e.2.ctx.toNat == c && e.2.north == north
  let s := (inOrder own).foldl (fun s e => dropTxn (storeEntry s errs e.2) e.1) s
  { s with hall := { s.hall with
    colls := s.hall.colls.filter fun k => k.ctx.toNat != c
    waiting := sdel s.hall.waiting c
    arrives := if selfRecovers s x then s.hall.arrives else mdel s.hall.arrives c } }

/-- A link attachment's treatment of a context: inbound requests are answered with error replies, but under a recovery that a
hold covers memory goes on being served and bin accesses wait (R374, R386). -/
def stopLinks (s : State) (c : Nat) (x : Ctx) (north : Bool) : State :=
  let mine := s.mem.txns.filter fun e => !e.2.kind.own && e.2.ctx.toNat == c && e.2.north == north
  if x.cdef.linked && selfRecovers s x then
    mine.foldl (fun s e =>
      if onMemory e.2 then s else { s with mem := { s.mem with txns := mput s.mem.txns e.1 { e.2 with done := 0, sent := 0, parts := [] } } }) s
  else
    mine.foldl (fun s e =>
      let s := dropTxn s e.1
      match e.2.packet with
      | some p => sendReply s (!e.2.north) (replyPacket s p 4)
      | none => s) s

/-- An engine has done its part of a context reset. -/
def stopDone (s : State) (c : Nat) (e : StopEngine) : State :=
  s.modRec c fun r => { r with stopDone := if r.stopDone.contains e then r.stopDone else e :: r.stopDone }

/-- CONTEXT_STOP_ORDER: an engine receives the stop order of a context and treats its work; a move copy of a tile completes
first (R373). -/
def execContextStopOrder (c : Nat) (e : StopEngine) (errs : List LineCheck) (s : State) : Out :=
  match s.ctx c with
  | none => .next s
  | some x =>
    if x.rec_.state != 2 || x.rec_.stopDone.contains e then .next s
    else
      match e with
      | .tiles =>
        if x.cdef.keys.any fun k => (s.tile k).moveStage != 0 then .next s
        else .next (stopDone (x.cdef.keys.foldl (fun s k => s.modTile k stopTile) s) c e)
      | .routers =>
        let s := clearRouters (dropLoadCircuits s c x.cdef) x.cdef
        .next (stopDone (s.modRun c fun r => { r with arrived := [], releasing := false, heard := [], released := false }) c e)
      | .granaryN => .next (stopDone (stopGranary s errs c x true) c e)
      | .granaryS => .next (stopDone (stopGranary s errs c x false) c e)
      | .linksN => .next (stopDone (stopLinks s c x true) c e)
      | .linksS => .next (stopDone (stopLinks s c x false) c e)
      | .steward => .next (stopDone (leavePrev s c) c e)

/-! ### The end of a context reset (R181, R366, R373, R375, R384, R387, R393) -/

/-- Every engine has stopped, and nothing of the context is left in flight (R373, R375). -/
def resetDrained (s : State) (c : Nat) (x : Ctx) : Bool :=
  [StopEngine.tiles, .routers, .granaryN, .granaryS, .linksN, .linksS, .steward].all x.rec_.stopDone.contains
  && !(s.mem.txns.any fun e => e.2.kind.own && e.2.ctx.toNat == c)
  && !(s.mesh.flits.any fun f => f.2.ctx.toNat == c && f.2.cls != .management)

/-- A context is removed: plots, memory, links and shares are free again (R454). -/
def removeCtx (s : State) (c : Nat) (x : Ctx) : State :=
  let s := leavePrev s c
  let s := (s.mem.txns.filter fun e => e.2.ctx.toNat == c).foldl (fun s e => dropTxn s e.1) s
  let s := x.cdef.keys.foldl (fun s k => s.modTile k fun t =>
    { t with core := { t.core with run := .off, halted := false } }) s
  { s with
    ctxs := mdel s.ctxs c
    mem := { s.mem with copies := s.mem.copies.filter fun k => k.ctx.toNat != c }
    hall := { s.hall with
      colls := s.hall.colls.filter fun k => k.ctx.toNat != c, waiting := sdel s.hall.waiting c, arrives := mdel s.hall.arrives c } }

/-- The context is stopped with a cause; RESTART and ROLLBACK look at the cause (R366, R367). -/
def stopOutcome (s : State) (c cause : Nat) : State :=
  s.modRec c fun r => { r with state := 4, cause := BitVec.ofNat 5 cause, recovering := false, target := none, holdSince := none }

/-- The version record can be read: the read succeeds and delivers no poison (R285, R384). -/
def recordHeld (s : State) (d : CtxDef) (readable : Bool) : Bool := readable && !recordLost s d

/-- Versions that a record still keeps among the remembered step boundaries. -/
def keepCommits (s : State) (d : CtxDef) (l : List (DWord × Nat)) : List (DWord × Nat) :=
  l.filter fun e => ((verRec s d).slotOf e.1.toNat).isSome

/-- The version record rewritten to a target; none where no committed slot holds it (R282, R384). -/
def rollBack (s : State) (c : Nat) (x : Ctx) (target : DWord) : Option State :=
  let d := x.cdef
  ((verRec s d).slotOf target.toNat).map fun i =>
    let s := putVerRec s d ((verRec s d).rollback i)
    (s.modRec c fun r => { r with commits := keepCommits s d r.commits }).modRun c fun r => { r with tripRuns := [] }

/-- The recovery of a context after its reset: the record is rewritten to the target and a remap that no reachable hole allows
is ordered as warm moves (R352, R384). -/
def recover (s : State) (c : Nat) (x : Ctx) (readable : Bool) : State :=
  let target := x.rec_.target.getD (newestStep s x)
  if !recordHeld s x.cdef readable then stopOutcome (raise s .versionRecordLost [c]) c 0x0D
  else
    match rollBack s c x target with
    | none => stopOutcome (raise s .noCleanVersion [c]) c 0x10
    | some s =>
      let s := s.modRec c fun r => { r with state := 3, target := some target, marks := r.marks ++ [now s] }
      x.rec_.remap.foldl (fun s k => orderWarmMoves s c k) s

/-- The outcome of a completed context reset: quarantine, recovery, rollback wait, or stop (R366, R387, R393). -/
def resetOutcome (s : State) (c : Nat) (x : Ctx) (readable : Bool) : State :=
  let many := 3 ≤ (recentResets s x.rec_).length
  let aborts := many && admitting s c
  let s := if aborts then abortAdm s 5 else s
  let s := if aborts || x.rec_.cause == 15 then putVerRec s x.cdef (VerRec.create x.cdef.slots x.cdef.firstStep) else s
  if many then
    raise (s.modRec c fun r => { r with state := 6, recovering := false, holdSince := none }) .contextQuarantined [c]
  else if x.rec_.recovering then
    if selfRecovers s x then recover s c x readable
    else
      let t := x.rec_.target.getD (newestStep s x)
      raise (s.modRec c fun r => { r with state := 5, target := some t, holdSince := none }) .rollbackRequired
        [c, x.cdef.job, t.toNat]
  else stopOutcome s c x.rec_.cause.toNat

/-- CONTEXT_RESET_COMPLETE: every part of a context reset is complete; the bins are zero-filled, the event is raised, and the
outcome of the cause follows, or the context is gone where it was ended (R373, R375, R384, R393, R454). -/
def execContextResetComplete (c : Nat) (recordReadable : Bool) (s : State) : Out :=
  match s.ctx c with
  | none => .next s
  | some x =>
    if x.rec_.state == 2 && resetDrained s c x then
      let s := x.cdef.keys.foldl (fun s k => s.modTile k clearedTile) s
      let s := raise s .contextResetDone [c, x.rec_.cause.toNat]
      let s := s.modRec c fun r => { r with marks := [now s] }
      if x.rec_.ending then .next (removeCtx s c x)
      else
        match s.ctx c with
        | some y => .next (resetOutcome s c y recordReadable)
        | none => .next s
    else .next s

/-! ### The restart (R203, R351, R384, R388, R392) -/

/-- A tile's record of a section loaded, its unmapped banks gated first (R181, R203). -/
def loadTile (s : State) (x : Ctx) (sec : Nat) (run : RunState) (p : Coord) : State :=
  let d := x.cdef
  let r := imageOf s d
  let t := gateTile s d sec p (s.tile (ckey p))
  markFallow (s.setTile (ckey p) (loadRecord (delayHist s x) (heldReds s d) r d sec (p.x - d.x0) (p.y - d.y0) run t)) p

/-- A context set to begin a step in section 0, as after its creation: nothing of the step is done (R384, R388). -/
def toEntry (s : State) (c : Nat) (step : DWord) : State :=
  (s.modRun c fun r =>
    { r with phase := .loading, section_ := 0, step := step, written := [], toCopy := [], arrived := [], releasing := false, heard := [], released := false
             excSeen := false, pauseReq := false, pauseState := 0 }).modTally c fun y => { y with startUs := none }

/-- Section 0 loaded on every tile; the step begins where its epoch allows, and otherwise the tiles wait before their entry
instruction (R203, R384, R429). -/
def enterStep (s : State) (c : Nat) (x : Ctx) (step : DWord) (reds : Reds) : State :=
  let s := toEntry (putReds s x.cdef reds) c step
  let s := adoptCtx s c
  match s.ctx c with
  | none => s
  | some y =>
    let s := if y.cdef.cluster then
        y.cdef.keys.foldl (fun s k => s.modTile k fun t => { t with core := { t.core with run := .entryWait } }) s
      else y.cdef.tiles.foldl (fun s p => loadTile s y 0 .entryWait p) s
    let s := s.modRun c fun r => { r with phase := .running }
    match s.ctx c with
    | some z => if mayBegin s c step then beginStep s c z step false else s
    | none => s

/-- Every tile that a remap must free can be freed by cold moves, or stands on a good position again (R351, R352). -/
def remapReady (s : State) (c : Nat) (l : List Nat) : Bool :=
  l.all fun k =>
    !needsRemap s k ||
      (match physOf s k with
       | some p => !rowCopying s (physDie p) (physRow p) && (chooseHole s p (reachableHole s c p)).isSome
       | none => true)

/-- The longest of the four phases of an interruption: the decision, the quiesce, the remap, and the restart (R389, R392). -/
def longestPhase (s : State) (r : CtxRec) : Nat :=
  let done := r.marks.getD 0 r.began
  let wrote := r.marks.getD 1 done
  let l := [0, done - r.began, wrote - done, now s - wrote]
  ((List.range 4).foldl (fun a i => if l.getD a 0 < l.getD i 0 then i else a) 1) + 1

/-- CONTEXT_RESTART_ENTRY: the recovery remap is made, section 0 loads and the context runs again; after a recovery
CONTEXT_RECOVERED carries the interruption (R351, R384, R392). -/
def execContextRestartEntry (c : Nat) (reds : List (Nat × List (BitVec 64))) (s : State) : Out :=
  match s.ctx c with
  | none => .next s
  | some x =>
    let d := x.cdef
    let r := x.rec_
    if r.state == 3 && x.run.phase != .committed && !r.epochWait && remapReady s c r.remap
        && (d.cluster || (sectionBad reds (imageOf s d) d.w d.h 0).isNone) then
      let target := r.target.getD (newestStep s x)
      let s := r.remap.foldl (fun s k => remapTile s c k) s
      let us := now s - r.began
      let s := s.modRec c fun q =>
        { q with state := 1, recovering := false, target := none, pending := none, remap := [], holdSince := none }
      let s := if r.recovering then raise s .contextRecovered [c, r.cause.toNat, target.toNat, us] else s
      let s := if r.recovering && 800 < us then raise s .recoveryBudgetExceeded [c, us, longestPhase s r] else s
      .next (releaseInbound (enterStep s c x (target + 1) reds) c)
    else .next s

/-! ### Transaction deadlines (R380, R381) -/

/-- The deadline of a transaction in µs: TXN_LOCAL or TXN_REMOTE (R380, R383). -/
def txnDeadline (s : State) (t : Txn) : Nat :=
  if remoteTxn t then 100 * cfgField s 0x22A0 1 16 8 else 10 * cfgField s 0x22A0 1 24 8

/-- The other module a transaction asks, or this one (R371). -/
def askedModule (s : State) (t : Txn) : Nat :=
  match t.packet with
  | some p => p.dest.toNat
  | none => if remoteTxn t then gCoord t.addr.toNat else ownCoord s

/-- TXN_DEADLINE_EXPIRY: a reply that waits at a link input in the expiry cycle is accepted and counted; otherwise the entry is freed
and the context stops. An entry whose reply is leaving has been answered. A reset ordered in the same cycle prevails, and a current
hold suspends the deadlines of remote transactions (R380, R381, R386, R396). -/
def execTxnDeadlineExpiry (x : Nat) (errs : List LineCheck) (s : State) : Out :=
  match mfind s.mem.txns x with
  | none => .next s
  | some t =>
    match s.ctx t.ctx.toNat with
    | none => .next s
    | some y =>
      let c := t.ctx.toNat
      if !t.kind.own || t.reply.isSome || y.rec_.state != 1 || (remoteTxn t && holdCurrent s y.cdef.job) || now s < t.since + txnDeadline s t then
        .next s
      else
        match findIn s fun p => answers t x p with
        | some (l, p) => .next (takeReply (countLate (takeIn (noteReports s errs) l p) c) errs x t p)
        | none => .next (stopCtx (raise (dropTxn s x) .txnTimeout [c, x, askedModule s t]) c 9 none [])

/-! ### Recovery holds (R386) -/

/-- A hold packet to every neighbour in the job's barrier tree. -/
def sendHolds (s : State) (c : Nat) (x : Ctx) : State :=
  ((hallParent s (ownCoord s)).toList ++ hallChildren s).foldl (fun s q => barrierPacket s c x 8 q) s

/-- RECOVERY_HOLD_SEND: a linked context that recovers by itself sends or renews its hold, not beyond HOLD_MAX (R386). -/
def execRecoveryHoldSend (c : Nat) (s : State) : Out :=
  match s.ctx c with
  | none => .next s
  | some x =>
    let t0 := x.rec_.holdSince.getD (now s)
    if x.cdef.linked && (x.rec_.state == 2 || x.rec_.state == 3) && selfRecovers s x
        && now s < t0 + 10000 * cfgField s 0x22A0 1 0 11 then
      .next ((sendHolds s c x).modRec c fun r => { r with holdSince := some t0 })
    else .next s

/-- The remote deadlines and the barrier and collective timeouts of a context start later by a time of suspension (R386). -/
def shiftTimers (s : State) (c n : Nat) : State :=
  { s with
    mem := { s.mem with txns := s.mem.txns.map fun e =>
      if e.2.ctx.toNat == c && remoteTxn e.2 then (e.1, { e.2 with since := e.2.since + n }) else e }
    hall := { s.hall with
      waitSince := s.hall.waitSince.map fun e => if e.1 == c then (e.1, e.2 + n) else e
      colls := s.hall.colls.map fun k => if k.ctx.toNat == c then { k with heard := k.heard + n } else k } }

/-- RECOVERY_HOLD_RECEIVE: timeouts of the job's contexts are suspended for 3 ms, and the hold is recorded (R386, R401). -/
def execRecoveryHoldReceive (job : BitVec 16) (s : State) : Out :=
  match jobCtx s job.toNat with
  | some (c, _) =>
    let s := addFault (shiftTimers s c (now s + 3000 - timerStart s job.toNat)) c 0x34 (job.setWidth 64)
    .next { s with hall := { s.hall with holds := (s.hall.holds.filter fun h => h.job != job) ++ [⟨job, now s⟩] } }
  | none => .next s

/-- RECOVERY_HOLD_LAPSE: a hold that is not renewed ends, and the timers resume (R386). -/
def execRecoveryHoldLapse (job : BitVec 16) (s : State) : Out :=
  .next { s with hall := { s.hall with holds := s.hall.holds.filter fun h => h.job != job || now s < h.at_ + 3000 } }

end Sys2Proof.Machine
end

