-- ==== Sys2Proof/Machine/Create.lean ====
section
/-! DEFINITION. What the control node orders of a context: its creation with every check, its end, CONTEXT_CONTROL,
CONTEXT_PAUSE, PARTITION_RESET, the acknowledgement of a tally record, and admission (R32, R154, R172, R215 to R218, R270,
R273 to R283, R311, R321 to R323, R376, R377, R379, R388, R411, R413, R453, R454, R541). -/

namespace Sys2Proof.Machine

/-- What a write of an entry with behaviour of its own answers (R448). -/
inductive Wrote where
  /-- The write has taken effect. -/
  | done (s : State)
  /-- The write is refused with a status and the DETAIL of LAST_ERROR. -/
  | refused (s : State) (status detail : Nat)
  /-- The write cannot take effect yet and is tried again; later messages wait (R379, R426). -/
  | waits
  /-- The write has taken effect, and a module reset follows its response: LAST_KIND, and whether out of service is cleared
  (R378, R394, R500). -/
  | resets (s : State) (kind : Nat) (clear : Bool)
  /-- The write is under way and answers when its flash copy has verified; later messages wait (R459, R543). -/
  | later (s : State)

/-- The number by which LAST_ERROR names an entry (R449). -/
abbrev entryNum (idx sub : Nat) : Nat := odKey idx sub

/-! ### The checks of a creation (R32, R172, R270, R274, R275, R278, R283, R311, R411, R454, R497) -/

/-- Base and length in bytes of the ranges of a context's creation entries (R273). -/
def createRanges (s : State) (n : Nat) : List (Nat × Nat) :=
  (List.range 4).map fun i =>
    let v := (rwGet s 0x6150 (4 * n + i + 1)).toNat
    (bits v 38 26 * 65536, bits v 12 26 * 65536)

/-- Bytes lie inside one used range. -/
def insideOne (l : List (Nat × Nat)) (b n : Nat) : Bool := l.any fun r => r.2 != 0 && r.1 ≤ b && b + n ≤ r.1 + r.2

/-- Two ranges share a byte. -/
def overlaps (a b : Nat × Nat) : Bool := a.2 != 0 && b.2 != 0 && a.1 < b.1 + b.2 && b.1 < a.1 + a.2

/-- The definition that the creation entries and the word of CONTEXT_CREATE give (R273, R275, R278, R311, R411, R453, R538). -/
def createDef (s : State) (n w : Nat) (reds : Reds) : CtxDef :=
  let va := (rwGet s 0x6151 (n + 1)).toNat
  let ta := (rwGet s 0x6154 (n + 1)).toNat
  let base := bits w 20 26 * 65536
  let r := imgRd s base
  { px0 := bits w 56 4, px1 := bits w 52 4, py0 := bits w 49 3, py1 := bits w 46 3
    ranges := createRanges s n
    share := bits (rwGet s 0x6152 (n + 1)).toNat 0 16
    verBase := bits va 38 26 * 65536
    verW := bits va 14 24 * 65536
    slots := bits (cfgActive s 0x2280 1).toNat 24 3 + 1
    link := rwGet s 0x6153 (n + 1)
    tallyBase := bits ta 38 26 * 65536
    tallySlots := bits ta 32 6
    seed := rwGet s 0x2320 (n + 1)
    firstStep := rwGet s 0x6155 (n + 1)
    imgBase := base
    imgLen := imLength r
    imgDigest := shaNum (cellRead s.mem.data base (imLength r))
    sections := imSections r
    spillBase := imSpillBase r
    spillSize := imSpillSize r
    scaleBase := imScaleBase r
    admissible := imAdmissible r
    cluster := imCluster r
    tensors := imTensorList r
    colls := imCollList r
    reds := reds }

/-- Plot columns of the grid in force (R30). -/
def gridPlots (s : State) : Nat := gridW s / 8

/-- Two rectangles share a plot. -/
def samePlot (a b : CtxDef) : Bool := a.px0 ≤ b.px1 && b.px0 ≤ a.px1 && a.py0 ≤ b.py1 && b.py0 ≤ a.py1

/-- The rectangle is one of whole plots of the grid, none of them held or unavailable (R32, R355, R454). -/
def rectFree (s : State) (d : CtxDef) : Bool :=
  d.px0 ≤ d.px1 && d.py0 ≤ d.py1 && d.px1 < gridPlots s && d.py1 < 6
  && !(s.ctxs.any fun e => samePlot e.2.cdef d) && !(s.gleaner.plots.any d.hasPlot)

/-- Bytes that the image occupies as far as its header says; a wrong MAGIC says nothing beyond the header (R454, R538). -/
def imageExtent (s : State) (d : CtxDef) : Nat := if imgRd s d.imgBase 0 4 == 0x4F565049 then max 256 d.imgLen else 256

/-- Delayed tensors have their scale records inside the versioned range (R274, R540). -/
def scalesFit (d : CtxDef) : Bool :=
  let n := (d.tensors.filter (·.delayed)).length
  n == 0 || d.scaleBase + 1024 * n ≤ d.verW

/-- The trace ring lies inside one range where the active set gives it to this context (R172, R274). -/
def traceFits (s : State) (n : Nat) (l : List (Nat × Nat)) : Bool :=
  let c := (cfgActive s 0x4210 1).toNat
  let b := (cfgActive s 0x4210 2).toNat
  !(bitAt c 31 && bits c 24 4 == n) || (b % 2 ^ bits c 16 5 == 0 && insideOne l b (2 ^ bits c 16 5))

/-- A range of the creation entries lies below CAP and overlaps no range of a live context, nor an earlier one of its own. -/
def createRangeOk (s : State) (l : List (Nat × Nat)) (i : Nat) : Bool :=
  let r := l.getD i (0, 0)
  r.2 == 0 ||
    (r.1 + r.2 ≤ memCap s && !(s.ctxs.any fun e => e.2.cdef.ranges.any (overlaps r)) && !((l.take i).any (overlaps r)))

/-- The checks of a creation before the loader: what holds, with the entry that fails otherwise. -/
def createChecks (s : State) (n : Nat) (d : CtxDef) : List (Bool × Nat) :=
  let l := d.ranges
  let me := entryNum 0x6130 (n + 1)
  let live := s.ctxs.map (·.2.cdef)
  let sum (f : CtxDef → Nat) : Nat := (live.map f).foldl (· + ·) 0
  let lk := d.link.toNat
  [ (traceFits s n l, entryNum 0x4210 2)
  , ((s.ctx n).isNone && s.ka.running.isNone && !stripeLost s, me)
  , (rectFree s d, me)
  , (insideOne l d.imgBase (imageExtent s d), me)
  , (d.spillSize == 0 || insideOne l d.spillBase (d.spillSize * d.w * d.h), me)
  , (scalesFit d, me) ]
  ++ ((List.range 4).map fun i => (createRangeOk s l i, entryNum 0x6150 (4 * n + i + 1)))
  ++ [ (insideOne l d.verBase (65536 + d.slots * d.verW) && sum (·.verW) + d.verW ≤ 2 ^ 39, entryNum 0x6151 (n + 1))
     , (256 ≤ d.share && d.share ≤ 32768 && sum (·.share) + d.share ≤ 32768, entryNum 0x6152 (n + 1))
     , ((d.job != 0 || d.slotMask == 0) && [16, 20, 24, 28].all (fun b => 1 ≤ bits lk b 4 && bits lk b 4 ≤ 6)
          && (d.job == 0 || live.all fun e => e.job != d.job), entryNum 0x6153 (n + 1))
     , (4 ≤ d.tallySlots && insideOne l d.tallyBase d.tallyBytes, entryNum 0x6154 (n + 1))
     , (d.firstStep.toNat < 2 ^ 63, entryNum 0x6155 (n + 1)) ]

/-- The first failing entry, in ascending order (R449). -/
def createBad (s : State) (n : Nat) (d : CtxDef) : Option Nat :=
  ((createChecks s n d).filter fun e => !e.1).foldl (fun o e =>
    match o with
    | none => some e.2
    | some k => some (min k e.2)) none

/-- What the loader expects of an image of this rectangle (R34, R220, R338, R541). -/
def createLoad (s : State) (d : CtxDef) : LoadCtx :=
  let r0 := (d.ranges.find? fun r => r.1 ≤ d.imgBase && d.imgBase < r.1 + r.2).getD (0, 0)
  { grid := b2n s.gleaner.trimmed, gridPlots := gridPlots s, plotsW := d.px1 + 1 - d.px0, plotsH := d.py1 + 1 - d.py0
    regionLen := r0.1 + r0.2 - d.imgBase, range0 := (d.ranges.getD 0 (0, 0)).2
    gapLimit := cfgField s 0x2310 4 0 16 * 1440 / max 1 (cfgField s 0x2310 1 24 2)
    dims := (List.range 4).map (dimSize s) }

/-- A Ligiune 1 image that uses stochastic rounding is refused, at its offset in the image (R86). -/
def l1Bad (s : State) (d : CtxDef) : Option Nat :=
  let r := imgRd s d.imgBase
  if Config.l1Stochastic (cellRead s.mem.data (d.imgBase + r 0x58 8) (r 0x60 8)) then some (r 0x58 8) else none

/-- The offset at which the loader refuses the image: a poisoned line of it, its header and tables, or section 0 (R284, R454,
R541). -/
def loaderBad (s : State) (d : CtxDef) : Option Nat :=
  match s.mem.poison.find? fun l => d.imgBase / 64 ≤ l && 64 * l < d.imgBase + imageExtent s d with
  | some l => some (64 * l - d.imgBase)
  | none =>
    match imageBad (createLoad s d) (imgRd s d.imgBase) with
    | some o => some o
    | none => if d.cluster then l1Bad s d else sectionBad d.reds (imgRd s d.imgBase) d.w d.h 0

/-! ### The creation and the end (R181, R203, R282, R379, R454) -/

/-- A tile at the creation of the context it belongs to: cleared, its bin filled with zeros. A cluster-mode context loads no
section: its tiles wait for the step epoch (R86, R429). -/
def createdTile (d : CtxDef) (t : Tile) : Tile :=
  { clearedTile t with core := { run := if d.cluster then .entryWait else .off } }

/-- The running part of a context at its creation. -/
def createRun (s : State) (d : CtxDef) : CtxRun :=
  { adoptRun s {} with phase := if d.cluster then .running else .loading, step := d.firstStep, histClear := false }

/-- The context created: epoch, version record, bins with the banks gated that section 0 does not map (R181), tally slot 0 and
reduction tables; its tiles then load section 0. -/
def createCtx (s : State) (n : Nat) (d : CtxDef) : State :=
  let s := advanceEpoch s n
  let s := putVerRec s d (VerRec.create d.slots d.firstStep)
  let s := d.tiles.foldl (fun s p => s.modTile (ckey p) fun t => gateTile s d 0 p (createdTile d t)) s
  let s := putBytes s (d.tallySlot 0 + 4) [0, 0, 0, 0]
  let s := s.setCtx n { cdef := d, run := createRun s d, rec_ := { commits := [(d.firstStep - 1, now s)] } }
  setLoadCircuits (putReds (clearPauseEntry s n) d d.reds) n d

/-- Context creation is open: stage S9 is complete and the module has not failed (R474, R500). -/
def createOpen (s : State) : Bool := s.boot.stage == 9 && s.boot.state.toNat ≤ 1

/-- CONTEXT_CREATE with OP create (R454). -/
def writeCreate (s : State) (n w : Nat) (reds : Reds) : Wrote :=
  if !createOpen s then .refused s 8 0
  else
    let d := createDef s n w reds
    match createBad s n d with
    | some k => .refused s 0x0C k
    | none =>
      match loaderBad s d with
      | some o => .refused s 0x0D (o / 8)
      | none => if epochRecent s n then .waits else .done (createCtx s n d)

/-- CONTEXT_CREATE with OP end: a context reset with cause CONTROL, after which the context is gone (R393, R454). A context
already resetting is only marked. -/
def writeEnd (s : State) (n : Nat) : Wrote :=
  match s.ctx n with
  | none => .done s
  | some x =>
    let mark (s : State) : State := s.modRec n fun r => { r with ending := true }
    match x.rec_.state.toNat with
    | 2 => .done (mark s)
    | 6 => .done (mark (beginReset s n x 1 none []))
    | _ => .done (mark (stopCtx s n 1 none []))

/-! ### CONTEXT_CONTROL (R282, R367, R388, R396) -/

/-- A stopped context runs on from its newest version: section 0 is loaded on every tile, and tiles whose positions were
found bad are remapped first; where that takes moves of other contexts, the context waits as a recovery does (R351, R352,
R388). -/
def runOn (s : State) (n : Nat) : State :=
  match s.ctx n with
  | none => s
  | some x =>
    let top := newestStep s x
    if remapReady s n x.rec_.remap then
      let s := x.rec_.remap.foldl (fun s k => remapTile s n k) s
      let s := s.modRec n fun r =>
        { r with state := 1, recovering := false, target := none, pending := none, remap := [], holdSince := none }
      releaseInbound (enterStep s n x (top + 1) x.cdef.reds) n
    else
      let s := s.modRec n fun r => { r with state := 3, recovering := false, target := some top, pending := none }
      x.rec_.remap.foldl (fun s k => orderWarmMoves s n k) s

/-- A plot of the context is unavailable. -/
def plotGone (s : State) (d : CtxDef) : Bool := s.gleaner.plots.any d.hasPlot

/-- RESTART: run on from NEWEST; a target older than it that a stop left pending is rolled back to first (R388, R396). -/
def writeRestart (s : State) (n : Nat) (x : Ctx) : Wrote :=
  let r := x.rec_
  if r.state != 4 || r.cause == 13 || r.cause == 16 || (r.cause == 12 && plotGone s x.cdef) then .refused s 8 0
  else if r.epochWait then .waits
  else
    match r.pending with
    | none => .done (runOn s n)
    | some t =>
      match rollBack s n x t with
      | some s => .done (runOn s n)
      | none => .refused s 8 0

/-- ROLLBACK: the record is rewritten to ROLLBACK_TARGET and the context restarts; a target that no slot holds is refused
(R282, R387, R388). -/
def writeRollback (s : State) (n : Nat) (x : Ctx) : Wrote :=
  let r := x.rec_
  if (r.state != 4 && r.state != 5) || (r.state == 4 && (r.cause == 13 || r.cause == 16)) then .refused s 8 0
  else
    match rollBack s n x (rwGet s 0x6193 (n + 1)) with
    | none => .refused s 8 0
    | some s' => if r.epochWait then .waits else .done (runOn s' n)

/-- CONTEXT_CONTROL (R388). -/
def writeControl (s : State) (n cmd : Nat) : Wrote :=
  match s.ctx n with
  | none => .refused s 8 0
  | some x =>
    match cmd with
    | 1 =>
      if x.rec_.state == 1 || x.rec_.state == 3 || x.rec_.state == 5 then .done (stopCtx s n 1 none []) else .refused s 8 0
    | 2 => writeRestart s n x
    | _ => writeRollback s n x

/-! ### CONTEXT_PAUSE (R215 to R218) -/

/-- A held tile goes on: the instruction after its fallow point, or its entry instruction (R206, R218). -/
def letGo (t : Tile) : Tile :=
  if t.core.run == .held && t.moveStage == 0 then { t with core := { t.core with run := .running } } else t

/-- CONTEXT_PAUSE written: 1 begins to drain a running context, 0 resumes a draining or paused one, whose hang windows
start afresh; of a context that does not run the request is only stored (R216 to R218, notes/assumptions/84.md). -/
def writePause (s : State) (n : Nat) (v : DWord) : State :=
  let s := rwPut s 0x6140 (n + 1) (v &&& 1)
  match s.ctx n with
  | none => s
  | some x =>
    if v.getLsbD 0 then
      if x.run.pauseState == 0 && x.rec_.state == 1 then
        (s.modRun n fun r => { r with pauseReq := true, pauseState := 1, pauseAt := x.rec_.slow, pauseLate := false }).modRec n fun r =>
          { r with hang := none }
      else s
    else if x.run.pauseState == 0 then s
    else
      let s := x.cdef.keys.foldl (fun s k => if (s.tile k).core.run == .held then markFallow (s.modTile k letGo) (keyXY k) else s) s
      watchCycles (s.modRun n fun r => { r with pauseReq := false, pauseState := 0 }) n

/-! ### PARTITION_RESET (R376, R377) -/

/-- The first field of PARTITION_RESET that is refused, by its lowest bit. -/
def partitionBad (s : State) (w : Nat) : Option Nat :=
  firstBad [ (bits w 17 3 ≤ 5, 17), (bits w 20 3 ≤ bits w 17 3, 20), (bits w 23 4 < gridPlots s, 23)
           , (bits w 27 4 ≤ bits w 23 4, 27), (bitAt w 31, 31) ]

/-- PARTITION_RESET: every context that includes a plot of the rectangle is stopped, and its free tiles are reset. -/
def writePartition (s : State) (w : Nat) : Wrote :=
  match partitionBad s w with
  | some b => .refused s 7 b
  | none =>
    let px0 := bits w 27 4
    let px1 := bits w 23 4
    let py0 := bits w 20 3
    let py1 := bits w 17 3
    let hit (d : CtxDef) : Bool := d.px0 ≤ px1 && px0 ≤ d.px1 && d.py0 ≤ py1 && py0 ≤ d.py1
    let s := ((s.ctxs.filter fun e => hit e.2.cdef).map (·.1)).foldl (fun s c => stopCtx s c 14 none []) s
    let keys := (List.range (8 * (py1 + 1 - py0))).flatMap fun j =>
      (List.range (8 * (px1 + 1 - px0))).map fun i => tkey (8 * px0 + i) (8 * py0 + j)
    .done (keys.foldl freeTileReset s)

/-! ### TALLY_ACK (R413) -/

/-- TALLY_ACK: the oldest sealed record not yet acknowledged is released; another slot is refused. -/
def writeTallyAck (s : State) (n slot : Nat) : Wrote :=
  match s.ctx n with
  | none => .refused s 8 0
  | some x =>
    match x.tally.recs.find? fun r => !r.acked with
    | none => .refused s 8 0
    | some r =>
      if r.slot != slot then .refused s 8 0
      else
        .done (s.modTally n fun y =>
          { y with recs := y.recs.map (fun q => if q.slot == slot then { q with acked := true } else q), ackedStep := some r.step })

/-! ### ADMISSION (R321 to R323) -/

/-- An admission is in progress: loading, replaying, matching, or ready and not yet admitted. -/
def admBusy (s : State) : Bool := s.hall.admState == 1 || s.hall.admState == 2 || s.hall.admState == 3 || s.hall.admState == 4

/-- The admitting module's handshake to the donor: a management packet that names step t (R322). -/
def admHandshake (s : State) (c : Nat) (x : Ctx) : State :=
  (sendPacket s false x.cdef.slotMask
    (plainPacket 8 x.cdef.job s.hall.admDonor.toNat (ownCoord s) 0 (s.hall.admStep.toNat % 2 ^ 42) 0 (s.hall.admStep.toNat / 2 ^ 42 % 65536)
      (epochOf s c).toNat)).getD s

/-- ADMISSION written: CANCEL aborts the admission in progress; START checks that the image is marked admissible and begins to
load; CONTEXT and DONOR are kept (R321, R322). -/
def writeAdmission (s : State) (v : DWord) : Wrote :=
  let n := v.toNat
  let c := bits n 52 4
  let s0 := rwPut s 0x6160 1 (v &&& 0x00FFFFFF00000000)
  if bitAt n 1 then .done (if admBusy s then stopAdmission s0 6 else s0)
  else if !bitAt n 0 then .done s0
  else
    match s.ctx c with
    | none => .refused s 8 0
    | some x =>
      if admBusy s then .refused s 8 0
      else
        let h : Hall :=
          { s.hall with admCtx := BitVec.ofNat 4 c, admDonor := BitVec.ofNat 20 (bits n 32 20), admStep := rwGet s 0x6160 2 }
        if !x.cdef.admissible then .refused { s with hall := { h with admState := 6, admCause := 3 } } 8 0
        else .done (admHandshake { s0 with hall := { h with admState := 1, admCause := 0, admSlot := none, admNext := 0, admHeard := now s } } c x)

end Sys2Proof.Machine
end

