-- ==== Sys2Proof/Machine/Moves.lean ====
section
/-! DEFINITION. Happenings at one tile's bin and its fallow moves: the gather timeout, the scrubber, and the three steps of a
move (R81, R90, R166, R176, R183 to R185, R222, R333, R335). -/

namespace Sys2Proof.Machine

/-- GATHER_WRITEBACK_TIMEOUT: 16 tile cycles after its last store a gather entry is written back (R166). -/
def execGatherWritebackTimeout (t : Coord) (line : Nat) (s : State) : Out :=
  let tl := s.tile (ckey t)
  if (tl.bin.gatherOf line).isSome && !s.clk.tilesStopped then
    .next (traceWriteBacks (s.modTile (ckey t) fun t => { t with bin := t.bin.writeBack line }) t [line])
  else .next s

/-- A physical line is mapped by some handle of the tile. -/
def lineMapped (t : Tile) (p : Nat) : Bool := t.handles.any fun h =>
  (List.range (hLen h.2)).any fun i => hMap h.2 (hBase h.2 + i) == some p

/-- The scrubber's line: its own, or the next one of an ungated bank. -/
def scrubLine (b : Bin) : Nat :=
  (((List.range 4096).map fun i => (b.scrubPtr + i) % 4096).find? fun p => !b.gated.getLsbD (p % 8)).getD b.scrubPtr

/-- BIN_SCRUB_READ: the scrubber reads the next line; a failed line that no handle maps is set to +0, and one that a handle
maps is left and counts in the tile's health (R168, R176, R185). -/
def execBinScrubRead (t : Coord) (s : State) : Out :=
  let k := ckey t
  let tl := s.tile k
  if s.clk.tilesStopped || tl.moveStage != 0 || cfgField s 0x2250 1 0 16 = 0 || tl.bin.gated == 0xFF then .next s
  else
    let p := scrubLine tl.bin
    let pending := (tl.bin.gatherOf p).isSome
    let s := s.modTile k fun t => { t with bin := { t.bin.writeBack p with scrubPtr := (p + 1) % 4096 } }
    let s := if pending then traceWriteBacks s t [p] else s
    if (s.tile k).bin.lineOk p then .next s
    else
      let s := s.count (quarterOf s t) fun q => { q with scrub := satAdd q.scrub 1 65535 }
      if lineMapped (s.tile k) p then .next (logicalHealth s k .scrubFail)
      else .next (s.modTile k fun t => { t with bin := t.bin.zeroLine p })

/-- No item, transaction, spill, message or matrix instruction of the tile is under way: its items have left the tile, and each of its
messages has been accepted by the receiver's mailbox (R81, R90, R214). -/
def tileQuiet (s : State) (t : Coord) : Bool :=
  let tl := s.tile (ckey t)
  tl.dma.descs.isEmpty && tl.dma.txns.isEmpty && tl.mx.idle && tl.spill.isEmpty && tl.bin.staging.isEmpty && tl.bin.trace.isEmpty
  && !(s.mesh.flits.any fun f => f.2.src == t
        && (f.2.loc == .port t.x t.y || f.2.loc == .router t.x t.y .tile || (f.2.op == 6 && f.2.cls == .request)))

/-- MOVE_QUIESCED: a tile held at a fallow point with a move ordered is quiescent; its gather entries are written back and the
copy begins; a hang window on a cycle through the tile is abandoned (R81, R90, R183, R370). -/
def execMoveQuiesced (t : Coord) (s : State) : Out :=
  let k := ckey t
  let tl := s.tile k
  let may := tl.moveTo.isSome && tl.moveStage = 0
    && (tl.core.run == .moving || (atFallow tl.core.run && moveReady s k)) && tileQuiet s t && !s.clk.tilesStopped
  if tl.core.run == .moving && tl.moveStage = 0 && !targetOk s k then .next (cancelMove s k)
  else if may then
    let s := match ctxAt s t with
      | some (c, _) => endWindow s c k
      | none => s
    .next ((flushGather s t).modTile k fun t => { t with moveStage := 1 })
  else .next s

/-- BIN_COPY_COMPLETE: every line of every ungated bank stands at the new tile, bit for bit (R183). -/
def execBinCopyComplete (t : Coord) (s : State) : Out :=
  let k := ckey t
  .next (if (s.tile k).moveStage = 1 then s.modTile k fun t => { t with moveStage := 2 } else s)

/-- The physical position that a tile has left: the gap of its row where the move went into the gap, otherwise without a
logical tile again (R333, R352). -/
def leavePosition (s : State) (old new : Nat) : State :=
  let die := physDie new
  let row := physRow new
  if (s.row die row).gap == some (physPos new) then
    let s := s.modRow die row fun r => { r with gap := some (physPos old), tested := false, move := none }
    if goodTile s old then s.modPhys old fun h => { h with fence := .gap } else jumpGap s die row old
  else if goodTile s old then s.modPhys old fun h => { h with fence := if h.marginal then .marginal else .spare }
  else s

/-- Lines of a bin in ungated banks whose parity or tag copies are wrong. -/
def damagedLines (b : Bin) : List Nat :=
  ((b.badParity.map (· / 64)) ++ (b.tagA.filter fun p => !b.tagB.contains p) ++ (b.tagB.filter fun p => !b.tagA.contains p)).dedup

/-- Failed reads of the copy, each counted: for a context the re-run of R173 on the new tile, otherwise the lines are written
with +0 (R177, R184). -/
def copyDamage (s : State) (t : Coord) : State :=
  let k := ckey t
  let bad := damagedLines (s.tile k).bin
  if bad.isEmpty then s
  else if (ctxAt s t).isSome then
    (binParity s t).count (quarterOf s t) fun q => { q with parity := satAdd q.parity (bad.length - 1) (2 ^ 32 - 1) }
  else
    let s := s.count (quarterOf s t) fun q => { q with parity := satAdd q.parity bad.length (2 ^ 32 - 1) }
    s.modTile k fun t => { t with bin := bad.foldl (fun b p => b.zeroLine p) t.bin }

/-- Execution goes on at the new tile: after a `fallow` with the next instruction, unless a pause holds it (R81, R216). -/
def resumeTile (s : State) (t : Coord) : State :=
  let k := ckey t
  match (s.tile k).core.run, ctxAt s t with
  | .moving, some (_, x) =>
    advance (s.modTile k fun t => { t with core := { t.core with run := if x.run.holds then .held else .running } }) t
  | .held, some (_, x) =>
    if x.run.holds then s else s.modTile k fun t => { t with core := { t.core with run := .running } }
  | _, _ => s

/-- MOVE_RESUME: the routers switch to the new position and the tile runs on there (R81, R231, R333, R335); a wait cycle that
still stands starts a fresh hang window (R370). -/
def execMoveResume (t : Coord) (s : State) : Out :=
  let k := ckey t
  let tl := s.tile k
  match tl.moveStage, tl.moveTo, physOf s k with
  | 2, some new, some old =>
    let s := leavePosition (bindTile s k new) old new
    let s := s.modRow (physDie new) (physRow new) fun r => { r with move := if r.move == some k then none else r.move }
    let s := s.modTile k fun t => { t with moveStage := 0, moveTo := none, bin := { t.bin with scrubPtr := 0 } }
    let s :=
      match ctxAt s t with
      | some (c, _) => watchCycles s c
      | none => s
    .next (retryRemaps (copyDamage (resumeTile s t) t) (physDie new) (physRow new))
  | _, _, _ => .next s

end Sys2Proof.Machine
end

