-- ==== Sys2Proof/Machine/Gleaner.lean ====
section
/-! DEFINITION. The gleaner master: fallow slots, tests and their outcome, health inputs, probation and retests, fence storms,
and the gazetteer (R326 to R361). -/

namespace Sys2Proof.Machine

/-- Fallow rotation and background tests run from stage S9 on (R474). -/
def rotating (s : State) : Bool := 9 ≤ s.boot.stage

/-! ### Fallow slots (R333, R337, R338) -/

/-- The nearest logical tile beyond the gap of a row on one side. -/
def nextMover (s : State) (die row gap : Nat) (west : Bool) : Option Nat :=
  let l := (spanTiles s die row).filter fun p => (if west then physPos p < gap else gap < physPos p) && (logicalOf s p).isSome
  ((if west then l.getLast? else l.head?).bind (logicalOf s))

/-- The move of a slot ordered in one row: of the nearest logical tile in the sweep direction, which reverses at the end of the
span. A move that still waits is not followed by another, and counts as an overrun where it waits for the test (R333, R363). -/
def slotRow (s : State) (die row : Nat) : State :=
  let r := s.row die row
  match r.gap with
  | none => s
  | some g =>
    if !bitAt (cfgInForce s 0x2310 1).toNat 31 then s.modRow die row fun r => { r with tested := false }
    else if r.move.isSome then
      if r.tested then s else s.count (physQuarter (physAt die row g)) fun q => { q with overruns := satAdd q.overruns 1 255 }
    else
      let fwd := nextMover s die row g r.west
      let west := if fwd.isSome then r.west else !r.west
      match (if fwd.isSome then fwd else nextMover s die row g west) with
      | none => s
      | some k =>
        if (s.tile k).moveTo.isSome then s
        else
          (s.modTile k fun t => { t with moveTo := some (physAt die row g) }).modRow die row fun r =>
            { r with move := some k, west := west }

/-- The length D of a slot in µs (R333, R337, R338). -/
def slotLen (s : State) : Nat := cfgField s 0x2310 4 0 16 / cfgField s 0x2310 1 24 2

/-- FALLOW_SLOT: a slot starts, counted on the steward's time base, and one move is ordered in each row of the module (R333). -/
def execFallowSlot (s : State) : Out :=
  if rotating s && s.gleaner.slotAt / slotLen s < now s / slotLen s then
    let s := { s with gleaner := { s.gleaner with slotAt := now s } }
    .next ((List.range 2).foldl (fun s die => (List.range 50).foldl (fun s row => slotRow s die row) s) s)
  else .next s

/-! ### Tests (R329, R331, R341, R343, R363) -/

/-- A completed run of a test counted. -/
def countTest (s : State) (p : Nat) (r : TestResult) : State :=
  s.count (physQuarter p) fun q =>
    { q with tests := satAdd q.tests 1 16777215, testFails := if r.failed == 0 then q.testFails else satAdd q.testFails 1 65535 }

/-- A clean test: the window of the position starts anew, and a directed test sets the score to 0 (R339, R343). -/
def cleanTest (s : State) (p : Nat) : State :=
  s.modPhys p fun h =>
    { h with cleanAt := now s, used := [], lastLogical := none, score := if h.directed then 0 else h.score, directed := false }

/-- Contexts whose work is suspect: owners of the logical tiles the position held in its window, contexts with a tile in the
column of one of them, and every live context where fallback routing was in force (R341). -/
def suspects (s : State) (p : Nat) : List Nat :=
  let u := (s.phys p).used
  (s.ctxs.filter fun e =>
    s.mesh.escape || u.any fun k =>
      k.2 == some (BitVec.ofNat 4 e.1) || (e.2.cdef.x0 ≤ k.1 % 128 && k.1 % 128 < e.2.cdef.x0 + e.2.cdef.w)).map (·.1)

/-- The newest committed version kept whose step boundary precedes a time (R341). -/
def cleanVersion (s : State) (x : Ctx) (before : Nat) : Option DWord :=
  let kept (st : DWord) : Bool :=
    ((verRec s x.cdef).slotOf st.toNat).isSome
  (x.rec_.commits.find? fun e => e.2 < before && kept e.1).map (·.1)

/-- A suspect context rolls back, or is reset without a rollback where it keeps no clean version (R341, R367, R401). -/
def suspectCtx (s : State) (before : Nat) (c : Nat) : State :=
  match s.ctx c with
  | none => s
  | some x =>
    let s := addFault s c 0x22 (BitVec.ofNat 64 before)
    match cleanVersion s x before with
    | some t => stopCtx s c 8 (some t) []
    | none => stopCtx (raise s .noCleanVersion [c]) c 0x10 none []

/-- Source of a test failure in its record (R360). -/
def testSource (h : Phys) (source : Nat) : Nat := if h.directed then 6 else source

/-- A failed test of a gap: the work on the position since its last clean test is suspect, the tile enters probation and the
gap jumps (R336, R341, R345). -/
def gapFails (s : State) (p : Nat) (r : TestResult) : State :=
  let h := s.phys p
  let src := testSource h 0
  if h.used.isEmpty then enterProbation s p src (some (r, 0)) none none
  else
    let cs := suspects s p
    let s := raise s .faultWindow
      [physDie p, physX p, physRow p, h.cleanAt, now s, cs.foldl (fun a c => a + 2 ^ c) 0]
    let s := enterProbation s p src (some (r, 0)) (some (h.cleanAt, now s)) (some cs)
    cs.foldl (fun s c => suspectCtx s h.cleanAt c) s

/-- FALLOW_TEST_COMPLETE: the test of the gap of a row ends (R329, R333, R341). -/
def execFallowTestComplete (p : Nat) (r : TestResult) (s : State) : Out :=
  let row := s.row (physDie p) (physRow p)
  if rotating s && (s.phys p).fence == .gap && row.gap == some (physPos p) && !row.tested then
    let s := countTest s p r
    if r.failed == 0 then
      let s := (cleanTest s p).modRow (physDie p) (physRow p) fun g => { g with tested := true }
      let s := if row.jumps then jumpGap s (physDie p) (physRow p) p else s
      .next (retryRemaps s (physDie p) (physRow p))
    else .next (gapFails s p r)
  else .next s

/-- A tile that the background engines test: good, without a logical coordinate, neither the gap nor on probation (R331). -/
def bgWants (s : State) (p : Nat) : Bool := (s.phys p).fence == .spare || (s.phys p).fence == .marginal

/-- The tiles that the four background engines of a die have under test, and where their list goes on: directed tests first,
then ascending physical coordinate, y first, and again from the start when the list is done (R331, R343). -/
def bgTests (s : State) (die : Nat) : List Nat × Nat :=
  let d := mget s.gleaner.dies {} die
  let at_ (i : Nat) : Nat := 3000 * die + i
  let keep := d.bg.filter (bgWants s)
  let free (l : List Nat) (p : Nat) : Bool := bgWants s p && !l.contains p
  let dir := ((s.gleaner.phys.filter fun e => e.2.directed && physDie e.1 == die && free keep e.1).map (·.1)).take (4 - keep.length)
  let have_ := keep ++ dir
  let next := (((List.range 3000).map fun i => at_ ((d.bgNext + i) % 3000)).filter (free have_)).take (4 - have_.length)
  (have_ ++ next, (next.getLast?.map fun p => (p - 3000 * die + 1) % 3000).getD d.bgNext)

/-- BACKGROUND_TEST_COMPLETE: the test of a tile under test by a background engine ends, and the engine takes the next tile of
the list (R330, R331, R345). -/
def execBackgroundTestComplete (p : Nat) (r : TestResult) (s : State) : Out :=
  let h := s.phys p
  let l := bgTests s (physDie p)
  if rotating s && p < 6000 && l.1.contains p then
    let s := s.modDie (physDie p) fun d => { d with bg := l.1.erase p, bgNext := l.2 }
    let s := countTest s p r
    if r.failed == 0 then .next (cleanTest s p) else .next (enterProbation s p (testSource h 1) (some (r, 0)) none none)
  else .next s

/-! ### Health (R342, R343) -/

/-- HEALTH_INPUT: an input adds its weight to the score of a tile, or acts at once. A bin parity input of a logical tile is
handled with the re-run of R173, as R108 asks for an accumulator's double-bit error, and an instruction word that cannot be
read raises IMEM_UNCORRECTABLE at its tile (R80, R108, R175, R342, R343). -/
def execHealthInput (p : Nat) (src : HealthSource) (s : State) : Out :=
  if 6000 ≤ p then .next s
  else
    match (logicalOf s p).filter fun k => (ctxAt s (keyXY k)).isSome with
    | none => .next (healthInput s p src)
    | some k =>
      match src with
      | .firstBinParity => .next (binParity (s.modPhys p fun h => { h with parityAt := none }) (keyXY k))
      | .secondBinParity =>
        let at_ := (ctxAt s (keyXY k)).map fun e => (e.1, e.2.run.step)
        .next (binParity (s.modPhys p fun h => { h with parityAt := at_ }) (keyXY k))
      | .imemUncorrectable =>
        let (n, s) := s.draw
        .next (healthInput (takeExc s (keyXY k) 9 (s.tile k).core.pc.toNat (Config.fetchFaultSlot n) 0) p src)
      | _ => .next (healthInput s p src)

/-- HEALTH_SCORE_HALVING: the score of a tile halves every HALF_LIFE_MIN minutes (R343, R344). -/
def execHealthScoreHalving (p : Nat) (s : State) : Out :=
  .next (if (mfind s.gleaner.phys p).isSome && (s.phys p).halvedAt + 60000000 * cfgField s 0x2310 3 8 8 ≤ now s then
    s.modPhys p fun h => { h with score := h.score / 2, halvedAt := now s } else s)

/-! ### Probation (R345 to R347) -/

/-- A tile waits for its retest, or is being retested: on probation, its delay over, and without a logical coordinate (R328, R346). -/
def retestWants (s : State) (p : Nat) : Bool := (s.phys p).fence == .probation && (s.phys p).retestDue && (logicalOf s p).isNone

/-- The tile of a die that its header switch has on the test rail. -/
def onRail (s : State) (die : Nat) : Option Nat := (mget s.gleaner.dies {} die).retest.filter (retestWants s)

/-- A test rail that is free takes the next tile that waits, at nominal voltage (R328, R346). -/
def startRetest (s : State) (die : Nat) : State :=
  if (onRail s die).isSome then s
  else
    let p := (s.gleaner.phys.find? fun e => physDie e.1 == die && retestWants s e.1).map (·.1)
    let s := s.modDie die fun d => { d with retest := p, rail := 0 }
    match p with
    | some p => s.modPhys p fun h => { h with corners := [] }
    | none => s

/-- PROBATION_DELAY_EXPIRY: PROBATION_DELAY after its entry the retest of a tile is due, and starts when the test rail is free
(R346, R349). -/
def execProbationDelayExpiry (p : Nat) (s : State) : Out :=
  .next (if (s.phys p).fence == .probation && (s.phys p).probAt + 1000000 * cfgField s 0x2310 2 4 12 ≤ now s then
    startRetest (s.modPhys p fun h => { h with retestDue := true }) (physDie p) else s)

/-- A record of a decision on a tile (R345, R360). -/
def decide_ (s : State) (p source decision : Nat) (res : Option (TestResult × Int)) : State :=
  addSignature s
    { die := physDie p, tile := some p, logical := recordLogical s p, source := some source, result := res
      decision := some decision }

/-- A tile fenced for good: recorded, counted toward the storm limit and reported (R345, R347). -/
def fenceTile (s : State) (p source : Nat) (res : Option (TestResult × Int)) : State :=
  let seq := s.gleaner.fsrSeq
  let s := decide_ s p source 1 res
  let s := s.modPhys p fun h => { h with fence := .fenced, retestDue := false, stormHeld := false }
  let s := s.modDie (physDie p) fun d => { d with fences := (now s, p) :: d.fences }
  raise (gazDecided s) .tileFenced [physDie p, physX p, physRow p, source, 0, seq]

/-- A tile returned to use as SPARE or MARGINAL (R345). -/
def returnTile (s : State) (p source : Nat) (marginal : Bool) (res : Option (TestResult × Int)) : State :=
  let seq := s.gleaner.fsrSeq
  let s := decide_ s p source (if marginal then 3 else 2) res
  let s := s.modPhys p fun h =>
    { h with fence := if marginal then .marginal else .spare, marginal := marginal, retestDue := false, stormHeld := false
             score := 0, cleanAt := now s, used := [] }
  checkReserve (raise (gazDecided s) .tileReturned [physDie p, physX p, physRow p, source, b2n marginal, seq]) (physDie p)

/-- Fences of a die within the last 3,600 s. -/
def hourFences (s : State) (die : Nat) : List (Nat × Nat) :=
  (mget s.gleaner.dies {} die).fences.filter fun e => now s < e.1 + 3600000000

/-- A decision to fence a tile: withheld in a storm, and withheld with the start of a storm where it would exceed the limit
(R345, R347). -/
def decideFence (s : State) (p : Nat) (res : Option (TestResult × Int)) : State :=
  let die := physDie p
  let storm := (mget s.gleaner.dies {} die).storm
  let limit := bits (cfgInForce s 0x2310 2).toNat 24 8
  let start := !storm && limit < (hourFences s die).length + 1
  if storm || start then
    let s := decide_ s p 2 4 res
    let s := gazDecided (s.modPhys p fun h => { h with stormHeld := true, retestDue := false })
    if start then raise (s.modDie die fun d => { d with storm := true }) .fenceStorm [die] else s
  else fenceTile s p 2 res

/-- The tile's quarter is at /1 and the root is locked (R346). -/
def cornerClock (s : State) (p : Nat) : Bool := (mget s.clk.qs {} (physQuarter p)).k == 1 && !s.clk.coasting

/-- The corners of the test rail in percent of nominal (R349). -/
def cornerMargin (s : State) : Int :=
  match cfgField s 0x2310 2 0 2 with
  | 0 => 3
  | 1 => 5
  | _ => 7

/-- The next corner: the rail is set, and the result so far kept (R328, R346). -/
def nextCorner (s : State) (p : Nat) (r : TestResult) (rail : Int) : State :=
  (s.modDie (physDie p) fun d => { d with rail := rail }).modPhys p fun h => { h with corners := h.corners ++ [r] }

/-- PROBATION_RETEST_COMPLETE: a retest of the tile on the test rail ends, at nominal voltage, then at the low corner, then at
the high one. The nominal result decides between fence and return, the corners between SPARE and MARGINAL. It runs only at /1
with the root locked (R345 to R347). -/
def execProbationRetestComplete (p : Nat) (r : TestResult) (s : State) : Out :=
  let die := physDie p
  if rotating s && onRail s die == some p && cornerClock s p then
    let s := countTest s p r
    match (s.phys p).corners with
    | [] =>
      if r.failed == 0 then .next (nextCorner s p r (-cornerMargin s))
      else .next (startRetest (decideFence s p (some (r, 0))) die)
    | [_] => .next (nextCorner s p r (cornerMargin s))
    | _ :: low :: _ =>
      .next (startRetest
        (if low.failed != 0 then returnTile s p 2 true (some (low, -1))
         else if r.failed != 0 then returnTile s p 2 true (some (r, 1))
         else returnTile s p 2 false (some (r, 0))) die)
  else .next s

/-- Tiles that a margin check tests: those fenced within the hour and those held by the storm (R347). -/
def stormTiles (s : State) (die : Nat) : List Nat :=
  (hourFences s die).map (·.2)
  ++ (s.gleaner.phys.filter fun e => physDie e.1 == die && e.2.stormHeld).map (·.1)

/-- MARGIN_CHECK_COMPLETE: two retests at nominal voltage of every tile concerned. At least half of the tiles passing both means an
environmental cause, and they return as MARGINAL; otherwise the held tiles are fenced. The storm ends, the hourly count starts
again, and tiles still held are retested (R345, R347). -/
def execMarginCheckComplete (die : Bool) (results : List (Nat × TestResult × TestResult)) (s : State) : Out :=
  let d := b2n die
  let l := (stormTiles s d).dedup
  let of (p : Nat) : Option (TestResult × TestResult) := (results.find? fun e => e.1 == p).map (·.2)
  if (mget s.gleaner.dies {} d).storm && l.all fun p => (of p).isSome then
    let s := l.foldl (fun s p => match of p with
      | some r => countTest (countTest s p r.1) p r.2
      | none => s) s
    let good := l.filter fun p => match of p with
      | some r => r.1.failed == 0 && r.2.failed == 0
      | none => false
    let env := l.length ≤ 2 * good.length
    let s :=
      if env then good.foldl (fun s p => returnTile s p 8 true none) s
      else (l.filter fun p => (s.phys p).stormHeld).foldl (fun s p => fenceTile s p 8 none) s
    let s := l.foldl (fun s p => s.modPhys p fun h =>
      { h with stormHeld := false, retestDue := h.retestDue || h.stormHeld && h.fence == .probation }) s
    let s := addSignature s { die := d, source := some 8, decision := some (if env then 5 else 6), env := true }
    let s := s.modDie d fun x => { x with fences := [], storm := false }
    .next (startRetest (gazDecided (raise s .fenceStormCleared [d, b2n (!env)])) d)
  else .next s

/-! ### The gazetteer (R358, R359) -/

/-- The current copy: valid, with the higher sequence number (R359). -/
def gazCurrent (s : State) : Option GazCopy :=
  let a := s.gleaner.gazA
  let b := s.gleaner.gazB
  if a.valid && (!b.valid || b.seq ≤ a.seq) then some a else if b.valid then some b else none

/-- Code of a tile state in the gazetteer (R358). -/
def gazTile (h : Phys) : BitVec 4 :=
  match h.fence with
  | .probation => 1
  | .fenced => 2
  | .factory => 4
  | .marginal => 3
  | _ => if h.marginal then 3 else 0

/-- What the gazetteer records of the module as it stands, after the current copy. -/
def gazContents (s : State) (old : GazCopy) : GazCopy :=
  let full := !s.gleaner.trimmed
  { valid := true
    seq := old.seq + 1
    gridSelect := s.gleaner.gridSelect
    tiles := s.gleaner.phys.filterMap fun e => if gazTile e.2 == 0 then none else some (e.1, gazTile e.2)
    rowsFull := if full then s.gleaner.rowBind else old.rowsFull
    rowsTrim := if full then old.rowsTrim else s.gleaner.rowBind
    window := if full then old.window else s.gleaner.window
    retired := s.mem.retired
    failedWl := s.hall.links.filterMap fun e =>
      if (e.2.failedTx ||| e.2.failedRx) == 0 then none else some (e.1, e.2.failedTx ||| e.2.failedRx)
    links := s.mesh.failed.take 128
    probation := s.gleaner.phys.filterMap fun e =>
      if e.2.probCount = 0 then none else some (e.1, Config.probationCode e.2.probAt e.2.probCount)
    sparesW := old.sparesW
    sparesE := old.sparesE }

/-- A new gazetteer written to the copy that is not current. -/
def writeGaz (s : State) (g : GazCopy) : State :=
  let a := s.gleaner.gazA
  let b := s.gleaner.gazB
  let toA := !a.valid || (b.valid && a.seq < b.seq)
  { s with gleaner := { s.gleaner with gazA := if toA then g else a, gazB := if toA then b else g, gazDirty := false } }

/-- GAZETTEER_WRITE: a decision is written to the older copy (R359). -/
def execGazetteerWrite (s : State) : Out :=
  match gazCurrent s with
  | some g => if s.gleaner.gazDirty then .next (writeGaz s (gazContents s g)) else .next s
  | none => .next s

end Sys2Proof.Machine
end

