-- ==== Sys2Proof/Machine/Dict.lean ====
section
/-! DEFINITION. Reading the object dictionary: the checks of an access, the words of every status entry, the values of the
DOMAIN entries, and LAST_ERROR (chapter Object Dictionary, R445 to R462, and the entry tables of every chapter). -/

namespace Sys2Proof.Machine

/-! ### Words built from fields -/

/-- A word from fields: each a value, its width and its lowest bit; a value beyond its width is taken at the maximum. -/
def wordOf (l : List (Nat × Nat × Nat)) : Nat := l.foldl (fun a f => a + min f.1 (2 ^ f.2.1 - 1) * 2 ^ f.2.2) 0

/-! ### Status entries (R84, R119, R177, R225, R258, R271, R286, R324, R362 to R364, R368, R371, R395, R413, R439, R441, R442,
R470, R477, R482, R489, R498, R515, R532) -/

/-- BRINGUP_STATUS (R477). -/
def bringupWord (s : State) : Nat :=
  let b := s.boot
  wordOf [(b.stage, 4, 60), (b.target, 4, 56), (b.path.toNat, 2, 54), (b.state.toNat, 2, 52), (b.failStage, 4, 48),
    (b.failCode.toNat, 8, 40), (s.fw.booted.toNat, 1, 39), (b2n s.fw.trial, 1, 38), ((now s - b.since) / 1000, 32, 0)]

/-- STEWARD_STATUS (R482). -/
def stewardWord (s : State) : Nat := wordOf [(s.boot.eccCorrected, 16, 16), (s.boot.watchdogResets, 8, 8)]

/-- The counters of a quarter. -/
def qcounts (s : State) (q : Nat) : QCounts := mget s.counts {} q

/-- A word of the per-quarter entries 0x3150 to 0x3180 and 0x31C1 (R119, R177, R225, R258, R363). -/
def quarterWord (s : State) (idx q : Nat) : Nat :=
  let c := qcounts s q
  match idx with
  | 0x3150 => wordOf [(c.retried, 32, 32), (c.persistent, 16, 16), (c.dummyFails, 16, 0)]
  | 0x3160 => wordOf [(c.parity, 32, 32), (c.scrub, 16, 16), (c.traceDrops, 16, 0)]
  | 0x3170 => wordOf [(c.spills, 16, 48), (c.spillItems, 32, 16), (c.fallowLate, 16, 0)]
  | 0x3180 => wordOf [(c.hopRetries, 32, 32), (c.throttles, 16, 16), (c.linksFailed, 8, 8), (c.escapes, 8, 0)]
  | _ => wordOf [(c.tests, 24, 40), (c.testFails, 16, 24), (c.overruns, 8, 16), (c.restarts, 8, 8), (c.directed, 8, 0)]

/-- STRIPE_STATUS (R271). -/
def stripeWord (s : State) (n : Nat) : Nat :=
  let t := s.stripe n
  wordOf [(t.state.toNat, 2, 62), (t.retiredPos.toNat, 4, 58), (t.lostPos.toNat, 4, 54), (t.odecc / 65536, 6, 48),
    (t.recon, 32, 16), (t.uncorr, 16, 0)]

/-- LINK_STATUS (R324). -/
def linkWord (s : State) (l : Nat) : Nat :=
  let k := s.link l
  wordOf [(k.state.toNat, 3, 61), (if k.up then min k.mapTx.length k.mapRx.length else 0, 3, 58),
    ((k.failedTx ||| k.failedRx).toNat, 8, 50), (k.latency.toNat, 14, 36), (k.resends, 16, 20), (k.uncorr, 16, 4)]

/-- Tiles of a die in a state. -/
def dieCount (s : State) (die : Nat) (f : Fence → Bool) : Nat :=
  (s.gleaner.phys.filter fun e => physDie e.1 == die && f e.2.fence).length

/-- A physical row holds a logical row. -/
def rowBound (s : State) (die row : Nat) : Bool := (boundRow s die row).isSome

/-- DIE_RESERVE (R362). The row spare of a half is the row that the shipped bindings leave free: 24 and 49. -/
def dieWord (s : State) (die : Nat) : Nat :=
  let d := mget s.gleaner.dies {} die
  let bare := ((List.range 50).filter fun r => rowBound s die r && (s.row die r).gap.isNone).length
  wordOf [(reserve s die, 10, 54), (dieCount s die (· == .probation), 10, 44),
    (dieCount s die fun f => f == .fenced || f == .factory, 10, 34), ((hourFences s die).length, 8, 26), (b2n d.storm, 1, 25),
    (b2n d.low, 1, 24), (bare, 6, 18), (b2n (rowBound s die 24), 1, 17), (b2n (rowBound s die 49), 1, 16)]

/-- GRID_STATUS (R364). -/
def gridWord (s : State) : Nat :=
  let g := s.gleaner
  wordOf [(g.plots.length, 8, 24), (b2n g.trimmed, 4, 12), (b2n g.trimOffered, 1, 11), (b2n g.rebind, 1, 10),
    (b2n g.linkUnrepaired, 1, 9)]

/-- CONTEXT_RECOVERY (R368). -/
def recoveryWord (s : State) (c : Nat) : Nat :=
  match s.ctx c with
  | none => wordOf [((epochOf s c).toNat, 8, 48)]
  | some x =>
    let r := x.rec_
    wordOf [(r.state.toNat, 3, 61), (r.cause.toNat, 5, 56), ((epochOf s c).toNat, 8, 48), ((recentResets s r).length, 2, 46),
      (r.total, 16, 30), (r.late, 14, 16), (r.stale, 16, 0)]

/-- Counted module resets within the last 10 minutes (R394). -/
def recentModuleResets (s : State) : List Nat := s.boot.resets.filter fun t => now s < t + 600000000

/-- MODULE_RESETS (R395). -/
def resetsWord (s : State) : Nat :=
  wordOf [((recentModuleResets s).length, 8, 24), (b2n s.boot.outOfService, 1, 23), (s.boot.lastKind.toNat, 3, 20)]

/-- Code of a root source (R441). -/
def sourceCode : Source → Nat
  | .coast => 0
  | .m0 => 1
  | .m1 => 2
  | .holdover => 3

/-- CLOCK_STATUS (R441). -/
def clockWord (s : State) : Nat :=
  let c := s.clk
  wordOf [(sourceCode c.source, 3, 61), (b2n c.coasting, 1, 60), (b2n c.change.isSome, 1, 59), (b2n c.readyM0, 1, 58),
    (b2n c.readyM1, 1, 57), (c.coastEntries, 16, 32), (c.refSwitches, 16, 16), (c.holdovers, 16, 0)]

/-- THROTTLE_STATUS (R439). -/
def throttleWord (s : State) (q : Nat) : Nat :=
  let t := s.quarter q
  wordOf [(t.k, 8, 56), (throttleTarget s q, 8, 48), (throttleSource s q, 3, 45), (b2n t.deep, 1, 44), (t.steps, 32, 0)]

/-- MERIDIAN_STATUS (R442). -/
def meridianWord (s : State) : Nat :=
  let m := s.mer
  wordOf [(portState m, 2, 62), (b2n m.txM0 + 2 * b2n m.txM1, 2, 60), (b2n m.rxM0 + 2 * b2n m.rxM1, 2, 58), (m.resends, 16, 42),
    (s.events.dropped, 16, 26), (m.uncorr, 16, 10)]

/-- KA_RESULT (R498). -/
def kaWord (s : State) (w : Nat) : Nat :=
  wordOf [((mget s.ka.state 0 w).toNat, 2, 62), ((mget s.ka.invalid 0 w).toNat, 7, 55), ((mget s.ka.value 0 w).toNat, 32, 0)]

/-- An 8-bit two's complement value, at its ends where it lies beyond them. -/
def int8 (v : Int) : Nat := ((max (-128) (min 127 v)) % 256).toNat

/-- POWER_STATUS (R532). -/
def powerWord (s : State) : Nat :=
  let p := s.pow
  wordOf [(p.inputMv / 10, 16, 48), (p.avg1ms, 16, 32), (b2n (1 < govRequest s), 1, 31), (b2n p.warn, 1, 30),
    (p.railFaults, 8, 16)]

/-- COOLANT_STAGE of a coolant request (R532). -/
def coolStage (k : Nat) : Nat := if 8 ≤ k then 3 else if 4 ≤ k then 2 else if 2 ≤ k then 1 else 0

/-- COOLING_STATUS (R532). -/
def coolingWord (s : State) : Nat :=
  let p := s.pow
  wordOf [(int8 p.inlet, 8, 56), (int8 p.outlet, 8, 48), (p.flow / 5, 8, 40), (int8 p.tjMax, 8, 32), (b2n p.loadShed, 1, 31),
    (coolStage (coolRequest s), 3, 28), (p.sheds, 16, 0)]

/-- FIELD_PORT_STATUS (R470). -/
def fieldWord (s : State) : Nat :=
  let f := s.field
  let off := !bitAt (cfgInForce s 0x1800 1).toNat 31
  wordOf [(if off then 4 else f.cable.toNat, 3, 61), (b2n f.reversed, 1, 60), (f.distance.toNat, 8, 52), (f.dcLevel.toNat, 8, 44),
    (f.rxDropped, 16, 20), (f.faults, 16, 4)]

/-- TALLY_STATUS (R413). -/
def tallyWord (s : State) (c : Nat) : Nat :=
  match s.ctx c with
  | none => 0
  | some x =>
    let t := x.tally
    wordOf [(((t.recs.find? fun r => !r.acked).map (·.slot)).getD 0, 6, 58), (t.unpulled, 6, 52),
      (b2n (x.run.phase == .boundary && pullGated x), 1, 51), (t.overwritten, 16, 35),
      (((t.recs.getLast?).map (·.step.toNat % 2 ^ 32)).getD 0, 32, 0)]

/-- FW_STATUS (R489). -/
def fwWord (s : State) : Nat :=
  let f := s.fw
  wordOf [((mget f.stA 0 0).toNat, 2, 62), ((mget f.stB 0 0).toNat, 2, 60), ((mget f.pref 0 0).toNat, 1, 59),
    ((mget f.stA 0 1).toNat, 2, 57), ((mget f.stB 0 1).toNat, 2, 55), (f.testInUse.toNat, 1, 54), ((mget f.stA 0 2).toNat, 2, 52),
    ((mget f.stB 0 2).toNat, 2, 50), (f.kaInUse.toNat, 1, 49), (f.progState.toNat, 2, 47),
    (((mfind f.running 1).map (·.version.toNat)).getD 0, 32, 8), (f.progResult.toNat, 8, 0)]

/-- A key slot of OTP. -/
def keySlot (s : State) (n : Nat) : KeySlot := mget s.sec.keys {} n

/-- Code of a key slot's state (R515). -/
def keyState (k : KeySlot) : Nat := if k.damaged then 3 else if k.revoked then 2 else if k.active then 1 else 0

/-- The time for which a nonce stays valid, in microseconds (R509). -/
def nonceUs : Nat := 60000000

/-- The nonce that a token must carry, if one is valid. -/
def validNonce (s : State) : Option (BitVec 256) :=
  match s.sec.nonce with
  | some n => if now s < n.2 + nonceUs then some n.1 else none
  | none => none

/-- SEC_STATUS (R515). -/
def secWord (s : State) : Nat :=
  let c := s.sec
  wordOf [(keyState (keySlot s 0), 2, 62), (keyState (keySlot s 1), 2, 60), (keyState (keySlot s 2), 2, 58),
    (b2n c.provisioned, 1, 57), (b2n c.debugOn, 1, 56), (b2n c.sinceCold, 1, 55), (c.debugMask.toNat, 3, 52),
    (b2n c.signing.isSome, 1, 51), (b2n (validNonce s).isSome, 1, 50), (b2n c.otpFault, 1, 49), (c.refused, 32, 0)]

/-- SHADOW_DIRTY: the shadow set differs from its flash copy (R456). -/
def shadowDirty (s : State) : Bool := !s.dict.copyS.valid || s.dict.shadow != s.dict.copyS.vals

/-- SET_STATUS (R456). -/
def setWord (s : State) : Nat :=
  let d := s.dict
  wordOf [(d.activeGen.toNat, 32, 32), (d.prevUsers.toNat, 16, 16), (d.state.toNat, 2, 14), (b2n (shadowDirty s), 1, 13),
    (d.lastResult.toNat, 8, 0)]

/-- LAST_ERROR of a role (R449). -/
def lastError (s : State) (role : Nat) : DWord :=
  match role with
  | 0 => s.dict.err0
  | 1 => s.dict.err1
  | _ => s.dict.err2

/-- The word of a status entry. -/
def statusWord (s : State) (idx sub : Nat) : Nat :=
  let n := sub - 1
  match idx with
  | 0x1000 => 0x00020001
  | 0x1010 => s.factory.product.toNat
  | 0x1018 => s.factory.mac.toNat
  | 0x2000 => setWord s
  | 0x3100 => bringupWord s
  | 0x3101 => wordOf [(mget s.boot.times 0 n, 32, 0)]
  | 0x3102 => stewardWord s
  | 0x3140 => (mget s.excRec 0 n).toNat
  | 0x3150 => quarterWord s idx n
  | 0x3160 => quarterWord s idx n
  | 0x3170 => quarterWord s idx n
  | 0x3180 => quarterWord s idx n
  | 0x3190 => stripeWord s n
  | 0x31A0 => (s.mem.log.getD n 0).toNat
  | 0x31B0 => linkWord s n
  | 0x31C0 => dieWord s n
  | 0x31C1 => quarterWord s idx n
  | 0x31C2 => gridWord s
  | 0x31D0 => recoveryWord s n
  | 0x31D1 => (mget s.hangRec 0 n).toNat
  | 0x31D2 => resetsWord s
  | 0x3200 => clockWord s
  | 0x3201 => throttleWord s n
  | 0x3210 => meridianWord s
  | 0x3220 => kaWord s n
  | 0x3230 => powerWord s
  | 0x3231 => coolingWord s
  | 0x3300 => fieldWord s
  | 0x3F00 => (lastError s n).toNat
  | 0x4101 => tallyWord s n
  | 0x4300 => wordOf [(s.gleaner.fsr.length, 16, 16), (s.gleaner.fsrDropped, 16, 0)]
  | 0x5000 => secWord s
  | 0x5002 => mget s.sec.counters 0 sub
  | 0x6120 => fwWord s
  | _ => 0

/-- The word of an RW entry as it reads: fields that show the module's state beside what was written (R215, R321, R356). -/
def rwWord (s : State) (idx sub : Nat) : Nat :=
  let v := (rwGet s idx sub).toNat
  match idx, sub with
  | 0x6140, n => v + ((s.ctx (n - 1)).map fun x => 256 * x.run.pauseState.toNat).getD 0
  | 0x6160, 1 => v + wordOf [(s.hall.admState.toNat, 4, 60), (s.hall.admCause.toNat, 4, 56)]
  | 0x6180, _ => s.gleaner.gridSelect.toNat
  | _, _ => v

/-! ### DOMAIN entries (R358, R361, R415, R449, R452, R455, R458, R461, R467, R513, R515) -/

/-- The record of an entry: index, subindex, size and value, least significant byte first (R461). -/
def entryRecord (vals : AMap DWord) (e : Nat × Nat × Nat) : List Byte :=
  toLE 2 e.1 ++ toLE 1 e.2.1 ++ toLE 1 e.2.2 ++ toLE e.2.2 (mget vals (odDefault (odKey e.1 e.2.1)) (odKey e.1 e.2.1)).toNat

/-- The records of a configuration set (R455, R461). -/
def setRecords (vals : AMap DWord) : List Byte := rwsEntries.flatMap (entryRecord vals)

/-- Claimants that the active set makes for SHEAF_CAPTURE: the tally digest and the trace capture (R458). -/
def captureOwner (vals : AMap DWord) : Nat × Nat :=
  let at_ (idx : Nat) : Nat := (mget vals (odDefault (odKey idx 1)) (odKey idx 1)).toNat
  let dig := bitAt (at_ 0x4100) 31
  let tr := bitAt (at_ 0x4210) 31
  (if dig then 1 else if tr then 2 else 0, b2n dig + b2n tr)

/-- CLAIM_TABLE (R458). -/
def claimTable (s : State) : List Byte :=
  let c := captureOwner s.dict.active
  let r (id owner n : Nat) : List Byte := toLE 2 id ++ toLE 1 owner ++ toLE 1 n
  r 1 c.1 c.2 ++ r 2 3 1 ++ r 3 4 1 ++ r 4 3 1 ++ r 5 5 1

/-- The newer valid copy of the tally tail (R415). -/
def newerTail (s : State) : Option TailCopy :=
  let a := s.factory.tail0
  let b := s.factory.tail1
  if a.valid && (!b.valid || b.seq ≤ a.seq) then some a else if b.valid then some b else none

/-- Packs 4-bit codes two to a byte, the even one in bits 3:0. -/
def nibbles (f : Nat → Nat) (n : Nat) : List Byte := (List.range (n / 2)).map fun i => BitVec.ofNat 8 (f (2 * i) + 16 * f (2 * i + 1))

/-- The bytes of a gazetteer copy from offset 0x000C on (R358). -/
def gazBody (g : GazCopy) : List Byte :=
  let row (die : Nat) : List Byte :=
    ((List.range 48).map fun y => BitVec.ofNat 8 (mget g.rowsFull 0 (48 * die + y)))
    ++ ((List.range 48).map fun y => BitVec.ofNat 8 (mget g.rowsTrim 0 (48 * die + y)))
    ++ ((List.range 2).map fun h => BitVec.ofNat 8 (mget g.window 0 (2 * die + h))) ++ [0, 0]
  toLE 4 g.gridSelect.toNat
  ++ nibbles (fun p => (mget g.tiles 0 p).toNat) 6000
  ++ row 0 ++ row 1
  ++ toLE 24 (g.retired.foldl (fun a c => a + 2 ^ c) 0)
  ++ ((List.range 32).map fun l => mget g.failedWl 0 l)
  ++ ((List.range 128).flatMap fun i => toLE 4 (Config.meshLinkCode g.links[i]?).toNat)
  ++ ((List.range 6000).flatMap fun p => toLE 2 (mget g.probation 0 p).toNat)
  ++ toLE 4 g.sparesW ++ toLE 4 g.sparesE
  ++ List.replicate (65536 - 0x3DB0) 0

/-- GAZETTEER_IMAGE: the current copy (R358, R359). -/
def gazBytes (g : GazCopy) : List Byte :=
  let b := gazBody g
  toLE 4 1 ++ toLE 4 g.seq ++ toLE 4 (crc32 b).toNat ++ b

/-- An entry of EVENT_LOG (R467). -/
def eventEntry (e : Event) : List Byte :=
  toLE 4 e.seq.toNat ++ toLE 2 (Config.eventCode e.name).toNat ++ [0, 0] ++ toLE 8 e.time.toNat
    ++ toLE 32 (Config.eventData e.name e.data).toNat

/-- KEY_HASH of a slot; zero when it is empty (R503, R515). -/
def keyHash (k : KeySlot) : List Byte := if keyState k = 0 then List.replicate 32 0 else sha256 (toLE 32 k.key.toNat)

/-- The value of a DOMAIN entry. -/
def domainValue (s : State) (idx sub : Nat) : List Byte :=
  match idx, sub with
  | 0x1008, _ => toLE 16 s.factory.serial.toNat
  | 0x2001, 1 => setRecords s.dict.shadow
  | 0x2001, _ => setRecords s.dict.active
  | 0x2002, _ => claimTable s
  | 0x4120, _ => ((newerTail s).map (·.bytes)).getD []
  | 0x4300, _ => ((s.gleaner.fsr.head?).map (·.bytes)).getD []
  | 0x4310, _ => ((gazCurrent s).map gazBytes).getD []
  | 0x4400, _ => s.events.ring.flatMap eventEntry
  | 0x5001, n => keyHash (keySlot s (n - 1))
  | 0x5003, n => toLE 32 (mget s.sec.mr 0 (n - 1)).toNat
  | 0x5004, _ => toLE 32 Config.identityKey.toNat
  | 0x5010, _ => ((s.sec.nonce).map fun n => toLE 32 n.1.toNat).getD []
  | 0x5020, _ => s.sec.report
  | _, _ => []

/-! ### The checks of an access (R445, R447, R448, R466, R500, R511) -/

/-- ROM recovery answers only BRINGUP_STATUS, FW_STATUS and FW_RECOVERY_IMAGE (R500). -/
def romAnswers (idx sub : Nat) : Bool := (idx == 0x3100 && sub == 1) || (idx == 0x6120 && sub == 2) || (idx == 0x6121 && sub == 1)

/-- The module runs in ROM recovery (R477, R499). -/
def inRecovery (s : State) : Bool := s.boot.path == 2

/-- Which roles may read an entry at all: those of the row, or of any subindex for subindex 0 (R445). -/
def mayRead (idx sub role : Nat) : Bool :=
  if sub = 0 then (odRoles idx).getLsbD role else ((odFind idx sub).map fun e => e.rd.getLsbD role).getD false

/-- NO_ENTRY and NO_SUBINDEX; the field role sees NO_ENTRY for every entry it may not read. -/
def locate (s : State) (role idx sub : Nat) : Option Nat :=
  if !odIndexKnown idx || (inRecovery s && !romAnswers idx sub) then some 1
  else if role == 1 && !(odRoles idx).getLsbD 1 then some 1
  else if odMaxSub idx < sub then some 2
  else if role == 1 && !mayRead idx sub 1 then some 1
  else none

/-- ROLE and ACCESS for a read, decided together (R448). -/
def readRight (idx sub role : Nat) : Option Nat :=
  if sub = 0 then (if mayRead idx 0 role then none else some 4)
  else
    match odFind idx sub with
    | none => some 1
    | some e =>
      if !(e.rd ||| e.wr).getLsbD role then some 4
      else if e.acc = .wo then some 3
      else if e.rd.getLsbD role then none else some 4

/-- ROLE and ACCESS for a write. -/
def writeRight (idx sub role : Nat) : Option Nat :=
  if sub = 0 then (if mayRead idx 0 role then some 3 else some 4)
  else
    match odFind idx sub with
    | none => some 1
    | some e =>
      if !(e.rd ||| e.wr).getLsbD role then some 4
      else if e.acc = .ro then some 3
      else if e.wr.getLsbD role then none else some 4

/-- The status that refuses a read, if one does. -/
def readRefused (s : State) (role idx sub : Nat) : Option Nat := (locate s role idx sub).orElse fun _ => readRight idx sub role

/-- The status that refuses a write by its entry alone, if one does. -/
def writeRefused (s : State) (role idx sub : Nat) : Option Nat := (locate s role idx sub).orElse fun _ => writeRight idx sub role

/-- A piece of a DOMAIN value (R450). -/
def piece (v : List Byte) (off size : Nat) : List Byte := (v.drop off).take size

/-- The value that a read returns, least significant byte first (R445, R450, R455). -/
def readValue (s : State) (idx sub off size : Nat) : List Byte :=
  if sub = 0 then toLE 1 (odMaxSub idx)
  else
    match odFind idx sub with
    | none => []
    | some e =>
      if e.size = 0 then piece (domainValue s idx sub) off size
      else
        match e.acc with
        | .rws => toLE e.size (cfgActive s idx sub).toNat
        | .rw => toLE e.size (rwWord s idx sub)
        | _ => toLE e.size (statusWord s idx sub)

/-! ### LAST_ERROR (R449) -/

/-- A refused access of a role recorded. -/
def noteError (s : State) (role status idx sub detail : Nat) : State :=
  let w := BitVec.ofNat 64 (wordOf [(status, 8, 56), (idx % 65536 * 256 + sub % 256, 24, 32), (detail % 2 ^ 32, 32, 0)])
  { s with dict :=
      match role with
      | 0 => { s.dict with err0 := w }
      | 1 => { s.dict with err1 := w }
      | _ => { s.dict with err2 := w } }

/-- Every check of a word written: length, reserved bits and encodings, and ranges unless they wait for validation (R446,
R448). The status and the lowest bit of the failing field. -/
def wordRefused (e : OdEnt) (data : List Byte) : Option (Nat × Nat) :=
  let v := BitVec.ofNat 64 (leNat data)
  if data.length != e.size then some (5, 0)
  else
    match badReserved e v with
    | some b => some (6, b)
    | none => if e.acc = .rws then none else (badRange e v).map fun b => (7, b)

end Sys2Proof.Machine
end

