-- ==== Sys2Proof/Machine/FieldOps.lean ====
section
/-! DEFINITION. The field port's messages and the answers to its requests (R464 to R467). -/

namespace Sys2Proof.Machine

/-- The field port operates, and is not restarting (R468). -/
def fieldOn (s : State) : Bool := s.field.up && bitAt (cfgInForce s 0x1800 1).toNat 31 && s.field.silentUntil ≤ now s

/-- HB_PERIOD in µs (R468). -/
def hbPeriod (s : State) : Nat := 100000 * cfgField s 0x1800 1 0 8

/-- A Legend message: its header, least significant byte first, and its payload (R465). -/
def legendBytes (type status tag entry offset : Nat) (payload : List Byte) : List Byte :=
  toLE 16 (type * 2 ^ 120 + status * 2 ^ 112 + tag * 2 ^ 96 + entry * 2 ^ 64 + offset * 2 ^ 32 + payload.length * 2 ^ 21)
  ++ payload

/-- A datagram sent, unless the transmitter is off (R469). -/
def fieldSend (s : State) (dst : BitVec 128) (b : List Byte) : State :=
  if s.field.tx then { s with field := { s.field with sent := s.field.sent ++ [(dst, b)] } } else s

/-- The destination that stands for the requester, whose address the request command does not name. -/
def requester : BitVec 128 := 0

/-- A datagram that the field side drops. -/
def fieldDropped (s : State) : State := { s with field := { s.field with rxDropped := satAdd s.field.rxDropped 1 65535 } }

/-- The answer to a field read: the value, or the status that refuses it (R448, R450, R466). -/
def fieldRead (s : State) (tag : BitVec 16) (idx sub off : Nat) : State :=
  let e := odKey idx sub
  match readRefused s 1 idx sub with
  | some st => fieldSend (noteError s 1 st idx sub 0) requester (legendBytes 2 st tag.toNat e off [])
  | none => fieldSend s requester (legendBytes 2 0 tag.toNat e off (readValue s idx sub off 1024))

/-- The answer to a field write: ACCESS, ROLE or NO_ENTRY (R466). -/
def fieldWrite (s : State) (tag : BitVec 16) (idx sub : Nat) : State :=
  let st := (writeRefused s 1 idx sub).getD 4
  fieldSend (noteError s 1 st idx sub 0) requester (legendBytes 2 st tag.toNat (odKey idx sub) 0 [])

/-- The answer to a request of the field port. -/
def fieldAnswer (s : State) (i : FieldReq) : State :=
  if i.write then fieldWrite s i.tag i.idx i.sub else fieldRead s i.tag i.idx i.sub i.off

/-- A request received: answered once S1 is complete, and queued before that, at most 8 (R466). -/
def fieldRequest (s : State) (i : FieldReq) : State :=
  if !fieldOn s then s
  else if 1 ≤ s.boot.stage then fieldAnswer s i
  else if s.field.queue.length < 8 then { s with field := { s.field with queue := s.field.queue ++ [i] } }
  else fieldDropped s

/-- The requests that waited for S1 are answered (R466, R501). -/
def fieldDrain (s : State) : State := s.field.queue.foldl fieldAnswer { s with field := { s.field with queue := [] } }

end Sys2Proof.Machine
end

