-- ==== Sys2Proof/Machine/FwOps.lean ====
section
/-! DEFINITION. Signed images, flash slots and measurements: the checks of an image, the measurement registers, the directory,
the programming of a slot and the configuration sets in flash (R455 to R462, R473, R485 to R490, R503 to R506, R543). -/

namespace Sys2Proof.Machine

/-! ### Measurement registers (R506) -/

/-- The 40 B entry of an extension. -/
def mrEntry (kind slot version : Nat) (digest : BitVec 256) : List Byte :=
  toLE 2 kind ++ toLE 2 slot ++ toLE 4 version ++ toLE 32 digest.toNat

/-- A measurement register extended. -/
def extendMr (s : State) (n : Nat) (entry : List Byte) : State :=
  { s with sec := { s.sec with mr := mput s.sec.mr n (shaNum (toLE 32 (mget s.sec.mr 0 n).toNat ++ entry)) } }

/-- Measurement registers cleared. -/
def clearMr (s : State) (l : List Nat) : State := { s with sec := { s.sec with mr := l.foldl mdel s.sec.mr } }

/-- A register extended with an image (R506). -/
def measureImage (s : State) (n : Nat) (i : Image) : State :=
  extendMr s n (mrEntry i.kind.toNat i.keySlot.toNat i.version.toNat i.digest)

/-- MR6 extended with the active set (R506). -/
def measureSet (s : State) : State := extendMr s 6 (mrEntry 0x0100 0 s.dict.activeGen.toNat (shaNum (setRecords s.dict.active)))

/-! ### Images (R485, R503, R504) -/

/-- A key slot is active (R503). -/
def keyActive (k : KeySlot) : Bool := keyState k == 1

/-- The checks of R504 that hang on OTP: the key slot is active, and ROLLBACK is at least the counter of the kind and at most
128. -/
def imageAllowed (s : State) (kind keySlot_ rollback : Nat) : Bool :=
  keySlot_ ≤ 2 && keyActive (keySlot s keySlot_) && mget s.sec.counters 0 kind ≤ rollback && rollback ≤ 128

/-- A stored image may still be loaded. -/
def imageUsable (s : State) (i : Image) : Bool := imageAllowed s i.kind.toNat i.keySlot.toNat i.rollback.toNat

/-- The largest body of an image of a kind: 16 MiB, 4,096 B, or the flash slot (R485). -/
def bodyLimit (kind : Nat) : Nat :=
  match kind with
  | 1 => 16777216
  | 2 => 4096
  | 5 => 1048576
  | 6 => 16777216
  | _ => 50331648

/-- Bytes of a signature under SLH-DSA-SHA2-128s (R485). -/
def sigBytes : Nat := 7856

/-- Bytes that an image takes, by its header. -/
def imageSize (r : Rd) (o : Nat) : Nat := 0x100 + r (o + 0x10) 4 + sigBytes

/-- The image of a kind at an offset of a source, if it passes R504. `get` gives the bytes of the source and `len` its length. -/
def imageAt (s : State) (get : Nat → Nat → List Byte) (len o kind : Nat) : Option Image :=
  let r : Rd := fun a n => leNat (get a n)
  let n := r (o + 0x10) 4
  let head := get o (0x100 + n)
  if r o 4 == 0x4F564C32 && r (o + 6) 2 == 1 && r (o + 4) 2 == kind
      && imageAllowed s kind (r (o + 0x14) 4) (r (o + 0x0C) 4)
      && n ≤ bodyLimit kind && o + imageSize r o ≤ len
      && sha256 (head.drop 0x100) == get (o + 0x20) 32
      && Config.sigVerifies (keySlot s (r (o + 0x14) 4)).key head (get (o + 0x100 + n) sigBytes) then
    some
      { kind := BitVec.ofNat 16 kind, version := BitVec.ofNat 32 (r (o + 8) 4), rollback := BitVec.ofNat 32 (r (o + 0x0C) 4)
        keySlot := BitVec.ofNat 32 (r (o + 0x14) 4), setId := BitVec.ofNat 64 (r (o + 0x18) 8), digest := shaNum head
        body := if kind = 2 then head.drop 0x100 else [] }
  else none

/-- The kinds of a firmware slot's places: steward, granary, link engine, tile (R486). -/
def placeKinds : List Nat := [1, 3, 4, 2]

/-- Offsets at which the images of a slot begin: each on a 64 KiB boundary, the next one beyond the end of the last (R486). -/
def imageStarts (r : Rd) (len : Nat) : Nat → Nat → List Nat
  | 0, _ => []
  | fuel + 1, o =>
    if len ≤ o then []
    else if r o 4 == 0x4F564C32 then o :: imageStarts r len fuel (o + (imageSize r o + 65535) / 65536 * 65536)
    else imageStarts r len fuel (o + 65536)

/-- The images of a slot by place, if every one passes: for firmware one of each kind, all of one SET_ID (R486, R504). -/
def slotImages (s : State) (get : Nat → Nat → List Byte) (len region : Nat) : Option (AMap Image) :=
  if region = 0 then
    let r : Rd := fun a n => leNat (get a n)
    let starts := imageStarts r len (len / 65536) 0
    let found := placeKinds.map fun k => (starts.filter fun o => r (o + 4) 2 == k).filterMap fun o => imageAt s get len o k
    if starts.length == 4 && found.all fun l => l.length == 1 then
      let l := found.flatten
      if l.all fun i => i.setId == (l.headD (factoryImage 1)).setId then some ((List.range 4).zip l) else none
    else none
  else (imageAt s get len 0 (if region = 1 then 5 else 6)).map fun i => [(0, i)]

/-! ### The directory (R486, R488) -/

/-- Key of the images of a slot. -/
def slotKey (region slot place : Nat) : Nat := 8 * (2 * region + slot) + place

/-- State of a slot. -/
def slotState (s : State) (region : Nat) (slot : Nat) : Nat :=
  (if slot = 0 then mget s.fw.stA 0 region else mget s.fw.stB 0 region).toNat

/-- The preferred slot of a region. -/
def slotPref (s : State) (region : Nat) : Nat := (mget s.fw.pref 0 region).toNat

/-- The image at a place of a slot. -/
def slotImage (s : State) (region slot place : Nat) : Option Image := mfind s.fw.images (slotKey region slot place)

/-- The directory rewritten in the copy that is not current (R359, R486). -/
def dirWrite (s : State) (f : Firmware → Firmware) : State :=
  let g := f s.fw
  { s with fw := { g with dirSeq := s.fw.dirSeq + 1 } }

/-- A slot's state. -/
def Firmware.setSlot (f : Firmware) (region slot st : Nat) : Firmware :=
  if slot = 0 then { f with stA := mset f.stA 0 region (BitVec.ofNat 2 st) } else { f with stB := mset f.stB 0 region (BitVec.ofNat 2 st) }

/-- The preferred slot of a region set. -/
def Firmware.setPref (f : Firmware) (region slot : Nat) : Firmware := { f with pref := mset f.pref 0 region (BitVec.ofNat 1 slot) }

/-- The images of a slot replaced. -/
def Firmware.setImages (f : Firmware) (region slot : Nat) (l : AMap Image) : Firmware :=
  let old := f.images.filter fun e => e.1 / 8 != 2 * region + slot
  { f with images := l.foldl (fun m e => mput m (slotKey region slot e.1) e.2) old }

/-- The firmware slot holds all four images. -/
def slotWhole (s : State) (slot : Nat) : Bool := (List.range 4).all fun p => (slotImage s 0 slot p).isSome

/-! ### FW_CONTROL (R488, R490) -/

/-- Flash slot size of a region in 64 KiB units (R472). -/
def slotUnits (region : Nat) : Nat :=
  match region with
  | 0 => 768
  | 1 => 16
  | _ => 256

/-- The slot that PROGRAM writes: the one not booted and not in use (R490). -/
def idleSlot (s : State) (region : Nat) : Nat :=
  1 - (match region with
    | 0 => s.fw.booted
    | 1 => s.fw.testInUse
    | _ => s.fw.kaInUse).toNat

/-- PROGRAM: the idle slot becomes empty in the directory, and its source is written and verified (R490). -/
def writeProgram (s : State) (w : Nat) : Wrote :=
  let region := bits w 58 2
  let units := bits w 48 10
  let src := bits w 0 42
  if src % 65536 != 0 || memCap s < src + 65536 * units then .refused s 7 0
  else if units = 0 || slotUnits region < units then .refused s 7 48
  else if s.boot.stage < 3 || s.fw.progState != 0 then .refused s 8 0
  else
    let slot := idleSlot s region
    let get (o n : Nat) : List Byte := cellRead s.mem.data (src + o) n
    let bad := s.mem.poison.any fun l => src / 64 ≤ l && 64 * l < src + 65536 * units
    let parsed := if bad then none else slotImages s get (65536 * units) region
    let s := dirWrite s fun f => (f.setSlot region slot 0).setImages region slot []
    .done { s with fw := { s.fw with
      progState := 1, progRegion := BitVec.ofNat 2 region, progSlot := BitVec.ofNat 1 slot, progSrc := BitVec.ofNat 42 src
      progLen := units, progImages := parsed } }

/-- FW_PROGRAM_COMPLETE: the slot is written and its reading back begins, or it has been read back and verified; the directory then
names it, and FW_PROGRAM_DONE is raised (R489, R490). -/
def execFwProgramComplete (readBack : Option Bool) (s : State) : Out :=
  match readBack with
  | none => .next (if s.fw.progState == 1 then { s with fw := { s.fw with progState := 2 } } else s)
  | some readBackOk =>
  if s.fw.progState == 0 then .next s
  else
    let region := s.fw.progRegion.toNat
    let slot := s.fw.progSlot.toNat
    let stop (s : State) (res : Nat) : State :=
      raise { s with fw := { s.fw with progState := 0, progResult := BitVec.ofNat 8 res, progImages := none } } .fwProgramDone
        [region, slot, res]
    match s.fw.progImages with
    | none => .next (stop s (if readBackOk then 0x11 else 0x12))
    | some l =>
      if !readBackOk then .next (stop s 0x12)
      else
        let s := dirWrite s fun f =>
          let f := ((f.setImages region slot l).setSlot region slot (if region = 0 then 2 else 1)).setPref region slot
          if region = 0 then { f with trialBoots := 0 } else f
        .next (stop s 0)

/-- CONFIRM: the booted trial slot becomes valid and preferred (R488). -/
def writeConfirm (s : State) : Wrote :=
  if s.boot.stage != 9 || !s.fw.trial then .refused s 8 0
  else
    let b := s.fw.booted.toNat
    .done (dirWrite s fun f => { (f.setSlot 0 b 1).setPref 0 b with trialBoots := 0, trial := false })

/-- PREFER_OTHER: the preference moves to the other slot if that is valid (R488). -/
def writePrefer (s : State) (region : Nat) : Wrote :=
  let other := 1 - slotPref s region
  if slotState s region other != 1 then .refused s 8 0 else .done (dirWrite s fun f => f.setPref region other)

/-- FW_CONTROL (R488). -/
def writeFwControl (s : State) (w : Nat) : Wrote :=
  match bits w 60 4 with
  | 1 => writeProgram s w
  | 2 => writeConfirm s
  | _ => writePrefer s (bits w 58 2)

/-! ### Configuration sets (R338, R456 to R462, R473, R543) -/

/-- A value of the shadow set. -/
def shadowVal (s : State) (idx sub : Nat) : Nat := (mget s.dict.shadow (odDefault (odKey idx sub)) (odKey idx sub)).toNat

/-- The first entry of the shadow set with a field outside its range (R457, part 1). -/
def setRangeBad (s : State) : Option Nat :=
  (rwsEntries.find? fun e =>
    match odFind e.1 e.2.1 with
    | some d => (badRange d (BitVec.ofNat 64 (shadowVal s e.1 e.2.1))).isSome
    | none => false).map fun e => odKey e.1 e.2.1

/-- A loaded image whose longest gap between fallow points the shadow set's slot length does not meet (R88, R338). -/
def setGapBad (s : State) : Bool :=
  let limit := bits (shadowVal s 0x2310 4) 0 16 * 1440 / max 1 (bits (shadowVal s 0x2310 1) 24 2)
  s.ctxs.any fun e =>
    let r := imageOf s e.2.cdef
    !e.2.cdef.cluster && (List.range e.2.cdef.sections).any fun i => limit < r (entOff (imSecTab r) 32 i + 8) 4

/-- The shadow set's trace ring breaks R172 for the live context it names. -/
def setTraceBad (s : State) : Bool :=
  let c := shadowVal s 0x4210 1
  let b := shadowVal s 0x4210 2
  bitAt c 31 &&
    (match s.ctx (bits c 24 4) with
     | some x => !(b % 2 ^ bits c 16 5 == 0 && insideOne x.cdef.ranges b (2 ^ bits c 16 5))
     | none => false)

/-- The status and DETAIL that refuse the shadow set, if one does (R457). -/
def setRefused (s : State) : Option (Nat × Nat) :=
  match setRangeBad s with
  | some k => some (9, k)
  | none =>
    if bits (shadowVal s 0x2310 4) 0 16 < 1000 * bits (shadowVal s 0x2310 1) 24 2 then some (9, odKey 0x2310 1)
    else if setGapBad s then some (9, odKey 0x2310 4)
    else if setTraceBad s then some (9, odKey 0x4210 2)
    else if (captureOwner s.dict.shadow).2 == 2 then some (0x0A, 1)
    else none

/-- LAST_RESULT of SET_STATUS. -/
def setResult (s : State) (st : Nat) : State := { s with dict := { s.dict with lastResult := BitVec.ofNat 8 st } }

/-- SET_CONTROL (R456, R457, R459, R543). -/
def writeSetControl (s : State) (hdr : MsgHdr) (cmd : Nat) : Wrote :=
  let idle := s.dict.state == 0
  match cmd with
  | 1 =>
    if !idle || !s.dict.erased then .refused (setResult s 0x0B) 0x0B 0
    else
      match setRefused s with
      | some e => .refused (setResult s e.1) e.1 e.2
      | none => .later { s with dict := { s.dict with state := 1, swap := some { vals := s.dict.shadow, hdr := hdr } } }
  | 2 => .done { s with dict := { s.dict with shadow := s.dict.active } }
  | 3 =>
    if !idle then .refused s 0x0B 0
    else .later { s with dict := { s.dict with state := 1, save := some hdr, copyS := { s.dict.copyS with valid := false } } }
  | _ => if !idle then .refused s 0x0B 0 else .done { s with dict := { s.dict with shadow := [] } }

/-- Copy 1 is the active copy in force (R473). -/
def copy1InForce (d : Dict) : Bool := d.copy1.valid && (!d.copy0.valid || d.copy0.gen.toNat < d.copy1.gen.toNat)

/-- The active copy not in force replaced. -/
def Dict.putOther (d : Dict) (c : SetCopy) : Dict := if copy1InForce d then { d with copy0 := c } else { d with copy1 := c }

/-- Contexts that run under the set that a swap replaces (R456, R460). -/
def runningUsers (s : State) : BitVec 16 :=
  (s.ctxs.filter fun e => e.2.rec_.state == 1).foldl (fun (a : BitVec 16) e => a ||| (1#16 <<< e.1)) 0

/-- The new set of a SWAP has verified: it is the module's set, ACTIVE_GEN advances, and it is adopted (R459, R460, R506). -/
def swapVerified (s : State) (w : Swap) : State :=
  let g := s.dict.activeGen + 1
  let c : SetCopy := { valid := true, gen := g, vals := w.vals }
  let d := s.dict.putOther c
  let s := { s with dict :=
    { d with
      copyS := c, active := w.vals, activeGen := g, state := 2, adopted := false, prevUsers := runningUsers s, erased := false
      lastResult := 0, swap := none } }
  settleSwap (measureSet s)

/-- The flash copy of a SWAP has failed to verify: the old set stays in force (R459). -/
def swapFailed (s : State) : State :=
  let d := s.dict.putOther {}
  { s with dict := { d with state := 0, erased := false, lastResult := 0x12, swap := none } }

/-- SWAP_ERASE_COMPLETE: the active copy not in force is erased (R459). -/
def execSwapEraseComplete (s : State) : Out :=
  if s.dict.erased || s.dict.swap.isSome then .next s
  else
    let d := s.dict.putOther {}
    .next { s with dict := { d with erased := true } }

/-- The end of a SAVE: the shadow copy verified, or left invalid (R543). -/
def saveEnded (s : State) (ok : Bool) : State :=
  let c : SetCopy := if ok then { valid := true, gen := s.dict.activeGen, vals := s.dict.shadow } else { s.dict.copyS with valid := false }
  { s with dict := { s.dict with state := 0, save := none, copyS := c } }

end Sys2Proof.Machine
end

