-- ==== Sys2Proof/Machine/Reset.lean ====
section
/-! DEFINITION. Module resets, the loss of 48 V, and the course of a bring-up from stage to stage: what each keeps, how a
stage starts, ends and fails, and the fallback to the other firmware slot (R277, R378, R379, R394, R395, R428, R431, R434,
R474 to R479, R483, R487, R499, R500, R511, R522 to R524, R528). -/

namespace Sys2Proof.Machine

/-! ### What is cut short (R459, R490, R505, R516, R543) -/

/-- Image kinds of a region (R505). -/
def regionKinds (region : Nat) : List Nat :=
  match region with
  | 0 => [1, 2, 3, 4]
  | 1 => [5]
  | _ => [6]

/-- The value to which ROLLBACK_COMMIT raises the counter of a kind: that of the running image (R505). -/
def commitValue (s : State) (kind : Nat) : Nat :=
  max (mget s.sec.counters 0 kind) (((mfind s.fw.running kind).map (·.rollback.toNat)).getD 0)

/-- A ROLLBACK_COMMIT cut short: each counter stands as far as its fuses were set, which no rule says (R516). -/
def commitCut (s : State) : State :=
  match s.sec.commit with
  | none => s
  | some r =>
    let s := (regionKinds r.toNat).foldl (fun s k =>
      let (n, s) := s.draw
      let old := mget s.sec.counters 0 k
      let v := old + (Config.freeWord n).toNat % (commitValue s k - old + 1)
      { s with sec := { s.sec with counters := mset s.sec.counters 0 k v } }) s
    { s with sec := { s.sec with commit := none } }

/-- Flash writes cut short: the set copy of a SWAP is invalid and not erased, the shadow copy of a SAVE is invalid (R459,
R543). -/
def flashCut (s : State) : State :=
  let d := if s.dict.swap.isSome then { s.dict.putOther {} with erased := false, swap := none } else s.dict
  commitCut { s with dict := { d with save := none } }

/-! ### Loss of 48 V (R397, R517, R528) -/

/-- Probation entry times and counts, which the gazetteer keeps (R346, R358). -/
def probations (m : AMap Phys) : AMap Phys :=
  m.filterMap fun e =>
    if e.2.probCount = 0 then none else some (e.1, { probAt := e.2.probAt, probCount := e.2.probCount })

/-- The module without 48 V: what flash and OTP hold remains, and everything else is as before power is first applied. -/
def powerLost (s : State) : State :=
  let s := flashCut s
  { State.reset with
    pending := s.pending
    factory := s.factory
    fw :=
      { pref := s.fw.pref, stA := s.fw.stA, stB := s.fw.stB, trialBoots := s.fw.trialBoots, images := s.fw.images
        dirSeq := s.fw.dirSeq }
    dict := { copy0 := s.dict.copy0, copy1 := s.dict.copy1, copyS := s.dict.copyS, erased := s.dict.erased }
    gleaner :=
      { gazA := s.gleaner.gazA, gazB := s.gleaner.gazB, fsr := s.gleaner.fsr, fsrSeq := s.gleaner.fsrSeq
        fsrDropped := s.gleaner.fsrDropped, phys := probations s.gleaner.phys }
    sec := { keys := s.sec.keys, counters := s.sec.counters, provisioned := s.sec.provisioned }
    draws := s.draws }

/-! ### Module resets (R378, R394, R395, R434, R478, R483, R511, R532) -/

/-- The clock tree after a module reset: a warm reset keeps a root that is locked; any other starts from the coast oscillator.
The ready flags follow the receivers, and the steward time base counts on (R434, R444). -/
def resetClocks (s : State) (warm : Bool) : Clocks :=
  let c := s.clk
  let keep := warm && rootLocked s && c.source != .holdover
  { source := if keep then c.source else .coast
    coasting := !keep
    firstLock := keep
    readyM0 := c.readyM0
    readyM1 := c.readyM1
    lockM0 := c.lockM0
    lockM1 := c.lockM1
    tilesStopped := s.pow.loadShed
    timeUs := c.timeUs }

/-- The Meridian port after a module reset: a warm reset leaves the steward and its message series, a cold one begins anew. -/
def resetMeridian (s : State) (c : Clocks) (warm : Bool) : Meridian :=
  if warm then
    { s.mer with
      switchTx := none, switchRx := none, resends := 0, uncorr := 0, held := [], blocking := none, bad0 := [], bad1 := []
      txM0 := s.mer.txM0 && !c.coasting, txM1 := s.mer.txM1 && !c.coasting }
  else {}

/-- Configuration after a module reset: the flash copies remain; the sets in force are read again at S1. -/
def resetDict (d : Dict) : Dict :=
  { active := d.active, shadow := d.shadow, inForce := d.inForce, activeGen := d.activeGen
    copy0 := d.copy0, copy1 := d.copy1, copyS := d.copyS, erased := d.erased }

/-- Firmware after a module reset: a warm reset keeps the verified images (R478). -/
def resetFw (f : Firmware) (warm : Bool) : Firmware :=
  { f with
    running := if warm then f.running else [], progState := 0, progImages := none, progResult := 0, progRegion := 0, progSlot := 0
    progSrc := 0, progLen := 0, round := none }

/-- Security state after a module reset: locked; a cold path forgets that debug was open (R511, R512, R515). -/
def resetSec (c : Security) (warm : Bool) : Security :=
  { keys := c.keys, counters := c.counters, mr := c.mr, provisioned := c.provisioned, sinceCold := warm && c.sinceCold }

/-- Bring-up state after a module reset: `kind` is LAST_KIND, 0 for a reset that is not counted (R394, R395, R478, R482). -/
def resetBoot (s : State) (kind : Nat) (clear : Bool) : Bringup :=
  let b := s.boot
  let before := if clear then [] else recentModuleResets s
  let resets := if kind = 0 then before else now s :: before
  { path := if kind = 1 then 1 else 0
    busy := some 1
    since := now s
    on := true
    fedAt := now s
    afterWatchdog := kind == 3
    watchdogResets := if kind = 3 then satAdd b.watchdogResets 1 255 else b.watchdogResets
    eccCorrected := b.eccCorrected
    resets := resets
    outOfService := (b.outOfService && !clear) || (kind != 0 && 8 ≤ resets.length)
    lastKind := if kind = 0 then b.lastKind else BitVec.ofNat 3 kind }

/-- A module reset. Contexts, links, tiles and memory contents are gone, events are numbered from 0 again, and bring-up starts
at S1; on the warm path a decision not yet written reaches the gazetteer (R277, R359, R378, R379, R428). -/
def moduleReset (s : State) (kind : Nat) (clear : Bool) : State :=
  let warm := kind == 1
  let s := flashCut s
  let s := match gazCurrent s with
    | some g => if warm && s.gleaner.gazDirty then writeGaz s (gazContents s g) else s
    | none => s
  let clk := resetClocks s warm
  let f := s.field
  let s :=
    { State.reset with
      pending := s.pending
      factory := s.factory
      gleaner :=
        { gazA := s.gleaner.gazA, gazB := s.gleaner.gazB, fsr := s.gleaner.fsr, fsrSeq := s.gleaner.fsrSeq
          fsrDropped := s.gleaner.fsrDropped, phys := probations s.gleaner.phys }
      mer := resetMeridian s clk warm
      dict := resetDict s.dict
      field :=
        { up := f.up, cable := f.cable, reversed := f.reversed, distance := f.distance, dcLevel := f.dcLevel, tx := f.tx, txAt := f.txAt
          manager := if warm then f.manager else none, sent := f.sent }
      clk := clk
      pow :=
        { s.pow with
          railFaults := 0, sheds := 0, gov1ms := 0, gov1s := 0, since1ms := 0, since1s := 0, shed := none, tail := [] }
      fw := resetFw s.fw warm
      boot := resetBoot s kind clear
      sec := resetSec s.sec warm
      draws := s.draws }
  clearMr s (if warm then [6] else [0, 1, 2, 3, 6, 7])

/-! ### The course of a bring-up (R474 to R479, R499, R500, R501) -/

/-- The warm path (R478). -/
def onWarm (s : State) : Bool := s.boot.path == 1

/-- Stages that need the root locked: S2 ends with it, and S3, S4, S7 and S8 wait for it (R474, R501). -/
def stageRoot (s : State) (n : Nat) : Bool := rootLocked s || !(n == 2 || n == 3 || n == 4 || n == 7 || n == 8)

/-- Rails that a stage turns on, in order (R522). -/
def stageRails (s : State) (n : Nat) : List Rail :=
  let compute : List Rail :=
    [.loft 0, .loft 1, .quarter .nw, .quarter .ne, .quarter .sw, .quarter .se, .test 0, .test 1]
  match n with
  | 0 => [.holdUp, .stewardCore, .stewardIo, .field]
  | 3 => [.granary, .vdd1, .vdd2, .vddq]
  | 4 => compute
  | 5 => if onWarm s then compute else []
  | 7 => [.linkEngine, .laser]
  | _ => []

/-- Every rail of a stage reaches power good: none of them is known to fail (R523). -/
def railsOk (s : State) (n : Nat) : Bool := (stageRails s n).all fun r => !s.pow.faulty.contains r

/-- The rails of a stage turned on in order, as far as each reaches power good (R522, R523). -/
def railsOn (s : State) (n : Nat) : State :=
  let l := ((stageRails s n).takeWhile fun r => !s.pow.faulty.contains r).filter fun r => !s.pow.rails.contains r
  { s with pow := { s.pow with rails := s.pow.rails ++ l } }

/-- The Meridian port enabled at the start of S2, or by the ROM: a lane that is in lock receives, and both transmit while the
root is locked (R431, R474, R500). -/
def openPort (s : State) : State :=
  setPort s fun m =>
    { m with
      enabled := true, rxM0 := s.clk.lockM0, rxM1 := s.clk.lockM1, txM0 := rootLocked s, txM1 := rootLocked s }

/-- The first lock of a bring-up begins where a source is ready and no trip holds S2 (R434, R531). -/
def seekLock (s : State) : State :=
  if s.clk.coasting && s.clk.change.isNone && !s.pow.tripHold && (s.clk.readyM0 || s.clk.readyM1) then
    decideChange s (sourceOf (!s.clk.readyM0))
  else s

/-- A link taken up for training at S8: every link of a mapped slot trains, and the others stay unused (R304, R324, R474). -/
def trainLinks (s : State) : State :=
  (List.range 32).foldl (fun s l =>
    s.modLink l fun k => { k with state := if bits (linkMap s (linkSlot l)) 30 2 != 0 then 1 else 4 }) s

/-- A stage starts from its beginning (R479). -/
def startStage (s : State) (n : Nat) : State :=
  let s := railsOn { s with boot := { s.boot with busy := some n, state := 0, stageAt := now s } } n
  match n with
  | 2 => seekLock (openPort s)
  | 4 => clearMr { s with boot := { s.boot with s4Done := false } } [4]
  | 5 => if onWarm s then clearMr s [4] else s
  | 7 => clearMr s [5]
  | 8 => trainLinks s
  | _ => s

/-- The stage after a completed one; S4 is skipped on the warm path (R478). -/
def stageAfter (s : State) (n : Nat) : Nat := if n = 3 && onWarm s then 5 else n + 1

/-- What follows a completed stage: the next one up to TARGET, or a halt; at S9 the module serves (R475, R476, R477). -/
def afterStage (s : State) (n : Nat) : State :=
  if n = 9 then { s with boot := { s.boot with holdReq := false } }
  else if s.boot.holdReq || s.boot.target ≤ n then
    { s with boot := { s.boot with state := 1, holdReq := false } }
  else startStage s (stageAfter s n)

/-- A stage completes: its time is noted and BRINGUP_STAGE_DONE raised (R474, R477). -/
def endStage (s : State) (n : Nat) : State :=
  let s := { s with boot := { s.boot with
    stage := n, busy := none, times := mset s.boot.times 0 n (now s - s.boot.since), failStage := 0, failCode := 0 } }
  afterStage (raise s .bringupStageDone [n]) n

/-- A stage fails: the module holds with the stages it completed (R499, R500). -/
def failStage (s : State) (n code : Nat) : State :=
  raise { s with boot := { s.boot with
      busy := none, state := 2, failStage := n, failCode := BitVec.ofNat 8 code, holdReq := false } } .bringupFailed [n, code]

/-- The slot booted does not verify: it is invalid, the module restarts on the cold path from the other slot, and
FW_SLOT_FALLBACK is raised with the slot (R487). -/
def slotFallback (s : State) : State :=
  let b := s.fw.booted.toNat
  let s := dirWrite s fun f => f.setSlot 0 b 3
  raise (moduleReset s 0 false) .fwSlotFallback [b]

/-- The booted slot's image at a place, if it still passes (R504). -/
def bootedImage (s : State) (place : Nat) : Option Image :=
  (slotImage s 0 s.fw.booted.toNat place).filter (imageUsable s)

/-- An image of the booted slot loaded and measured; none where it fails (R487, R504, R506). -/
def loadFirmware (s : State) (place reg : Nat) (ok : Bool) : Option State :=
  match if ok then bootedImage s place else none with
  | none => none
  | some i =>
    let s := measureImage s reg i
    some { s with fw := { s.fw with running := mput s.fw.running i.kind.toNat i } }

/-- Test content or a known-answer set loaded and measured: the preferred slot where it verifies, and otherwise the other
(R487, R506). -/
def loadContent (s : State) (region reg : Nat) (ok : Bool) : Option State :=
  let p := slotPref s region
  let good (n : Nat) : Option (Nat × Image) :=
    if slotState s region n == 1 then ((slotImage s region n 0).filter (imageUsable s)).map fun i => (n, i) else none
  match if ok then (good p).orElse (fun _ => good (1 - p)) else none with
  | none => none
  | some (n, i) =>
    let s := measureImage s reg i
    let f := { s.fw with running := mput s.fw.running i.kind.toNat i }
    some { s with fw := if region = 1 then { f with testInUse := BitVec.ofNat 1 n } else { f with kaInUse := BitVec.ofNat 1 n } }

end Sys2Proof.Machine
end

