-- ==== Sys2Proof/Machine/Bringup.lean ====
section
/-! DEFINITION. Bring-up: stages S0 to S9, the broadcast of the tile firmware, the limits and failures of a stage, the commands
of BRINGUP_CONTROL, and the steward watchdog (R330, R353 to R359, R473 to R501, R506, R522, R523, R527). -/

namespace Sys2Proof.Machine

/-! ### S0 (R522, R523) -/

/-- STAGE_S0: the rails rise and the steward is released; a steward rail that fails leaves the module without power. -/
def execStageS0 (railsGood : Bool) (s : State) : Out :=
  if s.boot.busy != some 0 || s.pow.dark then .next s
  else if !railsGood then .next (powerLost s)
  else .next (endStage (railsOn { s with boot := { s.boot with on := true } } 0) 0)

/-! ### S1 (R359, R462, R473, R474, R487, R499, R500, R506, R507, R527) -/

/-- A firmware slot that the ROM may boot. -/
def bootable (s : State) (n : Nat) : Bool := slotState s 0 n == 1 || slotState s 0 n == 2

/-- The slot the directory leads to: the preferred one where it is bootable, and the other otherwise (R487). -/
def bootSlot (s : State) : Option Nat :=
  let p := slotPref s 0
  if bootable s p then some p else if bootable s (1 - p) then some (1 - p) else none

/-- The ROM's choice: before it starts a trial slot it counts the trial; at the third one the slot is invalid, the preference
moves, FW_TRIAL_FAILED is raised and the other slot is looked at (R487). -/
def chooseBoot (s : State) : State × Option Nat :=
  match bootSlot s with
  | none => (s, none)
  | some b =>
    if slotState s 0 b != 2 then (s, some b)
    else
      let n := s.fw.trialBoots + 1
      if n < 3 then (dirWrite s fun f => { f with trialBoots := n }, some b)
      else
        let s := dirWrite s fun f => { ((f.setSlot 0 b 3).setPref 0 (1 - b)) with trialBoots := 0 }
        let s := raise s .fwTrialFailed [b]
        (s, bootSlot s)

/-- The configuration sets read from flash: the active copy in force and the shadow copy, or the defaults where no active copy
is valid; every entry is then in force (R462, R473, R506). -/
def loadSets (s : State) : State :=
  let d := s.dict
  let sh (a : AMap DWord) : AMap DWord := if d.copyS.valid then d.copyS.vals else a
  let use (d : Dict) (c : SetCopy) : Dict := { d with active := c.vals, activeGen := c.gen, shadow := sh c.vals }
  let s :=
    if copy1InForce d then { s with dict := use d d.copy1 }
    else if d.copy0.valid then { s with dict := use d d.copy0 }
    else raise { s with dict := { d with active := [], activeGen := 0, shadow := [] } } .configDefaulted []
  measureSet (adoptModule s)

/-- A channel that the gazetteer lists as retired (R271). -/
def loadRetired (s : State) (ch : Nat) : State :=
  s.modStripe (ch / 12) fun t =>
    if t.state == 0 then { t with state := 1, retiredPos := BitVec.ofNat 4 (ch % 12) }
    else { t with state := 2, lostPos := BitVec.ofNat 4 (ch % 12) }

/-- A tile state of the gazetteer (R358). -/
def loadFence (h : Phys) (code : BitVec 4) : Phys :=
  match code.toNat with
  | 1 => { h with fence := .probation }
  | 2 => { h with fence := .fenced }
  | 3 => { h with fence := .marginal, marginal := true }
  | 4 => { h with fence := .factory }
  | _ => h

/-- The current gazetteer copy read (R271, R300, R358, R359). -/
def loadGaz (s : State) : State :=
  match gazCurrent s with
  | none => s
  | some g =>
    let s := g.tiles.foldl (fun s e => s.modPhys e.1 fun h => loadFence h e.2) s
    let s := g.retired.foldl loadRetired { s with mem := { s.mem with retired := g.retired } }
    let s := g.failedWl.foldl (fun s e => s.modLink e.1 fun k => { k with failedTx := e.2, failedRx := e.2 }) s
    { s with
      mesh := { s.mesh with failed := g.links.map linkNorm }
      gleaner := { s.gleaner with gridSelect := g.gridSelect, sparesW := g.sparesW, sparesE := g.sparesE } }

/-- A tally tail newer than the last one reported raises POWER_FAIL_RECORDED with its cause and time (R415, R527). -/
def reportTail (s : State) : State :=
  match newerTail s with
  | none => s
  | some t =>
    if t.seq ≤ s.factory.tailSeen then s
    else
      raise { s with factory := { s.factory with tailSeen := t.seq } } .powerFailRecorded
        [leNat ((t.bytes.drop 0x0C).take 1), leNat ((t.bytes.drop 0x10).take 8)]

/-- Out of service: bring-up stops at S1, and the module answers the dictionary alone (R394). -/
def stopService (s : State) : State :=
  let s := { s with boot := { s.boot with
    stage := 1, busy := none, state := 3, times := mset s.boot.times 0 1 (now s - s.boot.since) } }
  let s := raise s .bringupStageDone [1]
  seekLock (openPort (raise s .moduleOutOfService [(recentModuleResets s).length]))

/-- The end of S1: the steward firmware runs, has read what flash holds, and the field port answers. -/
def finishS1 (s : State) (seedOk : Bool) : State :=
  let s := loadGaz (loadSets s)
  let s := { s with field := { s.field with up := !s.pow.faulty.contains Rail.field } }
  let s := if seedOk then s else raise { s with sec := { s.sec with otpFault := true } } .secOtpFault []
  let s := if s.boot.afterWatchdog then raise { s with boot := { s.boot with afterWatchdog := false } } .watchdogReset [] else s
  let s := reportTail s
  let s := { s with boot := { s.boot with fedAt := now s } }
  fieldDrain (if s.boot.outOfService then stopService s else endStage s 1)

/-- No firmware slot can be booted: ROM recovery, in which the ROM locks the root and brings up the Meridian port (R499,
R500). -/
def romRecovery (s : State) : State :=
  let s := failStage { s with boot := { s.boot with path := 2 } } 1 0x10
  seekLock (openPort s)

/-- STAGE_S1: on the cold path the ROM chooses a slot and verifies the steward image; the firmware then reads its records. -/
def execStageS1 (imageOk seedOk : Bool) (s : State) : Out :=
  if s.boot.busy != some 1 then .next s
  else if onWarm s then .next (finishS1 s seedOk)
  else
    match chooseBoot s with
    | (s, none) => .next (romRecovery s)
    | (s, some b) =>
      let s := { s with fw := { s.fw with booted := BitVec.ofNat 1 b, trial := slotState s 0 b == 2 } }
      match loadFirmware s 0 0 imageOk with
      | none => .next (slotFallback s)
      | some s => .next (finishS1 s seedOk)

/-! ### S2 and S3 (R268, R270, R474, R480, R499) -/

/-- STAGE_S2: the root is locked at 7.2 GHz and the Meridian port is up or degraded. -/
def execStageS2 (s : State) : Out :=
  if s.boot.busy == some 2 && portUp s && rootLocked s && !s.pow.tripHold then
    .next (endStage { s with clk := { s.clk with firstLock := true } } 2)
  else .next s

/-- STAGE_S3: the granary image, the self-test and the training of the channels; memory is written anew, and a channel that
does not train is retired (R259, R267, R480). -/
def execStageS3 (imageOk selfTestOk : Bool) (untrained : List Nat) (s : State) : Out :=
  if s.boot.busy != some 3 || !railsOk s 3 || !stageRoot s 3 then .next s
  else
    match if onWarm s then some s else loadFirmware s 1 1 imageOk with
    | none => .next (slotFallback s)
    | some s =>
      if !selfTestOk then .next (failStage s 3 0x31)
      else
        let s := { s with mem := { s.mem with data := [], poison := [] } }
        let s := (untrained.filter fun c => c < 192).foldl (fun s c =>
          if s.mem.retired.contains c then s else retireChannel s c) s
        if stripeLost s then .next (failStage s 3 0x32) else .next (endStage s 3)

/-! ### S4 (R330, R345, R347, R481) -/

/-- A tile that is decided at S4 as if it had completed its retest: one that fails at nominal voltage is to be fenced, one that
fails at a corner is MARGINAL, and one that passes is good. Only a change of state is recorded. -/
def decideTile (s : State) (r : S4Result) : State :=
  let h := s.phys r.p
  let lost := h.fence == .fenced || h.fence == .factory
  if 6000 ≤ r.p || lost then s
  else if r.nominal.failed != 0 then
    decideFence (s.modPhys r.p fun h => { h with fence := .probation, retestDue := true }) r.p (some (r.nominal, 0))
  else
    let corner := if r.low.failed != 0 then some (r.low, (-1 : Int)) else if r.high.failed != 0 then some (r.high, 1) else none
    match corner with
    | some c => if h.fence == .marginal then s else returnTile s r.p 2 true (some c)
    | none => if h.fence == .probation || h.fence == .marginal then returnTile s r.p 2 false (some (r.nominal, 0)) else s

/-- A clean result. -/
def cleanResult : TestResult := ⟨0, 0, 0⟩

/-- Results of S4: those given, and clean ones for every other tile on probation or MARGINAL. -/
def allResults (s : State) (l : List S4Result) : List S4Result :=
  let rest := s.gleaner.phys.filter fun e =>
    (e.2.fence == .probation || e.2.fence == .marginal) && !(l.any fun r => r.p == e.1)
  l ++ rest.map fun e => ⟨e.1, cleanResult, cleanResult, cleanResult⟩

/-- A margin check is still to complete. -/
def anyStorm (s : State) : Bool := s.gleaner.dies.any fun d => d.2.storm

/-- STAGE_S4: test content is loaded and every tile and mesh link is decided; the stage completes once no margin check is in
progress (R481). -/
def execStageS4 (contentOk : Bool) (results : List S4Result) (badLinks : List MeshLink) (s : State) : Out :=
  if s.boot.busy != some 4 || !railsOk s 4 || !stageRoot s 4 then .next s
  else if s.boot.s4Done then .next (if anyStorm s then s else endStage s 4)
  else
    match loadContent s 1 4 contentOk with
    | none => .next (failStage s 4 0x40)
    | some s =>
      let s := (allResults s results).foldl decideTile s
      let add := ((badLinks.map linkNorm).filter fun l => !s.mesh.failed.contains l).dedup
      let s := if add.isEmpty then s else gazDecided { s with mesh := { s.mesh with failed := s.mesh.failed ++ add } }
      let s := { s with boot := { s.boot with s4Done := true } }
      .next (if anyStorm s then s else endStage s 4)

/-! ### S5 (R27, R336, R346, R353 to R357, R359) -/

/-- A failed vertical link is removed from use by fencing the position at its northern end (R354). -/
def fenceNorth (s : State) (l : MeshLink) : State :=
  let p := physAt (l.x / 60) l.y (l.x % 60)
  if l.dir == .south && goodTile s p then
    let seq := s.gleaner.fsrSeq
    let s := decide_ s p 7 1 none
    raise (gazDecided (s.modPhys p fun h => { h with fence := .fenced })) .tileFenced
      [physDie p, physX p, physRow p, 7, 0, seq]
  else s

/-- Physical rows of a half of a die, and the logical rows it must hold (R28). -/
def halfRows (h : Nat) : List Nat := (List.range 25).map (· + 25 * h)
def halfLogical (h : Nat) : List Nat := (List.range 24).map (· + 24 * h)

/-- A row with enough good positions, whatever its links. -/
def rowFull (s : State) (die row : Nat) : Bool := rowTiles s + 1 ≤ goodCount s die row

/-- The rows of a half that may be bound: the eligible ones, and where those are too few also rows whose only fault is a failed
link, which then stays in fallback (R353, R355). -/
def bindable (s : State) (die h : Nat) : List Nat :=
  let ok := (halfRows h).filter (rowEligible s die)
  ok ++ ((halfRows h).filter fun r => rowFull s die r && !rowEligible s die r).take (24 - ok.length)

/-- The window of a half of the trimmed grid: the present one, or the westmost in which 24 rows may be bound (R354). -/
def chooseWindow (s : State) (die h : Nat) : Option State :=
  let at_ (w : Nat) : State :=
    { s with gleaner := { s.gleaner with window := mput s.gleaner.window (2 * die + h) w } }
  if !s.gleaner.trimmed then some s
  else
    ((mget s.gleaner.window 0 (2 * die + h) :: List.range 9).find? fun w => 24 ≤ (bindable (at_ w) die h).length).map at_

/-- A half bound: every current binding to a row that may be bound is kept, and the other logical rows take the free rows, the
lowest first; none where the half is unplaceable (R354). -/
def bindHalf (s : State) (die h : Nat) : Option State :=
  (chooseWindow s die h).bind fun s =>
    let ok := bindable s die h
    if ok.length < 24 then none
    else
      let cur (y : Nat) : Option Nat := (mfind s.gleaner.rowBind (48 * die + y)).filter ok.contains
      let kept := (halfLogical h).filterMap fun y => (cur y).map fun r => (y, r)
      let free := ((halfRows h).filter ok.contains).filter fun r => !(kept.any fun e => e.2 == r)
      let rest := (halfLogical h).filter fun y => (cur y).isNone
      let all := kept ++ rest.zip free
      some { s with gleaner := { s.gleaner with
        rowBind := all.foldl (fun m e => mput m (48 * die + e.1) e.2) s.gleaner.rowBind } }

/-- The halves of the module as die and half. -/
def halves : List (Nat × Nat) := [(0, 0), (0, 1), (1, 0), (1, 1)]

/-- Every half bound on a grid, or the half that cannot be. -/
def bindGrid (s : State) (g : GazCopy) (trimmed : Bool) : State ⊕ (Nat × Nat) :=
  let s0 := { s with gleaner := { s.gleaner with
    trimmed := trimmed, rowBind := if trimmed then g.rowsTrim else g.rowsFull, window := if trimmed then g.window else [] } }
  halves.foldl (fun a h =>
    match a with
    | .inl s =>
      match bindHalf s h.1 h.2 with
      | some s => .inl s
      | none => .inr h
    | .inr e => .inr e) (.inl s0)

/-- Positions of a bound row that take its logical tiles, in ascending order: good ones, and MARGINAL ones only where those are
exhausted (R354). -/
def rowPlaces (s : State) (die row : Nat) : List Nat :=
  let l := (spanTiles s die row).filter (goodTile s)
  let good := l.filter fun p => (s.phys p).fence != .marginal
  let bad := l.filter fun p => (s.phys p).fence == .marginal
  let n := rowTiles s
  let use := good.take n ++ bad.take (n - good.length)
  l.filter use.contains

/-- The gap of a bound row: the westmost good position that remains. -/
def rowGapAt (s : State) (die row : Nat) : Option Nat :=
  let used := rowPlaces s die row
  let l := (spanTiles s die row).filter fun p => goodTile s p && !used.contains p
  ((l.find? fun p => (s.phys p).fence != .marginal).orElse fun _ => l.head?)

/-- A physical tile as S5 leaves it: holding a logical tile, the gap of its row, or idle. -/
def placedPhys (h : Phys) (at_ : Option Nat) (gap : Bool) : Phys :=
  let mark := h.marginal || h.fence == Fence.marginal
  match at_ with
  | some k => { h with fence := .logical, marginal := mark, lastLogical := some k, used := (k, none) :: h.used }
  | none => if gap then { h with fence := .gap, marginal := mark } else h

/-- The physical tiles of a row. -/
def placedRow (s : State) (die row : Nat) : AMap Phys :=
  let y := boundRow s die row
  let places := if y.isSome then rowPlaces s die row else []
  let gap := if y.isSome then rowGapAt s die row else none
  (List.range 60).map fun i =>
    let p := physAt die row i
    (p, placedPhys (s.phys p) ((places.findIdx? fun q => q == p).map fun j => tkey (rowTiles s * die + j) (y.getD 0))
      (gap == some p))

/-- The remap tables and gaps that follow from the row bindings (R27, R354). -/
def placeGrid (s : State) : State :=
  let place (die y : Nat) : AMap Nat :=
    match mfind s.gleaner.rowBind (48 * die + y) with
    | some row => ((List.range (rowTiles s)).map fun i => tkey (rowTiles s * die + i) y).zip (rowPlaces s die row)
    | none => []
  let rows := (List.range 2).flatMap fun die => (List.range 50).filterMap fun r =>
    if (boundRow s die r).isSome then some (50 * die + r, { gap := (rowGapAt s die r).map physPos }) else none
  { s with gleaner := { s.gleaner with
    bind := (List.range 48).flatMap fun y => (List.range 2).flatMap fun die => place die y
    phys := (List.range 2).flatMap fun die => (List.range 50).flatMap fun r => placedRow s die r
    rows := rows, plots := [], trimOffered := false, rebind := false } }

/-- The rebuild of every bound row restarts its sweep (R336). -/
def countRebuilds (s : State) : State :=
  s.gleaner.rows.foldl (fun s e => countRestart s (physAt (e.1 / 50) (e.1 % 50) 0)) s

/-- A failed link that S5 does not remove: a row link of the seam, or one within the span of a bound row (R355). -/
def unrepaired (s : State) (l : MeshLink) : Bool :=
  l.dir == .east &&
    (l.x == 59 || ((boundRow s l.die l.y).isSome
      && (let w := span s l.die l.y
          w.1 ≤ l.x % 60 && l.x % 60 + 1 < w.1 + w.2)))

/-- MESH_LINK_UNREPAIRED raised for each link that stays in fallback routing. -/
def reportLinks (s : State) : State :=
  (s.mesh.failed.filter (unrepaired s)).foldl (fun s l =>
    raise { s with gleaner := { s.gleaner with linkUnrepaired := true } } .meshLinkUnrepaired [l.die, l.x, l.y]) s

/-- A tile left on probation by a warm reset: its delay starts again (R357). -/
def restartDelay (s : State) : State :=
  { s with gleaner := { s.gleaner with phys := s.gleaner.phys.map fun e =>
      (e.1, if e.2.fence == .probation then { e.2 with probAt := now s, retestDue := false } else e.2) } }

/-- The grid that S5 puts in force: the one selected, or the trimmed one where the full grid cannot be placed; the half that
cannot be placed otherwise (R5, R356). -/
def selectGrid (s : State) (g : GazCopy) : State ⊕ (Nat × Nat) :=
  let trim := s.gleaner.gridSelect == 1 || bits s.factory.product.toNat 12 4 == 1
  match bindGrid s g trim with
  | .inl s => .inl s
  | .inr h => if trim then .inr h else bindGrid s g true

/-- The work of S5 once its content is loaded. -/
def buildGrid (s : State) (g : GazCopy) : State :=
  let s := s.mesh.failed.foldl fenceNorth s
  match selectGrid s g with
  | .inr h =>
    let s := failStage (raise s .gridUnplaceable [h.1, h.2]) 5 0x51
    { s with boot := { s.boot with state := 3 } }
  | .inl s =>
    let s := reportLinks (gazDecided (countRebuilds (placeGrid (if onWarm s then restartDelay s else s))))
    endStage (checkReserve (checkReserve s 0) 1) 5

/-- STAGE_S5: on the warm path test content is loaded; the grid selection is applied and rows are rebuilt. -/
def execStageS5 (contentOk : Bool) (s : State) : Out :=
  if s.boot.busy != some 5 || !railsOk s 5 then .next s
  else
    match if onWarm s then loadContent s 1 4 contentOk else some s with
    | none => .next (failStage s 5 0x40)
    | some s =>
      match gazCurrent s with
      | none => .next (failStage s 5 0x50)
      | some g => .next (buildGrid s g)

/-! ### S6 (R79, R181, R491 to R494) -/

/-- Every bin zero-filled and every tile outside a program. -/
def zeroTiles (s : State) : State := { s with tiles := s.tiles.map fun e => (e.1, clearedTile e.2) }

/-- The tiles that take part in the broadcast. -/
def goodTiles (s : State) : List Nat := (List.range 6000).filter (goodTile s)

/-- A broadcast is in progress at S6. -/
def inBroadcast (s : State) : Bool := s.boot.busy == some 6 && s.fw.round.isSome

/-- A round begins (R494). -/
def setRound (s : State) (r : Nat) : State := { s with fw := { s.fw with round := some r, roundAt := now s } }

/-- A chunk of the region that the broadcast carries: the body of the tile image in force, padded with zeros (R491). -/
def fwChunk (s : State) (c : Nat) : BitVec 2048 :=
  let body := (mget s.fw.running (factoryImage 2) 2).body
  BitVec.ofNat 2048 (leNat ((body.drop (256 * (c - 1))).take 256))

/-- The manifest of the broadcast: the CRC of each chunk, the SHA-256 of the region, and its own CRC (R491). -/
def fwManifest (region : List Byte) : List Byte :=
  let b := ((List.range 16).flatMap fun c => toLE 4 (crc32 ((region.drop (256 * c)).take 256)).toNat) ++ sha256 region
    ++ List.replicate 28 0
  b ++ toLE 4 (crc32 b).toNat

/-- The region and the manifest placed in the first 256 MiB of local memory, at a place that no rule names (R491). -/
def placeRegion (s : State) : State :=
  let (n, s) := s.draw
  let region := (List.range 16).flatMap fun c => toLE 256 (fwChunk s (c + 1)).toNat
  let a := 64 * ((Config.freeWord n).toNat % (2 ^ 22 - 66))
  let s := putBytes s a (region ++ fwManifest region)
  { s with mem := { s.mem with poison := s.mem.poison.filter fun l => !(a / 64 ≤ l && l < a / 64 + 66) } }

/-- STAGE_S6: the tile image verified and placed in memory, and the broadcast, round 0, begins (R491). -/
def execStageS6 (imageOk : Bool) (s : State) : Out :=
  if s.boot.busy != some 6 || s.fw.round.isSome then .next s
  else
    match if onWarm s then some s else loadFirmware s 3 2 imageOk with
    | none => .next (slotFallback s)
    | some s =>
      let s := placeRegion (zeroTiles s)
      let g := { s.gleaner with phys := s.gleaner.phys.map fun e => (e.1, { e.2 with fwReport := none }) }
      .next (setRound { s with gleaner := g } 0)

/-- Tiles whose last report is not zero, a missing one included. -/
def badReports (s : State) : List Nat := (goodTiles s).filter fun p => (s.phys p).fwReport != some 0

/-- Tiles that have not reported in the present round. -/
def silentTiles (s : State) : List Nat := (goodTiles s).filter fun p => (s.phys p).fwReport.isNone

/-- A repair round begins for each tile whose last report is not zero (R493). -/
def repairRound (s : State) (r : Nat) : State :=
  let s := (badReports s).foldl (fun s p => s.modPhys p fun h => { h with fwReport := none }) s
  setRound s (r + 1)

/-- A tile that does not hold a verified region after round 3 enters PROBATION, and TILE_FW_FAILED is raised (R493). -/
def fwFailed (s : State) (p : Nat) : State :=
  let r := ((s.phys p).fwReport.getD 0x1FFFF).toNat
  raise (healthInput s p .firmwareLoad) .tileFwFailed [physDie p, physX p, physRow p, r]

/-- The broadcast ends, and with it S6. -/
def endBroadcast (s : State) : State :=
  let s := (badReports s).foldl fwFailed s
  endStage { s with fw := { s.fw with round := none } } 6

/-- FW_BROADCAST_ROUND: a repair round starts once every report of the last one has been received (R493, R494). -/
def execFwBroadcastRound (s : State) : Out :=
  match s.fw.round with
  | some r =>
    if inBroadcast s && r < 3 && (silentTiles s).isEmpty && !(badReports s).isEmpty then .next (repairRound s r) else .next s
  | none => .next s

/-- The good chunks of a report stand in the tile's firmware region (R492). -/
def takeChunks (s : State) (p : Nat) (r : BitVec 18) : State :=
  s.modPhys p fun h =>
    { h with
      fwReport := some r
      imem := ((List.range 16).map (· + 1)).foldl (fun m c => if r.getLsbD c then m else mset m 0 c (fwChunk s c)) h.imem }

/-- A report as a tile makes it: a mismatch of the whole only where every part of it was good (R492). -/
def reportForm (r : BitVec 18) : Bool := !r.getLsbD 17 || r == 0x20000

/-- TILE_FW_REPORT: a report of a tile of the round, which has written the chunks it found good; the last one ends the broadcast where
every region is verified or no round is left (R492, R493). -/
def execTileFwReport (p : Nat) (r : BitVec 18) (s : State) : Out :=
  match s.fw.round with
  | some n =>
    if inBroadcast s && p < 6000 && goodTile s p && (s.phys p).fwReport.isNone && reportForm r then
      let s := takeChunks s p r
      if (silentTiles s).isEmpty && (n == 3 || (badReports s).isEmpty) then .next (endBroadcast s) else .next s
    else .next s
  | none => .next s

/-- FW_ROUND_TIMEOUT: 1 ms after the start of a round a tile that has not reported counts as reporting 0x1FFFF, and the next round
starts (R492, R494). -/
def execFwRoundTimeout (s : State) : Out :=
  match s.fw.round with
  | some n =>
    if inBroadcast s && s.fw.roundAt + 1000 ≤ now s then
      let s := (silentTiles s).foldl (fun s p => s.modPhys p fun h => { h with fwReport := some 0x1FFFF }) s
      if n < 3 && !(badReports s).isEmpty then .next (repairRound s n) else .next (endBroadcast s)
    else .next s
  | none => .next s

/-! ### S7 to S9 (R299, R300, R474, R495, R496, R499) -/

/-- STAGE_S7: link-engine images, the known-answer set, and the known-answer runs (R495). -/
def execStageS7 (imageOk kaOk granaryOk : Bool) (badTiles : List Nat) (badWl : List (Nat × BitVec 3)) (s : State) : Out :=
  if s.boot.busy != some 7 || !railsOk s 7 || !stageRoot s 7 then .next s
  else
    match if onWarm s then some s else loadFirmware s 2 3 imageOk with
    | none => .next (slotFallback s)
    | some s =>
      match loadContent s 2 5 kaOk with
      | none => .next (failStage s 7 0x72)
      | some s =>
        if !granaryOk then .next (failStage s 7 0x70)
        else
          let s := (badTiles.filter fun p => p < 6000 && goodTile s p).foldl (fun s p => healthInput s p .knownAnswer) s
          let s := (badWl.filter fun e => e.1 < 32).foldl (fun s e =>
            gazDecided (s.modLink e.1 fun k =>
              { k with
                failedTx := k.failedTx ||| (1#8 <<< e.2.toNat), failedRx := k.failedRx ||| (1#8 <<< e.2.toNat) })) s
          .next (endStage (zeroTiles s) 7)

/-- Every mapped link is up or degraded (R474). -/
def linksReady (s : State) : Bool :=
  (List.range 32).all fun l => bits (linkMap s (linkSlot l)) 30 2 == 0 || (s.link l).up

/-- STAGE_S8: every mapped link is up or degraded, or 10 s have passed since its start (R474). -/
def execStageS8 (s : State) : Out :=
  if s.boot.busy == some 8 && stageRoot s 8 && (linksReady s || s.boot.stageAt + 10000000 ≤ now s) then .next (endStage s 8)
  else .next s

/-- STAGE_S9: fallow rotation and background tests start, and context creation opens (R474). -/
def execStageS9 (s : State) : Out := if s.boot.busy == some 9 then .next (endStage s 9) else .next s

/-- The limit of a stage in µs; S2, S8 and S9 have none, and S0 comes before the steward (R474). -/
def stageLimit (n : Nat) : Option Nat :=
  match n with
  | 1 => some 5000000
  | 3 => some 30000000
  | 4 => some 60000000
  | 5 => some 5000000
  | 6 => some 5000000
  | 7 => some 30000000
  | _ => none

/-- STAGE_LIMIT_EXPIRY: a stage with a limit has not completed within it; one that waits for the root to lock does not run
(R474, R483, R499, R501). -/
def execStageLimitExpiry (s : State) : Out :=
  match s.boot.busy with
  | some n =>
    if (stageLimit n).any (fun t => s.boot.stageAt + t ≤ now s) && stageRoot s n then
      .next (failStage { s with fw := { s.fw with round := none } } n 1)
    else .next s
  | none => .next s

/-! ### BRINGUP_CONTROL (R476, R500) -/

/-- Stopped out of service (R477). -/
def outOfServ (s : State) : Bool := s.boot.state == 3

/-- A firmware slot holds all four images (R500). -/
def anySlotWhole (s : State) : Bool := slotWhole s 0 || slotWhole s 1

/-- ADVANCE. -/
def advanceTo (s : State) (t : Nat) : Wrote :=
  if t < 3 || 9 < t then .refused s 7 24
  else if outOfServ s || s.boot.state == 2 || t ≤ s.boot.stage || !anySlotWhole s then .refused s 8 0
  else
    let s := { s with boot := { s.boot with target := t, holdReq := false } }
    .done (if s.boot.busy.isNone && s.boot.state == 1 then startStage s (stageAfter s s.boot.stage) else s)

/-- RETRY: the failed stage runs again from its beginning. -/
def retryStage (s : State) : Wrote :=
  if s.boot.state != 2 || inRecovery s then .refused s 8 0
  else
    let n := s.boot.failStage
    .done (startStage { s with boot := { s.boot with failStage := 0, failCode := 0 } } n)

/-- The gazetteer that REBUILD_GAZETTEER writes (R500). -/
def rebuiltGaz (s : State) : GazCopy :=
  { valid := true, seq := 1
    tiles := s.gleaner.phys.filterMap fun e => if gazTile e.2 == 0 then none else some (e.1, gazTile e.2)
    retired := s.mem.retired }

/-- REBUILD_GAZETTEER: a new gazetteer, after which S5 runs again. -/
def rebuildGaz (s : State) : Wrote :=
  if s.boot.state != 2 || s.boot.path != 0 || s.boot.failStage != 5 || s.boot.failCode != 0x50 || !s.boot.s4Done then
    .refused s 8 0
  else
    let s := { s with
      gleaner := { s.gleaner with gazA := rebuiltGaz s, gazDirty := false, gridSelect := 0, sparesW := 0, sparesE := 0 }
      mesh := { s.mesh with failed := [] }
      boot := { s.boot with failStage := 0, failCode := 0 } }
    .done (startStage s 5)

/-- BRINGUP_CONTROL (R476). -/
def writeBringup (s : State) (w : Nat) : Wrote :=
  match bits w 28 4 with
  | 1 => advanceTo s (bits w 24 4)
  | 2 => if outOfServ s then .refused s 8 0 else .done { s with boot := { s.boot with holdReq := s.boot.busy.isSome } }
  | 3 => retryStage s
  | _ => rebuildGaz s

/-! ### Watchdog and steward memory (R482 to R484) -/

/-- WATCHDOG_SELF_FEED: the steward feeds its watchdog while the port is down, and for SELF_FEED_S after it has come up. -/
def execWatchdogSelfFeed (s : State) : Out :=
  if 1 ≤ s.boot.stage && (!portUp s || now s < s.boot.selfFeedUntil) then
    .next { s with boot := { s.boot with fedAt := now s } }
  else .next s

/-- WATCHDOG_EXPIRY: the count has reached TIMEOUT, and the module resets on the cold path without drain. -/
def execWatchdogExpiry (s : State) : Out :=
  if 1 ≤ s.boot.stage && bitAt (cfgInForce s 0x22C0 1).toNat 31 && s.boot.fedAt + 100000 * cfgField s 0x22C0 1 0 8 ≤ now s then
    .next (moduleReset s 3 false)
  else .next s

/-- STEWARD_MEMORY_ERROR: a single-bit error is corrected and counted, and a double-bit error resets the module on the cold path
(R482, R394). -/
def execStewardMemoryError (double : Bool) (s : State) : Out :=
  if !s.boot.on then .next s
  else if double then .next (moduleReset s 4 false)
  else .next { s with boot := { s.boot with eccCorrected := satAdd s.boot.eccCorrected 1 65535 } }

/-! ### MODULE_RESET (R378, R394) -/

/-- MODULE_RESET: the key and the kind; out of service, only KIND 0b11 is taken. -/
def writeModuleReset (s : State) (w : Nat) : Wrote :=
  if bits w 16 16 != 0x7A11 || (s.boot.outOfService && bits w 0 2 != 3) then .refused s 8 0
  else
    match bits w 0 2 with
    | 1 => .resets s 1 false
    | 2 => .resets s 2 false
    | _ => .resets s 2 true

end Sys2Proof.Machine
end

