-- ==== Sys2Proof/Machine/Secure.lean ====
section
/-! DEFINITION. Known-answer measurements, rollback commits, tokens, debug and attestation (R497, R498, R501, R505,
R507 to R516). -/

namespace Sys2Proof.Machine

/-! ### Known-answer measurements (R497, R498, R501) -/

/-- The running measurement ends with its figure: it is valid when no bit of INVALID is set, and an invalid one is flagged and
not reported (R41). -/
def kaEnd (s : State) (w : Nat) (value : Word) (invalid : BitVec 7) : State :=
  let inv := mget s.ka.invalid 0 w ||| invalid
  { s with ka :=
      { state := mset s.ka.state 0 w (if inv == 0 then 2 else 3), invalid := mset s.ka.invalid 0 w inv
        value := mset s.ka.value 0 w (if inv == 0 then value else 0), running := none, narrow := [] } }

/-- KA_MEASURE: START of a workload, or CANCEL of the one running (R497). -/
def writeKaMeasure (s : State) (v : Nat) : Wrote :=
  if bits v 28 4 = 1 then
    if s.boot.stage != 9 || !s.ctxs.isEmpty || s.ka.running.isSome || 1 < s.boot.state.toNat then .refused s 8 0
    else
      let w := bits v 24 4
      .done (kaWatch { s with ka :=
        { state := mset s.ka.state 0 w 1, invalid := mset s.ka.invalid 0 w 0, value := mset s.ka.value 0 w 0, running := some w } })
  else
    match s.ka.running with
    | some w => .done (kaEnd s w 0 64)
    | none => .done s

/-- The conditions that hang on the links measured by workloads 3 and 5: one of them had fewer than 6 active wavelengths, or none
was measured (R498, bits 58 and 61). -/
def kaLinks (s : State) (w : Nat) (measured : List Nat) : BitVec 7 :=
  if w == 3 || w == 5 then
    BitVec.ofNat 7 (8 * b2n (measured.any fun l => s.ka.narrow.contains l) + 64 * b2n measured.isEmpty)
  else 0

/-- KA_WORKLOAD_COMPLETE: the workload ends, or a fault stops it (R498, R501). What its own instruments saw, a witness failure or
an error rate of a link, and the links measured are operands. -/
def execKaWorkloadComplete (value : BitVec 32) (invalid : BitVec 7) (measured : List Nat) (s : State) : Out :=
  let s := kaWatch s
  match s.ka.running with
  | some w => .next (kaEnd s w value (invalid ||| kaLinks s w measured))
  | none => .next s

/-! ### SEC_CONTROL (R505, R511, R515) -/

/-- Every debug level is closed; a tile that was halted goes on (R511). -/
def debugClosed (s : State) : State :=
  { s with
    sec := { s.sec with debugOn := false, debugMask := 0 }
    tiles := s.tiles.map fun e => (e.1, { e.2 with core := { e.2.core with halted := false } }) }

/-- SEC_CONTROL: ROLLBACK_COMMIT begins to set fuses; DEBUG_LOCK closes every level. -/
def writeSecControl (s : State) (v : Nat) : Wrote :=
  if bits v 28 4 = 1 then
    let region := bits v 26 2
    if s.boot.stage != 9 || (region == 0 && s.fw.trial) || s.sec.commit.isSome then .refused s 8 0
    else .done { s with sec := { s.sec with commit := some (BitVec.ofNat 2 region) } }
  else .done (debugClosed s)

/-- ROLLBACK_COMMITTED: the counters of the region stand at the values of the running images, and the event carries the region
and the new values (R505). -/
def execRollbackCommitted (s : State) : Out :=
  match s.sec.commit with
  | none => .next s
  | some r =>
    let l := (regionKinds r.toNat).map fun k => (k, commitValue s k)
    let c := l.foldl (fun m e => mset m 0 e.1 e.2) s.sec.counters
    .next (raise { s with sec := { s.sec with counters := c, commit := none } } .rollbackCommitted (r.toNat :: l.map (·.2)))

/-! ### Tokens (R506, R508 to R510, R512, R516) -/

/-- The fields of a token (R508). -/
structure Token where
  op : Nat
  signer : Nat
  serial : Nat
  nonce : Nat
  arg : Nat
  key : Nat
  wellFormed : Bool

/-- A token read from its bytes. -/
def Token.ofBytes (b : List Byte) : Token :=
  let r (o n : Nat) : Nat := leNat ((b.drop o).take n)
  let op := r 4 2
  { op := op, signer := r 6 2, serial := r 8 16, nonce := r 0x18 32, arg := r 0x38 4, key := r 0x40 32
    wellFormed := b.length == 7952 && r 0 4 == 0x4F56544B && 1 ≤ op && op ≤ 3 && r 6 2 ≤ 2 && r 0x3C 4 == 0
      && (if op = 1 then r 0x38 4 < 8 else r 0x38 4 ≤ 2) && (op == 2 || r 0x40 32 == 0) }

/-- The operation is permitted: installation into an empty slot; a revocation that leaves a slot active (R510, R512). -/
def tokenPermitted (s : State) (t : Token) : Bool :=
  match t.op with
  | 1 => true
  | 2 => keyState (keySlot s t.arg) == 0
  | _ => keyState (keySlot s t.arg) != 3 && ((List.range 3).any fun n => n != t.arg && keyActive (keySlot s n))

/-- Every condition of R509 holds. -/
def tokenAccepted (s : State) (t : Token) (b : List Byte) : Bool :=
  t.wellFormed && t.serial == s.factory.serial.toNat && (validNonce s).map (·.toNat) == some t.nonce
  && keyActive (keySlot s t.signer)
  && Config.sigVerifies (keySlot s t.signer).key (b.take 0x60) (b.drop 0x60) && tokenPermitted s t

/-- A key slot written. -/
def State.putKey (s : State) (n : Nat) (k : KeySlot) : State := { s with sec := { s.sec with keys := mput s.sec.keys n k } }

/-- The effect of an accepted token, with its event (R510, R512). -/
def tokenEffect (s : State) (t : Token) : State :=
  match t.op with
  | 1 =>
    let m := s.sec.debugMask ||| BitVec.ofNat 3 t.arg
    raise { s with sec := { s.sec with debugOn := true, debugMask := m, sinceCold := true } } .debugUnlocked [t.arg]
  | 2 =>
    let k : KeySlot := { key := BitVec.ofNat 256 t.key, active := true }
    let h := leNat (sha256 (toLE 32 t.key))
    raise (s.putKey t.arg k) .secKeyInstalled
      (t.arg :: (List.range 4).map fun i => bits h (64 * i) 64)
  | _ => raise (s.putKey t.arg { keySlot s t.arg with revoked := true }) .secKeyRevoked [t.arg]

/-- SEC_TOKEN written whole: an accepted token extends MR7 and takes effect, another is refused with AUTH; the nonce is consumed
either way (R506, R509). -/
def writeToken (s : State) (b : List Byte) : Wrote :=
  let t := Token.ofBytes b
  let used (s : State) : State := { s with sec := { s.sec with nonce := none } }
  if tokenAccepted s t b then
    .done (tokenEffect (extendMr (used s) 7 (mrEntry (0x0200 + t.op) t.signer 0 (shaNum b))) t)
  else
    let s := used s
    .refused { s with sec := { s.sec with refused := satAdd s.sec.refused 1 (2 ^ 32 - 1) } } 0x11 0

/-- A read of SEC_CHALLENGE draws a fresh nonce and discards any earlier one (R509). -/
def freshNonce (s : State) : State :=
  let (n, s) := s.draw
  { s with sec := { s.sec with nonce := some (Config.trng n, now s) } }

/-- SEC_NONCE_EXPIRY: 60 s after it was drawn a nonce is valid no longer (R509). -/
def execSecNonceExpiry (s : State) : Out :=
  .next (if (validNonce s).isNone then { s with sec := { s.sec with nonce := none } } else s)

/-! ### Debug level TILE (R511, R512) -/

/-- A byte of a little-endian number replaced. -/
def setByte (x n v : Nat) : Nat := x - bits x (8 * n) 8 * 2 ^ (8 * n) + v * 2 ^ (8 * n)

/-- A stationary buffer of a tile changed. -/
def modBuf (t : Tile) (b : Bool) (f : StatBuf → StatBuf) : Tile :=
  { t with mx := if b then { t.mx with bufB := f t.mx.bufB } else { t.mx with bufA := f t.mx.bufA } }

/-- A write of the core's own state through the debug port (R44, R512). -/
def debugCore (k : Core) (w : DebugWrite) : Core :=
  match w with
  | .sreg r v => k.setS r v
  | .pred r v => k.setPred r v
  | .loop r v => { k with c := mset k.c 0 r.toNat v }
  | .vreg r v => { k with v := mput k.v r.toNat { data := v } }
  | .pc v => { k with pc := v }
  | .tensorId v => { k with tensorId := v }
  | .elementBase v => { k with elementBase := v }
  | .fpFlags v => { k with fpFlags := v }
  | .count r v => k.setK r v
  | .instr n w => if 1024 ≤ n.toNat then { k with prog := k.prog.set (n.toNat - 1024) w } else k
  | _ => k

/-- A write of the matrix array's state through the debug port (R89, R512). -/
def debugMatrix (t : Tile) (w : DebugWrite) : Tile :=
  match w with
  | .config sel w =>
    { t with mx := match sel.toNat with
        | 0 => { t.mx with cfgFormat := w }
        | 1 => { t.mx with cfgDrain := w }
        | 2 => { t.mx with cfgBase := w }
        | _ => t.mx }
  | .block b n v => modBuf t b fun f => { f with data := setByte f.data n.toNat v.toNat }
  | .scale b n v => modBuf t b fun f => { f with scales := setByte f.scales n.toNat v.toNat }
  | .witness b col n v => modBuf t b fun f => if col then { f with wnF := f.wnF.set n.toNat v } else { f with wkF := f.wkF.set n.toNat v }
  | .exactWitness b col n v =>
    modBuf t b fun f => if col then { f with wnExact := f.wnExact.set n.toNat v } else { f with wkExact := f.wkExact.set n.toNat v }
  | .acc r c v => { t with mx := { t.mx with acc := mset t.mx.acc 0 (64 * r.toNat + c.toNat) v } }
  | _ => t

/-- A write of a tile's state or bin through the debug port (R512). -/
def debugPut (t : Tile) (w : DebugWrite) : Tile :=
  match w with
  | .binding ch w => { t with chans := mset t.chans 0 ch.toNat w }
  | .item ch n v =>
    let c := t.cst ch.toNat
    t.setCst ch.toNat { c with store := c.store.modify n fun _ => { data := v } }
  | .mail n v => { t with dma := { t.dma with mailbox := t.dma.mailbox.modify n.toNat fun m => { m with data := { data := v } } } }
  | .bin a v => { t with bin := t.bin.write (a.toNat / 64) (byteMask (a.toNat % 64) 1) (v.toNat * 2 ^ (8 * (a.toNat % 64))) false }
  | _ => debugMatrix { t with core := debugCore t.core w } w

/-- A write of an instruction below index 1,024 goes to the firmware region of the physical tile (R79, R512). -/
def debugFirmware (s : State) (k : Nat) (w : DebugWrite) : State :=
  match w, physOf s k with
  | .instr n w, some p =>
    if n.toNat < 1024 then
      s.modPhys p fun h =>
        let c := n.toNat / 64 + 1
        let x := (mget h.imem 0 c).toNat
        let at_ := 32 * (n.toNat % 64)
        { h with imem := mset h.imem 0 c (BitVec.ofNat 2048 (x - bits x at_ 32 * 2 ^ at_ + w.toNat * 2 ^ at_)) }
    else s
  | _, _ => s

/-- The step of a context carries one entry of KIND 0x42: the level mask, and whether tiles were halted or written (R401, R512). -/
def debugFault (s : State) (c : Nat) (x : Ctx) (halt wr : Bool) : State :=
  let detail := BitVec.ofNat 64 (s.sec.debugMask.toNat + 256 * b2n halt + 512 * b2n wr)
  let same (f : FaultEnt) : Bool := f.kind == 0x42 && f.step == x.run.faultStep
  if x.tally.faults.any same then
    s.modTally c fun t => { t with faults := t.faults.map fun f => if same f then { f with detail := f.detail ||| detail } else f }
  else addFault s c 0x42 detail

/-- DEBUG_TILE_ACCESS: level TILE halts every tile of a context or lets them go on, and writes state of one; the step is
recorded (R512). -/
def execDebugTileAccess (t : Coord) (halt : Bool) (wr : Option DebugWrite) (s : State) : Out :=
  if !s.sec.debugOn || !s.sec.debugMask.getLsbD 1 || !portUp s then .next s
  else
    let put (s : State) : State := match wr with
      | some w => debugFirmware (s.modTile (ckey t) fun k => debugPut k w) (ckey t) w
      | none => s
    match ctxAt s t with
    | none => .next (put s)
    | some (c, x) =>
      let s := x.cdef.keys.foldl (fun s k => s.modTile k fun y => { y with core := { y.core with halted := halt } }) s
      .next (put (if halt || wr.isSome then debugFault s c x halt wr.isSome else s))

/-! ### Attestation (R506, R507, R513, R514) -/

/-- FLAGS of a report. -/
def reportFlags (s : State) : Nat :=
  b2n s.sec.debugOn + 2 * b2n s.sec.sinceCold + 4 * b2n s.fw.trial + 8 * b2n (inRecovery s) + 16 * b2n s.clk.coasting

/-- The signed bytes of a report (R514). -/
def reportHead (s : State) (nonce : List Byte) : List Byte :=
  toLE 4 0x4F564154 ++ toLE 2 1 ++ toLE 2 (reportFlags s) ++ toLE 16 s.factory.serial.toNat ++ toLE 4 s.factory.product.toNat
  ++ toLE 4 Config.romVersion.toNat ++ nonce
  ++ ((List.range 8).flatMap fun i => toLE 32 (mget s.sec.mr 0 i).toNat)
  ++ ((List.range 3).flatMap fun i => keyHash (keySlot s i))
  ++ [BitVec.ofNat 8 (keyState (keySlot s 0) + 4 * keyState (keySlot s 1) + 16 * keyState (keySlot s 2))]
  ++ ((List.range 6).map fun i => BitVec.ofNat 8 (mget s.sec.counters 0 (i + 1)))
  ++ [0] ++ toLE 4 s.dict.activeGen.toNat ++ toLE 4 0 ++ toLE 8 (now s) ++ toLE 32 Config.identityKey.toNat
  ++ List.replicate 40 0

/-- ATTEST_REQUEST written whole: a report is captured and begins to be signed (R513). -/
def writeAttest (s : State) (nonce : List Byte) : Wrote :=
  if s.sec.signing.isSome then .refused s 8 0
  else if s.sec.otpFault then .refused s 0x11 0
  else .done { s with sec := { s.sec with signing := some (reportHead s nonce), report := [] } }

/-- ATTEST_SIGN_COMPLETE: the report is complete and readable (R513, R514). -/
def execAttestSignComplete (s : State) : Out :=
  match s.sec.signing with
  | none => .next s
  | some h =>
    let (n, s) := s.draw
    let sig := (List.range 17088).map fun i => Config.sigByte h n i
    .next (raise { s with sec := { s.sec with signing := none, report := h ++ sig } } .attestDone [])

end Sys2Proof.Machine
end

