-- ==== Sys2Proof/Machine/Power.lean ====
section
/-! DEFINITION. Input power, rails, power sheds and hold-up, the power governor, coolant and junctions (R415, R517, R520 to
R532, R537). -/

namespace Sys2Proof.Machine

/-! ### Input and governor (R498, R517, R520) -/

/-- INPUT_POWER_ON: the input has held above the start threshold, and S0 begins. A module in hold-up first runs that to its end
(R528). -/
def execInputPowerOn (mv : Nat) (s : State) : Out :=
  if !s.pow.dark || !s.pow.tail.isEmpty || mv < 41000 then .next s
  else
    .next { s with
      pow := { s.pow with dark := false, inputMv := mv }
      boot := { s.boot with busy := some 0, since := now s, fedAt := now s } }

/-- A request of the governor in steps of the ladder, and the samples since it changed: it rises while its average is over the
limit and falls while both are low (R520). -/
def govStep (n since : Nat) (high low : Bool) (rise fall : Nat) : Nat × Nat :=
  if high && rise ≤ since + 1 then (min 12 (n + 1), 0)
  else if low && 0 < n && fall ≤ since + 1 then (n - 1, 0)
  else (n, since + 1)

/-- Input between 39.0 V and 40 V. -/
def lowInput (mv : Nat) : Bool := 39000 ≤ mv && mv < 40000

/-- POWER_LIMITED at the onset of a request; the value names the average, 0 for 1 ms and 1 for 1 s. -/
def limitedAt (s : State) (old new which : Nat) : State := if old = 0 && 0 < new then raise s .powerLimited [which] else s

/-- The average of the newest `n` of some measurements, or of as many as there are. -/
def newestAvg (n : Nat) (l : List Nat) : Nat := (l.take n).sum / max 1 (min n l.length)

/-- POWER_SAMPLE: every 100 µs the input voltage and power and the warning input are measured; the governor's rolling averages over
1 ms and 1 s set its requests (R517, R520, R532). -/
def execPowerSample (mv watts : Nat) (warn : Bool) (s : State) : Out :=
  if s.pow.dark then .next s
  else
    let l := (watts :: s.pow.watts).take 10000
    let avg1ms := newestAvg 10 l
    let avg1s := newestAvg 10000 l
    let p := { s.pow with watts := l, warn := warn }
    let limit := cfgField s 0x22D0 1 0 16
    let low := 100 * avg1ms ≤ 97 * 3000 && 100 * avg1s ≤ 97 * limit
    let a := govStep p.gov1ms p.since1ms (3000 < avg1ms) low 10 1000
    let b := govStep p.gov1s p.since1s (limit < avg1s) low 1000 1000
    let s := { s with pow := { p with
      inputMv := mv, avg1ms := avg1ms, avg1s := avg1s, gov1ms := a.1, since1ms := a.2, gov1s := b.1, since1s := b.2 } }
    let s := limitedAt (limitedAt s p.gov1ms a.1 0) p.gov1s b.1 1
    let s := if lowInput mv && !lowInput p.inputMv then raise s .inputOutOfRange [mv] else s
    .next (kaWatch s)

/-! ### Sheds and the tally tail (R415, R525 to R528) -/

/-- Code of a shed cause in the tail (R415). -/
def shedCode : ShedCause → Nat
  | .warning => 1
  | .droop => 2
  | .overvoltage => 3

/-- The note of a context (R415). -/
def tailNote (c : Nat) (x : Ctx) : List Byte :=
  let t := x.tally
  let last := t.recs.getLast?
  let faults := (t.faults.filter fun f => f.step == x.run.step).length
  toLE 2 c ++ toLE 2 x.cdef.job ++ toLE 2 ((last.map (·.attempt)).getD 0) ++ toLE 2 faults
  ++ toLE 8 ((last.map (·.step.toNat)).getD (2 ^ 64 - 1)) ++ toLE 16 ((last.map (·.digest.toNat)).getD 0)
  ++ toLE 8 ((t.ackedStep.map (·.toNat)).getD (2 ^ 64 - 1)) ++ toLE 8 x.run.step.toNat ++ List.replicate 16 0

/-- The tail from offset 0x00C on (R415). -/
def tailBody (s : State) (cause : ShedCause) : List Byte :=
  let notes := s.ctxs.flatMap fun e => tailNote e.1 e.2
  toLE 1 (shedCode cause) ++ toLE 1 s.ctxs.length ++ [0, 0] ++ toLE 8 (now s) ++ List.replicate 40 0 ++ notes
  ++ List.replicate (4096 - 64 - notes.length) 0

/-- POWER_SHED: a shed is decided. Clocks and rails go, and in hold-up only the tally tail is still to be written; a warning
sheds only while PF_WARN_ENABLE is set (R521, R525, R526). -/
def execPowerShed (cause : ShedCause) (s : State) : Out :=
  if s.pow.dark then .next s
  else if cause == .warning && !bitAt (cfgInForce s 0x22D0 1).toNat 31 then .next { s with pow := { s.pow with warn := true } }
  else
    let l := powerLost s
    .next { l with pow := { l.pow with shed := some (cause, now s), tail := tailBody s cause } }

/-- TALLY_TAIL_WRITE: the tail is written to the copy that does not hold the newer valid one, and the steward halts (R415,
R527). -/
def execTallyTailWrite (s : State) : Out :=
  if s.pow.tail.isEmpty then .next s
  else
    let f := s.factory
    let seq := ((newerTail s).map (·.seq)).getD 0 + 1
    let bytes := toLE 4 1 ++ toLE 4 seq ++ toLE 4 (crc32 s.pow.tail).toNat ++ s.pow.tail
    let c : TailCopy := { valid := true, seq := seq, bytes := bytes }
    let to0 := !f.tail0.valid || (f.tail1.valid && f.tail0.seq < f.tail1.seq)
    .next { s with
      factory := if to0 then { f with tail0 := c } else { f with tail1 := c }
      pow := { s.pow with tail := [], shed := none } }

/-! ### Rails (R522 to R524, R537) -/

/-- Code by which an event names a rail: its place in the table of R522. -/
def railCode : Rail → Nat
  | .holdUp => 0
  | .stewardCore => 1
  | .stewardIo => 2
  | .field => 3
  | .granary => 4
  | .vdd1 => 5
  | .vdd2 => 6
  | .vddq => 7
  | .loft d => 8 + d
  | .quarter q => 10 + quarterNum q
  | .test d => 14 + d
  | .linkEngine => 16
  | .laser => 17

/-- The rails that a shed of every other rail leaves on. -/
def stewardRail (r : Rail) : Bool := r == .holdUp || r == .stewardCore || r == .stewardIo || r == .field

/-- Every rail except those of the steward and the field side off, and a cold reset without drain that is not counted (R524,
R531). -/
def railsShed (s : State) : State :=
  moduleReset { s with pow := { s.pow with rails := s.pow.rails.filter stewardRail } } 0 false

/-- A rail marked as failed: it stays off until 48 V is removed. -/
def railDead (s : State) (r : Rail) : State :=
  { s with pow := { s.pow with rails := s.pow.rails.filter fun x => x != r, faulty := r :: s.pow.faulty } }

/-- RAIL_FAULTS raised by one and the event recorded. -/
def railCount (s : State) (n : Nat) (r : Rail) : State :=
  raise { s with pow := { s.pow with railFaults := satAdd n 1 255 } } .railFault [railCode r]

/-- The stage in progress is turning on a rail. -/
def risingRail (s : State) (r : Rail) : Bool :=
  match s.boot.busy with
  | some n => (stageRails s n).contains r
  | none => false

/-- The rails that come after one in the stage in progress do not start, since each waits for the one before it (R522). -/
def laterOff (s : State) (r : Rail) : State :=
  let later := match s.boot.busy with
    | some n => (stageRails s n).dropWhile fun x => x != r
    | none => []
  { s with pow := { s.pow with rails := s.pow.rails.filter fun x => !later.contains x } }

/-- RAIL_FAULT: a rail that its stage is turning on stays off; in service the field-side rail goes off alone, a steward rail
leaves the module dark, and any other sheds the rails and resets the module (R523, R524). -/
def execRailFault (r : Rail) (s : State) : Out :=
  let n := s.pow.railFaults
  if s.pow.dark || !s.pow.rails.contains r then .next s
  else if r == .stewardCore || r == .stewardIo then .next (powerLost s)
  else
    let s' := railDead s r
    if r == .field then .next (railCount { s' with field := { s'.field with up := false } } n r)
    else if risingRail s r then .next (railCount (laterOff s' r) n r)
    else .next (railCount (railsShed s') n r)

/-! ### Coolant (R530, R531) -/

/-- Whether a coolant condition holds, by its number in the table of R530, and whether its clearing does; flow in 0.01 L/min. -/
def coolSees (inlet : Int) (flow i : Nat) : Bool × Bool :=
  let f (t : Nat) : Bool × Bool := (flow < t, t + 20 ≤ flow)
  let h (t : Int) : Bool × Bool := (t < inlet, inlet ≤ t - 1)
  match i with
  | 0 => f 320
  | 1 => f 240
  | 2 => f 160
  | 3 => h 45
  | 4 => h 48
  | 5 => f 100
  | _ => h 52

/-- Samples of 10 ms for which a condition must hold. -/
def coolNeed (i : Nat) : Nat :=
  match i with
  | 0 => 10
  | 5 => 50
  | 6 => 100
  | _ => 1

/-- A condition after a sample: it is in force after it has held long enough, until its clearing has held for 1 s. -/
def coolStep (c : CoolCond) (sees : Bool × Bool) (need : Nat) : CoolCond :=
  let held := if sees.1 then c.held + 1 else 0
  let clear := if sees.2 then c.clear + 1 else 0
  { active := if c.active then clear < 100 else need ≤ held, held := held, clear := clear }

/-- A load shed begins: the tile clocks stop and their rails stay on (R531). -/
def loadShedNow (s : State) (i : Nat) : State :=
  if s.pow.loadShed then s
  else
    raise { s with
      pow := { s.pow with loadShed := true, sheds := satAdd s.pow.sheds 1 65535 }
      clk := { s.clk with tilesStopped := true } } .coolantShed [i]

/-- A condition taken at a sample, with the event of its onset. -/
def coolTake (s : State) (inlet : Int) (flow i : Nat) : State :=
  let c := mget s.pow.cool {} i
  let c' := coolStep c (coolSees inlet flow i) (coolNeed i)
  let s := { s with pow := { s.pow with cool := mput s.pow.cool i c' } }
  if c'.active && !c.active then (if 5 ≤ i then loadShedNow s i else raise s .coolantThrottle [i]) else s

/-- A coolant condition is in force. -/
def coolActive (s : State) : Bool := s.pow.cool.any fun e => e.2.active

/-- The trip no longer holds S2 once every junction is below 85 °C and no coolant condition is in force (R531). -/
def releaseTrip (s : State) : State :=
  if s.pow.tripHold && s.pow.tjMax < 85 && !coolActive s then
    let s := { s with pow := { s.pow with tripHold := false } }
    if s.boot.busy == some 2 then seekLock s else s
  else s

/-- COOLANT_SAMPLE: inlet, outlet and flow set the coolant conditions (R530). -/
def execCoolantSample (inlet outlet : Int) (flow : Nat) (s : State) : Out :=
  if s.pow.dark then .next s
  else
    let s := { s with pow := { s.pow with inlet := inlet, outlet := outlet, flow := flow } }
    .next (kaWatch (releaseTrip ((List.range 7).foldl (fun s i => coolTake s inlet flow i) s)))

/-- COOLANT_SHED_RESTART: the shedding condition has cleared, and the tile clocks restart at k = 8 (R531). -/
def execCoolantShedRestart (s : State) : Out :=
  if s.pow.loadShed && !(mget s.pow.cool {} 5).active && !(mget s.pow.cool {} 6).active then
    let s := { s with
      pow := { s.pow with loadShed := false }
      clk := { s.clk with tilesStopped := rootStopped s } }
    .next (kaWatch
      (raise (quarters.foldl (fun s q => s.modQuarter q fun t => { t with k := 8, deep := false, steppedAt := some (now s) }) s)
        .coolantShedCleared []))
  else .next s

/-! ### Junctions (R530, R531) -/

/-- The thermal request of a quarter after a sample of 100 µs. -/
def thermalStep (t : Throttle) (c : Int) : Throttle :=
  if 95 < c && 10 ≤ t.since + 1 then { t with thermal := min 12 (t.thermal + 1), since := 0 }
  else if c < 92 && 0 < t.thermal && 100 ≤ t.since + 1 then { t with thermal := t.thermal - 1, since := 0 }
  else { t with since := t.since + 1 }

/-- The largest of some temperatures. -/
def hottest (l : List Int) (d : Int) : Int := l.foldl max (l.headD d)

/-- Junctions of a sample as die and temperature: a quarter's compute die, 0 West and 1 East, and the other dies from 2 on. -/
def junctions (qs : List (Quarter × Int)) (others : List Int) : List (Nat × Int) :=
  (qs.map fun e => (quarterNum e.1 % 2, e.2)) ++ (List.range others.length).map fun i => (i + 2, others.getD i 0)

/-- A thermal trip: the rails are shed, and the module resets and holds at S2 (R531). -/
def thermalTrip (s : State) (die : Nat) (temp : Int) : State :=
  let s := railsShed { s with pow := { s.pow with tripHold := true } }
  raise s .thermalTrip [die, temp.toNat]

/-- JUNCTION_SAMPLE: junction temperatures set the thermal requests, or a trip above 110 °C (R530, R531). -/
def execJunctionSample (qs : List (Quarter × Int)) (others : List Int) (s : State) : Out :=
  if s.pow.dark then .next s
  else
    let l := junctions qs others
    let s := { s with pow := { s.pow with tjMax := hottest (l.map (·.2)) s.pow.tjMax } }
    match l.find? fun e => 110 < e.2 with
    | some e => .next (thermalTrip s e.1 e.2)
    | none => .next (releaseTrip (qs.foldl (fun s e => s.modQuarter (quarterNum e.1) fun t => thermalStep t e.2) s))

end Sys2Proof.Machine
end

