-- ==== Sys2Proof/Machine/Field.lean ====
section
/-! DEFINITION. The field port: requests, heartbeats, events, dropped datagrams, and the faults of its pair (R463 to R470). -/

namespace Sys2Proof.Machine

/-! ### Requests (R464, R466) -/

/-- LEGEND_OD_READ: an OD_REQUEST read (R466). -/
def execLegendOdRead (tag : BitVec 16) (idx : BitVec 16) (sub : BitVec 8) (off : BitVec 32) (s : State) : Out :=
  .next (fieldRequest s ⟨tag, false, idx.toNat, sub.toNat, off.toNat⟩)

/-- LEGEND_OD_WRITE: an OD_REQUEST write (R466). -/
def execLegendOdWrite (tag : BitVec 16) (idx : BitVec 16) (sub : BitVec 8) (s : State) : Out :=
  .next (fieldRequest s ⟨tag, true, idx.toNat, sub.toNat, 0⟩)

/-- FIELD_DATAGRAM_DROP: a datagram that is no well-formed message ends at the field side (R464, R466). -/
def execFieldDatagramDrop (s : State) : Out := .next (if fieldOn s then fieldDropped s else s)

/-- ICMPV6_REQUEST: an echo request is answered with an echo reply, a solicitation with an advertisement (R464). -/
def execIcmpv6Request (echo : Bool) (src : BitVec 128) (s : State) : Out :=
  .next (if fieldOn s then fieldSend s src [if echo then 129 else 136] else s)

/-! ### Heartbeats and events (R465, R467) -/

/-- LEGEND_HEARTBEAT_RECEIVE: the source becomes the field manager; a new one is sent the events from here on (R467). -/
def execLegendHeartbeatReceive (src : BitVec 128) (s : State) : Out :=
  if !fieldOn s then .next s
  else
    let same := (s.field.manager.map (·.1)) == some src
    .next { s with field := { s.field with
      manager := some (src, now s), nextEvent := if same then s.field.nextEvent else s.events.next } }

/-- FIELD_MANAGER_EXPIRY: no valid HEARTBEAT has come within 3 × HB_PERIOD (R467). -/
def execFieldManagerExpiry (s : State) : Out :=
  match s.field.manager with
  | some m => .next (if m.2 + 3 * hbPeriod s ≤ now s then { s with field := { s.field with manager := none } } else s)
  | none => .next s

/-- The address ff02::1 of all nodes. -/
def allNodes : BitVec 128 := 0xFF020000000000000000000000000001

/-- LEGEND_HEARTBEAT_SEND: the module's heartbeat, every HB_PERIOD, to the manager or to all nodes (R465, R467). -/
def execLegendHeartbeatSend (s : State) : Out :=
  if !fieldOn s || s.boot.stage = 0 || s.field.hbAt.any (fun t => now s < t + hbPeriod s) then .next s
  else
    let flags := b2n (outOfServ s) + 2 * b2n s.clk.coasting + 4 * b2n (portUp s)
    let b := toLE 4 s.field.hbSeq.toNat ++ toLE 1 s.boot.stage ++ toLE 1 flags ++ [0, 0] ++ toLE 8 (now s / 1000000)
    let s := fieldSend s ((s.field.manager.map (·.1)).getD allNodes) (legendBytes 4 0 0 0 0 b)
    .next { s with field := { s.field with hbSeq := s.field.hbSeq + 1, hbAt := some (now s) } }

/-- LEGEND_EVENT_SEND: the next event of the ring is sent once to the manager (R467). -/
def execLegendEventSend (s : State) : Out :=
  match s.field.manager, s.events.ring.find? fun e => (e.seq - s.field.nextEvent).toNat < 2 ^ 31 with
  | some m, some e =>
    if fieldOn s then
      let b := toLE 2 (Config.eventCode e.name).toNat ++ toLE 8 e.time.toNat ++ toLE 32 (Config.eventData e.name e.data).toNat
      let s := fieldSend s m.1 (legendBytes 3 0 0 0 e.seq.toNat b)
      .next { s with field := { s.field with nextEvent := e.seq + 1 } }
    else .next s
  | _, _ => .next s

/-! ### Faults of the pair (R469, R470) -/

/-- The field side is powered. -/
def fieldPowered (s : State) : Bool := s.pow.rails.contains Rail.field

/-- Code of a pair fault in CABLE; a reversed pair has none. -/
def cableCode : PairFault → Nat
  | .open_ => 1
  | .short => 2
  | .dc => 3
  | .reversed => 4

/-- The fault is in force. -/
def faultHeld (f : Field) (k : PairFault) : Bool := if k == .reversed then f.reversed else f.cable.toNat == cableCode k

/-- FIELD_PAIR_FAULT: a fault is detected; a short or a DC level above 3 V turns the transmitter off (R469). -/
def execFieldPairFault (k : PairFault) (dist : BitVec 8) (level : BitVec 8) (s : State) : Out :=
  if !fieldPowered s || (k == .dc && level.toInt.natAbs ≤ 3) then .next s
  else
    let f := s.field
    let g : Field :=
      match k with
      | .short => { f with cable := 2, tx := false, txAt := now s }
      | .open_ => { f with cable := 1, distance := dist }
      | .reversed => { f with reversed := true }
      | .dc => { f with cable := 3, dcLevel := level, tx := false }
    if faultHeld f k then .next { s with field := g }
    else .next (raise { s with field := { g with faults := satAdd f.faults 1 65535 } } .fieldCableFault [cableCode k])

/-- The end of a cable fault, with FIELD_CABLE_CLEARED. A transmitter that it had turned off returns by its own timer (R469). -/
def cableCleared (s : State) : State :=
  let c := s.field.cable.toNat
  raise { s with field := { s.field with cable := 0, distance := 0xFF, dcLevel := 0 } } .fieldCableCleared [c]

/-- FIELD_PAIR_FAULT_END: the fault in force ends; the 1 s of a DC level counts from here (R469). -/
def execFieldPairFaultEnd (s : State) : Out :=
  if s.field.cable != 0 then
    .next (cableCleared { s with field := { s.field with txAt := if s.field.cable == 3 then now s else s.field.txAt } })
  else if s.field.reversed then
    .next (raise { s with field := { s.field with reversed := false } } .fieldCableCleared [cableCode .reversed])
  else .next s

/-- FIELD_TX_RETRY: every 1 s the transmitter of a shorted pair is retried, and stays on where the short is gone; after a DC level it
resumes 1 s after the level has fallen (R469). -/
def execFieldTxRetry (clear : Bool) (s : State) : Out :=
  let f := s.field
  if f.tx || now s < f.txAt + 1000000 then .next s
  else if f.cable == 2 && !clear then .next { s with field := { f with txAt := now s } }
  else if f.cable == 3 then .next s
  else
    let s := { s with field := { f with tx := true } }
    .next (if f.cable == 2 then cableCleared s else s)

end Sys2Proof.Machine
end

