-- ==== Sys2Proof/Machine/Message.lean ====
section
/-! DEFINITION. The messages of the Meridian port: their order, what each write of the object dictionary does, the bulk windows,
step epochs, and the responses (R424 to R429, R448 to R450, R459, R500, R543). -/

namespace Sys2Proof.Machine

/-! ### Writes of the object dictionary (R154, R304, R305, R356, R361, R429, R438, R447, R448) -/

/-- FSR_ACK: the oldest record is released; another value is refused (R361). -/
def writeFsrAck (s : State) (v : Nat) : Wrote :=
  match s.gleaner.fsr with
  | r :: t => if r.seq == v then .done { s with gleaner := { s.gleaner with fsr := t } } else .refused s 8 0
  | [] => .refused s 8 0

/-- Stage S8 has begun: the hall and the link map no longer change (R304, R305). -/
def hallFixed (s : State) : Bool := 8 ≤ s.boot.stage || s.boot.busy == some 8 || (s.boot.state == 2 && s.boot.failStage == 8)

/-- An RW entry written, unless the present state refuses it. -/
def putUnless (s : State) (stop : Bool) (idx sub v : Nat) : Wrote :=
  if stop then .refused s 8 0 else .done (rwPut s idx sub (BitVec.ofNat 64 v))

/-- What a write of an RW or WO entry does, once every check of the entry has passed. -/
def writeEffect (s : State) (hdr : MsgHdr) (idx sub v : Nat) (reds : Reds) : Wrote :=
  match idx with
  | 0x2000 => writeSetControl s hdr (bits v 0 4)
  | 0x2320 => putUnless s (s.ctx (sub - 1)).isSome idx sub v
  | 0x4102 => writeTallyAck s (sub - 1) (bits v 0 6)
  | 0x4300 => writeFsrAck s v
  | 0x5011 => writeSecControl s v
  | 0x6100 => writeBringup s v
  | 0x6111 => writeKaMeasure s v
  | 0x6120 => writeFwControl s v
  | 0x6130 => if bits v 60 4 = 1 then writeCreate s (sub - 1) v reds else writeEnd s (sub - 1)
  | 0x6140 => .done (writePause s (sub - 1) (BitVec.ofNat 64 v))
  | 0x6160 => if sub = 1 then writeAdmission s (BitVec.ofNat 64 v) else putUnless s false idx sub v
  | 0x6170 => if bitAt v 43 && bits v 16 4 != 0 then .refused s 7 0 else putUnless s (hallFixed s) idx sub v
  | 0x6171 => if bits v 30 2 = 3 && bits v 22 5 = 0 then .refused s 7 0 else putUnless s (hallFixed s) idx sub v
  | 0x6180 => .done (gazDecided { s with gleaner := { s.gleaner with gridSelect := BitVec.ofNat 2 v } })
  | 0x6190 => writeControl s (sub - 1) (bits v 28 4)
  | 0x6191 => writePartition s v
  | 0x6192 => writeModuleReset s v
  | 0x61A0 => if v = 0 || ladder.contains v then putUnless s false idx sub v else .refused s 7 0
  | _ => putUnless s false idx sub v

/-- A DOMAIN value written whole. -/
def domainEffect (s : State) (idx sub : Nat) (b : List Byte) : Wrote :=
  match idx, sub with
  | 0x5010, _ => writeToken s b
  | 0x5020, _ => writeAttest s b
  | _, _ =>
    if !inRecovery s then .refused s 8 0
    else
      match imageAt s (fun o n => (b.drop o).take n) b.length 0 1 with
      | none => .refused s 0x11 0
      | some i =>
        .resets (dirWrite s fun f => { (((f.setImages 0 0 [(0, i)]).setSlot 0 0 2).setPref 0 0) with trialBoots := 0 }) 0 false

/-- The most bytes of a piece on Meridian, and of a DOMAIN without a fixed size (R446, R450, R500). -/
def pieceMax : Nat := 4096
def domainMax : Nat := 16777216

/-- A piece of a DOMAIN write: pieces follow one another from offset 0, and the value takes effect at its end (R450). -/
def writePiece (s : State) (e : OdEnt) (idx sub off : Nat) (data : List Byte) : Wrote :=
  let k := odKey idx sub
  let old := (mfind s.dict.partial_ k).getD []
  let v := old ++ data
  let drop (s : State) : State := { s with dict := { s.dict with partial_ := mdel s.dict.partial_ k } }
  let keep : State := { s with dict := { s.dict with partial_ := mput s.dict.partial_ k v } }
  let short := data.length < pieceMax
  if off != old.length || pieceMax < data.length then .refused (drop s) 5 0
  else if e.fixed != 0 then
    if v.length == e.fixed then domainEffect (drop s) idx sub v
    else if short || e.fixed < v.length then .refused (drop s) 5 0
    else .done keep
  else if domainMax < v.length then .refused (drop s) 5 0
  else if short then domainEffect (drop s) idx sub v
  else .done keep

/-- A write that has passed the checks of its entry: a piece of a DOMAIN, a value for the shadow set, or an RW or WO entry
(R447, R448, R455). -/
def writeChecked (s : State) (hdr : MsgHdr) (e : OdEnt) (idx sub off : Nat) (data : List Byte) (reds : Reds) : Wrote :=
  if e.size = 0 then writePiece s e idx sub off data
  else
    match if off != 0 then some (5, 0) else wordRefused e data with
    | some r => .refused s r.1 r.2
    | none =>
      let v := leNat data
      if e.acc = .rws then
        let k := odKey idx sub
        .done { s with dict := { s.dict with shadow := mset s.dict.shadow (odDefault k) k (BitVec.ofNat 64 v) } }
      else writeEffect s hdr idx sub v reds

/-- A write by the control role, with every check in the order of R448. -/
def writeEntry (s : State) (hdr : MsgHdr) (idx sub off : Nat) (data : List Byte) (reds : Reds) : Wrote :=
  match writeRefused s 0 idx sub with
  | some st => .refused s st 0
  | none =>
    match odFind idx sub with
    | some e => writeChecked s hdr e idx sub off data reds
    | none => .refused s 1 0

/-! ### Responses (R424, R425, R426) -/

/-- ARG of a dictionary message. -/
def odArg (idx sub off : Nat) : BitVec 179 := BitVec.ofNat 179 (odKey idx sub + off * 2 ^ 24)

/-- The TYPE of the response to a message. -/
def respType : Msg → BitVec 8
  | .read _ _ _ => 0x02
  | .write _ _ _ _ _ => 0x04
  | .bulkRead _ _ _ => 0x06
  | .bulkWrite _ _ _ => 0x08
  | .epoch _ _ _ => 0x0B
  | .other ty => Config.errorType ty

/-- The ARG of the response: as the request, or its local offset. -/
def respArg : Msg → BitVec 179
  | .read idx sub off => odArg idx sub off
  | .write idx sub off _ _ => odArg idx sub off
  | .bulkRead addr _ _ => BitVec.ofNat 179 addr
  | .bulkWrite addr _ _ => BitVec.ofNat 179 addr
  | .epoch step sel who => BitVec.ofNat 179 (step + b2n sel * 2 ^ 64 + who * 2 ^ 65)
  | .other _ => 0

/-- The entry that a refusal names in LAST_ERROR; none for a message of no entry. -/
def msgEntry : Msg → Nat × Nat
  | .read idx sub _ => (idx, sub)
  | .write idx sub _ _ _ => (idx, sub)
  | _ => (0, 0)

/-- A message answered with success. -/
def accepted (s : State) (m : MsgHdr) (msg : Msg) : State := respond s ⟨respType msg, 0, m.tag, respArg msg, []⟩

/-- A message refused with a status, which LAST_ERROR records (R449). -/
def refusedMsg (s : State) (m : MsgHdr) (msg : Msg) (status detail : Nat) : State :=
  let e := msgEntry msg
  respond (noteError s 0 status e.1 e.2 detail) ⟨respType msg, BitVec.ofNat 8 status, m.tag, respArg msg, []⟩

/-! ### The effect of a message (R425 to R429) -/

/-- OD_READ: the value, or a refusal; a read of SEC_CHALLENGE draws its nonce first (R448, R450, R509). -/
def runRead (s : State) (m : MsgHdr) (msg : Msg) (idx sub off : Nat) : State :=
  match readRefused s 0 idx sub with
  | some st => refusedMsg s m msg st 0
  | none =>
    let s := if idx = 0x5010 && sub = 1 then freshNonce s else s
    respond s ⟨0x02, 0, m.tag, odArg idx sub off, readValue s idx sub off pieceMax⟩

/-- Units of the inbound message buffer that a message takes (R423, R424). -/
def msgUnits : Msg → Nat
  | .write _ _ _ data _ => 2 + (data.length + 15) / 16
  | .bulkWrite _ data _ => 2 + (data.length + 15) / 16
  | _ => 2

/-- The buffer units of a message that has been taken are returned to the control node (R423). -/
def returnUnits (s : State) (msg : Msg) : State := { s with mer := { s.mer with owe := s.mer.owe + msgUnits msg } }

/-- A message waits to take effect, keeps its place in the inbound buffer, and holds back every later one (R423, R426). -/
def waitMsg (s : State) (m : MsgHdr) (msg : Msg) : State :=
  { s with mer := { s.mer with blocking := some m, held := (m, msg) :: s.mer.held, owe := s.mer.owe - msgUnits msg } }

/-- OD_WRITE: its effect and its response; one that cannot take effect yet waits, and one that a flash write must complete
answers then (R426, R459, R543). -/
def runWrite (s : State) (m : MsgHdr) (msg : Msg) (idx sub off : Nat) (data : List Byte) (reds : Reds) : State :=
  match writeEntry s m idx sub off data reds with
  | .done s => accepted s m msg
  | .refused s st detail => refusedMsg s m msg st detail
  | .resets s kind clear => moduleReset (accepted s m msg) kind clear
  | .waits => waitMsg s m msg
  | .later s => { s with mer := { s.mer with blocking := some m } }

/-- Bulk windows and step epochs are served: not out of service, not in ROM recovery (R394, R500). -/
def served (s : State) : Bool := !outOfServ s && !inRecovery s

/-- A bulk access that R427 permits. -/
def bulkOk (s : State) (a n : Nat) : Bool :=
  served s && 3 ≤ s.boot.stage && a % 64 == 0 && n % 64 == 0 && 64 ≤ n && n ≤ 4096 && a % 4096 + n ≤ 4096 && a + n ≤ memCap s

/-- A bulk access cannot be taken yet: the channels are in self-refresh, the inbound table of its granary is full, or an
operation on its rows was accepted earlier (R263, R309, R427, R435). -/
def bulkWaits (s : State) (write : Bool) (a n : Nat) : Bool :=
  s.mem.selfRefresh || 8192 ≤ inboundUsed s (!southSide a) || spanWaits s s.mem.nextOrder write a n

/-- BULK_READ: the lines with their poison marks, after every write of their rows that was accepted earlier (R263, R264, R427). -/
def runBulkRead (s : State) (m : MsgHdr) (msg : Msg) (a n : Nat) (errs : List LineCheck) : State :=
  if !bulkOk s a n then refusedMsg s m msg 0x10 0
  else if bulkWaits s false a n then waitMsg s m msg
  else
    let r := linesRead (noteReports s errs) errs a 0 (n / 64)
    let poison := (List.range (n / 64)).foldl (fun p i => p + b2n ((r.2.getD i ⟨0, false⟩).poison) * 2 ^ i) 0
    respond r.1 ⟨0x06, 0, m.tag, BitVec.ofNat 179 (a + poison * 2 ^ 42), r.2.flatMap fun l => lineBytes l.data⟩

/-- A bulk write to slot 0 of a context lets it begin steps again after an aborted admission (R323). -/
def unbar (s : State) (a n : Nat) : State :=
  (s.ctxs.filter fun e => e.2.rec_.barred && a < e.2.cdef.slotBase 0 + e.2.cdef.verW && e.2.cdef.slotBase 0 < a + n).foldl
    (fun s e => s.modRec e.1 fun r => { r with barred := false }) s

/-- BULK_WRITE: whole lines, whose poison it clears, after every operation on their rows that was accepted earlier; a line of a
lost stripe refuses the write (R263, R265, R270, R284, R427). -/
def runBulkWrite (s : State) (m : MsgHdr) (msg : Msg) (a : Nat) (data : List Byte) (errs : List LineCheck) : State :=
  let n := data.length
  if !bulkOk s a n || s.lostAt a then refusedMsg s m msg 0x10 0
  else if bulkWaits s true a n then waitMsg s m msg
  else
    accepted (unbar (storeRows errs 64 (noteReports s errs) a
      ((List.range (n / 64)).map fun i => ⟨lineOf (data.drop (64 * i)), false⟩)) a n) m msg

/-- LIMIT of a context's STEP_EPOCH written; FREE stays as it is (R429). -/
def putLimit (s : State) (c step : Nat) : State :=
  rwPut s 0x6145 (c + 1) ((rwGet s 0x6145 (c + 1) &&& 0x8000000000000000) ||| BitVec.ofNat 64 (step % 2 ^ 63))

/-- STEP_EPOCH: LIMIT written for every live context of a JOB_TAG, or for the context named (R429). -/
def runEpoch (s : State) (m : MsgHdr) (msg : Msg) (step : Nat) (sel : Bool) (who : Nat) : State :=
  if !served s then refusedMsg s m msg 8 0
  else
    let cs := if sel then [who % 16] else (s.ctxs.filter fun e => e.2.cdef.job == who).map (·.1)
    accepted (cs.foldl (fun s c => putLimit s c step) s) m msg

/-- A message takes effect, or is refused where it is malformed or of a reserved type (R425). -/
def runMsg (s : State) (m : MsgHdr) (msg : Msg) : State :=
  let s := returnUnits s msg
  if m.malformed then refusedMsg s m msg 0x0F 0
  else
    match msg with
    | .read idx sub off => runRead s m msg idx sub off
    | .write idx sub off data reds => runWrite s m msg idx sub off data reds
    | .bulkRead a n errs => runBulkRead s m msg a n errs
    | .bulkWrite a data errs => runBulkWrite s m msg a data errs
    | .epoch step sel who => runEpoch s m msg step sel who
    | .other _ => refusedMsg s m msg 0x0F 0

/-! ### The order of messages (R426) -/

/-- A message is in sequence. -/
def inSeq (s : State) (m : MsgHdr) : Bool := m.seq == s.mer.msgSeq

/-- The expected MSG_SEQ counted on. -/
def nextSeq (s : State) : State := { s with mer := { s.mer with msgSeq := s.mer.msgSeq + 1 } }

/-- Messages wait. -/
def holding (s : State) : Bool := s.mer.blocking.isSome || !s.mer.held.isEmpty

/-- A message arrives: out of sequence it is refused, and otherwise it takes effect after every earlier one. -/
def merTake (m : MsgHdr) (msg : Msg) (s : State) : Out :=
  if !portUp s then .next s
  else if !inSeq s m then .next (refusedMsg (returnUnits s msg) m msg 0x0E 0)
  else
    let s := nextSeq s
    if holding s then .next { s with mer := { s.mer with held := s.mer.held ++ [(m, msg)] } } else .next (runMsg s m msg)

/-- A write of an entry of `n` bytes, as every command that names its entry makes it. -/
def writeWord (m : MsgHdr) (idx sub n v : Nat) (reds : Reds) (s : State) : Out :=
  merTake m (.write idx sub 0 (toLE n v) reds) s

/-- Messages held back take effect in order, until one must wait. -/
def releaseSome : Nat → State → State
  | 0, s => s
  | n + 1, s =>
    if s.mer.blocking.isSome then s
    else
      match s.mer.held with
      | [] => s
      | h :: t => releaseSome n (runMsg { s with mer := { s.mer with held := t } } h.1 h.2)

/-- The message that waited is tried again, and those behind it follow. -/
def releaseHeld (s : State) : State :=
  releaseSome s.mer.held.length { s with mer := { s.mer with blocking := none } }

/-- The message that waits is tried again, where it does not wait for a flash copy (R426, R459, R543). -/
def retryHeld (s : State) : State :=
  if s.mer.blocking.isSome && !s.mer.held.isEmpty && s.dict.swap.isNone && s.dict.save.isNone then releaseHeld s else s

/-! ### The commands -/

/-- CONTEXT_PAUSE_REQUEST: a write of 1 to CONTEXT_PAUSE (R215, R216). -/
def execContextPauseRequest (m : MsgHdr) (c : Nat) (v : BitVec 32) (s : State) : Out :=
  writeWord m 0x6140 (c + 1) 4 v.toNat [] s

/-- CONTEXT_RESUME_REQUEST: a write of 0 to CONTEXT_PAUSE (R215, R218). -/
def execContextResumeRequest (m : MsgHdr) (c : Nat) (v : BitVec 32) (s : State) : Out :=
  writeWord m 0x6140 (c + 1) 4 v.toNat [] s

/-- ADMISSION_START: START written to ADMISSION (R321, R322). -/
def execAdmissionStart (m : MsgHdr) (v : BitVec 64) (s : State) : Out :=
  writeWord m 0x6160 1 8 v.toNat [] s

/-- ADMISSION_CANCEL: CANCEL written to ADMISSION (R321). -/
def execAdmissionCancel (m : MsgHdr) (v : BitVec 64) (s : State) : Out :=
  writeWord m 0x6160 1 8 v.toNat [] s

/-- FSR_ACK: the oldest failure signature record released (R361). -/
def execFsrAck (m : MsgHdr) (v : BitVec 32) (s : State) : Out :=
  writeWord m 0x4300 3 4 v.toNat [] s

/-- CONTEXT_RESET_COMMAND: CONTEXT_CONTROL with RESET (R388). -/
def execContextResetCommand (m : MsgHdr) (c : Nat) (v : BitVec 32) (s : State) : Out :=
  writeWord m 0x6190 (c + 1) 4 v.toNat [] s

/-- CONTEXT_RESTART: CONTEXT_CONTROL with RESTART (R388, R396). -/
def execContextRestart (m : MsgHdr) (c : Nat) (v : BitVec 32) (s : State) : Out :=
  writeWord m 0x6190 (c + 1) 4 v.toNat [] s

/-- CONTEXT_ROLLBACK_COMMAND: CONTEXT_CONTROL with ROLLBACK (R282, R388). -/
def execContextRollbackCommand (m : MsgHdr) (c : Nat) (v : BitVec 32) (s : State) : Out :=
  writeWord m 0x6190 (c + 1) 4 v.toNat [] s

/-- PARTITION_RESET: a rectangle of plots is reset (R376, R377). -/
def execPartitionReset (m : MsgHdr) (v : BitVec 32) (s : State) : Out :=
  writeWord m 0x6191 1 4 v.toNat [] s

/-- MODULE_RESET_WARM: MODULE_RESET with KIND 0b01 (R378). -/
def execModuleResetWarm (m : MsgHdr) (v : BitVec 32) (s : State) : Out :=
  writeWord m 0x6192 1 4 v.toNat [] s

/-- MODULE_RESET_COLD: MODULE_RESET with KIND 0b10 (R378). -/
def execModuleResetCold (m : MsgHdr) (v : BitVec 32) (s : State) : Out :=
  writeWord m 0x6192 1 4 v.toNat [] s

/-- MODULE_RESET_CLEAR: MODULE_RESET with KIND 0b11 (R378, R394). -/
def execModuleResetClear (m : MsgHdr) (v : BitVec 32) (s : State) : Out :=
  writeWord m 0x6192 1 4 v.toNat [] s

/-- CONTEXT_CREATE with OP create; the reduction tables are those of the image (R453, R454). -/
def execContextCreate (m : MsgHdr) (c : Nat) (v : BitVec 64) (reds : List (Nat × List (BitVec 64))) (s : State) : Out :=
  writeWord m 0x6130 (c + 1) 8 v.toNat reds s

/-- CONTEXT_CREATE with OP end (R453, R454). -/
def execContextEnd (m : MsgHdr) (c : Nat) (v : BitVec 64) (s : State) : Out :=
  writeWord m 0x6130 (c + 1) 8 v.toNat [] s

/-- TALLY_ACK: the oldest sealed record of a context released (R413). -/
def execTallyAck (m : MsgHdr) (c : Nat) (v : BitVec 32) (s : State) : Out :=
  writeWord m 0x4102 (c + 1) 4 v.toNat [] s

/-- OD_READ of an entry or of a piece of a DOMAIN (R425, R450). -/
def execOdRead (m : MsgHdr) (idx : BitVec 16) (sub : BitVec 8) (off : BitVec 32) (s : State) : Out :=
  merTake m (.read idx.toNat sub.toNat off.toNat) s

/-- OD_WRITE of an entry or of a piece of a DOMAIN (R425, R448). -/
def execOdWrite (m : MsgHdr) (idx : BitVec 16) (sub : BitVec 8) (off : BitVec 32) (data : List (BitVec 8)) (s : State) : Out :=
  merTake m (.write idx.toNat sub.toNat off.toNat data []) s

/-- BULK_READ of local memory (R427). -/
def execBulkRead (m : MsgHdr) (addr : BitVec 42) (len : BitVec 13) (errs : List LineCheck) (s : State) : Out :=
  merTake m (.bulkRead addr.toNat len.toNat errs) s

/-- BULK_WRITE of local memory (R427). -/
def execBulkWrite (m : MsgHdr) (addr : BitVec 42) (data : List (BitVec 8)) (errs : List LineCheck) (s : State) : Out :=
  merTake m (.bulkWrite addr.toNat data errs) s

/-- STEP_EPOCH: LIMIT for the contexts of a job, or for one (R425, R429). -/
def execStepEpoch (m : MsgHdr) (step : BitVec 64) (sel : Bool) (who : BitVec 16) (s : State) : Out :=
  merTake m (.epoch step.toNat sel who.toNat) s

/-- SET_CONTROL with SWAP (R456, R457). -/
def execSetSwap (m : MsgHdr) (v : BitVec 32) (s : State) : Out :=
  writeWord m 0x2000 1 4 v.toNat [] s

/-- SET_CONTROL with REVERT (R456). -/
def execSetRevert (m : MsgHdr) (v : BitVec 32) (s : State) : Out :=
  writeWord m 0x2000 1 4 v.toNat [] s

/-- SET_CONTROL with SAVE (R456, R543). -/
def execSetSave (m : MsgHdr) (v : BitVec 32) (s : State) : Out :=
  writeWord m 0x2000 1 4 v.toNat [] s

/-- SET_CONTROL with DEFAULTS (R456). -/
def execSetDefaults (m : MsgHdr) (v : BitVec 32) (s : State) : Out :=
  writeWord m 0x2000 1 4 v.toNat [] s

/-- BRINGUP_CONTROL with ADVANCE (R476). -/
def execBringupAdvance (m : MsgHdr) (v : BitVec 32) (s : State) : Out :=
  writeWord m 0x6100 1 4 v.toNat [] s

/-- BRINGUP_CONTROL with HOLD (R476). -/
def execBringupHold (m : MsgHdr) (v : BitVec 32) (s : State) : Out :=
  writeWord m 0x6100 1 4 v.toNat [] s

/-- BRINGUP_CONTROL with RETRY (R476). -/
def execBringupRetry (m : MsgHdr) (v : BitVec 32) (s : State) : Out :=
  writeWord m 0x6100 1 4 v.toNat [] s

/-- BRINGUP_CONTROL with REBUILD_GAZETTEER (R476, R500). -/
def execRebuildGazetteer (m : MsgHdr) (v : BitVec 32) (s : State) : Out :=
  writeWord m 0x6100 1 4 v.toNat [] s

/-- FW_CONTROL with PROGRAM (R488, R490). -/
def execFwProgram (m : MsgHdr) (v : BitVec 64) (s : State) : Out :=
  writeWord m 0x6120 1 8 v.toNat [] s

/-- FW_CONTROL with CONFIRM (R488). -/
def execFwConfirm (m : MsgHdr) (v : BitVec 64) (s : State) : Out :=
  writeWord m 0x6120 1 8 v.toNat [] s

/-- FW_CONTROL with PREFER_OTHER (R488). -/
def execFwPreferOther (m : MsgHdr) (v : BitVec 64) (s : State) : Out :=
  writeWord m 0x6120 1 8 v.toNat [] s

/-- FW_RECOVERY_IMAGE: a piece of the steward image that ROM recovery takes (R450, R500). -/
def execFwRecoveryImage (m : MsgHdr) (off : BitVec 32) (data : List (BitVec 8)) (s : State) : Out :=
  merTake m (.write 0x6121 1 off.toNat data []) s

/-- KA_MEASURE with START (R497). -/
def execKaMeasureStart (m : MsgHdr) (v : BitVec 32) (s : State) : Out :=
  writeWord m 0x6111 1 4 v.toNat [] s

/-- KA_MEASURE with CANCEL (R497). -/
def execKaMeasureCancel (m : MsgHdr) (v : BitVec 32) (s : State) : Out :=
  writeWord m 0x6111 1 4 v.toNat [] s

/-- SEC_CHALLENGE read: a fresh nonce (R509). -/
def execSecChallengeRead (m : MsgHdr) (off : BitVec 32) (s : State) : Out :=
  merTake m (.read 0x5010 1 off.toNat) s

/-- A piece of a DEBUG_UNLOCK token written to SEC_TOKEN (R450, R509, R512). -/
def execTokenDebugUnlock (m : MsgHdr) (off : BitVec 32) (data : List (BitVec 8)) (s : State) : Out :=
  merTake m (.write 0x5010 2 off.toNat data []) s

/-- A piece of a KEY_INSTALL token written to SEC_TOKEN (R450, R509, R510). -/
def execTokenKeyInstall (m : MsgHdr) (off : BitVec 32) (data : List (BitVec 8)) (s : State) : Out :=
  merTake m (.write 0x5010 2 off.toNat data []) s

/-- A piece of a KEY_REVOKE token written to SEC_TOKEN (R450, R509, R510). -/
def execTokenKeyRevoke (m : MsgHdr) (off : BitVec 32) (data : List (BitVec 8)) (s : State) : Out :=
  merTake m (.write 0x5010 2 off.toNat data []) s

/-- SEC_CONTROL with ROLLBACK_COMMIT (R505). -/
def execRollbackCommit (m : MsgHdr) (v : BitVec 32) (s : State) : Out :=
  writeWord m 0x5011 1 4 v.toNat [] s

/-- SEC_CONTROL with DEBUG_LOCK (R511). -/
def execDebugLock (m : MsgHdr) (v : BitVec 32) (s : State) : Out :=
  writeWord m 0x5011 1 4 v.toNat [] s

/-- ATTEST_REQUEST written: a report begins to be signed (R513). -/
def execAttestRequest (m : MsgHdr) (off : BitVec 32) (data : List (BitVec 8)) (s : State) : Out :=
  merTake m (.write 0x5020 1 off.toNat data []) s

/-- A message whose TYPE is reserved or sent only by the module: refused with MESSAGE (R425). -/
def execReservedTypeMessage (m : MsgHdr) (ty : BitVec 8) (s : State) : Out :=
  merTake m (.other ty) s

/-- HEARTBEAT: it feeds the watchdog when it arrives, whatever waits (R426, R483). -/
def execHeartbeat (m : MsgHdr) (_n : BitVec 32) (s : State) : Out :=
  if !portUp s then .next s
  else
  let s := returnUnits s (.other 0x0C)
  if !inSeq s m then .next (refusedMsg s m (.other 0x0C) 0x0E 0)
  else if m.malformed then .next (refusedMsg (nextSeq s) m (.other 0x0C) 0x0F 0)
  else
    let s := nextSeq s
    .next { s with boot := { s.boot with fedAt := now s } }

/-- The response of a write that waited for its flash copy, and the messages behind it (R426, R459, R543). -/
def flashAnswer (s : State) (m : MsgHdr) (status : Nat) : State :=
  if s.mer.blocking == some m then
    let msg : Msg := .write 0x2000 1 0 [] []
    let s := if status = 0 then accepted s m msg else refusedMsg s m msg status 0
    releaseHeld s
  else s

/-- SWAP_FLASH_VERIFIED: the new set's copy verifies and the set is adopted, or fails and the old set stays (R459, R460). -/
def execSwapFlashVerified (ok : Bool) (s : State) : Out :=
  match s.dict.swap with
  | none => .next s
  | some w => .next (flashAnswer (if ok then swapVerified s w else swapFailed s) w.hdr (if ok then 0 else 0x12))

/-- SAVE_FLASH_VERIFIED: the shadow copy verifies or fails (R543). -/
def execSaveFlashVerified (ok : Bool) (s : State) : Out :=
  match s.dict.save with
  | none => .next s
  | some m => .next (flashAnswer (saveEnded s ok) m (if ok then 0 else 0x12))

/-- EPOCH_WAIT_EXPIRY: TXN_REMOTE has passed since the last advance of a context number's epoch, and a creation or restart that
waited for it proceeds (R379). -/
def execEpochWaitExpiry (c : Nat) (s : State) : Out :=
  let s := { s with epochAt := mdel s.epochAt c }
  let s := s.modRec c fun r => { r with epochWait := false }
  .next (retryHeld s)

/-- EVENT_DELIVER: the oldest event not yet delivered is sent as an EVENT message (R425, R428). -/
def execEventDeliver (s : State) : Out :=
  let e := s.events
  match e.ring[e.ring.length - e.undelivered]? with
  | some v =>
    if portUp s && e.undelivered != 0 then
      let arg := BitVec.ofNat 179 ((Config.eventCode v.name).toNat + v.seq.toNat * 2 ^ 16 + v.time.toNat * 2 ^ 48)
      let s := { s with events := { e with undelivered := e.undelivered - 1 } }
      .next (respond s ⟨0x09, 0, 0, arg, toLE 32 (Config.eventData v.name v.data).toNat⟩)
    else .next s
  | none => .next s

end Sys2Proof.Machine
end

