-- ==== Sys2Proof/Machine/Clocks.lean ====
section
/-! DEFINITION. The Meridian port's frames and lanes, the sources of the root, changes of its frequency, and the throttling of
quarters (R257, R422, R423, R430 to R437, R444, R499, R501). -/

namespace Sys2Proof.Machine

/-! ### Sources of the root (R434) -/

/-- A count of the clock tree raised once the first lock of the bring-up is done. -/
def countAfter (s : State) (n : Nat) : Nat := if s.clk.firstLock then satAdd n 1 65535 else n

/-- A hitless switch of the root to a ready source (R434, rule 1). -/
def switchSource (s : State) (m1 : Bool) : State :=
  { s with clk := { s.clk with source := sourceOf m1, refSwitches := countAfter s s.clk.refSwitches } }

/-- A meridian source fails: the root that follows it moves to the other source where that is ready, and otherwise holds its
frequency; a change whose PLL has not locked to it yet leads to the coast oscillator instead (R434, R444). -/
def sourceFails (s : State) (m1 : Bool) : State :=
  let c := s.clk
  if c.change.isSome && c.change != some .locked then
    if c.toward == sourceOf m1 then { s with clk := { c with toward := .coast } } else s
  else if c.source != sourceOf m1 || c.coasting then s
  else if c.ready (!m1) then switchSource s (!m1)
  else
    raise { s with clk := { c with source := .holdover, heldAt := now s, holdovers := countAfter s c.holdovers } } .clockHoldover
      [sourceCode (sourceOf m1)]

/-- The lock of a source and its ready flag, with the times from which they stand; a source that is ready has held lock for 10 µs
(R430, R434). -/
def setLock (s : State) (m1 lock ready : Bool) : State :=
  let c := s.clk
  let since (was : Bool) (t : Nat) : Nat := if lock && !was then now s - 10 else t
  let at_ (was : Bool) (t : Nat) : Nat := if ready && !was then now s else t
  { s with clk :=
      if m1 then
        { c with lockM1 := lock, readyM1 := ready, sinceM1 := since c.lockM1 c.sinceM1, readyAtM1 := at_ c.readyM1 c.readyAtM1 }
      else
        { c with lockM0 := lock, readyM0 := ready, sinceM0 := since c.lockM0 c.sinceM0, readyAtM0 := at_ c.readyM0 c.readyAtM0 } }

/-- A receive lane is in use. -/
def rxActive (m : Meridian) (m1 : Bool) : Bool := m.enabled && (if m1 then m.rxM1 else m.rxM0)

/-- The module waits for its first lock: at S2, in ROM recovery or out of service (R434, R475, R500). -/
def wantsLock (s : State) : Bool := s.boot.busy == some 2 || inRecovery s || outOfServ s

/-- A ready source ends holdover by a switch, or is the first lock of a bring-up (R434). -/
def takeReady (s : State) (m1 : Bool) : State :=
  if s.clk.change.isSome then s
  else if s.clk.source == .holdover then switchSource s m1
  else if wantsLock s && s.clk.coasting && !s.clk.firstLock && !s.pow.tripHold then decideChange s (sourceOf m1)
  else s

/-! ### Lanes (R430, R431) -/

/-- A lane of the port switched on or off. -/
def setLane (s : State) (rx m1 on : Bool) : State :=
  setPort s fun m =>
    if rx then (if m1 then { m with rxM1 := on } else { m with rxM0 := on })
    else if m1 then { m with txM1 := on }
    else { m with txM0 := on }

/-- A lane of a direction is active. -/
def laneOn (m : Meridian) (rx m1 : Bool) : Bool :=
  if rx then (if m1 then m.rxM1 else m.rxM0) else if m1 then m.txM1 else m.txM0

/-! ### Frames (R422, R423, R430, R431) -/

/-- Frames acknowledged leave the replay buffer. -/
def ackMer (ack : BitVec 12) (l : List MerFrame) : List MerFrame :=
  if l.any fun f => f.seq == ack then l.dropWhile fun f => f.seq != ack
  else if (l.getLast?.map fun f => f.seq + 1) == some ack then []
  else l

/-- The port receives frames. -/
def receiving (s : State) : Bool := s.mer.enabled && (s.mer.rxM0 || s.mer.rxM1)

/-- Lanes of the far end's transmitter that a frame names, where they differ from those in use (R422, R430). -/
def namedSwitch (m : Meridian) (fr : MeridianFrame) : Option (BitVec 2 × BitVec 12) :=
  if fr.lanesNext == BitVec.ofNat 2 (b2n m.rxM0 + 2 * b2n m.rxM1) then none else some (fr.lanesNext, fr.switchSeq)

/-- At the SEQ named in advance the receiver uses the lanes named, where they are in lock (R422, R430). -/
def switchLanes (s : State) : State :=
  match s.mer.switchRx with
  | some (lanes, seq) =>
    let lock := BitVec.ofNat 2 (b2n (s.clk.lockM0 || s.mer.rxM0) + 2 * b2n (s.clk.lockM1 || s.mer.rxM1))
    if seq == s.mer.seqRx then switchTo s true (lanes &&& lock) else s
  | none => s

/-- A receive lane is withdrawn: NAK goes out with LANE_DOWN, the port is degraded, or down without a lane in the direction, and the
lane's source is ready no longer (R430, R431, R434). -/
def withdrawLane (s : State) (m1 : Bool) : State :=
  let s := setLane s true m1 false
  let s := if laneOn s.mer true (!m1) then raise s .meridianDegraded [1, b2n m1] else s
  let s := { s with mer :=
    { s.mer with
      nakked := true, nakDue := true, downDue := true
      bad0 := if m1 then s.mer.bad0 else [], bad1 := if m1 then [] else s.mer.bad1 } }
  pumpMer (sourceFails (setLock s m1 (if m1 then s.clk.lockM1 else s.clk.lockM0) false) m1)

/-- An uncorrectable codeword counted on its lane, which fails with more than 16 within 1 ms (R430, R442). -/
def badWord (s : State) (m1 : Bool) : State :=
  let m := s.mer
  let l := now s :: (if m1 then m.bad1 else m.bad0).filter fun t => now s < t + 1000
  let m := { m with uncorr := satAdd m.uncorr 1 65535 }
  let s := { s with mer := if m1 then { m with bad1 := l } else { m with bad0 := l } }
  if 16 < l.length && laneOn s.mer true m1 then withdrawLane s m1 else s

/-- A frame refused: NAK goes out for the first that fails, and again for each that fails its check (R423). -/
def Meridian.refuse (m : Meridian) (bad : Bool) : Meridian :=
  { m with nakked := true, nakDue := m.nakDue || !m.nakked || bad }

/-- MERIDIAN_FRAME_RECEIVE: a frame in sequence is accepted; the first that fails is discarded with every later one until a
resend, and NAK is sent. Every good frame returns acknowledgements and credits, may ask for a resend, tell of a lane withdrawn
and name the lanes to come (R422, R423, R430). -/
def execMeridianFrameReceive (fr : MeridianFrame) (s : State) : Out :=
  if !receiving s then .next s
  else
    let s := if fr.uncorrectable then badWord s fr.lane else s
    if !fr.good || 16 < fr.units.toNat then .next (pumpMer { s with mer := s.mer.refuse true })
    else
      let m := s.mer
      let m := { m with
        replay := ackMer fr.ack m.replay, credits := min 4096 (m.credits + fr.credits.toNat)
        nakAt := if fr.nak then some fr.ack else m.nakAt
        downHeard := m.downHeard || (fr.nak && fr.laneDown), switchRx := namedSwitch m fr }
      if fr.units == 0 then .next (pumpMer { s with mer := m })
      else if fr.seq == m.seqRx then
        .next (pumpMer (switchLanes { s with mer := { m with seqRx := m.seqRx + 1, nakked := false } }))
      else .next (pumpMer { s with mer := m.refuse false })

/-- MERIDIAN_NAK_RESEND: every frame from the SEQ of the far end's NAK is resent in order (R423). -/
def execMeridianNakResend (s : State) : Out :=
  match s.mer.nakAt with
  | some seq =>
    if s.mer.sends then
      let r := ackMer seq s.mer.replay
      let m := { s.mer with replay := r, nakAt := none, resends := satAdd s.mer.resends 1 65535 }
      .next { s with mer := r.foldl (fun m f => m.putFrame f.seq f.units.toNat) m }
    else .next s
  | none => .next s

/-- MERIDIAN_ACK_TIMER: where no frame has carried it, a control frame returns ACK and the buffer units owed (R423). -/
def execMeridianAckTimer (s : State) : Out :=
  .next (if s.mer.sends && receiving s then { s with mer := s.mer.putFrame 0 0 } else s)

/-- MERIDIAN_RESTART_RECEIVE: both directions begin again; unacknowledged frames and requests without a response are discarded
(R431). -/
def execMeridianRestartReceive (s : State) : Out :=
  if receiving s then
    .next (raise { s with mer := { s.mer with
      seqTx := 0, seqRx := 0, ackTx := 0, msgSeq := 0, outSeq := 0, replay := [], outUnits := 0, owe := 0, nakked := false
      nakDue := false, downDue := false, nakAt := none, downHeard := false, credits := 4096, switchTx := none, switchRx := none
      held := [], blocking := none } } .meridianRestart [])
  else .next s

/-- Whether a receive lane fails (R430). -/
def laneLost : LaneLoss → Bool
  | .lost => true
  | .ber e b => b < 10000 * e

/-- MERIDIAN_LANE_FAIL: a receive lane fails by its own receiver's finding, and a transmit lane when the far end has told of a
lane that it withdrew; it is withdrawn, and the port is degraded, or down without a lane in the direction (R430, R431, R434). -/
def execMeridianLaneFail (rx m1 : Bool) (cause : LaneLoss) (s : State) : Out :=
  if !s.mer.enabled || !laneOn s.mer rx m1 then .next s
  else if rx then .next (if laneLost cause then withdrawLane s m1 else s)
  else if !s.mer.downHeard then .next s
  else
    let s := setLane { s with mer := { s.mer with downHeard := false, switchTx := none } } false m1 false
    .next (if laneOn s.mer false (!m1) then raise s .meridianDegraded [0, b2n m1] else s)

/-- Lanes of a direction with one more. -/
def withLane (m : Meridian) (rx m1 : Bool) : BitVec 2 :=
  BitVec.ofNat 2 (b2n (laneOn m rx false || !m1) + 2 * b2n (laneOn m rx true || m1))

/-- A receive lane has held lock for 10 ms. -/
def lockedLong (s : State) (m1 : Bool) : Bool :=
  if m1 then s.clk.lockM1 && s.clk.sinceM1 + 10000 ≤ now s else s.clk.lockM0 && s.clk.sinceM0 + 10000 ≤ now s

/-- MERIDIAN_LANE_REJOIN: a receive lane that has held lock for 10 ms joins where the far end has named it, or where the
direction has no lane; the transmitter names the SEQ from which a lane of its own is used again, at least 64 frames ahead, or
starts with it where it has no lane (R430). -/
def execMeridianLaneRejoin (rx m1 : Bool) (seq : BitVec 12) (s : State) : Out :=
  if !s.mer.enabled || laneOn s.mer rx m1 then .next s
  else if rx then
    let named := match s.mer.switchRx with
      | some (lanes, at_) => (if m1 then lanes.getLsbD 1 else lanes.getLsbD 0) && (s.mer.seqRx - at_).toNat < 2048
      | none => false
    if lockedLong s m1 && (named || !laneOn s.mer true (!m1)) then
      .next (pumpMer (takeReady (setLock (switchTo s true (withLane s.mer true m1)) m1 true true) m1))
    else .next s
  else if !rootLocked s then .next s
  else if !laneOn s.mer false (!m1) then .next (pumpMer (switchTo s false (withLane s.mer false m1)))
  else if 64 ≤ (seq - s.mer.seqTx).toNat && (seq - s.mer.seqTx).toNat < 2048 then
    .next { s with mer := { s.mer with switchTx := some (withLane s.mer false m1, seq) } }
  else .next s

/-! ### Ready flags, holdover and relock (R434, R440, R444) -/

/-- REF_LOCK_LOSS: the ready flag clears at once; a root on that source stays on it until its lane fails (R434). -/
def execRefLockLoss (m1 : Bool) (s : State) : Out :=
  let s := setLock s m1 false false
  .next (if rxActive s.mer m1 then s else sourceFails s m1)

/-- A receive lane is withdrawn while the port goes on with the other (R430, R434). -/
def laneWithdrawn (m : Meridian) (m1 : Bool) : Bool := m.enabled && !laneOn m true m1 && laneOn m true (!m1)

/-- REF_READY: a source has held lock for 10 µs, and is ready if it is not withdrawn (R434). -/
def execRefReady (m1 : Bool) (s : State) : Out :=
  .next (if laneWithdrawn s.mer m1 then setLock s m1 true false else takeReady (setLock s m1 true true) m1)

/-- HOLDOVER_EXPIRY: after HOLDOVER_US the root changes to the coast oscillator, unless a source becomes ready in the same cycle
(R434, R440, R444). -/
def execHoldoverExpiry (ready : Option Bool) (s : State) : Out :=
  if s.clk.source != .holdover || s.clk.change.isSome || now s < s.clk.heldAt + cfgField s 0x22B0 1 0 10 then .next s
  else
    match ready with
    | some m1 => .next (switchSource (setLock s m1 true true) m1)
    | none => .next (decideChange s .coast)

/-- After a lock that failed at S2 the next is tried 1 s later (R499). -/
def lockRetryDue (s : State) : Bool := s.boot.failCode != 0x21 || s.clk.began + 1000000 ≤ now s

/-- RELOCK_TIMER_EXPIRY: a source has been ready for RELOCK_MS while the root coasts, and AUTO_RELOCK is set; at S2 the retry of
a lock that failed (R434, R499). -/
def execRelockTimerExpiry (m1 : Bool) (s : State) : Out :=
  let since := if m1 then s.clk.readyAtM1 else s.clk.readyAtM0
  let auto := s.clk.firstLock && bitAt (cfgInForce s 0x22B0 1).toNat 31 && since + 1000 * cfgField s 0x22B0 1 16 10 ≤ now s
  if s.clk.coasting && s.clk.change.isNone && s.clk.ready m1 && !s.pow.tripHold && (auto || (wantsLock s && lockRetryDue s)) then
    .next (decideChange s (sourceOf m1))
  else .next s

/-! ### Changes of root frequency (R435, R499, R501) -/

/-- ROOT_CHANGE_START: the links go down, channels enter self-refresh, and the port stops transmitting. -/
def execRootChangeStart (s : State) : Out :=
  match s.clk.change with
  | some .decided =>
    let s := { s with clk := { s.clk with change := some .stopping }, mem := { s.mem with selfRefresh := true } }
    .next (setPort (linksDown s) fun m => { m with txM0 := false, txM1 := false })
  | _ => .next s

/-- ROOT_CLOCKS_STOPPED: tile, mesh and granary clocks stop. -/
def execRootClocksStopped (s : State) : Out :=
  match s.clk.change with
  | some .stopping => .next { s with clk := { s.clk with change := some .stopped, tilesStopped := true } }
  | _ => .next s

/-- ROOT_PLL_LOCK: the PLL locks at the new source and the clocks restart; a load shed keeps the tile clocks stopped. -/
def execRootPllLock (s : State) : Out :=
  match s.clk.change with
  | some .stopped =>
    .next { s with clk := { s.clk with
      change := some .locked, source := s.clk.toward, coasting := s.clk.toward == .coast, tilesStopped := s.pow.loadShed
      sub := 0 } }
  | _ => .next s

/-- The port after a change to 7.2 GHz: its lanes that are in lock receive, and both transmit. -/
def portBack (s : State) : State :=
  if s.mer.enabled then
    setPort s fun m => { m with rxM0 := s.clk.lockM0, rxM1 := s.clk.lockM1, txM0 := true, txM1 := true }
  else s

/-- A stage that waited for relock starts again from its beginning (R501). -/
def restartStage (s : State) : State :=
  match s.boot.busy with
  | some n => if n == 3 || n == 4 || n == 7 || n == 8 then startStage s n else s
  | none => s

/-- The report of a completed change: CLOCK_COAST or CLOCK_RELOCKED with its beginning and its duration; the first lock of a
bring-up raises neither (R434, R443). -/
def reportChange (s : State) : State :=
  if !s.clk.firstLock then s
  else
    let d := [s.clk.began, now s - s.clk.began]
    if s.clk.coasting then
      raise { s with clk := { s.clk with coastEntries := satAdd s.clk.coastEntries 1 65535 } } .clockCoast d
    else raise s .clockRelocked d

/-- ROOT_CHANGE_COMPLETE: the set point is switched and self-refresh exited; bulk accesses held back go on. -/
def execRootChangeComplete (s : State) : Out :=
  match s.clk.change with
  | some .locked =>
    let s := reportChange { s with clk := { s.clk with change := none }, mem := { s.mem with selfRefresh := false } }
    let s := if s.clk.coasting then s else restartStage (portBack s)
    let bulk := match s.mer.held with
      | h :: _ => (match h.2 with
        | .bulkRead _ _ _ => true
        | .bulkWrite _ _ _ => true
        | _ => false)
      | [] => false
    .next (if s.mer.blocking.isSome && bulk && s.dict.swap.isNone && s.dict.save.isNone then releaseHeld s else s)
  | _ => .next s

/-- ROOT_PLL_LOCK_TIMEOUT: the first lock of the bring-up has failed; the module coasts and tries again (R499). -/
def execRootPllLockTimeout (s : State) : Out :=
  match s.clk.change with
  | some .stopped =>
    if s.boot.busy == some 2 && s.clk.began + 10000 ≤ now s then
      let s := { s with
        clk := { s.clk with change := none, began := now s, source := .coast, coasting := true, tilesStopped := s.pow.loadShed }
        mem := { s.mem with selfRefresh := false }
        boot := { s.boot with failStage := 2, failCode := 0x21 } }
      .next (raise s .bringupFailed [2, 0x21])
    else .next s
  | _ => .next s

/-! ### Throttling (R257, R436, R437, R531) -/

/-- The tile clocks of a quarter may change: no change of root frequency, no load shed. -/
def mayThrottle (s : State) : Bool := !s.clk.tilesStopped && s.clk.change.isNone

/-- A context has tiles in a quarter. -/
def quarterUsed (s : State) (q : Nat) : Bool := s.ctxs.any fun e => (e.2.cdef.quarters s).contains q

/-- A quarter's divider on another step of the ladder. -/
def stepTo (t : Throttle) (i time : Nat) : Throttle :=
  { t with k := ladderK i, steps := satAdd t.steps 1 (2 ^ 32 - 1), deep := false, steppedAt := some time }

/-- A number of microseconds has passed since a quarter's last step: k slows by at most one step per 2 µs and speeds up by at
most one per 20 µs (R437). -/
def stepDue (s : State) (q n : Nat) : Bool := (s.quarter q).steppedAt.all fun t => t + n ≤ now s

/-- THROTTLE_STEP: k moves one step of the ladder toward its target; beyond 8 it waits for a section load or a step boundary
where a context has tiles in the quarter (R257, R437). -/
def execThrottleStep (q : Quarter) (s : State) : Out :=
  let n := quarterNum q
  let t := s.quarter n
  let target := throttleTarget s n
  if !mayThrottle s then .next s
  else if t.k < target then
    if t.k = 8 && quarterUsed s n then .next (s.modQuarter n fun t => { t with deep := true })
    else if !stepDue s n 2 then .next s
    else .next (kaWatch (s.modQuarter n fun t => stepTo t (ladderStep t.k + 1) (now s)))
  else if target < t.k then
    if stepDue s n 20 then .next (s.modQuarter n fun t => stepTo t (ladderStep t.k - 1) (now s)) else .next s
  else .next (s.modQuarter n fun t => { t with deep := false })

/-- Every context with tiles in a quarter stands at a section load or a step boundary (R257, notes/assumptions/64.md). -/
def deepPoint (s : State) (q : Nat) : Bool :=
  s.ctxs.all fun e => !(e.2.cdef.quarters s).contains q || e.2.run.phase != .running || e.2.rec_.state != 1

/-- DEEP_THROTTLE_APPLY: at a section load or step boundary of every context in the quarter a target above 8 takes effect
(R257). -/
def execDeepThrottleApply (q : Quarter) (s : State) : Out :=
  let n := quarterNum q
  let t := s.quarter n
  if !mayThrottle s || !t.deep || !deepPoint s n || !stepDue s n 2 then .next s
  else if 8 < throttleTarget s n then .next (kaWatch (s.modQuarter n fun t => stepTo t (ladderStep t.k + 1) (now s)))
  else .next (s.modQuarter n fun t => { t with deep := false })

end Sys2Proof.Machine
end

