-- ==== Sys2Proof/Machine/Queue.lean ====
section
/-! DEFINITION. The QMOV class: scalar queue access, timed queue waits, and moves between scalar and vector registers
(R50 to R55, R64, R77). -/

namespace Sys2Proof.Machine

/-- `qrecv sd, qN`: a 4 B item into a scalar register, which carries no tag (R55, R67). -/
def execQrecv (h : Hdr) (a b c : BitVec 5) (s : State) : Out :=
  issue h false (!isPort b || c != 0) s fun t => withCtx s h.t fun _ x =>
    match portsBlock s x.cdef (ckey h.t) false [portOf b] [] with
    | some k => k
    | none =>
      let i := headItem t (portOf b)
      if i.tagged then .exc 8 (srcDetail b)
      else .fin ((popItem s x.cdef h.t (portOf b)).modCore h.t fun k => k.setS a i.toWord)

/-- `qsend qN, rs`: a scalar register pushed as a 4 B item (R55). -/
def execQsend (h : Hdr) (a b c : BitVec 5) (s : State) : Out :=
  issue h false (!isPort a || c != 0) s fun t => withCtx s h.t fun n x =>
    match portsBlock s x.cdef (ckey h.t) false [] [portOf a] with
    | some k => k
    | none => .fin (pushItem s n x.cdef h.t (portOf a) (Item.word (t.core.sreg b) false))

/-- A port bound in either direction and serving no steering unit (R53, R192). -/
def portBound (t : Tile) (ch : Nat) : Bool := chUsed (t.chan ch) && !steered t ch

/-- `qcount sd, qN`: items waiting at an input or free entries of an output (R55); like any later instruction it waits
for a matrix instruction that holds the port (R100, notes/assumptions/23.md). -/
def execQcount (h : Hdr) (a b c : BitVec 5) (s : State) : Out :=
  issue h false (!isPort b || c != 0) s fun t => withCtx s h.t fun _ x =>
    let ch := portOf b
    if !portBound t ch then .exc 4 ch
    else if portHeld t ch then .stall (.portHeld ch)
    else
      let n := if chOut (t.chan ch) then chanCredit s x.cdef (ckey h.t) ch
        else (t.cst ch).store.length + (t.cst ch).binSeg.length + (t.cst ch).memSeg.length
      .fin (s.modCore h.t fun k => k.setS a (BitVec.ofNat 32 n))

/-- `qwait pd, qN, rs`: waits for an item at an input for at most the tile cycles in rs; nothing is consumed (R77). -/
def execQwait (h : Hdr) (a b c : BitVec 5) (s : State) : Out :=
  issueAny h false (8 ≤ a.toNat || !isPort b) s fun t => withCtx s h.t fun _ _ =>
    let ch := portOf b
    if !portBound t ch || chOut (t.chan ch) then .exc 4 ch
    else if portHeld t ch then .stall (.portHeld ch)
    else timedWait h s t (.queueIn ch) (hasItem t ch) (a.setWidth 3) (t.core.sreg c)

/-- `vbcast vd, rs`: a scalar register in every lane (R64). -/
def execVbcast (h : Hdr) (a b c : BitVec 5) (s : State) : Out :=
  issue h false (c != 0) s fun t => withCtx s h.t fun n x =>
    match portsBlock s x.cdef (ckey h.t) true [] (portsOf [a]) with
    | some k => k
    | none => .fin (putVec s n x.cdef h.t a { data := ofLanes (List.replicate 32 (t.core.sreg b)) })

/-- `vext sd, va, n`: lane n into a scalar register, which carries no tag (R64, R67). -/
def execVext (h : Hdr) (a b c : BitVec 5) (s : State) : Out :=
  issue h false false s fun t => withCtx s h.t fun _ x =>
    match portsBlock s x.cdef (ckey h.t) true (portsOf [b]) [] with
    | some k => k
    | none =>
      let i := srcItem t b
      if i.laneTag c.toNat then .exc 8 (srcDetail b)
      else
        .fin ((popAll s x.cdef h.t (portsOf [b])).modCore h.t fun k => k.setS a (i.data.extractLsb' (32 * c.toNat) 32))

/-- A vector with one lane replaced; its tags stay, as a masked write leaves a line's tag. -/
def Item.setLane (i : Item) (n : Nat) (w : Word) : Item := { i with data := ofLanes ((lanes i.data).set n w) }

/-- `vins vd, rs, n`: a scalar register into lane n (R64). -/
def execVins (h : Hdr) (a b c : BitVec 5) (s : State) : Out :=
  issue h false (isPort a) s fun t =>
    .fin (s.modCore h.t fun k => k.setV a.toNat ((k.vreg a.toNat).setLane c.toNat (t.core.sreg b)))

end Sys2Proof.Machine
end

