-- ==== Sys2Proof/Machine/Scalar.lean ====
section
/-! DEFINITION. The scalar instructions: SALU, SALUI, SLUI and SCMP (R50 to R52). -/

namespace Sys2Proof.Machine

/-- A register-register operation. -/
def salu (h : Hdr) (rd rs1 rs2 : BitVec 5) (f : Word → Word → Word) (s : State) : Out :=
  issue h false false s fun t =>
    .fin (s.modCore h.t fun k => k.setS rd (f (t.core.sreg rs1) (t.core.sreg rs2)))

/-- A register-immediate operation. -/
def salui (h : Hdr) (rd rs1 : BitVec 5) (imm : BitVec 11) (invalid : Bool) (f : Word → Word → Word) (s : State) : Out :=
  issue h false invalid s fun t =>
    .fin (s.modCore h.t fun k => k.setS rd (f (t.core.sreg rs1) (imm.signExtend 32)))

/-- A shift immediate is invalid unless bits 10:5 are zero (R51). -/
def shiftBad (imm : BitVec 11) : Bool := imm.extractLsb' 5 6 != 0

/-- One or zero, as a word. -/
def boolW (b : Bool) : Word := if b then 1 else 0

/-- Shift amount: bits 4:0 (R51). -/
def sh (w : Word) : Nat := w.toNat % 32

/-- Bits 63:32 of the unsigned product (R52). -/
def mulHiU (a b : Word) : Word := BitVec.ofNat 32 (a.toNat * b.toNat / 2 ^ 32)

/-- Bits 63:32 of the signed product (R52). -/
def mulHiS (a b : Word) : Word := BitVec.ofInt 32 (a.toInt * b.toInt / 2 ^ 32)

def execAdd (h : Hdr) (rd rs1 rs2 : BitVec 5) (s : State) : Out := salu h rd rs1 rs2 (· + ·) s
def execSub (h : Hdr) (rd rs1 rs2 : BitVec 5) (s : State) : Out := salu h rd rs1 rs2 (· - ·) s
def execAnd (h : Hdr) (rd rs1 rs2 : BitVec 5) (s : State) : Out := salu h rd rs1 rs2 (· &&& ·) s
def execOr (h : Hdr) (rd rs1 rs2 : BitVec 5) (s : State) : Out := salu h rd rs1 rs2 (· ||| ·) s
def execXor (h : Hdr) (rd rs1 rs2 : BitVec 5) (s : State) : Out := salu h rd rs1 rs2 (· ^^^ ·) s
def execShl (h : Hdr) (rd rs1 rs2 : BitVec 5) (s : State) : Out := salu h rd rs1 rs2 (fun a b => a <<< sh b) s
def execShr (h : Hdr) (rd rs1 rs2 : BitVec 5) (s : State) : Out := salu h rd rs1 rs2 (fun a b => a >>> sh b) s
def execSra (h : Hdr) (rd rs1 rs2 : BitVec 5) (s : State) : Out := salu h rd rs1 rs2 (fun a b => a.sshiftRight (sh b)) s
def execSlt (h : Hdr) (rd rs1 rs2 : BitVec 5) (s : State) : Out := salu h rd rs1 rs2 (fun a b => boolW (a.slt b)) s
def execSltu (h : Hdr) (rd rs1 rs2 : BitVec 5) (s : State) : Out := salu h rd rs1 rs2 (fun a b => boolW (a.ult b)) s
def execMin (h : Hdr) (rd rs1 rs2 : BitVec 5) (s : State) : Out := salu h rd rs1 rs2 (fun a b => if b.slt a then b else a) s
def execMax (h : Hdr) (rd rs1 rs2 : BitVec 5) (s : State) : Out := salu h rd rs1 rs2 (fun a b => if a.slt b then b else a) s
def execMul (h : Hdr) (rd rs1 rs2 : BitVec 5) (s : State) : Out := salu h rd rs1 rs2 (· * ·) s
def execMulhu (h : Hdr) (rd rs1 rs2 : BitVec 5) (s : State) : Out := salu h rd rs1 rs2 mulHiU s
def execMulhs (h : Hdr) (rd rs1 rs2 : BitVec 5) (s : State) : Out := salu h rd rs1 rs2 mulHiS s

def execAddi (h : Hdr) (rd rs1 : BitVec 5) (imm : BitVec 11) (s : State) : Out := salui h rd rs1 imm false (· + ·) s
def execAndi (h : Hdr) (rd rs1 : BitVec 5) (imm : BitVec 11) (s : State) : Out := salui h rd rs1 imm false (· &&& ·) s
def execOri (h : Hdr) (rd rs1 : BitVec 5) (imm : BitVec 11) (s : State) : Out := salui h rd rs1 imm false (· ||| ·) s
def execXori (h : Hdr) (rd rs1 : BitVec 5) (imm : BitVec 11) (s : State) : Out := salui h rd rs1 imm false (· ^^^ ·) s
def execShli (h : Hdr) (rd rs1 : BitVec 5) (imm : BitVec 11) (s : State) : Out :=
  salui h rd rs1 imm (shiftBad imm) (fun a b => a <<< sh b) s
def execShri (h : Hdr) (rd rs1 : BitVec 5) (imm : BitVec 11) (s : State) : Out :=
  salui h rd rs1 imm (shiftBad imm) (fun a b => a >>> sh b) s
def execSrai (h : Hdr) (rd rs1 : BitVec 5) (imm : BitVec 11) (s : State) : Out :=
  salui h rd rs1 imm (shiftBad imm) (fun a b => a.sshiftRight (sh b)) s
def execSlti (h : Hdr) (rd rs1 : BitVec 5) (imm : BitVec 11) (s : State) : Out :=
  salui h rd rs1 imm false (fun a b => boolW (a.slt b)) s

/-- `lui`: imm shifted left by 13 (R50). -/
def execLui (h : Hdr) (rd : BitVec 5) (imm : BitVec 19) (s : State) : Out :=
  issue h false false s fun _ => .fin (s.modCore h.t fun k => k.setS rd (imm.setWidth 32 <<< 13))

/-- The second operand of a compare: a register or a signed 5-bit immediate (R50). -/
def cmpSrc (t : Tile) (src2 : BitVec 5) (useImm : Bool) : Word := if useImm then src2.signExtend 32 else t.core.sreg src2

/-- A compare writes one predicate (R50). -/
def scmp (h : Hdr) (pd : BitVec 3) (rs1 src2 : BitVec 5) (useImm : Bool) (f : Word → Word → Bool) (s : State) : Out :=
  issue h false false s fun t =>
    .fin (s.modCore h.t fun k => k.setPred pd (f (t.core.sreg rs1) (cmpSrc t src2 useImm)))

def execCmpEq (h : Hdr) (pd : BitVec 3) (rs1 src2 : BitVec 5) (useImm : Bool) (s : State) : Out :=
  scmp h pd rs1 src2 useImm (fun a b => a == b) s
def execCmpNe (h : Hdr) (pd : BitVec 3) (rs1 src2 : BitVec 5) (useImm : Bool) (s : State) : Out :=
  scmp h pd rs1 src2 useImm (fun a b => a != b) s
def execCmpLt (h : Hdr) (pd : BitVec 3) (rs1 src2 : BitVec 5) (useImm : Bool) (s : State) : Out :=
  scmp h pd rs1 src2 useImm (fun a b => a.slt b) s
def execCmpGe (h : Hdr) (pd : BitVec 3) (rs1 src2 : BitVec 5) (useImm : Bool) (s : State) : Out :=
  scmp h pd rs1 src2 useImm (fun a b => !a.slt b) s
def execCmpLtu (h : Hdr) (pd : BitVec 3) (rs1 src2 : BitVec 5) (useImm : Bool) (s : State) : Out :=
  scmp h pd rs1 src2 useImm (fun a b => a.ult b) s
def execCmpGeu (h : Hdr) (pd : BitVec 3) (rs1 src2 : BitVec 5) (useImm : Bool) (s : State) : Out :=
  scmp h pd rs1 src2 useImm (fun a b => !a.ult b) s

end Sys2Proof.Machine
end

