-- ==== Sys2Proof/Machine/Dispatch.lean ====
section
/-! DEFINITION. The dispatch of commands: one arm for each constructor of Instr, each one direct call of its meaning. -/

namespace Sys2Proof.Machine

/-- The effect of a command on everything but the queue. -/
def exec (i : Instr) (s : State) : Host.Outcome State Fault Refusal :=
  match i with
  | .add h rd rs1 rs2 => Sys2Proof.Machine.execAdd h rd rs1 rs2 s
  | .sub h rd rs1 rs2 => Sys2Proof.Machine.execSub h rd rs1 rs2 s
  | .and h rd rs1 rs2 => Sys2Proof.Machine.execAnd h rd rs1 rs2 s
  | .or h rd rs1 rs2 => Sys2Proof.Machine.execOr h rd rs1 rs2 s
  | .xor h rd rs1 rs2 => Sys2Proof.Machine.execXor h rd rs1 rs2 s
  | .shl h rd rs1 rs2 => Sys2Proof.Machine.execShl h rd rs1 rs2 s
  | .shr h rd rs1 rs2 => Sys2Proof.Machine.execShr h rd rs1 rs2 s
  | .sra h rd rs1 rs2 => Sys2Proof.Machine.execSra h rd rs1 rs2 s
  | .slt h rd rs1 rs2 => Sys2Proof.Machine.execSlt h rd rs1 rs2 s
  | .sltu h rd rs1 rs2 => Sys2Proof.Machine.execSltu h rd rs1 rs2 s
  | .min h rd rs1 rs2 => Sys2Proof.Machine.execMin h rd rs1 rs2 s
  | .max h rd rs1 rs2 => Sys2Proof.Machine.execMax h rd rs1 rs2 s
  | .mul h rd rs1 rs2 => Sys2Proof.Machine.execMul h rd rs1 rs2 s
  | .mulhu h rd rs1 rs2 => Sys2Proof.Machine.execMulhu h rd rs1 rs2 s
  | .mulhs h rd rs1 rs2 => Sys2Proof.Machine.execMulhs h rd rs1 rs2 s
  | .addi h rd rs1 imm => Sys2Proof.Machine.execAddi h rd rs1 imm s
  | .andi h rd rs1 imm => Sys2Proof.Machine.execAndi h rd rs1 imm s
  | .ori h rd rs1 imm => Sys2Proof.Machine.execOri h rd rs1 imm s
  | .xori h rd rs1 imm => Sys2Proof.Machine.execXori h rd rs1 imm s
  | .shli h rd rs1 imm => Sys2Proof.Machine.execShli h rd rs1 imm s
  | .shri h rd rs1 imm => Sys2Proof.Machine.execShri h rd rs1 imm s
  | .srai h rd rs1 imm => Sys2Proof.Machine.execSrai h rd rs1 imm s
  | .slti h rd rs1 imm => Sys2Proof.Machine.execSlti h rd rs1 imm s
  | .lui h rd imm => Sys2Proof.Machine.execLui h rd imm s
  | .cmpEq h pd rs1 src2 useImm => Sys2Proof.Machine.execCmpEq h pd rs1 src2 useImm s
  | .cmpNe h pd rs1 src2 useImm => Sys2Proof.Machine.execCmpNe h pd rs1 src2 useImm s
  | .cmpLt h pd rs1 src2 useImm => Sys2Proof.Machine.execCmpLt h pd rs1 src2 useImm s
  | .cmpGe h pd rs1 src2 useImm => Sys2Proof.Machine.execCmpGe h pd rs1 src2 useImm s
  | .cmpLtu h pd rs1 src2 useImm => Sys2Proof.Machine.execCmpLtu h pd rs1 src2 useImm s
  | .cmpGeu h pd rs1 src2 useImm => Sys2Proof.Machine.execCmpGeu h pd rs1 src2 useImm s
  | .br h off => Sys2Proof.Machine.execBr h off s
  | .call h off => Sys2Proof.Machine.execCall h off s
  | .jr h rs => Sys2Proof.Machine.execJr h rs s
  | .ret h => Sys2Proof.Machine.execRet h s
  | .loop h ck immCount body count => Sys2Proof.Machine.execLoop h ck immCount body count s
  | .ld32 h r base off => Sys2Proof.Machine.execLd32 h r base off s
  | .ld16u h r base off => Sys2Proof.Machine.execLd16u h r base off s
  | .ld16s h r base off => Sys2Proof.Machine.execLd16s h r base off s
  | .ld8u h r base off => Sys2Proof.Machine.execLd8u h r base off s
  | .ld8s h r base off => Sys2Proof.Machine.execLd8s h r base off s
  | .st32 h r base off => Sys2Proof.Machine.execSt32 h r base off s
  | .st16 h r base off => Sys2Proof.Machine.execSt16 h r base off s
  | .st8 h r base off => Sys2Proof.Machine.execSt8 h r base off s
  | .vld h v base off => Sys2Proof.Machine.execVld h v base off s
  | .vst h v base off => Sys2Proof.Machine.execVst h v base off s
  | .vadd h vd va vb => Sys2Proof.Machine.execVadd h vd va vb s
  | .vsub h vd va vb => Sys2Proof.Machine.execVsub h vd va vb s
  | .vmul h vd va vb => Sys2Proof.Machine.execVmul h vd va vb s
  | .vfma h vd va vb => Sys2Proof.Machine.execVfma h vd va vb s
  | .vfms h vd va vb => Sys2Proof.Machine.execVfms h vd va vb s
  | .vmax h vd va vb => Sys2Proof.Machine.execVmax h vd va vb s
  | .vmin h vd va vb => Sys2Proof.Machine.execVmin h vd va vb s
  | .vabs h vd va vb => Sys2Proof.Machine.execVabs h vd va vb s
  | .vneg h vd va vb => Sys2Proof.Machine.execVneg h vd va vb s
  | .vcmplt h vd va vb => Sys2Proof.Machine.execVcmplt h vd va vb s
  | .vcmpeq h vd va vb => Sys2Proof.Machine.execVcmpeq h vd va vb s
  | .vsel h vd va vb => Sys2Proof.Machine.execVsel h vd va vb s
  | .vand h vd va vb => Sys2Proof.Machine.execVand h vd va vb s
  | .vor h vd va vb => Sys2Proof.Machine.execVor h vd va vb s
  | .vxor h vd va vb => Sys2Proof.Machine.execVxor h vd va vb s
  | .vmov h vd va vb => Sys2Proof.Machine.execVmov h vd va vb s
  | .vaddi h vd va vb => Sys2Proof.Machine.execVaddi h vd va vb s
  | .vsubi h vd va vb => Sys2Proof.Machine.execVsubi h vd va vb s
  | .vexp h vd va dfmt sfmt => Sys2Proof.Machine.execVexp h vd va dfmt sfmt s
  | .vlog h vd va dfmt sfmt => Sys2Proof.Machine.execVlog h vd va dfmt sfmt s
  | .vrsqrt h vd va dfmt sfmt => Sys2Proof.Machine.execVrsqrt h vd va dfmt sfmt s
  | .vrcp h vd va dfmt sfmt => Sys2Proof.Machine.execVrcp h vd va dfmt sfmt s
  | .vredsum h vd va dfmt sfmt => Sys2Proof.Machine.execVredsum h vd va dfmt sfmt s
  | .vredmax h vd va dfmt sfmt => Sys2Proof.Machine.execVredmax h vd va dfmt sfmt s
  | .vredmin h vd va dfmt sfmt => Sys2Proof.Machine.execVredmin h vd va dfmt sfmt s
  | .vcvt h vd va dfmt sfmt => Sys2Proof.Machine.execVcvt h vd va dfmt sfmt s
  | .vcvtsr h vd va dfmt sfmt => Sys2Proof.Machine.execVcvtsr h vd va dfmt sfmt s
  | .qrecv h a b c => Sys2Proof.Machine.execQrecv h a b c s
  | .qsend h a b c => Sys2Proof.Machine.execQsend h a b c s
  | .qcount h a b c => Sys2Proof.Machine.execQcount h a b c s
  | .qwait h a b c => Sys2Proof.Machine.execQwait h a b c s
  | .vbcast h a b c => Sys2Proof.Machine.execVbcast h a b c s
  | .vext h a b c => Sys2Proof.Machine.execVext h a b c s
  | .vins h a b c => Sys2Proof.Machine.execVins h a b c s
  | .mcfgFormat h rs => Sys2Proof.Machine.execMcfgFormat h rs s
  | .mcfgDrain h rs => Sys2Proof.Machine.execMcfgDrain h rs s
  | .mcfgElementBase h rs => Sys2Proof.Machine.execMcfgElementBase h rs s
  | .mld h rs q port => Sys2Proof.Machine.execMld h rs q port s
  | .mswap h => Sys2Proof.Machine.execMswap h s
  | .mmul h rs rt tr z q port => Sys2Proof.Machine.execMmul h rs rt tr z q port s
  | .mdrain h rs rt tr clr q port => Sys2Proof.Machine.execMdrain h rs rt tr clr q port s
  | .msync h => Sys2Proof.Machine.execMsync h s
  | .mramp h level => Sys2Proof.Machine.execMramp h level s
  | .dma h rs => Sys2Proof.Machine.execDma h rs s
  | .dwait h k rs => Sys2Proof.Machine.execDwait h k rs s
  | .dwaitt h k pd rs rt => Sys2Proof.Machine.execDwaitt h k pd rs rt s
  | .dclr h k => Sys2Proof.Machine.execDclr h k s
  | .msend h v rs => Sys2Proof.Machine.execMsend h v rs s
  | .mrecv h v rs => Sys2Proof.Machine.execMrecv h v rs s
  | .mwait h pd rs rt => Sys2Proof.Machine.execMwait h pd rs rt s
  | .nop h => Sys2Proof.Machine.execNop h s
  | .csrr h r csr => Sys2Proof.Machine.execCsrr h r csr s
  | .csrw h r csr => Sys2Proof.Machine.execCsrw h r csr s
  | .fallow h => Sys2Proof.Machine.execFallow h s
  | .stepend h => Sys2Proof.Machine.execStepend h s
  | .secend h => Sys2Proof.Machine.execSecend h s
  | .gatherWritebackTimeout t line => Sys2Proof.Machine.execGatherWritebackTimeout t line s
  | .binScrubRead t => Sys2Proof.Machine.execBinScrubRead t s
  | .binSpaceAccessArrive f => Sys2Proof.Machine.execBinSpaceAccessArrive f s
  | .dmaTransactionIssue t d => Sys2Proof.Machine.execDmaTransactionIssue t d s
  | .dmaReplyArrive f => Sys2Proof.Machine.execDmaReplyArrive f s
  | .dmaErrorReplyArrive f => Sys2Proof.Machine.execDmaErrorReplyArrive f s
  | .messageArrive f => Sys2Proof.Machine.execMessageArrive f s
  | .messageCreditArrive f => Sys2Proof.Machine.execMessageCreditArrive f s
  | .timedWaitExpiry t => Sys2Proof.Machine.execTimedWaitExpiry t s
  | .matrixDispatch t => Sys2Proof.Machine.execMatrixDispatch t s
  | .mldComplete t => Sys2Proof.Machine.execMldComplete t s
  | .mmulRowEnter t => Sys2Proof.Machine.execMmulRowEnter t s
  | .witnessVerdict t upset mismatch => Sys2Proof.Machine.execWitnessVerdict t upset mismatch s
  | .accumulatorUpdate t => Sys2Proof.Machine.execAccumulatorUpdate t s
  | .mdrainRowRead t => Sys2Proof.Machine.execMdrainRowRead t s
  | .arrayLevelStep t => Sys2Proof.Machine.execArrayLevelStep t s
  | .dummyPass t upset => Sys2Proof.Machine.execDummyPass t upset s
  | .moveQuiesced t => Sys2Proof.Machine.execMoveQuiesced t s
  | .binCopyComplete t => Sys2Proof.Machine.execBinCopyComplete t s
  | .moveResume t => Sys2Proof.Machine.execMoveResume t s
  | .channelItemArrive f => Sys2Proof.Machine.execChannelItemArrive f s
  | .channelCreditArrive f => Sys2Proof.Machine.execChannelCreditArrive f s
  | .tokenPass t u => Sys2Proof.Machine.execTokenPass t u s
  | .tokenDrop t u => Sys2Proof.Machine.execTokenDrop t u s
  | .tokenRepeat t u => Sys2Proof.Machine.execTokenRepeat t u s
  | .steerItemMove t u => Sys2Proof.Machine.execSteerItemMove t u s
  | .sectionEnd c reds errs => Sys2Proof.Machine.execSectionEnd c reds errs s
  | .sectionEntry t => Sys2Proof.Machine.execSectionEntry t s
  | .blockedReport t => Sys2Proof.Machine.execBlockedReport t s
  | .waitGraphReport t => Sys2Proof.Machine.execWaitGraphReport t s
  | .spillOrder c => Sys2Proof.Machine.execSpillOrder c s
  | .spillEnter t ch => Sys2Proof.Machine.execSpillEnter t ch s
  | .spillTransferComplete t ch => Sys2Proof.Machine.execSpillTransferComplete t ch s
  | .contextPauseRequest m c v => Sys2Proof.Machine.execContextPauseRequest m c v s
  | .contextResumeRequest m c v => Sys2Proof.Machine.execContextResumeRequest m c v s
  | .contextPauseReached c => Sys2Proof.Machine.execContextPauseReached c s
  | .pauseDeadlineExpiry c => Sys2Proof.Machine.execPauseDeadlineExpiry c s
  | .fallowGapLate t => Sys2Proof.Machine.execFallowGapLate t s
  | .flitForward f => Sys2Proof.Machine.execFlitForward f s
  | .flitHopNak f err => Sys2Proof.Machine.execFlitHopNak f err s
  | .escapeTablesLoaded => Sys2Proof.Machine.execEscapeTablesLoaded s
  | .flitAgeTick f => Sys2Proof.Machine.execFlitAgeTick f s
  | .escapeEntry f => Sys2Proof.Machine.execEscapeEntry f s
  | .injectionThrottleOnset t cls => Sys2Proof.Machine.execInjectionThrottleOnset t cls s
  | .injectionThrottleLift t cls => Sys2Proof.Machine.execInjectionThrottleLift t cls s
  | .managementPacketAccept f => Sys2Proof.Machine.execManagementPacketAccept f s
  | .barrierArrive t => Sys2Proof.Machine.execBarrierArrive t s
  | .barrierRelease c => Sys2Proof.Machine.execBarrierRelease c s
  | .circuitEnable n path => Sys2Proof.Machine.execCircuitEnable n path s
  | .circuitFlitCopy f => Sys2Proof.Machine.execCircuitFlitCopy f s
  | .reduceCombine t e => Sys2Proof.Machine.execReduceCombine t e s
  | .bcastCopy t e => Sys2Proof.Machine.execBcastCopy t e s
  | .bcastCredit t e => Sys2Proof.Machine.execBcastCredit t e s
  | .throttleStep q => Sys2Proof.Machine.execThrottleStep q s
  | .deepThrottleApply q => Sys2Proof.Machine.execDeepThrottleApply q s
  | .granaryRequestAccept f => Sys2Proof.Machine.execGranaryRequestAccept f s
  | .granaryLineRead x errs => Sys2Proof.Machine.execGranaryLineRead x errs s
  | .granaryRowWrite x errs => Sys2Proof.Machine.execGranaryRowWrite x errs s
  | .channelResponseTimeout ch => Sys2Proof.Machine.execChannelResponseTimeout ch s
  | .channelRetire ch drift => Sys2Proof.Machine.execChannelRetire ch drift s
  | .granaryScrubRow stripe errs => Sys2Proof.Machine.execGranaryScrubRow stripe errs s
  | .pageCopyComplete c page errs => Sys2Proof.Machine.execPageCopyComplete c page errs s
  | .stepBoundaryBegin c => Sys2Proof.Machine.execStepBoundaryBegin c s
  | .versionCommit c => Sys2Proof.Machine.execVersionCommit c s
  | .tallySeal c damaged => Sys2Proof.Machine.execTallySeal c damaged s
  | .stepStart c => Sys2Proof.Machine.execStepStart c s
  | .captureLineDigest t => Sys2Proof.Machine.execCaptureLineDigest t s
  | .tallyEntryEvict t => Sys2Proof.Machine.execTallyEntryEvict t s
  | .linkFrameSlot l => Sys2Proof.Machine.execLinkFrameSlot l s
  | .linkFrameReceive l fr => Sys2Proof.Machine.execLinkFrameReceive l fr s
  | .linkNakResend l down => Sys2Proof.Machine.execLinkNakResend l down s
  | .linkAckTimer l => Sys2Proof.Machine.execLinkAckTimer l s
  | .linkLaneFailed l tx lane => Sys2Proof.Machine.execLinkLaneFailed l tx lane s
  | .wavelengthFail l tx cause w => Sys2Proof.Machine.execWavelengthFail l tx cause w s
  | .laneMapReceive l m => Sys2Proof.Machine.execLaneMapReceive l m s
  | .laneMapSwitch l tx => Sys2Proof.Machine.execLaneMapSwitch l tx s
  | .linkDeliveredSeqReport l seq => Sys2Proof.Machine.execLinkDeliveredSeqReport l seq s
  | .remoteRequestArrive l pk => Sys2Proof.Machine.execRemoteRequestArrive l pk s
  | .remoteReplyArrive l pk errs => Sys2Proof.Machine.execRemoteReplyArrive l pk errs s
  | .linkFallbackAgeTick k => Sys2Proof.Machine.execLinkFallbackAgeTick k s
  | .hallBarrierArrive c child => Sys2Proof.Machine.execHallBarrierArrive c child s
  | .hallBarrierRelease c => Sys2Proof.Machine.execHallBarrierRelease c s
  | .barrierTimeoutExpiry c => Sys2Proof.Machine.execBarrierTimeoutExpiry c s
  | .collectiveChunkArrive pk errs => Sys2Proof.Machine.execCollectiveChunkArrive pk errs s
  | .collectiveTimeoutExpiry c e errs => Sys2Proof.Machine.execCollectiveTimeoutExpiry c e errs s
  | .linkTrainComplete l latency far => Sys2Proof.Machine.execLinkTrainComplete l latency far s
  | .admissionStart m v => Sys2Proof.Machine.execAdmissionStart m v s
  | .admissionCancel m v => Sys2Proof.Machine.execAdmissionCancel m v s
  | .admissionLoadDone => Sys2Proof.Machine.execAdmissionLoadDone s
  | .admissionReplayDone donor => Sys2Proof.Machine.execAdmissionReplayDone donor s
  | .admitTimeoutExpiry => Sys2Proof.Machine.execAdmitTimeoutExpiry s
  | .fallowSlot => Sys2Proof.Machine.execFallowSlot s
  | .fallowTestComplete p r => Sys2Proof.Machine.execFallowTestComplete p r s
  | .backgroundTestComplete p r => Sys2Proof.Machine.execBackgroundTestComplete p r s
  | .healthInput p src => Sys2Proof.Machine.execHealthInput p src s
  | .healthScoreHalving p => Sys2Proof.Machine.execHealthScoreHalving p s
  | .probationDelayExpiry p => Sys2Proof.Machine.execProbationDelayExpiry p s
  | .probationRetestComplete p r => Sys2Proof.Machine.execProbationRetestComplete p r s
  | .marginCheckComplete die results => Sys2Proof.Machine.execMarginCheckComplete die results s
  | .gazetteerWrite => Sys2Proof.Machine.execGazetteerWrite s
  | .fsrAck m v => Sys2Proof.Machine.execFsrAck m v s
  | .hangWindowExpiry c => Sys2Proof.Machine.execHangWindowExpiry c s
  | .stallWindowExpiry c => Sys2Proof.Machine.execStallWindowExpiry c s
  | .contextStopOrder c e errs => Sys2Proof.Machine.execContextStopOrder c e errs s
  | .contextResetComplete c recordReadable => Sys2Proof.Machine.execContextResetComplete c recordReadable s
  | .contextRestartEntry c reds => Sys2Proof.Machine.execContextRestartEntry c reds s
  | .txnDeadlineExpiry x errs => Sys2Proof.Machine.execTxnDeadlineExpiry x errs s
  | .recoveryHoldSend c => Sys2Proof.Machine.execRecoveryHoldSend c s
  | .recoveryHoldReceive job => Sys2Proof.Machine.execRecoveryHoldReceive job s
  | .recoveryHoldLapse job => Sys2Proof.Machine.execRecoveryHoldLapse job s
  | .contextResetCommand m c v => Sys2Proof.Machine.execContextResetCommand m c v s
  | .contextRestart m c v => Sys2Proof.Machine.execContextRestart m c v s
  | .contextRollbackCommand m c v => Sys2Proof.Machine.execContextRollbackCommand m c v s
  | .partitionReset m v => Sys2Proof.Machine.execPartitionReset m v s
  | .moduleResetWarm m v => Sys2Proof.Machine.execModuleResetWarm m v s
  | .moduleResetCold m v => Sys2Proof.Machine.execModuleResetCold m v s
  | .moduleResetClear m v => Sys2Proof.Machine.execModuleResetClear m v s
  | .contextCreate m c v reds => Sys2Proof.Machine.execContextCreate m c v reds s
  | .contextEnd m c v => Sys2Proof.Machine.execContextEnd m c v s
  | .tallyAck m c v => Sys2Proof.Machine.execTallyAck m c v s
  | .odRead m idx sub off => Sys2Proof.Machine.execOdRead m idx sub off s
  | .odWrite m idx sub off data => Sys2Proof.Machine.execOdWrite m idx sub off data s
  | .bulkRead m addr len errs => Sys2Proof.Machine.execBulkRead m addr len errs s
  | .bulkWrite m addr data errs => Sys2Proof.Machine.execBulkWrite m addr data errs s
  | .stepEpoch m step sel who => Sys2Proof.Machine.execStepEpoch m step sel who s
  | .heartbeat m n => Sys2Proof.Machine.execHeartbeat m n s
  | .eventDeliver => Sys2Proof.Machine.execEventDeliver s
  | .meridianFrameReceive fr => Sys2Proof.Machine.execMeridianFrameReceive fr s
  | .meridianNakResend => Sys2Proof.Machine.execMeridianNakResend s
  | .meridianAckTimer => Sys2Proof.Machine.execMeridianAckTimer s
  | .meridianLaneFail rx m1 cause => Sys2Proof.Machine.execMeridianLaneFail rx m1 cause s
  | .meridianLaneRejoin rx m1 seq => Sys2Proof.Machine.execMeridianLaneRejoin rx m1 seq s
  | .meridianRestartReceive => Sys2Proof.Machine.execMeridianRestartReceive s
  | .refLockLoss m1 => Sys2Proof.Machine.execRefLockLoss m1 s
  | .refReady m1 => Sys2Proof.Machine.execRefReady m1 s
  | .holdoverExpiry ready => Sys2Proof.Machine.execHoldoverExpiry ready s
  | .relockTimerExpiry m1 => Sys2Proof.Machine.execRelockTimerExpiry m1 s
  | .rootChangeStart => Sys2Proof.Machine.execRootChangeStart s
  | .rootClocksStopped => Sys2Proof.Machine.execRootClocksStopped s
  | .rootPllLock => Sys2Proof.Machine.execRootPllLock s
  | .rootChangeComplete => Sys2Proof.Machine.execRootChangeComplete s
  | .setSwap m v => Sys2Proof.Machine.execSetSwap m v s
  | .setRevert m v => Sys2Proof.Machine.execSetRevert m v s
  | .setSave m v => Sys2Proof.Machine.execSetSave m v s
  | .setDefaults m v => Sys2Proof.Machine.execSetDefaults m v s
  | .swapFlashVerified ok => Sys2Proof.Machine.execSwapFlashVerified ok s
  | .swapEraseComplete => Sys2Proof.Machine.execSwapEraseComplete s
  | .saveFlashVerified ok => Sys2Proof.Machine.execSaveFlashVerified ok s
  | .legendOdRead tag idx sub off => Sys2Proof.Machine.execLegendOdRead tag idx sub off s
  | .legendOdWrite tag idx sub => Sys2Proof.Machine.execLegendOdWrite tag idx sub s
  | .legendHeartbeatReceive src => Sys2Proof.Machine.execLegendHeartbeatReceive src s
  | .legendHeartbeatSend => Sys2Proof.Machine.execLegendHeartbeatSend s
  | .fieldManagerExpiry => Sys2Proof.Machine.execFieldManagerExpiry s
  | .legendEventSend => Sys2Proof.Machine.execLegendEventSend s
  | .fieldDatagramDrop => Sys2Proof.Machine.execFieldDatagramDrop s
  | .fieldPairFault k dist level => Sys2Proof.Machine.execFieldPairFault k dist level s
  | .fieldPairFaultEnd => Sys2Proof.Machine.execFieldPairFaultEnd s
  | .fieldTxRetry clear => Sys2Proof.Machine.execFieldTxRetry clear s
  | .stageS0 railsGood => Sys2Proof.Machine.execStageS0 railsGood s
  | .stageS1 imageOk seedOk => Sys2Proof.Machine.execStageS1 imageOk seedOk s
  | .stageS2 => Sys2Proof.Machine.execStageS2 s
  | .stageS3 imageOk selfTestOk untrained => Sys2Proof.Machine.execStageS3 imageOk selfTestOk untrained s
  | .stageS4 contentOk results badLinks => Sys2Proof.Machine.execStageS4 contentOk results badLinks s
  | .stageS5 contentOk => Sys2Proof.Machine.execStageS5 contentOk s
  | .stageS6 imageOk => Sys2Proof.Machine.execStageS6 imageOk s
  | .fwBroadcastRound => Sys2Proof.Machine.execFwBroadcastRound s
  | .tileFwReport p r => Sys2Proof.Machine.execTileFwReport p r s
  | .fwRoundTimeout => Sys2Proof.Machine.execFwRoundTimeout s
  | .stageS7 imageOk kaOk granaryOk badTiles badWl => Sys2Proof.Machine.execStageS7 imageOk kaOk granaryOk badTiles badWl s
  | .stageS8 => Sys2Proof.Machine.execStageS8 s
  | .stageS9 => Sys2Proof.Machine.execStageS9 s
  | .stageLimitExpiry => Sys2Proof.Machine.execStageLimitExpiry s
  | .bringupAdvance m v => Sys2Proof.Machine.execBringupAdvance m v s
  | .bringupHold m v => Sys2Proof.Machine.execBringupHold m v s
  | .bringupRetry m v => Sys2Proof.Machine.execBringupRetry m v s
  | .rebuildGazetteer m v => Sys2Proof.Machine.execRebuildGazetteer m v s
  | .watchdogSelfFeed => Sys2Proof.Machine.execWatchdogSelfFeed s
  | .watchdogExpiry => Sys2Proof.Machine.execWatchdogExpiry s
  | .fwProgram m v => Sys2Proof.Machine.execFwProgram m v s
  | .fwProgramComplete readBack => Sys2Proof.Machine.execFwProgramComplete readBack s
  | .fwConfirm m v => Sys2Proof.Machine.execFwConfirm m v s
  | .fwPreferOther m v => Sys2Proof.Machine.execFwPreferOther m v s
  | .fwRecoveryImage m off data => Sys2Proof.Machine.execFwRecoveryImage m off data s
  | .kaMeasureStart m v => Sys2Proof.Machine.execKaMeasureStart m v s
  | .kaMeasureCancel m v => Sys2Proof.Machine.execKaMeasureCancel m v s
  | .kaWorkloadComplete value invalid measured => Sys2Proof.Machine.execKaWorkloadComplete value invalid measured s
  | .secChallengeRead m off => Sys2Proof.Machine.execSecChallengeRead m off s
  | .secNonceExpiry => Sys2Proof.Machine.execSecNonceExpiry s
  | .tokenDebugUnlock m off data => Sys2Proof.Machine.execTokenDebugUnlock m off data s
  | .tokenKeyInstall m off data => Sys2Proof.Machine.execTokenKeyInstall m off data s
  | .tokenKeyRevoke m off data => Sys2Proof.Machine.execTokenKeyRevoke m off data s
  | .rollbackCommit m v => Sys2Proof.Machine.execRollbackCommit m v s
  | .debugLock m v => Sys2Proof.Machine.execDebugLock m v s
  | .debugTileAccess t halt wr => Sys2Proof.Machine.execDebugTileAccess t halt wr s
  | .attestRequest m off data => Sys2Proof.Machine.execAttestRequest m off data s
  | .attestSignComplete => Sys2Proof.Machine.execAttestSignComplete s
  | .inputPowerOn mv => Sys2Proof.Machine.execInputPowerOn mv s
  | .powerSample mv watts warn => Sys2Proof.Machine.execPowerSample mv watts warn s
  | .powerShed cause => Sys2Proof.Machine.execPowerShed cause s
  | .tallyTailWrite => Sys2Proof.Machine.execTallyTailWrite s
  | .railFault r => Sys2Proof.Machine.execRailFault r s
  | .coolantSample inlet outlet flow => Sys2Proof.Machine.execCoolantSample inlet outlet flow s
  | .coolantShedRestart => Sys2Proof.Machine.execCoolantShedRestart s
  | .junctionSample quarters others => Sys2Proof.Machine.execJunctionSample quarters others s
  | .epochWaitExpiry c => Sys2Proof.Machine.execEpochWaitExpiry c s
  | .rootPllLockTimeout => Sys2Proof.Machine.execRootPllLockTimeout s
  | .stewardMemoryError double => Sys2Proof.Machine.execStewardMemoryError double s
  | .icmpv6Request echo src => Sys2Proof.Machine.execIcmpv6Request echo src s
  | .reservedTypeMessage m ty => Sys2Proof.Machine.execReservedTypeMessage m ty s
  | .admissionHandshake job src step => Sys2Proof.Machine.execAdmissionHandshake job src step s
  | .rollbackCommitted => Sys2Proof.Machine.execRollbackCommitted s

end Sys2Proof.Machine
end

