-- ==== Sys2Proof/Machine/Tick.lean ====
section
/-! DEFINITION. What one cycle of the root clock does when no command waits (R20, R31, R46, R432; notes/assumptions/6.md). -/

namespace Sys2Proof.Machine

/-- Root cycles in a microsecond of the steward time base: 7.2 GHz, or 2.4 GHz coasting (R432). -/
def cyclesPerUs (c : Clocks) : Nat := if c.coasting then 2400 else 7200

/-- One root cycle of a quarter's divider: a tile cycle every 5 k root cycles (R31, R46). -/
def Throttle.tick (q : Throttle) : Throttle :=
  if 5 * q.k ≤ q.phase + 1 then { q with phase := 0, cycles := q.cycles + 1 } else { q with phase := q.phase + 1 }

/-- The four quarters of the clock tree after one root cycle. -/
def tickQuarters (c : Clocks) : AMap Throttle :=
  if c.tilesStopped then c.qs else (List.range 4).foldl (fun m i => mmod m {} i Throttle.tick) c.qs

/-- Quarters that a rectangle touches. -/
def quartersOf (s : State) (d : CtxDef) : List Nat :=
  let m := gridW s / 2
  (List.range 4).filter fun q =>
    (if q % 2 = 0 then d.x0 < m else m < d.x0 + d.w) && (if q / 2 = 0 then d.y0 < 24 else 24 < d.y0 + d.h)

/-- This root cycle ends with an edge of the tile clock of the slowest quarter that a context occupies (R20). -/
def slowEdge (s : State) (d : CtxDef) : Bool :=
  let l := (quartersOf s d).map (mget s.clk.qs {})
  let k := l.foldl (fun m q => max m q.k) 0
  !s.clk.tilesStopped && l.any fun q => q.k = k && 5 * k ≤ q.phase + 1

/-- The count of tile cycles of its slowest quarter, for every context (R20). The stall window starts anew with any activity, and an
interval that does not count moves its start (R372). -/
def tickCtx (s : State) (c : Nat) (x : Ctx) : Ctx :=
  if slowEdge s x.cdef then
    let r := x.rec_
    let m := ctxActivity s c x
    { x with rec_ := { r with
        slow := r.slow + 1
        mark := m
        activeAt := if m ≠ r.mark then r.slow + 1 else if r.state != 1 || stallExempt s c x then r.activeAt + 1 else r.activeAt } }
  else x

/-- One root cycle. A module that is dark has no root clock. -/
def tick (s : State) : State :=
  if s.pow.dark then s
  else
    let c := s.clk
    let wrap := cyclesPerUs c ≤ c.sub + 1
    { s with
      ctxs := s.ctxs.map fun e => (e.1, tickCtx s e.1 e.2)
      clk :=
        { c with
          root := c.root + 1
          sub := if wrap then 0 else c.sub + 1
          timeUs := if wrap then c.timeUs + 1 else c.timeUs
          qs := tickQuarters c } }

/-- What the block does of itself while no command waits: a message held back takes effect if it now can, pages of a copy that
waited for room in their share are requested, what waits at the Meridian port is sent, and the root clock advances one cycle
(R275, R423, R426; notes/assumptions/6.md). -/
def idle (s : State) : State := tick (pumpMer (pumpCopies (retryHeld s)))

end Sys2Proof.Machine
end

