-- ==== Sys2Proof/Safety.lean ====
section
/-! DEFINITION. What counts as a safe state and a safe step, and the terms in which the statements speak of the machine: an
instruction that issues, a core moved past an instruction, a flit that has arrived. -/

namespace Sys2Proof.Machine

/-- A step that goes on. -/
def Goes (o : Out) : Prop := ∃ t, o = .next t

/-- Local memory is in canonical form: what every meaning keeps (R261). -/
def State.Canonical (s : State) : Prop := Memory.wf s = true

/-- The core of a tile. -/
abbrev coreAt (s : State) (p : Coord) : Core := (s.tile (ckey p)).core

/-- The instruction of a header issues and has its effect: the tile may issue, no timed wait stands, the bits its mnemonic does
not use are zero, its guard holds and the word at pc is no reserved one (R42, R48, R52, R77). -/
abbrev Issues (s : State) (h : Hdr) : Prop :=
  canIssue s h.t = true ∧ (coreAt s h.t).timed = none ∧ h.unused = 0 ∧ (coreAt s h.t).guard h = true ∧
  (coreAt s h.t).reservedWord = none

/-- The index after the present instruction, loops counted, lies in instruction memory (R56, R57). -/
abbrev Core.fits (k : Core) : Prop := (advFrames k.loops k.c k.pc.toNat).2.2 < 8192

/-- The core moved past its present instruction, loops counted (R57, R58). -/
def Core.past (k : Core) : Core :=
  { k with
    loops := (advFrames k.loops k.c k.pc.toNat).1
    c := (advFrames k.loops k.c k.pc.toNat).2.1
    pc := BitVec.ofNat 13 (advFrames k.loops k.c k.pc.toNat).2.2
    wait := none
    issued := k.issued + 1 }

/-- The state after a vector instruction that pops its source ports, raises flags and gives a result to its destination, moved past
it (R54, R61). -/
def afterVec (s : State) (h : Hdr) (c : Nat) (x : Ctx) (srcs : List (BitVec 5)) (vd fl : BitVec 5) (i : Item) : State :=
  advance (putVec ((popAll s x.cdef h.t (portsOf srcs)).modCore h.t fun k => k.addFlags fl) c x.cdef h.t vd i) h.t

/-- The exception of a vector instruction whose operand field names a poisoned register or queue item (R67, R84). -/
def vecPoison (s : State) (h : Hdr) (f : BitVec 5) : State :=
  takeExc s h.t 8 (coreAt s h.t).pc.toNat true (if isPort f then 2 ^ 26 + (f.toNat - 16) else 2 ^ 27 + f.toNat)

/-- The byte of a physical bin line that an access sees: the pending byte of its gather entry, else the stored one (R165, R167). -/
def Bin.visible (b : Bin) (p i : Nat) : Byte :=
  match b.gatherOf p with
  | some g => if g.mask.getLsbD i then BitVec.ofNat 8 (g.data.toNat / 256 ^ i) else cellGet b.data (64 * p + i)
  | none => cellGet b.data (64 * p + i)

/-- Nothing of the machine but the tile at a key differs. -/
abbrev OnlyTile (s t : State) (k : Nat) : Prop := t = s.setTile k (t.tile k)

/-- No trace capture records the tile's bin traffic (R171, R172). -/
abbrev Untraced (s : State) (p : Coord) : Prop := ∀ c x, ctxAt s p = some (c, x) → traceOn c x = false

/-- Nothing of a tile waits for room at its port: no credit, staged line, trace record, report or spilled item (R255). -/
abbrev Tile.portClear (t : Tile) : Prop :=
  t.owed = [] ∧ t.bin.staging = [] ∧ t.bin.trace = [] ∧ t.unreport = false ∧ (t.chst.any fun e => e.2.spilling) = false

/-- The issuing tile belongs to a live context of that number. -/
abbrev InCtx (s : State) (p : Coord) (c : Nat) (x : Ctx) : Prop := ctxAt s p = some (c, x)

/-- A well-formed message with the expected MSG_SEQ reaches a port that carries messages, and no earlier one waits (R424 to
R426). -/
abbrev Heard (s : State) (m : MsgHdr) : Prop :=
  portUp s = true ∧ m.seq = s.mer.msgSeq ∧ m.malformed = false ∧ s.mer.blocking = none ∧ s.mer.held = []

/-- The answer of success to a word written to an entry (R425, R426). -/
def answered (s : State) (m : MsgHdr) (idx sub : Nat) : State := accepted s m (.write idx sub 0 [] [])

end Sys2Proof.Machine
end

