-- ==== Sys2Proof/Certificates/Slice0/Obligations.lean ====
section
/-! DEFINITION. The statements for the provers. Where several parts make one statement, each part is a proposition under
`Sys2Proof.Claims` and the statement is all of them together. -/

open Sys2Proof Sys2Proof.Machine

/-! ### The queue -/

/-- A step with a command at the front of the queue runs that command on the state with the queue's rest. The model's
readings of what the rules leave open here: log entry 81. -/
def Obligations.StepRunsFront : Prop :=
  ∀ (s : State) (c : Instr) (rest : List Instr), s.pending = c :: rest → step s = exec c { s with pending := rest }

/-! ### Furrow: scalar instructions, branches and loops -/

/-- R50, R51, R52: each register-register operation writes its destination with the value its row gives, every other
register, flag, loop, tile and byte of memory stays, and the program counter moves past it. Values are written as integer
arithmetic. -/
def Sys2Proof.Claims.ScalarRegisterResults : Prop :=
  ∀ (s : State) (h : Hdr) (rd rs1 rs2 : BitVec 5) (a b : Word),
    Issues s h → (coreAt s h.t).fits → a = (coreAt s h.t).sreg rs1 → b = (coreAt s h.t).sreg rs2 →
    ∀ r ∈ [(Instr.add h rd rs1 rs2, BitVec.ofInt 32 (a.toInt + b.toInt)),
           (Instr.sub h rd rs1 rs2, BitVec.ofInt 32 (a.toInt - b.toInt)),
           (Instr.and h rd rs1 rs2, BitVec.ofNat 32 (a.toNat &&& b.toNat)),
           (Instr.or h rd rs1 rs2, BitVec.ofNat 32 (a.toNat ||| b.toNat)),
           (Instr.xor h rd rs1 rs2, BitVec.ofNat 32 (a.toNat ^^^ b.toNat)),
           (Instr.shl h rd rs1 rs2, BitVec.ofNat 32 (a.toNat * 2 ^ (b.toNat % 32))),
           (Instr.shr h rd rs1 rs2, BitVec.ofNat 32 (a.toNat / 2 ^ (b.toNat % 32))),
           (Instr.sra h rd rs1 rs2, BitVec.ofInt 32 (a.toInt / 2 ^ (b.toNat % 32))),
           (Instr.slt h rd rs1 rs2, if a.toInt < b.toInt then 1#32 else 0#32),
           (Instr.sltu h rd rs1 rs2, if a.toNat < b.toNat then 1#32 else 0#32),
           (Instr.min h rd rs1 rs2, BitVec.ofInt 32 (min a.toInt b.toInt)),
           (Instr.max h rd rs1 rs2, BitVec.ofInt 32 (max a.toInt b.toInt)),
           (Instr.mul h rd rs1 rs2, BitVec.ofInt 32 (a.toInt * b.toInt)),
           (Instr.mulhu h rd rs1 rs2, BitVec.ofNat 32 (a.toNat * b.toNat / 2 ^ 32)),
           (Instr.mulhs h rd rs1 rs2, BitVec.ofInt 32 (a.toInt * b.toInt / 2 ^ 32))],
      exec r.1 s = .next (s.modCore h.t fun k => (k.setS rd r.2).past)

/-- R50, R51, R52: the register-immediate operations with a sign-extended 11-bit immediate, the shifts by an immediate of at
most 31, and `lui`, complete in the same way. -/
def Sys2Proof.Claims.ScalarImmediateResults : Prop :=
  ∀ (s : State) (h : Hdr) (rd rs1 : BitVec 5) (imm : BitVec 11) (wide : BitVec 19) (a : Word),
    Issues s h → (coreAt s h.t).fits → a = (coreAt s h.t).sreg rs1 →
    (∀ r ∈ [(Instr.addi h rd rs1 imm, BitVec.ofInt 32 (a.toInt + imm.toInt)),
            (Instr.andi h rd rs1 imm, a &&& BitVec.ofInt 32 imm.toInt),
            (Instr.ori h rd rs1 imm, a ||| BitVec.ofInt 32 imm.toInt),
            (Instr.xori h rd rs1 imm, a ^^^ BitVec.ofInt 32 imm.toInt),
            (Instr.slti h rd rs1 imm, if a.toInt < imm.toInt then 1#32 else 0#32),
            (Instr.lui h rd wide, BitVec.ofNat 32 (wide.toNat * 2 ^ 13))],
      exec r.1 s = .next (s.modCore h.t fun k => (k.setS rd r.2).past)) ∧
    (imm.toNat < 32 → ∀ r ∈ [(Instr.shli h rd rs1 imm, BitVec.ofNat 32 (a.toNat * 2 ^ imm.toNat)),
            (Instr.shri h rd rs1 imm, BitVec.ofNat 32 (a.toNat / 2 ^ imm.toNat)),
            (Instr.srai h rd rs1 imm, BitVec.ofInt 32 (a.toInt / 2 ^ imm.toNat))],
      exec r.1 s = .next (s.modCore h.t fun k => (k.setS rd r.2).past)) ∧
    (32 ≤ imm.toNat → ∀ i ∈ [Instr.shli h rd rs1 imm, Instr.shri h rd rs1 imm, Instr.srai h rd rs1 imm],
      exec i s = .next (takeExc s h.t 1 (coreAt s h.t).pc.toNat false 0))

/-- R50, R51: a compare of a register with a register, or with a signed 5-bit immediate, writes one predicate and moves past
itself; nothing else changes. -/
def Sys2Proof.Claims.CompareResults : Prop :=
  ∀ (s : State) (h : Hdr) (pd : BitVec 3) (rs1 src2 : BitVec 5) (useImm : Bool) (a b : Word),
    Issues s h → (coreAt s h.t).fits → a = (coreAt s h.t).sreg rs1 →
    b = (if useImm then BitVec.ofInt 32 src2.toInt else (coreAt s h.t).sreg src2) →
    ∀ r ∈ [(Instr.cmpEq h pd rs1 src2 useImm, decide (a = b)),
           (Instr.cmpNe h pd rs1 src2 useImm, decide (a ≠ b)),
           (Instr.cmpLt h pd rs1 src2 useImm, decide (a.toInt < b.toInt)),
           (Instr.cmpGe h pd rs1 src2 useImm, decide (b.toInt ≤ a.toInt)),
           (Instr.cmpLtu h pd rs1 src2 useImm, decide (a.toNat < b.toNat)),
           (Instr.cmpGeu h pd rs1 src2 useImm, decide (b.toNat ≤ a.toNat))],
      exec r.1 s = .next (s.modCore h.t fun k => (k.setPred pd r.2).past)

/-- Scalar arithmetic, shifts, compares, their immediates and lui complete with the value their row gives. The model's
readings of what the rules leave open here: log entries 1 and 25. -/
def Obligations.ScalarResults : Prop :=
  Claims.ScalarRegisterResults ∧ Claims.ScalarImmediateResults ∧ Claims.CompareResults

/-- R44: a scalar register, a predicate and a vector register hold what was written last; s0 reads as zero and p0 as 1, and
a write of either changes nothing. -/
def Obligations.RegisterFile : Prop :=
  (∀ (k : Core) (r q : BitVec 5) (w : Word), (k.setS r w).sreg q = if q = r ∧ r ≠ 0 then w else k.sreg q) ∧
  (∀ (k : Core) (w : Word), k.sreg 0 = 0 ∧ k.setS 0 w = k) ∧
  (∀ (k : Core) (p q : BitVec 3) (b : Bool), (k.setPred p b).pred q = if q = p ∧ p ≠ 0 then b else k.pred q) ∧
  (∀ (k : Core) (b : Bool), k.pred 0 = true ∧ k.setPred 0 b = k) ∧
  (∀ (k : Core) (r q : Nat) (i : Item), (k.setV r i).vreg q = if q = r then i else k.vreg q)

/-- R56, R57: a taken branch to an index of the program region sets the program counter to it, `call` also writes the return
index to s31, and with no loop active nothing else changes; a target outside 1,024 to 8,191 takes PC_RANGE. -/
def Sys2Proof.Claims.BranchTargets : Prop :=
  ∀ (s : State) (h : Hdr) (off : BitVec 22) (rs : BitVec 5) (k : Core),
    Issues s h → k = coreAt s h.t → k.loops = [] →
    ∀ r ∈ [(Instr.br h off, (k.pc.toNat : Int) + off.toInt, k),
           (Instr.call h off, (k.pc.toNat : Int) + off.toInt, k.setS 31 (BitVec.ofNat 32 (k.pc.toNat + 1))),
           (Instr.jr h rs, ((k.sreg rs).toNat % 8192 : Nat), k),
           (Instr.ret h, ((k.sreg 31).toNat % 8192 : Nat), k)],
      (1024 ≤ r.2.1 ∧ r.2.1 ≤ 8191 →
        exec r.1 s = .next (s.modCore h.t fun _ => { r.2.2 with pc := BitVec.ofInt 13 r.2.1, wait := none, issued := k.issued + 1 })) ∧
      (r.2.1 < 1024 ∨ 8191 < r.2.1 → exec r.1 s = .next (takeExc s h.t 0x0A k.pc.toNat false 0))

/-- R59: a taken branch that leaves the innermost loop's body ends that loop and sets its counter to zero; one that stays
inside it ends no loop. -/
def Sys2Proof.Claims.BranchLeavesLoop : Prop :=
  ∀ (s : State) (h : Hdr) (off : BitVec 22) (k : Core) (f : LoopFrame) (target : Nat),
    Issues s h → k = coreAt s h.t → k.loops = [f] → (target : Int) = (k.pc.toNat : Int) + off.toInt →
    1024 ≤ target → target ≤ 8191 →
    (f.first ≤ target ∧ target ≤ f.last → ∃ t, exec (.br h off) s = .next t ∧
      (coreAt t h.t).pc = BitVec.ofNat 13 target ∧ (coreAt t h.t).loops = [f] ∧ (coreAt t h.t).c = k.c) ∧
    (target < f.first ∨ f.last < target → ∃ t, exec (.br h off) s = .next t ∧
      (coreAt t h.t).pc = BitVec.ofNat 13 target ∧ (coreAt t h.t).loops = [] ∧
      mget (coreAt t h.t).c 0 f.ck.toNat = 0 ∧ ∀ j, j ≠ f.ck.toNat → mget (coreAt t h.t).c 0 j = mget k.c 0 j)

/-- Taken branches go to their target, call links in s31, a target outside the program region takes PC_RANGE, and leaving a
loop ends it. The model's readings of what the rules leave open here: log entry 1. -/
def Obligations.Branches : Prop :=
  Claims.BranchTargets ∧ Claims.BranchLeavesLoop

/-- R57: with no loop active, a `loop` starts its loop with its count in its counter, or with a count of zero leaves zero in
the counter and goes to the first instruction past the body. -/
def Sys2Proof.Claims.LoopStart : Prop :=
  ∀ (s : State) (h : Hdr) (ck : BitVec 2) (immCount : Bool) (body : BitVec 10) (count : BitVec 11) (k : Core) (n : Word),
    Issues s h → k = coreAt s h.t → body ≠ 0 → (immCount = false → count.toNat < 32) →
    n = (if immCount then BitVec.ofNat 32 count.toNat else k.sreg (BitVec.ofNat 5 count.toNat)) →
    k.pc.toNat + body.toNat < 8191 →
    (k.loops = [] → n ≠ 0 → exec (.loop h ck immCount body count) s = .next (s.modCore h.t fun k =>
      { k with loops := [⟨ck, k.pc.toNat + 1, k.pc.toNat + body.toNat⟩], c := mput k.c ck.toNat n, pc := k.pc + 1
               wait := none, issued := k.issued + 1 })) ∧
    (k.loops = [] → n = 0 → exec (.loop h ck immCount body count) s = .next (s.modCore h.t fun k =>
      { k with c := mdel k.c ck.toNat, pc := BitVec.ofNat 13 (k.pc.toNat + body.toNat + 1), wait := none
               issued := k.issued + 1 }))

/-- R57, R58: after the last instruction of the innermost body the loop goes back to its first while iterations remain, and
the counter falls by one; after the last iteration the counter holds 0 and the loop is over. -/
def Sys2Proof.Claims.LoopEnd : Prop :=
  ∀ (k : Core) (f : LoopFrame) (rest : List LoopFrame) (n : Word),
    k.loops = f :: rest → f.last = k.pc.toNat → n = mget k.c 0 f.ck.toNat →
    (1 < n.toNat → k.past.pc = BitVec.ofNat 13 f.first ∧ k.past.loops = f :: rest ∧
      mget k.past.c 0 f.ck.toNat = n - 1 ∧ ∀ j, j ≠ f.ck.toNat → mget k.past.c 0 j = mget k.c 0 j) ∧
    (n.toNat ≤ 1 → (∀ g ∈ rest, g.last ≠ k.pc.toNat) → k.past.pc = k.pc + 1 ∧ k.past.loops = rest ∧
      mget k.past.c 0 f.ck.toNat = 0 ∧ ∀ j, j ≠ f.ck.toNat → mget k.past.c 0 j = mget k.c 0 j)

/-- A loop starts with its count, repeats while iterations remain and ends with its counter at zero. The model's readings of
what the rules leave open here: log entry 1. -/
def Obligations.Loops : Prop :=
  Claims.LoopStart ∧ Claims.LoopEnd

/-- R58: a `loop` starts at any depth below four, under a counter of its own, with a body that ends at or before the end of
the enclosing body; one that names a counter already active, would end after its enclosing body, or would be a fifth level
raises ILLEGAL_INSTR. -/
def Obligations.NestedLoops : Prop :=
  ∀ (s : State) (h : Hdr) (ck : BitVec 2) (immCount : Bool) (body : BitVec 10) (count : BitVec 11) (k : Core) (n : Word),
    Issues s h → k = coreAt s h.t → body ≠ 0 → (immCount = false → count.toNat < 32) →
    n = (if immCount then BitVec.ofNat 32 count.toNat else k.sreg (BitVec.ofNat 5 count.toNat)) →
    ((∃ f ∈ k.loops, f.ck = ck) ∨ (∃ f ∈ k.loops.head?, f.last < k.pc.toNat + body.toNat) ∨ 4 ≤ k.loops.length →
      exec (.loop h ck immCount body count) s = .next (takeExc s h.t 1 k.pc.toNat false 0)) ∧
    ((∀ f ∈ k.loops, f.ck ≠ ck) → (∀ f ∈ k.loops.head?, k.pc.toNat + body.toNat ≤ f.last) → k.loops.length < 4 →
      k.pc.toNat + body.toNat ≤ 8191 → n ≠ 0 → exec (.loop h ck immCount body count) s = .next (s.modCore h.t fun k =>
        { k with loops := ⟨ck, k.pc.toNat + 1, k.pc.toNat + body.toNat⟩ :: k.loops, c := mput k.c ck.toNat n, pc := k.pc + 1
                 wait := none, issued := k.issued + 1 }))

/-! ### Furrow: bin accesses -/

/-- R165, R166: after a scalar store of n bytes at byte i of a physical line, every access sees the stored bytes there and
every other byte of the bin as before, whether the store opened, filled or evicted a gather entry. -/
def Sys2Proof.Claims.StoreVisible : Prop :=
  ∀ (b : Bin) (p i n v q j : Nat), i + n ≤ 64 → j < 64 →
    ((b.store p i n v).1).visible q j =
      if q = p ∧ i ≤ j ∧ j < i + n then BitVec.ofNat 8 (v / 256 ^ (j - i)) else b.visible q j

/-- R50, R65, R166: a scalar store to an aligned, mapped address merges its low bytes into the gather entry of its line and
moves past itself; the core's registers, every other tile and all memory stay, and of the bin only the stored bytes change. -/
def Sys2Proof.Claims.StoreResults : Prop :=
  ∀ (s : State) (h : Hdr) (r base : BitVec 5) (off : BitVec 11) (t : Tile),
    Issues s h → (coreAt s h.t).fits → Untraced s h.t → t = s.tile (ckey h.t) →
    ∀ f ∈ ([(Instr.st32 h r base off, 4), (Instr.st16 h r base off, 2), (Instr.st8 h r base off, 1)] : List (Instr × Nat)),
      ∀ (a q : Nat), a = (t.core.sreg base + BitVec.ofInt 32 (off.toInt * f.2)).toNat → a < 2 ^ 18 → a % f.2 = 0 →
        physLine t (a / 64) = some q →
        ∃ u, exec f.1 s = .next u ∧ OnlyTile s u (ckey h.t) ∧
          u.tile (ckey h.t) = { t with core := t.core.past, bin := (u.tile (ckey h.t)).bin } ∧
          (∀ l j, j < 64 → (u.tile (ckey h.t)).bin.visible l j =
            if l = q ∧ a % 64 ≤ j ∧ j < a % 64 + f.2 then BitVec.ofNat 8 ((t.core.sreg r).toNat / 256 ^ (j - a % 64))
            else t.bin.visible l j)

/-- A scalar store changes the bytes it stores, as every access sees the bin, and nothing else. -/
def Obligations.Stores : Prop :=
  Claims.StoreVisible ∧ Claims.StoreResults

/-- R50, R65, R167: a scalar load from an aligned, mapped, sound and untagged place writes the bytes an access sees there,
extended as its row says, and moves past itself; nothing else changes. -/
def Sys2Proof.Claims.LoadResults : Prop :=
  ∀ (s : State) (h : Hdr) (r base : BitVec 5) (off : BitVec 11) (t : Tile),
    Issues s h → (coreAt s h.t).fits → Untraced s h.t → t = s.tile (ckey h.t) →
    ∀ f ∈ ([(Instr.ld32 h r base off, 4, false), (Instr.ld16u h r base off, 2, false), (Instr.ld16s h r base off, 2, true),
            (Instr.ld8u h r base off, 1, false), (Instr.ld8s h r base off, 1, true)] : List (Instr × Nat × Bool)),
      ∀ (a q : Nat), a = (t.core.sreg base + BitVec.ofInt 32 (off.toInt * f.2.1)).toNat → a < 2 ^ 18 → a % f.2.1 = 0 →
        physLine t (a / 64) = some q → t.bin.lineOk q = true → t.bin.tag q = false →
        ∃ w : Word, exec f.1 s = .next (s.modCore h.t fun k => (k.setS r w).past) ∧
          (∀ j, j < f.2.1 → w.extractLsb' (8 * j) 8 = t.bin.visible q (a % 64 + j)) ∧
          (f.2.2 = false → w.toNat < 256 ^ f.2.1) ∧
          (f.2.2 = true → -(128 * 256 ^ (f.2.1 - 1) : Int) ≤ w.toInt ∧ w.toInt < 128 * 256 ^ (f.2.1 - 1))

/-- R65, R84, R179: a scalar load or store with a nonzero address bit 31:18 takes BIN_BOUNDS, one not aligned to its size
MISALIGNED, one to an unmapped line BIN_BOUNDS; a load of a tagged line that is sound takes POISON_CONSUMED. -/
def Sys2Proof.Claims.ScalarAccessFaults : Prop :=
  ∀ (s : State) (h : Hdr) (r base : BitVec 5) (off : BitVec 11) (t : Tile),
    Issues s h → Untraced s h.t → t = s.tile (ckey h.t) →
    ∀ f ∈ ([(Instr.ld32 h r base off, 4, true), (Instr.ld16u h r base off, 2, true), (Instr.ld16s h r base off, 2, true),
            (Instr.ld8u h r base off, 1, true), (Instr.ld8s h r base off, 1, true), (Instr.st32 h r base off, 4, false),
            (Instr.st16 h r base off, 2, false), (Instr.st8 h r base off, 1, false)] : List (Instr × Nat × Bool)),
      ∀ a : Nat, a = (t.core.sreg base + BitVec.ofInt 32 (off.toInt * f.2.1)).toNat →
        (2 ^ 18 ≤ a → exec f.1 s = .next (takeExc s h.t 3 t.core.pc.toNat false (a % 2 ^ 29))) ∧
        (a < 2 ^ 18 → a % f.2.1 ≠ 0 → exec f.1 s = .next (takeExc s h.t 2 t.core.pc.toNat false a)) ∧
        (a < 2 ^ 18 → a % f.2.1 = 0 → physLine t (a / 64) = none →
          exec f.1 s = .next (takeExc s h.t 3 t.core.pc.toNat false (64 * (a / 64)))) ∧
        (∀ q, f.2.2 = true → a < 2 ^ 18 → a % f.2.1 = 0 → physLine t (a / 64) = some q → t.bin.lineOk q = true →
          t.bin.tag q = true → exec f.1 s = .next (takeExc s h.t 8 t.core.pc.toNat false (64 * (a / 64))))

/-- Scalar loads return the bytes an access sees, extended as their row says, and bad addresses take their exceptions. The
model's readings of what the rules leave open here: log entries 27 and 89. -/
def Obligations.ScalarLoads : Prop :=
  Claims.LoadResults ∧ Claims.ScalarAccessFaults

/-- R50, R65, R178, R179: `vst` writes 128 B from a register or the head item of an input port, which it pops, into two
lines as full-line writes, each with the tag of its half, and moves past itself; every other byte of the bin reads as
before, and from a register nothing else of the machine changes. -/
def Sys2Proof.Claims.VectorStores : Prop :=
  ∀ (s : State) (h : Hdr) (v base : BitVec 5) (off : BitVec 12) (t : Tile) (c : Nat) (x : Ctx) (a q0 q1 : Nat),
    Issues s h → Untraced s h.t → t = s.tile (ckey h.t) → InCtx s h.t c x →
    a = (t.core.sreg base + BitVec.ofInt 32 (off.toInt * 64)).toNat → a < 2 ^ 18 → a % 64 = 0 →
    physLine t (a / 64) = some q0 → physLine t (a / 64 + 1) = some q1 → q0 ≠ q1 →
    portsBlock s x.cdef (ckey h.t) true (portsOf [v]) [] = none →
    ∀ (p : State) (d : Tile), p = popAll (flushSpan s h.t (a / 64) 2) x.cdef h.t (portsOf [v]) → d = p.tile (ckey h.t) →
      physLine d (a / 64) = some q0 → physLine d (a / 64 + 1) = some q1 →
      ∃ b : Bin, exec (.vst h v base off) s = .next (advance (p.setTile (ckey h.t) { d with bin := b }) h.t) ∧
        (∀ l j, j < 64 → b.visible l j =
          if l = q0 then (srcItem t v).data.extractLsb' (8 * j) 8
          else if l = q1 then (srcItem t v).data.extractLsb' (512 + 8 * j) 8
          else d.bin.visible l j) ∧
        b.tag q0 = (srcItem t v).tagLo ∧ b.tag q1 = (srcItem t v).tagHi ∧
        (isPort v = false → (coreAt s h.t).fits → (∀ l j, j < 64 → d.bin.visible l j = t.bin.visible l j) ∧
          exec (.vst h v base off) s = .next (s.setTile (ckey h.t) { t with bin := b, core := t.core.past }))

/-- R50, R65, R168, R179: `vld` reads two sound lines, pending stores included, into a register or to an output port, each
half with the tag of its line, and moves past itself; no byte of the bin reads otherwise, and into a register nothing else
changes. -/
def Sys2Proof.Claims.VectorLoads : Prop :=
  ∀ (s : State) (h : Hdr) (v base : BitVec 5) (off : BitVec 12) (t : Tile) (c : Nat) (x : Ctx) (a q0 q1 : Nat),
    Issues s h → Untraced s h.t → t = s.tile (ckey h.t) → InCtx s h.t c x →
    a = (t.core.sreg base + BitVec.ofInt 32 (off.toInt * 64)).toNat → a < 2 ^ 18 → a % 64 = 0 →
    physLine t (a / 64) = some q0 → physLine t (a / 64 + 1) = some q1 → t.bin.lineOk q0 = true → t.bin.lineOk q1 = true →
    portsBlock s x.cdef (ckey h.t) true [] (portsOf [v]) = none →
    ∀ f : State, f = flushSpan s h.t (a / 64) 2 →
    ∃ i : Item, exec (.vld h v base off) s = .next (advance (putVec f c x.cdef h.t v i) h.t) ∧
      (∀ j, j < 64 → i.data.extractLsb' (8 * j) 8 = t.bin.visible q0 j ∧
        i.data.extractLsb' (512 + 8 * j) 8 = t.bin.visible q1 j) ∧
      i.tagLo = (f.tile (ckey h.t)).bin.tag q0 ∧ i.tagHi = (f.tile (ckey h.t)).bin.tag q1 ∧
      (∀ l j, j < 64 → (f.tile (ckey h.t)).bin.visible l j = t.bin.visible l j) ∧
      (isPort v = false → (coreAt s h.t).fits → exec (.vld h v base off) s = .next (s.setTile (ckey h.t)
        { t with bin := (f.tile (ckey h.t)).bin, core := (t.core.setV v.toNat i).past }))

/-- vst writes two lines with the tags of its halves, and vld reads two lines with theirs. -/
def Obligations.VectorAccessResults : Prop :=
  Claims.VectorStores ∧ Claims.VectorLoads

/-! ### Furrow: the vector unit and queues -/

/-- R50, R51, R61 to R63: an instruction of two vector sources gives each lane of its destination its row's function of the
lanes of its sources, raises the flags the lanes raise, pops the ports it names as sources and pushes a port it names as
destination; with registers alone nothing but the destination, FP_FLAGS and the program counter changes. -/
def Sys2Proof.Claims.VectorTwoSources : Prop :=
  ∀ (s : State) (h : Hdr) (vd va vb : BitVec 5) (c : Nat) (x : Ctx) (t : Tile),
    Issues s h → InCtx s h.t c x → t = s.tile (ckey h.t) → dupPort [vd, va, vb] = false →
    portsBlock s x.cdef (ckey h.t) true (portsOf [va, vb]) (portsOf [vd]) = none → taggedSrc t [va, vb] = none →
    ∀ r ∈ ([(Instr.vadd h vd va vb, f32Add), (Instr.vsub h vd va vb, f32Sub), (Instr.vmul h vd va vb, f32Mul),
            (Instr.vmax h vd va vb, fun a b => (f32Pick true a b, 0)),
            (Instr.vmin h vd va vb, fun a b => (f32Pick false a b, 0)),
            (Instr.vcmplt h vd va vb, fun a b =>
              (if (ofF32 a).lt (ofF32 b) then BitVec.allOnes 32 else 0, cmpFlags true (ofF32 a) (ofF32 b))),
            (Instr.vcmpeq h vd va vb, fun a b =>
              (if (ofF32 a).eq (ofF32 b) then BitVec.allOnes 32 else 0, cmpFlags false (ofF32 a) (ofF32 b))),
            (Instr.vand h vd va vb, fun a b => (a &&& b, 0)), (Instr.vor h vd va vb, fun a b => (a ||| b, 0)),
            (Instr.vxor h vd va vb, fun a b => (a ^^^ b, 0)), (Instr.vaddi h vd va vb, fun a b => (a + b, 0)),
            (Instr.vsubi h vd va vb, fun a b => (a - b, 0))] : List (Instr × (Word → Word → Word × BitVec 5))),
      ∃ (res : VecData) (fl : BitVec 5),
        (∀ i, i < 32 → res.extractLsb' (32 * i) 32 =
          (r.2 ((srcItem t va).data.extractLsb' (32 * i) 32) ((srcItem t vb).data.extractLsb' (32 * i) 32)).1) ∧
        (∀ n, n < 5 → (fl.getLsbD n = true ↔ ∃ i, i < 32 ∧
          (r.2 ((srcItem t va).data.extractLsb' (32 * i) 32)
            ((srcItem t vb).data.extractLsb' (32 * i) 32)).2.getLsbD n = true)) ∧
        exec r.1 s = .next (afterVec s h c x [va, vb] vd fl { data := res }) ∧
        (isPort vd = false → isPort va = false → isPort vb = false → t.core.fits →
          exec r.1 s = .next (s.modCore h.t fun k => ((k.addFlags fl).setV vd.toNat { data := res }).past))

/-- R51, R52, R61, R67: `vfma` and `vfms` add to and subtract from the lanes of the destination register with one rounding
and raise the flags the lanes raise; `vsel` takes lanes of va where the destination register is nonzero and of vb elsewhere,
each half of its result tagged where it takes a lane of a tagged half. Their sources may be ports, which they pop. -/
def Sys2Proof.Claims.VectorThreeSources : Prop :=
  ∀ (s : State) (h : Hdr) (vd va vb : BitVec 5) (c : Nat) (x : Ctx) (t : Tile) (d : Item),
    Issues s h → InCtx s h.t c x → t = s.tile (ckey h.t) → isPort vd = false → dupPort [va, vb] = false →
    portsBlock s x.cdef (ckey h.t) true (portsOf [va, vb]) [] = none → d = t.core.vreg vd.toNat → d.tagged = false →
    (∀ r ∈ ([(Instr.vfma h vd va vb, f32Fma false), (Instr.vfms h vd va vb, f32Fma true)] :
        List (Instr × (Word → Word → Word → Word × BitVec 5))), taggedSrc t [va, vb] = none →
      ∃ (res : VecData) (fl : BitVec 5),
        (∀ i, i < 32 → res.extractLsb' (32 * i) 32 =
          (r.2 ((srcItem t va).data.extractLsb' (32 * i) 32) ((srcItem t vb).data.extractLsb' (32 * i) 32)
            (d.data.extractLsb' (32 * i) 32)).1) ∧
        (∀ n, n < 5 → (fl.getLsbD n = true ↔ ∃ i, i < 32 ∧
          (r.2 ((srcItem t va).data.extractLsb' (32 * i) 32) ((srcItem t vb).data.extractLsb' (32 * i) 32)
            (d.data.extractLsb' (32 * i) 32)).2.getLsbD n = true)) ∧
        exec r.1 s = .next (afterVec s h c x [va, vb] vd fl { data := res }) ∧
        (isPort va = false → isPort vb = false → t.core.fits →
          exec r.1 s = .next (s.modCore h.t fun k => ((k.addFlags fl).setV vd.toNat { data := res }).past))) ∧
    (∃ i : Item,
      (∀ n, n < 32 → i.data.extractLsb' (32 * n) 32 =
        if d.data.extractLsb' (32 * n) 32 = 0 then (srcItem t vb).data.extractLsb' (32 * n) 32
        else (srcItem t va).data.extractLsb' (32 * n) 32) ∧
      (i.tagLo = true ↔ ∃ n, n < 16 ∧
        (if d.data.extractLsb' (32 * n) 32 = 0 then (srcItem t vb).tagLo else (srcItem t va).tagLo) = true) ∧
      (i.tagHi = true ↔ ∃ n, 16 ≤ n ∧ n < 32 ∧
        (if d.data.extractLsb' (32 * n) 32 = 0 then (srcItem t vb).tagHi else (srcItem t va).tagHi) = true) ∧
      exec (.vsel h vd va vb) s = .next (advance (putVec (popAll s x.cdef h.t (portsOf [va, vb])) c x.cdef h.t vd i) h.t) ∧
      (isPort va = false → isPort vb = false → t.core.fits →
        exec (.vsel h vd va vb) s = .next (s.modCore h.t fun k => (k.setV vd.toNat i).past)))

/-- R51, R54, R67: `vabs` and `vneg` act on sign bits alone and raise no flag, and `vmov` copies its source with its tags;
the source and the destination may be ports. -/
def Sys2Proof.Claims.VectorOneSource : Prop :=
  ∀ (s : State) (h : Hdr) (vd va : BitVec 5) (c : Nat) (x : Ctx) (t : Tile),
    Issues s h → InCtx s h.t c x → t = s.tile (ckey h.t) → dupPort [vd, va] = false →
    portsBlock s x.cdef (ckey h.t) true (portsOf [va]) (portsOf [vd]) = none →
    (∀ r ∈ ([(Instr.vabs h vd va 0, fun a => a &&& 0x7FFFFFFF#32), (Instr.vneg h vd va 0, fun a => a ^^^ 0x80000000#32)] :
        List (Instr × (Word → Word))), (srcItem t va).tagged = false →
      ∃ res : VecData,
        (∀ i, i < 32 → res.extractLsb' (32 * i) 32 = r.2 ((srcItem t va).data.extractLsb' (32 * i) 32)) ∧
        exec r.1 s = .next (afterVec s h c x [va] vd 0 { data := res }) ∧
        (isPort vd = false → isPort va = false → t.core.fits →
          exec r.1 s = .next (s.modCore h.t fun k => (k.setV vd.toNat { data := res }).past))) ∧
    exec (.vmov h vd va 0) s =
      .next (advance (putVec (popAll s x.cdef h.t (portsOf [va])) c x.cdef h.t vd (srcItem t va)) h.t) ∧
    (isPort vd = false → isPort va = false → t.core.fits →
      exec (.vmov h vd va 0) s = .next (s.modCore h.t fun k => (k.setV vd.toNat (k.vreg va.toNat)).past))

/-- R67, R84: a vector instruction whose ports are ready and that consumes a poisoned register or queue item takes
POISON_CONSUMED with the first tagged operand in DETAIL, and pops and writes nothing. Each row lists the operands popped or
read and those whose poison the instruction consumes; `vsel` consumes its destination register alone, and `vmov` none. -/
def Sys2Proof.Claims.VectorPoison : Prop :=
  ∀ (s : State) (h : Hdr) (vd va vb : BitVec 5) (c : Nat) (x : Ctx) (t : Tile) (dfmt sfmt : BitVec 4),
    Issues s h → InCtx s h.t c x → t = s.tile (ckey h.t) →
    ∀ r ∈ ([(Instr.vadd h vd va vb, [va, vb], [va, vb]), (Instr.vsub h vd va vb, [va, vb], [va, vb]),
            (Instr.vmul h vd va vb, [va, vb], [va, vb]), (Instr.vmax h vd va vb, [va, vb], [va, vb]),
            (Instr.vmin h vd va vb, [va, vb], [va, vb]), (Instr.vcmplt h vd va vb, [va, vb], [va, vb]),
            (Instr.vcmpeq h vd va vb, [va, vb], [va, vb]), (Instr.vand h vd va vb, [va, vb], [va, vb]),
            (Instr.vor h vd va vb, [va, vb], [va, vb]), (Instr.vxor h vd va vb, [va, vb], [va, vb]),
            (Instr.vaddi h vd va vb, [va, vb], [va, vb]), (Instr.vsubi h vd va vb, [va, vb], [va, vb]),
            (Instr.vabs h vd va 0, [va], [va]), (Instr.vneg h vd va 0, [va], [va]), (Instr.vexp h vd va 0 0, [va], [va]),
            (Instr.vlog h vd va 0 0, [va], [va]), (Instr.vrsqrt h vd va 0 0, [va], [va]), (Instr.vrcp h vd va 0 0, [va], [va]),
            (Instr.vredsum h vd va 0 0, [va], [va]), (Instr.vredmax h vd va 0 0, [va], [va]),
            (Instr.vredmin h vd va 0 0, [va], [va])] : List (Instr × List (BitVec 5) × List (BitVec 5))) ++
          (if isPort vd then [] else [(Instr.vfma h vd va vb, [va, vb], [va, vb, vd]),
            (Instr.vfms h vd va vb, [va, vb], [va, vb, vd]), (Instr.vsel h vd va vb, [va, vb], [vd])]) ++
          (if (cvtOf dfmt sfmt).isSome then [(Instr.vcvt h vd va dfmt sfmt, [va], [va])] else []) ++
          (if (narrowFmt dfmt).isSome && sfmt == 0 then [(Instr.vcvtsr h vd va dfmt sfmt, [va], [va])] else []),
      ∀ g, dupPort (vd :: r.2.1) = false → portsBlock s x.cdef (ckey h.t) true (portsOf r.2.1) (portsOf [vd]) = none →
        taggedSrc t r.2.2 = some g → exec r.1 s = .next (vecPoison s h g)

/-- Vector instructions act lane by lane, raise the flags of their lanes, and take POISON_CONSUMED for a tagged operand. The
model's readings of what the rules leave open here: log entries 15, 26 and 91. -/
def Obligations.VectorResults : Prop :=
  Claims.VectorTwoSources ∧ Claims.VectorThreeSources ∧ Claims.VectorOneSource ∧ Claims.VectorPoison

/-- R51, R63, R64: the special functions act lane by lane and raise the flags the lanes raise, and a reduction leaves in
every lane the result of one fixed tree in which adjacent lanes are combined level by level, and raises the flags of every
node. The source and the destination may be ports; with registers nothing else changes but FP_FLAGS and the program counter. -/
def Sys2Proof.Claims.SpecialFunctions : Prop :=
  ∀ (s : State) (h : Hdr) (vd va : BitVec 5) (c : Nat) (x : Ctx) (t : Tile) (a : Item),
    Issues s h → InCtx s h.t c x → t = s.tile (ckey h.t) → dupPort [vd, va] = false →
    portsBlock s x.cdef (ckey h.t) true (portsOf [va]) (portsOf [vd]) = none → a = srcItem t va → a.tagged = false →
    (∀ r ∈ ([(Instr.vexp h vd va 0 0, f32Exp), (Instr.vlog h vd va 0 0, f32Log), (Instr.vrsqrt h vd va 0 0, f32Rsqrt),
             (Instr.vrcp h vd va 0 0, f32Rcp)] : List (Instr × (Word → Word × BitVec 5))),
      ∃ (res : VecData) (fl : BitVec 5),
        (∀ i, i < 32 → res.extractLsb' (32 * i) 32 = (r.2 (a.data.extractLsb' (32 * i) 32)).1) ∧
        (∀ n, n < 5 → (fl.getLsbD n = true ↔ ∃ i, i < 32 ∧ (r.2 (a.data.extractLsb' (32 * i) 32)).2.getLsbD n = true)) ∧
        exec r.1 s = .next (afterVec s h c x [va] vd fl { data := res }) ∧
        (isPort vd = false → isPort va = false → t.core.fits →
          exec r.1 s = .next (s.modCore h.t fun k => ((k.addFlags fl).setV vd.toNat { data := res }).past))) ∧
    (∀ r ∈ ([(Instr.vredsum h vd va 0 0, f32Add), (Instr.vredmax h vd va 0 0, fun a b => (f32Pick true a b, 0)),
             (Instr.vredmin h vd va 0 0, fun a b => (f32Pick false a b, 0))] :
             List (Instr × (Word → Word → Word × BitVec 5))),
      ∃ (tree : Nat → Nat → Word) (res : VecData) (fl : BitVec 5),
        (∀ i, i < 32 → tree 0 i = a.data.extractLsb' (32 * i) 32) ∧
        (∀ n i, n < 5 → i < 2 ^ (4 - n) → tree (n + 1) i = (r.2 (tree n (2 * i)) (tree n (2 * i + 1))).1) ∧
        (∀ i, i < 32 → res.extractLsb' (32 * i) 32 = tree 5 0) ∧
        (∀ b, b < 5 → (fl.getLsbD b = true ↔ ∃ n i, n < 5 ∧ i < 2 ^ (4 - n) ∧
          (r.2 (tree n (2 * i)) (tree n (2 * i + 1))).2.getLsbD b = true)) ∧
        exec r.1 s = .next (afterVec s h c x [va] vd fl { data := res }) ∧
        (isPort vd = false → isPort va = false → t.core.fits →
          exec r.1 s = .next (s.modCore h.t fun k => ((k.addFlags fl).setV vd.toNat { data := res }).past)))

/-- R46, R138, R139, R141, R144: a conversion that R139 lists gives its result and raises its flags; any other pair, and
`vcvtsr` of a pair that narrows to no floating-point format, raises ILLEGAL_INSTR. A narrowing one packs the 32 codes
densely, the code of lane n from rounding that lane to nearest, or stochastically with the word of element ELEMENT_BASE + n,
and `vcvtsr` then advances ELEMENT_BASE by 32. Memory, other tiles and every other register stay where both operands are
registers. -/
def Sys2Proof.Claims.ConversionResults : Prop :=
  ∀ (s : State) (h : Hdr) (vd va : BitVec 5) (dfmt sfmt : BitVec 4) (c : Nat) (x : Ctx) (k : Core) (sr : Bool) (i : Instr) (a : VecData),
    Issues s h → InCtx s h.t c x → k = coreAt s h.t → i = (if sr then .vcvtsr h vd va dfmt sfmt else .vcvt h vd va dfmt sfmt) →
    a = (srcItem (s.tile (ckey h.t)) va).data →
    (cvtOf dfmt sfmt = none ∨ (sr = true ∧ ∀ f, cvtOf dfmt sfmt ≠ some (.narrow f)) →
      exec i s = .next (takeExc s h.t 1 k.pc.toNat true 0)) ∧
    (dupPort [vd, va] = false → portsBlock s x.cdef (ckey h.t) true (portsOf [va]) (portsOf [vd]) = none →
      (srcItem (s.tile (ckey h.t)) va).tagged = false → ∀ cv : Cvt, cvtOf dfmt sfmt = some cv → (sr = true → ∃ f, cv = .narrow f) →
      ∃ u r, exec i s = .next u ∧ r = convert32 sr x k cv a ∧
        (∀ f, cv = .narrow f → f.width ≤ 16 → ∀ n, n < 32 → bits r.1.toNat (f.width * n) f.width =
          (f.convert (e5m2Inf x) (if sr then .stochastic (randomWord x.cdef.seed x.run.step k.tensorId
            (k.elementBase + BitVec.ofNat 32 n)) else .nearest) (ofF32 (a.extractLsb' (32 * n) 32))).code % 2 ^ f.width) ∧
        (isPort vd = false → isPort va = false → k.fits →
          coreAt u h.t = (({ k.addFlags r.2 with elementBase := if sr then k.elementBase + 32 else k.elementBase }).setV vd.toNat
            { data := r.1 }).past ∧ u.mem = s.mem ∧ ∀ j, j ≠ ckey h.t → u.tile j = s.tile j))

/-- Special functions act by lane, reductions follow one fixed tree, and conversions write the codes of their rounding. The
model's readings of what the rules leave open here: log entries 14 and 25. -/
def Obligations.SpecialAndConversions : Prop :=
  Claims.SpecialFunctions ∧ Claims.ConversionResults

/-- R54, R55, R64, R67: `qrecv`, `qsend`, `qcount`, `vbcast`, `vext` and `vins` complete once their ports allow it: the word
of the head item, the pushed word, the items waiting or the free entries of an output, the broadcast, the lane read and the
lane written. A tagged item or lane that `qrecv` or `vext` would take into a scalar register raises POISON_CONSUMED. -/
def Sys2Proof.Claims.QueueMoves : Prop :=
  ∀ (s : State) (h : Hdr) (a b n : BitVec 5) (c : Nat) (x : Ctx) (t : Tile) (k : Core),
    Issues s h → InCtx s h.t c x → t = s.tile (ckey h.t) → k = t.core →
    (isPort b = true → portsBlock s x.cdef (ckey h.t) false [portOf b] [] = none →
      ((headItem t (portOf b)).tagged = false → exec (.qrecv h a b 0) s = .next (advance
        ((popItem s x.cdef h.t (portOf b)).modCore h.t fun k => k.setS a ((headItem t (portOf b)).data.extractLsb' 0 32)) h.t)) ∧
      ((headItem t (portOf b)).tagged = true →
        exec (.qrecv h a b 0) s = .next (takeExc s h.t 8 k.pc.toNat false (2 ^ 26 + portOf b)))) ∧
    (isPort a = true → portsBlock s x.cdef (ckey h.t) false [] [portOf a] = none →
      exec (.qsend h a b 0) s = .next (advance (pushItem s c x.cdef h.t (portOf a)
        { data := BitVec.setWidth 1024 (k.sreg b) }) h.t)) ∧
    (isPort b = true → portBound t (portOf b) = true → portHeld t (portOf b) = false → k.fits →
      exec (.qcount h a b 0) s = .next (s.modCore h.t fun k => (k.setS a (BitVec.ofNat 32
        (if chOut (t.chan (portOf b)) then chanCredit s x.cdef (ckey h.t) (portOf b)
         else (t.cst (portOf b)).store.length + (t.cst (portOf b)).binSeg.length
           + (t.cst (portOf b)).memSeg.length))).past)) ∧
    (portsBlock s x.cdef (ckey h.t) true [] (portsOf [a]) = none → ∃ v : VecData,
      (∀ i, i < 32 → v.extractLsb' (32 * i) 32 = k.sreg b) ∧
      exec (.vbcast h a b 0) s = .next (advance (putVec s c x.cdef h.t a { data := v }) h.t) ∧
      (isPort a = false → k.fits →
        exec (.vbcast h a b 0) s = .next (s.modCore h.t fun k => (k.setV a.toNat { data := v }).past))) ∧
    (portsBlock s x.cdef (ckey h.t) true (portsOf [b]) [] = none →
      ((srcItem t b).laneTag n.toNat = false →
        exec (.vext h a b n) s = .next (advance ((popAll s x.cdef h.t (portsOf [b])).modCore h.t fun k =>
          k.setS a ((srcItem t b).data.extractLsb' (32 * n.toNat) 32)) h.t) ∧
        (isPort b = false → k.fits → exec (.vext h a b n) s = .next (s.modCore h.t fun k =>
          (k.setS a ((k.vreg b.toNat).data.extractLsb' (32 * n.toNat) 32)).past))) ∧
      ((srcItem t b).laneTag n.toNat = true → exec (.vext h a b n) s =
        .next (takeExc s h.t 8 k.pc.toNat false (if isPort b then 2 ^ 26 + portOf b else 2 ^ 27 + b.toNat)))) ∧
    (isPort a = false → k.fits → ∃ v : VecData, (∀ i, i < 32 → v.extractLsb' (32 * i) 32 =
        if i = n.toNat then k.sreg b else (k.vreg a.toNat).data.extractLsb' (32 * i) 32) ∧
      exec (.vins h a b n) s = .next (s.modCore h.t fun k => (k.setV a.toNat { k.vreg a.toNat with data := v }).past))

/-- R52, R53: an instruction that names a queue port against its binding raises QUEUE_BINDING with the port in DETAIL: a
port that is not bound, an output named as a source, an input named as a destination, or the other item width. -/
def Sys2Proof.Claims.QueueBinding : Prop :=
  ∀ (s : State) (h : Hdr) (a b : BitVec 5) (c : Nat) (x : Ctx) (t : Tile),
    Issues s h → InCtx s h.t c x → t = s.tile (ckey h.t) → isPort b = true →
    ∀ e, e = t.chan (portOf b) →
      (chUsed e = false ∨ chOut e = true ∨ chWide e = true →
        exec (.qrecv h a b 0) s = .next (takeExc s h.t 4 (coreAt s h.t).pc.toNat false (portOf b))) ∧
      (chUsed e = false ∨ chOut e = false ∨ chWide e = true →
        exec (.qsend h b a 0) s = .next (takeExc s h.t 4 (coreAt s h.t).pc.toNat false (portOf b))) ∧
      (chUsed e = false ∨ chOut e = true ∨ chWide e = false → isPort a = false →
        exec (.vmov h a b 0) s = .next (takeExc s h.t 4 (coreAt s h.t).pc.toNat true (portOf b))) ∧
      (chUsed e = false ∨ chOut e = false ∨ chWide e = false → isPort a = false →
        exec (.vmov h b a 0) s = .next (takeExc s h.t 4 (coreAt s h.t).pc.toNat true (portOf b)))

/-- R54, R190, R210: a pop takes the oldest item of its channel, the oldest item of the channel's bin segment moves up into
the freed slot of the queue store, and the items of every other channel stay, as does all memory; the line that moves up is
one that passes its check. -/
def Sys2Proof.Claims.ItemPopped : Prop :=
  ∀ (s : State) (d : CtxDef) (p : Coord) (ch : Nat) (t u : Tile), t = s.tile (ckey p) → u = (popItem s d p ch).tile (ckey p) →
    (t.cst ch).store ≠ [] → (t.cst ch).store.length ≤ chCap (t.chan ch) → spillItemOk t (t.chan ch) (t.cst ch).binAt = true →
    (u.cst ch).store = (t.cst ch).store.drop 1 ++ (t.cst ch).binSeg.take 1 ∧ (u.cst ch).binSeg = (t.cst ch).binSeg.drop 1 ∧
    (u.cst ch).memSeg = (t.cst ch).memSeg ∧
    (∀ j, j ≠ ch → (u.cst j).store = (t.cst j).store ∧ (u.cst j).binSeg = (t.cst j).binSeg ∧ (u.cst j).memSeg = (t.cst j).memSeg) ∧
    (popItem s d p ch).mem = s.mem

/-- R54, R190, R251: a push to a stream of another tile spends one credit, numbers the item and sends it as a flit of the
forward class from the tile's port; a push to a reduction spends one credit and sends the item as a contribution to the
entry it feeds; a push to a local channel puts the item behind those of the inbound channel it names. All memory stays. -/
def Sys2Proof.Claims.ItemPushed : Prop :=
  ∀ (s : State) (c : Nat) (d : CtxDef) (p : Coord) (ch : Nat) (i : Item) (t : Tile) (u : State), t = s.tile (ckey p) →
    u = pushItem s c d p ch i → u.mem = s.mem ∧
    (chKind (t.chan ch) = 0 ∨ chKind (t.chan ch) = 3 →
      ((u.tile (ckey p)).cst ch).credits = (t.cst ch).credits - 1 ∧ ((u.tile (ckey p)).cst ch).seqOut = (t.cst ch).seqOut + 1 ∧
      ∃ n f, mfind u.mesh.flits n = some f ∧ f.cls = .forward ∧ f.op = 0 ∧ f.item = i ∧ f.ctx = BitVec.ofNat 4 c ∧
        f.seq = (t.cst ch).seqOut ∧ f.dst = ⟨d.x0 + chPeerX (t.chan ch), d.y0 + chPeerY (t.chan ch)⟩ ∧
        f.chan = BitVec.ofNat 5 (chPeerCh (t.chan ch)) ∧ f.src = p ∧ f.loc = .port p.x p.y) ∧
    (∀ e inp, chKind (t.chan ch) = 1 → feedsEntry s (ckey p) ch = some (e, inp) →
      ((u.tile (ckey p)).cst ch).credits = (t.cst ch).credits - 1 ∧ ((u.tile (ckey p)).cst ch).seqOut = (t.cst ch).seqOut + 1 ∧
      ∃ n f, mfind u.mesh.flits n = some f ∧ f.cls = .collective ∧ f.op = 7 ∧ f.item = i ∧ f.ctx = BitVec.ofNat 4 c ∧
        f.seq = (t.cst ch).seqOut ∧ f.dst = p ∧ f.tag = BitVec.ofNat 12 (e + 32 * inp) ∧ f.loc = .port p.x p.y) ∧
    (chKind (t.chan ch) = 2 → (t.cst (chPeerCh (t.chan ch))).spilling = false →
      ((u.tile (ckey p)).cst (chPeerCh (t.chan ch))).store = (t.cst (chPeerCh (t.chan ch))).store ++ [i])

/-- Queue instructions pop, push, count, broadcast and move lanes; a port named against its binding raises QUEUE_BINDING.
The model's readings of what the rules leave open here: log entries 23 and 26. -/
def Obligations.Queues : Prop :=
  Claims.QueueMoves ∧ Claims.QueueBinding ∧ Claims.ItemPopped ∧ Claims.ItemPushed

/-! ### Furrow: matrix, DMA, messages, waits and system -/

/-- R95 to R98, R100, R122: a matrix instruction whose operands are in range, whose port is free and which finds the matrix
queue below 8 entries joins the queue behind the earlier ones, with the next number in program order; the core moves past it
and nothing else changes. `msync` completes when no matrix work is left. -/
def Sys2Proof.Claims.MatrixIssue : Prop :=
  ∀ (s : State) (h : Hdr) (rs rt level : BitVec 5) (tr z q : Bool) (port : BitVec 4) (t : Tile) (a b : Word),
    Issues s h → (coreAt s h.t).fits → t = s.tile (ckey h.t) → a = t.core.sreg rs → b = t.core.sreg rt →
    (t.mx.queue.length < 8 →
      ∀ r ∈ ([(Instr.mcfgFormat h rs, formatOk a.toNat, .mcfg 0 a), (Instr.mcfgDrain h rs, drainOk a.toNat, .mcfg 1 a),
              (Instr.mcfgElementBase h rs, true, .mcfg 2 a),
              (Instr.mld h rs q port, (q || port == 0) && rangeOk a none
                && (moveCheck t (mAddr a) (loadSpan (progCfg t.mx 0 t.mx.cfgFormat)) (qPort q port) false).isNone,
                .mld (a.toNat % 2 ^ 18) (qPort q port)),
              (Instr.mswap h, true, .mswap),
              (Instr.mmul h rs rt tr z q port, (q || port == 0) && rangeOk a (some b)
                && (moveCheck t (mAddr a) (passSpan (progCfg t.mx 0 t.mx.cfgFormat) (mCount b)) (qPort q port) false).isNone,
                .mmul (a.toNat % 2 ^ 18) (a.toNat / 2 ^ 18 % 256) (b.toNat % 512) tr z (qPort q port)),
              (Instr.mdrain h rs rt tr z q port, (q || port == 0) && rangeOk a (some b)
                && (moveCheck t (mAddr a) (drainSpan (progCfg t.mx 1 t.mx.cfgDrain) (mCount b) tr) (qPort q port) true).isNone,
                .mdrain (a.toNat % 2 ^ 18) (a.toNat / 2 ^ 18 % 256) (b.toNat % 512) tr z (qPort q port)),
              (Instr.mramp h level, decide (level.toNat ≤ 16), .mramp level.toNat)] : List (Instr × Bool × MOp)),
        r.2.1 = true → (∀ ch ∈ r.2.2.port, portHeld t ch = false) →
        exec r.1 s = .next (s.setTile (ckey h.t)
          { t with
            core := t.core.past
            mx := { t.mx with
              nextNum := t.mx.nextNum + 1
              queue := t.mx.queue ++ [{ num := t.mx.nextNum, pc := t.core.pc, op := r.2.2, cfg := 0, base := 0
                                        tensor := t.core.tensorId, pos := 0, swapped := false }] } })) ∧
    (t.mx.idle = true → exec (.msync h) s = .next (s.modCore h.t Core.past))

/-- R95, R96, R97: an `mcfg` whose FORMAT word pairs BF16 with another format, names a reserved code, scales BF16 or sets a
reserved bit raises ILLEGAL_INSTR; a ninth matrix instruction waits. -/
def Sys2Proof.Claims.MatrixIllegal : Prop :=
  ∀ (s : State) (h : Hdr) (rs : BitVec 5) (w : Nat) (t : Tile),
    Issues s h → t = s.tile (ckey h.t) → w = (t.core.sreg rs).toNat →
    (bits w 28 4 ≠ 0 ∨ bits w 0 14 ≠ 0 ∨ 6 < bits w 24 4 ∨ 6 < bits w 20 4 ∨ bits w 18 2 = 3 ∨ bits w 16 2 = 3 ∨
      (bits w 24 4 = 1 ∧ 1 < bits w 20 4) ∨ (bits w 20 4 = 1 ∧ 1 < bits w 24 4) ∨
      (bits w 24 4 = 1 ∧ bits w 18 2 ≠ 0) ∨ (bits w 20 4 = 1 ∧ bits w 16 2 ≠ 0) →
      exec (.mcfgFormat h rs) s = .next (takeExc s h.t 1 t.core.pc.toNat true 0)) ∧
    (8 ≤ t.mx.queue.length →
      exec (.mswap h) s = .next (s.modCore h.t fun k => { k with wait := some .matrixQueue }))

/-- Matrix instructions join the matrix queue in order, a full queue stalls the core, and a reserved FORMAT word is illegal.
The model's readings of what the rules leave open here: log entries 25 and 32. -/
def Obligations.MatrixInstructions : Prop :=
  Claims.MatrixIssue ∧ Claims.MatrixIllegal

/-- R68 to R70, R73: `dma` reads a sound, untagged descriptor, pending stores to its line written back first; one whose
fields are in range, whose remote bytes the context may reach and whose bin lines are mapped is taken into work when fewer
than four stand. A fifth waits, a field out of range raises DMA_DESC and remote bytes out of reach DMA_ADDRESS. `dclr`
zeroes its counter, and `dwait` completes unless (target − k) mod 65,536 lies in 1 to 32,767, and otherwise waits. -/
def Sys2Proof.Claims.DmaIssue : Prop :=
  ∀ (s : State) (h : Hdr) (rs : BitVec 5) (kc : BitVec 3) (c : Nat) (x : Ctx) (t : Tile) (a q : Nat) (w : Nat),
    Issues s h → InCtx s h.t c x → t = s.tile (ckey h.t) →
    w = ((t.core.sreg rs).toNat + 65536 - (mget t.core.k 0 kc.toNat).toNat) % 65536 →
    (a = (t.core.sreg rs).toNat → a < 2 ^ 18 → a % 32 = 0 → physLine t (a / 64) = some q →
      (4 ≤ t.dma.descs.length → exec (.dma h rs) s = .next (s.modCore h.t fun k => { k with wait := some .dmaSlot })) ∧
      (t.dma.descs.length < 4 → ∀ (f : State) (u : Tile) (n : Nat) (d : DmaDesc),
        f = flushSpan s h.t (a / 64) 1 → u = f.tile (ckey h.t) → u.bin.lineOk q = true → u.bin.tag q = false →
        n = leNat (cellRead u.bin.data (64 * q + a % 64) 32) → d = descOf n a t.core.tensorId t.core.pc →
        (t.bin.gatherOf q = none → f = s) ∧
        (descOk n d = true → reachable f x.cdef d = true → descUnmapped u d = none →
          exec (.dma h rs) s = .next (advance (f.setTile (ckey h.t)
            { u with dma := { u.dma with descs := mput u.dma.descs (nextFree u.dma.descs) d } }) h.t)) ∧
        (descOk n d = false → exec (.dma h rs) s = .next (takeExc s h.t 6 t.core.pc.toNat false a)) ∧
        (descOk n d = true → reachable f x.cdef d = false → exec (.dma h rs) s = .next (takeExc s h.t 5 t.core.pc.toNat false a)))) ∧
    ((coreAt s h.t).fits → exec (.dclr h kc) s = .next (s.modCore h.t fun k => { k with k := mdel k.k kc.toNat }.past)) ∧
    (1 ≤ w ∧ w ≤ 32767 →
      exec (.dwait h kc rs) s = .next (s.modCore h.t fun k => { k with wait := some (.dmaCount kc (t.core.sreg rs)) })) ∧
    ((coreAt s h.t).fits → w = 0 ∨ 32767 < w → exec (.dwait h kc rs) s = .next (s.modCore h.t Core.past))

/-- R74 to R76, R255: `msend` from a register or an input port to a tile that declares the sender, with none outstanding to
it and room at the tile port, sends the vector as one request flit and records it; a second message to that tile waits, and
a destination that is outside the rectangle or does not declare the sender raises MSG_TARGET. `mrecv` gives the oldest
message, or the oldest of the sender it names, to a register or an output port and owes its sender the credit; with none
there it waits. -/
def Sys2Proof.Claims.TileMessages : Prop :=
  ∀ (s : State) (h : Hdr) (v rs : BitVec 5) (c : Nat) (x : Ctx) (t : Tile) (w : Word) (dst : Coord),
    Issues s h → InCtx s h.t c x → t = s.tile (ckey h.t) → w = t.core.sreg rs →
    dst = ⟨x.cdef.x0 + w.toNat % 128, x.cdef.y0 + w.toNat / 128 % 128⟩ →
    (portsBlock s x.cdef (ckey h.t) true (portsOf [v]) [] = none →
      (x.cdef.has dst = true → (s.tile (ckey dst)).dma.senders.contains (x.cdef.relCode h.t) = true →
        (t.dma.msgOut.contains (ckey dst) = false → 0 < portRoom s h.t .request →
          exec (.msend h v rs) s = .next (advance
            (((popAll s x.cdef h.t (portsOf [v])).modTile (ckey h.t) fun t =>
                { t with dma := { t.dma with msgOut := sadd t.dma.msgOut (ckey dst) } }).send
              { cls := .request, ctx := BitVec.ofNat 4 c, op := 6, dst := dst, src := h.t, item := srcItem t v }) h.t)) ∧
        (t.dma.msgOut.contains (ckey dst) = true →
          exec (.msend h v rs) s = .next (s.modCore h.t fun k => { k with wait := some (.msgDest (ckey dst)) }))) ∧
      (x.cdef.has dst = false ∨ (s.tile (ckey dst)).dma.senders.contains (x.cdef.relCode h.t) = false →
        exec (.msend h v rs) s = .next (takeExc s h.t 7 t.core.pc.toNat false (w.toNat % 2 ^ 14)))) ∧
    (portsBlock s x.cdef (ckey h.t) true [] (portsOf [v]) = none →
      (∀ (m : Mail) (i : Nat), t.dma.mailbox[i]? = some m →
        (w = 0xFFFFFFFF#32 ∧ i = 0 ∨ w ≠ 0xFFFFFFFF#32 ∧ m.sender = w.toNat % 2 ^ 14 ∧
          ∀ j n, j < i → t.dma.mailbox[j]? = some n → n.sender ≠ w.toNat % 2 ^ 14) →
        ∃ q : State, exec (.mrecv h v rs) s = .next (advance (putVec q c x.cdef h.t v m.data) h.t) ∧
          (q.tile (ckey h.t)).dma = { t.dma with mailbox := t.dma.mailbox.eraseIdx i } ∧ (q.tile (ckey h.t)).core = t.core ∧
          q.mem = s.mem ∧ q.ctxs = s.ctxs ∧ (∀ j, j ≠ ckey h.t → q.tile j = s.tile j) ∧
          (t.owed = [] → 0 < portRoom s h.t .reply → (∀ e ∈ t.chst, e.2.spilling = false) →
            ∃ n f, mfind q.mesh.flits n = some f ∧ f.cls = .reply ∧ f.op = 1 ∧ f.src = h.t ∧
              f.dst = keyXY (ckey ⟨x.cdef.x0 + m.sender % 128, x.cdef.y0 + m.sender / 128 % 128⟩))) ∧
      (w = 0xFFFFFFFF#32 → t.dma.mailbox = [] →
        exec (.mrecv h v rs) s = .next (s.modCore h.t fun k => { k with wait := some (.mail none) })) ∧
      (w ≠ 0xFFFFFFFF#32 → (∀ m ∈ t.dma.mailbox, m.sender ≠ w.toNat % 2 ^ 14) →
        exec (.mrecv h v rs) s = .next (s.modCore h.t fun k => { k with wait := some (.mail (some (w.toNat % 2 ^ 14))) })))

/-- dma takes up a valid descriptor, dwait and dclr act on its counters, and messages go to declared destinations one at a
time. The model's readings of what the rules leave open here: log entries 28, 29 and 89. -/
def Obligations.DmaAndMessages : Prop :=
  Claims.DmaIssue ∧ Claims.TileMessages

/-- R55, R77, R100: `qwait`, `dwaitt` and `mwait` end with their predicate 1 when their condition holds: an item at an input
that no matrix instruction holds, the count reached, or a message of the sender named, or of any; they consume nothing, and
otherwise stand as a timed wait with its limit. -/
def Sys2Proof.Claims.TimedWaits : Prop :=
  ∀ (s : State) (h : Hdr) (qa qb rs rt : BitVec 5) (kc pd : BitVec 3) (c : Nat) (x : Ctx) (t : Tile) (w : Word) (o : Option Nat),
    Issues s h → (coreAt s h.t).fits → InCtx s h.t c x → t = s.tile (ckey h.t) → w = t.core.sreg rs →
    o = (if w = 0xFFFFFFFF#32 then none else some (w.toNat % 2 ^ 14)) →
    (qa.toNat < 8 → isPort qb = true → portBound t (portOf qb) = true → chOut (t.chan (portOf qb)) = false →
      (portHeld t (portOf qb) = true →
        exec (.qwait h qa qb rs) s = .next (s.modCore h.t fun k => { k with wait := some (.portHeld (portOf qb)) })) ∧
      (portHeld t (portOf qb) = false →
        ((t.cst (portOf qb)).store ≠ [] → exec (.qwait h qa qb rs) s = .next (s.modCore h.t fun k =>
          { k.setPred (BitVec.ofNat 3 qa.toNat) true with timed := none }.past)) ∧
        ((t.cst (portOf qb)).store = [] → exec (.qwait h qa qb rs) s = .next (s.modCore h.t fun k =>
          { k with timed := some ⟨.queueIn (portOf qb), BitVec.ofNat 3 qa.toNat, w⟩ })))) ∧
    (qa.toNat < 8 → isPort qb = true → portBound t (portOf qb) = false ∨ chOut (t.chan (portOf qb)) = true →
      exec (.qwait h qa qb rs) s = .next (takeExc s h.t 4 t.core.pc.toNat false (portOf qb))) ∧
    (countReached (mget t.core.k 0 kc.toNat) w = true →
      exec (.dwaitt h kc pd rs rt) s = .next (s.modCore h.t fun k => { k.setPred pd true with timed := none }.past)) ∧
    (countReached (mget t.core.k 0 kc.toNat) w = false →
      exec (.dwaitt h kc pd rs rt) s = .next (s.modCore h.t fun k =>
        { k with timed := some ⟨.dmaCount kc w, pd, t.core.sreg rt⟩ })) ∧
    ((∃ m ∈ t.dma.mailbox, ∀ n ∈ o, m.sender = n) → exec (.mwait h pd rs rt) s = .next (s.modCore h.t fun k =>
      { k.setPred pd true with timed := none }.past)) ∧
    ((∀ m ∈ t.dma.mailbox, ∃ n ∈ o, m.sender ≠ n) → exec (.mwait h pd rs rt) s = .next (s.modCore h.t fun k =>
      { k with timed := some ⟨.mail o, pd, t.core.sreg rt⟩ }))

/-- R77, R78: the expiry of a timed wait writes its predicate 0 and the program goes on; where what it awaits, an item, a
count or a message, is there in that same cycle it writes 1 and counts one LATE_ACCEPT of the context. -/
def Sys2Proof.Claims.TimedWaitExpires : Prop :=
  ∀ (s : State) (p : Coord) (w : TimedWait) (c : Nat) (x : Ctx) (there : Bool),
    canIssue s p = true → (coreAt s p).timed = some w → (coreAt s p).fits → InCtx s p c x → s.ctx c = some x →
    there = (match w.on with
      | .queueIn ch => !((s.tile (ckey p)).cst ch).store.isEmpty
      | .dmaCount k target => countReached (mget (coreAt s p).k 0 k.toNat) target
      | .mail (some n) => (s.tile (ckey p)).dma.mailbox.any fun m => m.sender == n
      | .mail none => !(s.tile (ckey p)).dma.mailbox.isEmpty
      | _ => false) →
    (there = false →
      exec (.timedWaitExpiry p) s = .next (s.modCore p fun k => { k.setPred w.pd false with timed := none }.past)) ∧
    (there = true → ∃ u, exec (.timedWaitExpiry p) s = .next u ∧
      coreAt u p = { (coreAt s p).setPred w.pd true with timed := none }.past ∧
      (∃ y, u.ctx c = some y ∧ y.tally = { x.tally with late := x.tally.late + 1 } ∧
        y.rec_ = { x.rec_ with late := satAdd x.rec_.late 1 16383 } ∧ y.run = x.run ∧ y.cdef = x.cdef) ∧
      u.mem = s.mem ∧ ∀ j, j ≠ ckey p → u.tile j = s.tile j)

/-- qwait, dwaitt and mwait end with 1 when their condition holds and with 0 when they expire first. The model's readings of
what the rules leave open here: log entries 11 and 30. -/
def Obligations.TimedWaits : Prop :=
  Claims.TimedWaits ∧ Claims.TimedWaitExpires

/-- R19, R46, R47, R50: `nop` only moves on; `csrr` reads each listed register and `csrw` writes the three that are
writable; a read of CYCLE_LO latches CYCLE_HI, and a write of FP_FLAGS that sets a reserved bit leaves the register as it
is. A read of an unlisted index and a write of a read-only or unlisted one raise ILLEGAL_INSTR. -/
def Sys2Proof.Claims.ControlRegisters : Prop :=
  ∀ (s : State) (h : Hdr) (r : BitVec 5) (csr : BitVec 12) (c : Nat) (x : Ctx) (k : Core) (cyc : Nat),
    Issues s h → k.fits → InCtx s h.t c x → k = coreAt s h.t →
    cyc = (mget s.clk.qs {} (quarterOf s h.t)).cycles.toNat →
    exec (.nop h) s = .next (s.modCore h.t Core.past) ∧
    exec (.csrr h r 0x000) s = .next (s.modCore h.t fun k =>
      ({ k with cycleHi := BitVec.ofNat 32 (cyc / 2 ^ 32) }.setS r (BitVec.ofNat 32 cyc)).past) ∧
    (∀ e ∈ ([(0x001, k.cycleHi), (0x002, BitVec.ofNat 32 x.run.step.toNat), (0x003, BitVec.ofNat 32 (x.run.step.toNat / 2 ^ 32)),
             (0x010, BitVec.ofNat 32 (h.t.x - x.cdef.x0)), (0x011, BitVec.ofNat 32 (h.t.y - x.cdef.y0)),
             (0x012, BitVec.ofNat 32 x.cdef.w), (0x013, BitVec.ofNat 32 x.cdef.h), (0x014, BitVec.ofNat 32 c),
             (0x020, k.tensorId), (0x021, k.elementBase), (0x030, BitVec.ofNat 32 k.fpFlags.toNat), (0x040, mget k.c 0 0),
             (0x041, mget k.c 0 1), (0x042, mget k.c 0 2), (0x043, mget k.c 0 3)] : List (BitVec 12 × Word)),
      exec (.csrr h r e.1) s = .next (s.modCore h.t fun k => (k.setS r e.2).past)) ∧
    exec (.csrw h r 0x020) s = .next (s.modCore h.t fun k => { k with tensorId := k.sreg r }.past) ∧
    exec (.csrw h r 0x021) s = .next (s.modCore h.t fun k => { k with elementBase := k.sreg r }.past) ∧
    ((k.sreg r).toNat < 32 →
      exec (.csrw h r 0x030) s = .next (s.modCore h.t fun k => { k with fpFlags := (k.sreg r).setWidth 5 }.past)) ∧
    (32 ≤ (k.sreg r).toNat → exec (.csrw h r 0x030) s = .next (s.modCore h.t Core.past)) ∧
    (csr ∉ [0x000#12, 0x001, 0x002, 0x003, 0x010, 0x011, 0x012, 0x013, 0x014, 0x020, 0x021, 0x030, 0x040, 0x041, 0x042, 0x043] →
      exec (.csrr h r csr) s = .next (takeExc s h.t 1 k.pc.toNat false 0)) ∧
    (csr ∉ [0x020#12, 0x021, 0x030] → exec (.csrw h r csr) s = .next (takeExc s h.t 1 k.pc.toNat false 0))

/-- R80, R82, R85, R166, R216, R219: `fallow` with no move pending in a context that neither drains nor is paused only moves
on, and in one that does it holds the tile at the next instruction; with a move pending it writes back every gather entry,
and stops for the move where that can be made now. `stepend` and `secend` write back every gather entry and stop the tile
there, and the `stepend` of a cluster's north-west tile ends the step of its four tiles. Each marks the time of a fallow
point, and no visible byte of the bin changes. -/
def Sys2Proof.Claims.FallowPoints : Prop :=
  ∀ (s : State) (h : Hdr) (c : Nat) (x : Ctx) (t : Tile),
    InCtx s h.t c x → t = s.tile (ckey h.t) →
    (Issues s h → (coreAt s h.t).fits → t.moveTo = none →
      (x.run.pauseState = 0 → exec (.fallow h) s = .next (s.modTile (ckey h.t) fun t =>
        { t with core := t.core.past, lastFallow := s.clk.timeUs, gapLate := false })) ∧
      (x.run.pauseState ≠ 0 → exec (.fallow h) s = .next (s.modTile (ckey h.t) fun t =>
        { t with core := { t.core with run := .held }.past, lastFallow := s.clk.timeUs, gapLate := false }))) ∧
    (Issues s h → (coreAt s h.t).fits → Untraced s h.t → t.moveTo ≠ none →
      ∃ u, exec (.fallow h) s = .next u ∧ OnlyTile s u (ckey h.t) ∧
        u.tile (ckey h.t) = { t with
          core := if x.run.pauseState ≠ 0 then { t.core with run := .held }.past
            else if moveReady s (ckey h.t) then { t.core with run := .moving, wait := none } else t.core.past
          lastFallow := s.clk.timeUs, gapLate := false, bin := (u.tile (ckey h.t)).bin } ∧
        (∀ g ∈ (u.tile (ckey h.t)).bin.gather, g.mask = 0) ∧
        ∀ l j, j < 64 → (u.tile (ckey h.t)).bin.visible l j = t.bin.visible l j) ∧
    (Issues s h → Untraced s h.t → ∀ e ∈ [(Instr.stepend h, RunState.stepEnd), (Instr.secend h, RunState.secEnd)],
      ∃ u, exec e.1 s = .next u ∧ OnlyTile s u (ckey h.t) ∧
        u.tile (ckey h.t) = { t with
          core := { t.core with run := e.2, wait := none }, lastFallow := s.clk.timeUs, gapLate := false
          bin := (u.tile (ckey h.t)).bin } ∧
        (∀ g ∈ (u.tile (ckey h.t)).bin.gather, g.mask = 0) ∧
        ∀ l j, j < 64 → (u.tile (ckey h.t)).bin.visible l j = t.bin.visible l j) ∧
    (x.cdef.cluster = true → x.rec_.state = 1 → (h.t.x - x.cdef.x0) % 2 = 0 → (h.t.y - x.cdef.y0) % 2 = 0 →
      t.core.run = .running → t.core.halted = false → s.clk.tilesStopped = false →
      ∃ u, exec (.stepend h) s = .next u ∧ ∀ q ∈ [h.t, ⟨h.t.x + 1, h.t.y⟩, ⟨h.t.x, h.t.y + 1⟩, ⟨h.t.x + 1, h.t.y + 1⟩],
        (coreAt u q).run = .stepEnd)

/-- csrr and csrw reach exactly the listed registers, nop moves on, and fallow, stepend and secend hold a tile as their
rules say. The model's readings of what the rules leave open here: log entries 31 and 86. -/
def Obligations.ControlAndFallow : Prop :=
  Claims.ControlRegisters ∧ Claims.FallowPoints

/-- R48, R49, R52, R77: for every instruction of Furrow, with the slot its class has and the encodings that R50 to R52
forbid it: a tile that may not issue does nothing, and while a timed wait stands nothing but that wait issues; a word at the
program counter that no instruction has, an unused bit that is not zero and a forbidden encoding raise ILLEGAL_INSTR
whatever the guard; otherwise a false guard only moves past it. -/
def Sys2Proof.Claims.GuardAndEncoding : Prop :=
  ∀ (s : State) (h : Hdr) (a b d : BitVec 5) (imm : BitVec 11) (vo : BitVec 12) (br : BitVec 22) (wide : BitVec 19) (pd pe : BitVec 3)
    (f g z : Bool) (ck : BitVec 2) (body : BitVec 10) (df sf port : BitVec 4) (k : Core) (base waits : List (Instr × Bool × Bool)),
    k = coreAt s h.t → clusterRuns s h.t = false →
    base =
      ([(Instr.add h a b d, false, false), (Instr.sub h a b d, false, false), (Instr.and h a b d, false, false),
        (Instr.or h a b d, false, false), (Instr.xor h a b d, false, false), (Instr.shl h a b d, false, false),
        (Instr.shr h a b d, false, false), (Instr.sra h a b d, false, false), (Instr.slt h a b d, false, false),
        (Instr.sltu h a b d, false, false), (Instr.min h a b d, false, false), (Instr.max h a b d, false, false),
        (Instr.mul h a b d, false, false), (Instr.mulhu h a b d, false, false), (Instr.mulhs h a b d, false, false),
        (Instr.addi h a b imm, false, false), (Instr.andi h a b imm, false, false), (Instr.ori h a b imm, false, false),
        (Instr.xori h a b imm, false, false), (Instr.slti h a b imm, false, false),
        (Instr.shli h a b imm, false, decide (32 ≤ imm.toNat)), (Instr.shri h a b imm, false, decide (32 ≤ imm.toNat)),
        (Instr.srai h a b imm, false, decide (32 ≤ imm.toNat)), (Instr.lui h a wide, false, false),
        (Instr.cmpEq h pd a b f, false, false), (Instr.cmpNe h pd a b f, false, false),
        (Instr.cmpLt h pd a b f, false, false), (Instr.cmpGe h pd a b f, false, false),
        (Instr.cmpLtu h pd a b f, false, false), (Instr.cmpGeu h pd a b f, false, false), (Instr.br h br, false, false),
        (Instr.call h br, false, false), (Instr.jr h a, false, false), (Instr.ret h, false, false),
        (Instr.loop h ck f body imm, false, body == 0 || (!f && decide (32 ≤ imm.toNat))),
        (Instr.ld32 h a b imm, false, false), (Instr.ld16u h a b imm, false, false),
        (Instr.ld16s h a b imm, false, false), (Instr.ld8u h a b imm, false, false),
        (Instr.ld8s h a b imm, false, false), (Instr.st32 h a b imm, false, false), (Instr.st16 h a b imm, false, false),
        (Instr.st8 h a b imm, false, false), (Instr.vld h a b vo, false, false), (Instr.vst h a b vo, false, false),
        (Instr.vadd h a b d, true, dupPort [a, b, d]), (Instr.vsub h a b d, true, dupPort [a, b, d]),
        (Instr.vmul h a b d, true, dupPort [a, b, d]), (Instr.vmax h a b d, true, dupPort [a, b, d]),
        (Instr.vmin h a b d, true, dupPort [a, b, d]), (Instr.vcmplt h a b d, true, dupPort [a, b, d]),
        (Instr.vcmpeq h a b d, true, dupPort [a, b, d]), (Instr.vand h a b d, true, dupPort [a, b, d]),
        (Instr.vor h a b d, true, dupPort [a, b, d]), (Instr.vxor h a b d, true, dupPort [a, b, d]),
        (Instr.vaddi h a b d, true, dupPort [a, b, d]), (Instr.vsubi h a b d, true, dupPort [a, b, d]),
        (Instr.vfma h a b d, true, isPort a || dupPort [a, b, d]),
        (Instr.vfms h a b d, true, isPort a || dupPort [a, b, d]),
        (Instr.vsel h a b d, true, isPort a || dupPort [a, b, d]), (Instr.vabs h a b d, true, dupPort [a, b] || d != 0),
        (Instr.vneg h a b d, true, dupPort [a, b] || d != 0), (Instr.vmov h a b d, true, dupPort [a, b] || d != 0),
        (Instr.vexp h a b df sf, true, df != 0 || sf != 0 || dupPort [a, b]),
        (Instr.vlog h a b df sf, true, df != 0 || sf != 0 || dupPort [a, b]),
        (Instr.vrsqrt h a b df sf, true, df != 0 || sf != 0 || dupPort [a, b]),
        (Instr.vrcp h a b df sf, true, df != 0 || sf != 0 || dupPort [a, b]),
        (Instr.vredsum h a b df sf, true, df != 0 || sf != 0 || dupPort [a, b]),
        (Instr.vredmax h a b df sf, true, df != 0 || sf != 0 || dupPort [a, b]),
        (Instr.vredmin h a b df sf, true, df != 0 || sf != 0 || dupPort [a, b]),
        (Instr.vcvt h a b df sf, true, (cvtOf df sf).isNone || dupPort [a, b]),
        (Instr.vcvtsr h a b df sf, true, sf != 0 || (narrowFmt df).isNone || dupPort [a, b]),
        (Instr.qrecv h a b d, false, !isPort b || d != 0), (Instr.qsend h a b d, false, !isPort a || d != 0),
        (Instr.qcount h a b d, false, !isPort b || d != 0), (Instr.vbcast h a b d, false, d != 0),
        (Instr.vext h a b d, false, false), (Instr.vins h a b d, false, isPort a), (Instr.mcfgFormat h a, true, false),
        (Instr.mcfgDrain h a, true, false), (Instr.mcfgElementBase h a, true, false),
        (Instr.mld h a f port, true, !f && port != 0), (Instr.mswap h, true, false),
        (Instr.mmul h a b g z f port, true, !f && port != 0), (Instr.mdrain h a b g z f port, true, !f && port != 0),
        (Instr.msync h, true, false), (Instr.mramp h a, true, decide (16 < a.toNat)), (Instr.dma h a, false, false),
        (Instr.dwait h pd a, false, false), (Instr.dclr h pd, false, false), (Instr.msend h a b, false, false),
        (Instr.mrecv h a b, false, false), (Instr.nop h, false, false), (Instr.csrr h a vo, false, false),
        (Instr.csrw h a vo, false, false), (Instr.fallow h, false, false), (Instr.stepend h, false, false),
        (Instr.secend h, false, false)]) →
    waits = ([(Instr.qwait h a b d, false, decide (8 ≤ a.toNat) || !isPort b), (Instr.dwaitt h pd pe a b, false, false),
        (Instr.mwait h pd a b, false, false)]) →
    (canIssue s h.t = false → ∀ i ∈ base ++ waits, exec i.1 s = .next s) ∧
    (canIssue s h.t = true → k.timed ≠ none → ∀ i ∈ base, exec i.1 s = .next s) ∧
    (canIssue s h.t = true → k.timed = none → ∀ i ∈ base ++ waits,
      (∀ w, k.reservedWord = some w →
        exec i.1 s = .next (takeExc { s with draws := s.draws + 1 } h.t 1 k.pc.toNat (wordSlot w s.draws) 0)) ∧
      (k.reservedWord = none →
        (h.unused ≠ 0 ∨ i.2.2 = true → exec i.1 s = .next (takeExc s h.t 1 k.pc.toNat i.2.1 0)) ∧
        (h.unused = 0 → i.2.2 = false → k.guard h = false → k.fits → exec i.1 s = .next (s.modCore h.t Core.past))))

/-- R56, R84: when the instruction at index 8,191 is moved past, PC_RANGE is taken with PC_INDEX 8,191. -/
def Sys2Proof.Claims.PcRange : Prop :=
  ∀ (s : State) (h : Hdr) (c : Nat) (x : Ctx),
    Issues s h → InCtx s h.t c x → (coreAt s h.t).pc = 8191#13 → (coreAt s h.t).loops = [] →
    ∃ (b : Bool), exec (.nop h) s = .next (takeExc { s with draws := s.draws + 1 } h.t 0x0A 8191 b 0)

/-- R83, R84, R367, R368: a tile exception of a running context stops the tile, records the first of the step with its code,
place and detail and raises TILE_EXCEPTION, and starts the reset of the context: cause TILE_EXCEPTION, POISON for
POISON_CONSUMED or TILE_FAULT for IMEM_UNCORRECTABLE, state resetting, one reset more, and the epoch advanced. Memory and
every other tile stay. -/
def Sys2Proof.Claims.ExceptionTaken : Prop :=
  ∀ (s : State) (p : Coord) (code pc detail c : Nat) (slotB : Bool) (x : Ctx),
    InCtx s p c x → s.ctx c = some x → x.rec_.state = 1 → admitting s c = false →
    (∃ y, (takeExc s p code pc slotB detail).ctx c = some y ∧ y.rec_.state = 2 ∧
      y.rec_.cause = (if code = 8 then 5 else if code = 9 then 7 else 4) ∧
      y.rec_.total = satAdd x.rec_.total 1 65535 ∧ (y.rec_.recovering = true ↔ code = 8 ∨ code = 9) ∧
      y.rec_.remap = (if code = 9 then [ckey p] else []) ∧ y.cdef = x.cdef) ∧
    (coreAt (takeExc s p code pc slotB detail) p).run = .excepted ∧
    epochOf (takeExc s p code pc slotB detail) c = epochOf s c + 1 ∧
    (x.run.excSeen = false → mfind (takeExc s p code pc slotB detail).excRec c =
        some (excWord code x.cdef p pc slotB detail) ∧
      (takeExc s p code pc slotB detail).events = (raise s .tileException [c]).events) ∧
    (x.run.excSeen = true → (takeExc s p code pc slotB detail).excRec = s.excRec) ∧
    (takeExc s p code pc slotB detail).mem = s.mem ∧
    ∀ j, j ≠ ckey p → (takeExc s p code pc slotB detail).tile j = s.tile j

/-- A bad encoding raises ILLEGAL_INSTR, a false guard only moves on, and an exception stops the tile and resets its
context. The model's readings of what the rules leave open here: log entries 1, 25 and 27. -/
def Obligations.GuardsAndExceptions : Prop :=
  Claims.GuardAndEncoding ∧ Claims.PcRange ∧ Claims.ExceptionTaken

/-! ### Engines of a tile -/

/-- R96 to R98, R101, R102, R122: the instruction at the head of the matrix queue leaves it when its engine has room and its
capture is allowed: an `mcfg` sets its configuration word, an `mramp` the level target, an `mswap` toggles the buffer of
later instructions, and `mld`, `mmul` and `mdrain` join their engine with the word in force; a capture that R97 or R101
forbids raises ILLEGAL_INSTR at that instruction once every earlier one has completed. -/
def Sys2Proof.Claims.MatrixDispatchResults : Prop :=
  ∀ (s : State) (p : Coord) (l : Nat × Ctx) (t : Tile) (e : MEntry) (rest : List MEntry) (w : Word),
    arrayLive s p = some l → t = s.tile (ckey p) → t.mx.queue = e :: rest → w = t.mx.capture e.op →
    (t.mx.room e.op = true → t.mx.captureOk e.op w.toNat = true →
      ∃ u, exec (.matrixDispatch p) s = .next u ∧ OnlyTile s u (ckey p) ∧ (u.tile (ckey p)).mx.queue = rest ∧
        (u.tile (ckey p)).core = t.core ∧ (u.tile (ckey p)).bin = t.bin ∧ (u.tile (ckey p)).mx.acc = t.mx.acc ∧
        (∀ v, e.op = .mcfg 0 v → (u.tile (ckey p)).mx.cfgFormat = v) ∧
        (∀ v, e.op = .mcfg 1 v → (u.tile (ckey p)).mx.cfgDrain = v) ∧
        (∀ v, e.op = .mcfg 2 v → (u.tile (ckey p)).mx.cfgBase = v) ∧
        (∀ v, e.op = .mramp v → (u.tile (ckey p)).ramp = { t.ramp with target := v }) ∧
        (e.op = .mswap → (u.tile (ckey p)).mx.swapIssued = !t.mx.swapIssued) ∧
        (∀ a q, e.op = .mld a q → (u.tile (ckey p)).mx.loadQ =
          t.mx.loadQ ++ [{ e with cfg := t.mx.cfgFormat, base := t.mx.cfgBase, swapped := t.mx.swapIssued }]) ∧
        (∀ a r n tr z q, e.op = .mmul a r n tr z q → (u.tile (ckey p)).mx.arrayQ.getLast? =
          some { e with cfg := t.mx.cfgFormat, base := t.mx.cfgBase, swapped := t.mx.swapIssued }) ∧
        (∀ a r n tr cl q, e.op = .mdrain a r n tr cl q →
          (u.tile (ckey p)).mx.drainQ =
            t.mx.drainQ ++ [{ e with cfg := t.mx.cfgDrain, base := t.mx.cfgBase, swapped := t.mx.swapIssued }] ∧
          (u.tile (ckey p)).mx.cfgBase = t.mx.cfgBase + BitVec.ofNat 32 (64 * n))) ∧
    (t.mx.room e.op = true → t.mx.captureOk e.op w.toNat = false → t.mx.enginesIdle = true →
      exec (.matrixDispatch p) s = .next (takeExc s p 1 e.pc.toNat true 0)) ∧
    (t.mx.room e.op = false ∨ (t.mx.captureOk e.op w.toNat = false ∧ t.mx.enginesIdle = false) →
      exec (.matrixDispatch p) s = .next s)

/-- R98, R104, R111, R120 to R122, R126: a load that no row, no earlier `mmul` and no earlier drain holds back leaves its
engine with its image and what the load engine records of it in its buffer, or keeps the items it has until its queue has
given enough; a ready row of the oldest `mmul` enters the cells behind the rows already there where the window has a free
slot, and waits where it has none; a discarded row re-enters in the same way; and a poisoned row or block raises
POISON_CONSUMED at its `mmul`, of which no row has then an effect, once every earlier instruction has completed. -/
def Sys2Proof.Claims.MatrixLoadsAndRows : Prop :=
  ∀ (s : State) (p : Coord) (c : Nat) (x : Ctx) (t : Tile) (e : MEntry) (rest : List MEntry) (win : Nat),
    arrayLive s p = some (c, x) → t = s.tile (ckey p) → win = slotWindow s p →
    (t.mx.loadQ = e :: rest → (t.mx.rows.any fun r => r.swapped == e.usesB) = false → t.mx.entering e.num = false →
      t.mx.unwritten e.num e.reads = false →
      (∀ a d poison, e.op = .mld a none →
        (readLines ((flushSpan s p (a / 64) ((imageBytes e.cfg.toNat + 63) / 64)).tile (ckey p)) (a / 64)
          ((imageBytes e.cfg.toNat + 63) / 64)).2 = .ok d poison →
        ∃ u, exec (.mldComplete p) s = .next u ∧ (u.tile (ckey p)).mx.loadQ = rest ∧
          (u.tile (ckey p)).mx.buf e.usesB = imageBuf e.cfg.toNat d poison ∧
          (u.tile (ckey p)).mx.buf (!e.usesB) = t.mx.buf (!e.usesB) ∧ (u.tile (ckey p)).mx.acc = t.mx.acc ∧
          ∀ j, j ≠ ckey p → u.tile j = s.tile j) ∧
      (∀ a ch s2 bs, e.op = .mld a (some ch) →
        gatherItems s c x.cdef p ch (imageBytes e.cfg.toNat) (itemsFor (imageBytes e.cfg.toNat)) t.mx.loadBytes = (s2, bs) →
        (imageBytes e.cfg.toNat ≤ bs.length → ∃ u, exec (.mldComplete p) s = .next u ∧ OnlyTile s2 u (ckey p) ∧
          (u.tile (ckey p)).mx.loadQ = rest ∧ (u.tile (ckey p)).mx.loadBytes = [] ∧
          (u.tile (ckey p)).mx.buf e.usesB =
            imageBuf e.cfg.toNat (leNat ((bs.take (imageBytes e.cfg.toNat)).map (·.1))) (bs.any (·.2))) ∧
        (bs.length < imageBytes e.cfg.toNat → exec (.mldComplete p) s =
          .next (s2.modTile (ckey p) fun t => { t with mx := { t.mx with loadBytes := bs } })))) ∧
    (∀ r, (t.mx.rows.find? fun r => !r.entered) = some r →
      ((t.ramp.atWin win).slotFree = true → ∃ u, exec (.mmulRowEnter p) s = .next u ∧ OnlyTile s u (ckey p) ∧
        (u.tile (ckey p)).mx = { t.mx with rows := reenter t.mx.rows }) ∧
      ((t.ramp.atWin win).slotFree = false → exec (.mmulRowEnter p) s =
        .next (s.modTile (ckey p) fun t => { t with ramp := (t.ramp.atWin win).wait }))) ∧
    (∀ a row0 n tr z q, t.mx.arrayQ = e :: rest → e.op = .mmul a row0 n tr z q →
      (t.mx.rows.find? fun r => !r.entered) = none → t.mx.awaits e.usesB e.num = false → (t.mx.buf e.usesB).loaded = true →
      t.mx.unwritten e.num e.reads = false → rowReady t e (rowBytes e.cfg.toNat) = true →
      ((t.ramp.atWin win).slotFree = false → exec (.mmulRowEnter p) s =
        .next (s.modTile (ckey p) fun t => { t with ramp := (t.ramp.atWin win).wait })) ∧
      (∀ v s2, (t.ramp.atWin win).slotFree = true → (t.mx.buf e.usesB).poisoned = false →
        readRow s c x.cdef p e (rowBytes e.cfg.toNat) = (s2, .bytes v) →
        ∃ (u : State) (r : MRow), exec (.mmulRowEnter p) s = .next u ∧ OnlyTile s2 u (ckey p) ∧
          (u.tile (ckey p)).mx.rows = (s2.tile (ckey p)).mx.rows ++ [r] ∧
          r.num = e.num ∧ r.accRow = row0 + e.pos ∧ r.index = e.pos ∧ r.t = tr ∧ r.z = z ∧ r.attempts = 1 ∧
          r.cfg = e.cfg ∧ r.swapped = e.swapped ∧ r.data = v % 256 ^ (8 * (elemFmt (cfA e.cfg.toNat)).width) ∧
          r.scales = v / 256 ^ (8 * (elemFmt (cfA e.cfg.toNat)).width) ∧ r.entered = true ∧ r.passed = false ∧
          (u.tile (ckey p)).mx.acc = (s2.tile (ckey p)).mx.acc ∧ (u.tile (ckey p)).ramp.last = some r ∧
          (q = none → (s2.tile (ckey p)).mx = t.mx ∧ ∀ j, j ≠ ckey p → u.tile j = s.tile j)) ∧
      (∀ d s2, (t.ramp.atWin win).slotFree = true → readRow s c x.cdef p e (rowBytes e.cfg.toNat) = (s2, .poison d) →
        exec (.mmulRowEnter p) s = .next
          (if (s2.tile (ckey p)).mx.olderDone e.num = true then
            takeExc (s2.modTile (ckey p) fun t => { t with mx := t.mx.undone e.num }) p 8 e.pc.toNat true
              (if (t.mx.buf e.usesB).poisoned then 6 * 2 ^ 26 else d)
          else s2)) ∧
      (∀ v s2, (t.ramp.atWin win).slotFree = true → (t.mx.buf e.usesB).poisoned = true →
        readRow s c x.cdef p e (rowBytes e.cfg.toNat) = (s2, .bytes v) → exec (.mmulRowEnter p) s = .next
          (if t.mx.olderDone e.num = true then
            takeExc (s.modTile (ckey p) fun t => { t with mx := t.mx.undone e.num }) p 8 e.pc.toNat true (6 * 2 ^ 26)
          else s)))

/-- R107, R116 to R119: the oldest row that awaits its verdict passes where its witness agrees, on whatever attempt: the
tally counts a bounded or an unchecked row and each attempt before this one as a retry, and a row that needed more than one
is counted as retried and is a health input; a row that fails leaves the cells for another attempt and every unpassed row
behind it leaves with it; the third failure stops the array; and a passed row that no earlier drain has still to read adds
its block terms to its accumulator row and leaves. -/
def Sys2Proof.Claims.WitnessAndAccumulate : Prop :=
  ∀ (s : State) (p : Coord) (c : Nat) (x : Ctx) (t : Tile) (pre post : List MRow) (r : MRow) (upset : Int) (mismatch : Bool)
      (v : Bool × Bool × Bool),
    arrayLive s p = some (c, x) → t = s.tile (ckey p) → s.ctx c = some x →
    (t.mx.rows = pre ++ r :: post → (pre.all fun q => q.passed) = true → r.passed = false → r.entered = true →
      v = (verdict r (t.mx.buf r.swapped) upset).parts →
      (mismatch = false → v.1 = true →
        ∃ w : State, w.tile (ckey p) = { t with mx := { t.mx with rows := pre ++ { r with passed := true } :: post } } ∧
          w.ctx c = some { x with tally := { x.tally with
            bounded := x.tally.bounded + b2n v.2.1
            unchecked := x.tally.unchecked + b2n v.2.2
            retries := x.tally.retries + (r.attempts - 1) } } ∧
          w.mem = s.mem ∧ (∀ j, j ≠ ckey p → w.tile j = s.tile j) ∧
          exec (.witnessVerdict p upset mismatch) s = .next
            (if 1 < r.attempts then
              logicalHealth (w.count (quarterOf w p) fun n => { n with retried := satAdd n.retried 1 (2 ^ 32 - 1) }) (ckey p)
                .witnessRetried
            else w)) ∧
      (mismatch = true ∨ v.1 = false → r.attempts < 3 →
        exec (.witnessVerdict p upset mismatch) s = .next (s.modTile (ckey p) fun t => { t with mx := { t.mx with
          rows := pre ++ { r with entered := false, attempts := r.attempts + 1 } ::
            post.map fun q => if q.passed then q else { q with entered := false } } })) ∧
      (mismatch = true ∨ v.1 = false → 3 ≤ r.attempts →
        exec (.witnessVerdict p upset mismatch) s = .next (logicalHealth
          (addFault ((raise (s.modTile (ckey p) fun t => { t with mx := { t.mx with dead := true } }) .witnessPersistent
            [c, quarterOf s p]).count (quarterOf s p) fun n => { n with persistent := satAdd n.persistent 1 65535 })
            c 0x20 (BitVec.ofNat 64 (quarterOf s p))) (ckey p) .witnessPersistent))) ∧
    (∀ rest, t.mx.rows = r :: rest → r.passed = true → t.mx.drainPending r.num r.accRow = false →
      ∃ u, exec (.accumulatorUpdate p) s = .next u ∧ OnlyTile s u (ckey p) ∧ (u.tile (ckey p)).mx.rows = rest ∧
        (∀ o, o < 64 → (u.tile (ckey p)).mx.accGet r.accRow o =
          (blockTerms r (t.mx.buf r.swapped) o).foldl a48Add (if r.z then 0 else t.mx.accGet r.accRow o)) ∧
        (∀ row o, o < 64 → row ≠ r.accRow → (u.tile (ckey p)).mx.accGet row o = t.mx.accGet row o) ∧
        (u.tile (ckey p)).mx.undo =
          if t.mx.undo.map (·.1) = some r.num then t.mx.undo else some (r.num, t.mx.acc))

/-- R98, R109, R119, R121 to R123: a row of a drain is read once no earlier pass has still to update it, no earlier `mmul`
to enter rows and no earlier load to read the bytes it writes, and is cleared where the drain clears; in an interval the
array level rises by one, to 16 at most, where a row waited or the target is higher, falls by one where it has been idle for
the hold time above its target, and else stays; a dummy pass whose sums agree leaves no trace, and one that fails is counted
and is a health input. -/
def Sys2Proof.Claims.DrainAndSmoothing : Prop :=
  ∀ (s : State) (p : Coord) (c : Nat) (x : Ctx) (t : Tile) (e : MEntry) (rest : List MEntry) (w : Nat),
    t = s.tile (ckey p) → s.clk.tilesStopped = false → w = (cfgInForce s 0x2240 1).toNat →
    (∀ a row0 n tr cl q, arrayLive s p = some (c, x) → t.mx.drainQ = e :: rest → e.op = .mdrain a row0 n tr cl q →
      e.pos < n → t.mx.outBytes.length < 1024 → t.mx.mmulPending e.num (row0 + e.pos) = false → t.mx.entering e.num = false →
      t.mx.unread e.num e.writes = false →
      ∃ u, exec (.mdrainRowRead p) s = .next u ∧
        (∀ o, o < 64 → (u.tile (ckey p)).mx.accGet (row0 + e.pos) o =
          if cl then 0 else t.mx.accGet (row0 + e.pos) o) ∧
        (∀ row o, o < 64 → row ≠ row0 + e.pos → (u.tile (ckey p)).mx.accGet row o = t.mx.accGet row o) ∧
        ((u.tile (ckey p)).mx.drainQ = rest ∨ (u.tile (ckey p)).mx.drainQ = { e with pos := e.pos + 1 } :: rest) ∧
        (e.pos + 1 < n → (u.tile (ckey p)).mx.drainQ = { e with pos := e.pos + 1 } :: rest) ∧
        (q = none → (n ≤ e.pos + 1 → t.mx.outBytes = [] → (u.tile (ckey p)).mx.drainQ = rest) ∧
          u.mem = s.mem ∧ (u.tile (ckey p)).core = t.core ∧ ∀ j, j ≠ ckey p → u.tile j = s.tile j)) ∧
    (∃ u, exec (.arrayLevelStep p) s = .next u ∧ OnlyTile s u (ckey p) ∧
      u.tile (ckey p) = { t with ramp := (u.tile (ckey p)).ramp } ∧
      (t.ramp.waited = true ∨ t.ramp.level < t.ramp.target → (u.tile (ckey p)).ramp.level = min 16 (t.ramp.level + 1)) ∧
      (t.ramp.waited = false → t.ramp.target < t.ramp.level → 64 * bits w 16 8 ≤ (t.ramp.idle + 1) * bits w 0 11 →
        (u.tile (ckey p)).ramp.level = t.ramp.level - 1) ∧
      (t.ramp.waited = false → t.ramp.target < t.ramp.level → (t.ramp.idle + 1) * bits w 0 11 < 64 * bits w 16 8 →
        (u.tile (ckey p)).ramp.level = t.ramp.level) ∧
      (t.ramp.waited = false → t.ramp.level = t.ramp.target → (u.tile (ckey p)).ramp.level = t.ramp.level) ∧
      (t.ramp.level ≤ 16 → (u.tile (ckey p)).ramp.level ≤ 16) ∧ (u.tile (ckey p)).ramp.waited = false) ∧
    (∀ upset, t.ramp.level = 0 ∨ dummyPasses t upset = true → exec (.dummyPass p upset) s = .next s) ∧
    (∀ upset, t.ramp.level ≠ 0 → dummyPasses t upset = false → exec (.dummyPass p upset) s = .next (logicalHealth
      (s.count (quarterOf s p) fun n => { n with dummyFails := satAdd n.dummyFails 1 65535 }) (ckey p) .dummyFail))

/-- Matrix work leaves the queue in order, loads images, enters rows, is judged by its witness, accumulates and drains. The
model's readings of what the rules leave open here: log entries 12, 13, 32, 33, 34, 88, 92 and 93. -/
def Obligations.MatrixEngines : Prop :=
  Claims.MatrixDispatchResults ∧ Claims.MatrixLoadsAndRows ∧ Claims.WitnessAndAccumulate ∧ Claims.DrainAndSmoothing

/-- R166, R168, R176: the gather timeout writes an entry back and changes no visible byte; the scrubber moves one line on,
leaves a sound line and a mapped one, and sets an unmapped line that fails its check to +0 with a count. -/
def Sys2Proof.Claims.BinUpkeep : Prop :=
  ∀ (s : State) (p : Coord) (l : Nat) (t : Tile), Untraced s p → t = s.tile (ckey p) → s.clk.tilesStopped = false →
    ((t.bin.gatherOf l).isSome = true → ∃ u, exec (.gatherWritebackTimeout p l) s = .next u ∧ OnlyTile s u (ckey p) ∧
      u.tile (ckey p) = { t with bin := (u.tile (ckey p)).bin } ∧ (u.tile (ckey p)).bin.gatherOf l = none ∧
      ∀ q j, j < 64 → (u.tile (ckey p)).bin.visible q j = t.bin.visible q j) ∧
    (t.moveStage = 0 → cfgField s 0x2250 1 0 16 ≠ 0 → t.bin.gated ≠ 0xFF →
      l = scrubLine t.bin → t.bin.gatherOf l = none →
      (t.bin.lineOk l = true → exec (.binScrubRead p) s = .next (s.modTile (ckey p) fun t =>
        { t with bin := { t.bin with scrubPtr := (l + 1) % 4096 } })) ∧
      (t.bin.lineOk l = false → lineMapped t l = false → ∃ u, exec (.binScrubRead p) s = .next u ∧
        (∀ j, j < 64 → (u.tile (ckey p)).bin.visible l j = 0) ∧
        (∀ q j, j < 64 → q ≠ l → (u.tile (ckey p)).bin.visible q j = t.bin.visible q j) ∧
        (u.tile (ckey p)).bin.lineOk l = true ∧ u.mem = s.mem ∧
        (mget u.counts {} (quarterOf s p)).scrub = satAdd (mget s.counts {} (quarterOf s p)).scrub 1 65535) ∧
      (t.bin.lineOk l = false → lineMapped t l = true → exec (.binScrubRead p) s = .next (logicalHealth
        ((s.modTile (ckey p) fun t => { t with bin := { t.bin with scrubPtr := (l + 1) % 4096 } }).count (quarterOf s p)
          fun q => { q with scrub := satAdd q.scrub 1 65535 }) (ckey p) .scrubFail)))

/-- R162, R169, R178, R179: a bin-space read of an unmapped line gets an error reply and touches nothing; a flit of a
bin-space write puts its lines and their poison in the bin where staging has room, nothing where the write names an unmapped
line, and the last one is answered; a one-line read is answered with the line and its tag. A message enters the mailbox of
its destination behind the others, and its credit lets the sender send there again. -/
def Sys2Proof.Claims.BinSpaceAndMail : Prop :=
  ∀ (s : State) (f : Nat) (fl : Flit) (x : Ctx) (t : Tile) (b n : Nat) (was : Nat × Bool) (bad : Bool),
    s.arrived f = some fl → t = s.tile (ckey fl.dst) → live s fl.ctx.toNat fl.dst = some x → fl.dst.y < 48 →
    (t.moveStage = 0 → b = binAddrOf (gOff fl.addr.toNat) → was = mget t.dma.inbound (0, false) (inboundKey fl) →
      bad = (decide (2 ^ 18 < b + fl.len) || (firstUnmapped t (b / 64) (fl.len / 64)).isSome) →
      n = was.1 + fl.lines.length →
      (fl.op = 2 → bad = true → 0 < portRoom s fl.dst .reply →
        ∃ u g, exec (.binSpaceAccessArrive f) s = .next u ∧ u.tiles = s.tiles ∧ u.mem = s.mem ∧
          mfind u.mesh.flits s.mesh.nextFlit = some g ∧ g.cls = .reply ∧ g.op = 0xD ∧ g.dst = fl.src ∧ g.tag = fl.tag) ∧
      (fl.op = 2 → bad = false → fl.len = 64 → fl.done = 0 → t.portClear → 0 < portRoom s fl.dst .reply →
        (readLine t (b / 64)).1 = t → f ≠ s.mesh.nextFlit →
        ∀ d tag, (readLine t (b / 64)).2 = .ok d tag →
        ∃ u g, exec (.binSpaceAccessArrive f) s = .next u ∧ u.mem = s.mem ∧ (∀ j, u.tile j = s.tile j) ∧
          mfind u.mesh.flits s.mesh.nextFlit = some g ∧ g.cls = .reply ∧ g.op = 3 ∧ g.dst = fl.src ∧ g.tag = fl.tag ∧
          g.lines = [⟨BitVec.ofNat 512 d, tag⟩]) ∧
      (fl.op = 4 → Untraced s fl.dst → stageRoom t fl.lines.length = true → (64 * n = fl.len → 0 < portRoom s fl.dst .reply) →
        ∃ u, exec (.binSpaceAccessArrive f) s = .next u ∧ u.mem = s.mem ∧ (∀ j, j ≠ ckey fl.dst → u.tile j = s.tile j) ∧
          ((bad || was.2) = true → (u.tile (ckey fl.dst)).bin = t.bin) ∧
          ((bad || was.2) = false → ∀ ln q, fl.lines = [ln] → physLine t ((b + 128 * fl.seq.toNat) / 64) = some q →
            (∀ l j, j < 64 → (u.tile (ckey fl.dst)).bin.visible l j =
              if l = q then ln.data.extractLsb' (8 * j) 8 else t.bin.visible l j) ∧
            (u.tile (ckey fl.dst)).bin.tag q = ln.poison) ∧
          ((bad || was.2) = false → (u.tile (ckey fl.dst)).bin =
            ((writeIn s fl.dst 4 (b + 128 * fl.seq.toNat) fl.lines).tile (ckey fl.dst)).bin) ∧
          (64 * n = fl.len → ∃ g, mfind u.mesh.flits s.mesh.nextFlit = some g ∧ g.cls = .reply ∧ g.dst = fl.src ∧
            g.tag = fl.tag ∧ g.op = (if bad || was.2 then 0xD else 5)) ∧
          (64 * n ≠ fl.len → mfind (u.tile (ckey fl.dst)).dma.inbound (inboundKey fl) = some (n, bad || was.2) ∧
            u.mesh = (s.dropFlit f).mesh))) ∧
    (fl.op = 6 → ∃ u, exec (.messageArrive f) s = .next u ∧ mfind u.mesh.flits f = none ∧
      u.tile (ckey fl.dst) = { t with dma := { t.dma with
        mailbox := t.dma.mailbox ++ [⟨x.cdef.relCode fl.src, fl.item⟩] } } ∧ u.mem = s.mem) ∧
    (fl.op = 1 → fl.cls = .reply → ∃ u, exec (.messageCreditArrive f) s = .next u ∧ mfind u.mesh.flits f = none ∧
      u.tile (ckey fl.dst) = { t with dma := { t.dma with msgOut := sdel t.dma.msgOut (ckey fl.src) } } ∧ u.mem = s.mem)

/-- Gather timeouts and scrubbing keep what an access sees; bin-space requests and messages act at their tile. The model's
readings of what the rules leave open here: log entries 11, 94 and 97. -/
def Obligations.BinUpkeepAndMail : Prop :=
  Claims.BinUpkeep ∧ Claims.BinSpaceAndMail

/-- R81, R90, R183, R333, R335, R370: a tile held for a move whose position is free, or at another fallow point with its
move ready, and whose engines are quiet writes its gather entries back, ends a hang window through it and begins to be
copied; one held for a position no longer free gives the move up; the copy completes; and on resuming, in a row of good
tiles, the coordinate is bound to the new position, the old one is the gap of a row whose gap it took, and the tile goes on
where it stood, after a `fallow` with the next instruction. The model's readings of what the rules leave open here: log
entry 52. -/
def Obligations.TileMoves : Prop :=
  ∀ (s : State) (p : Coord) (t : Tile) (new old : Nat), Untraced s p → t = s.tile (ckey p) →
    (t.moveTo = some new → t.moveStage = 0 → tileQuiet s p = true → s.clk.tilesStopped = false →
      (t.core.run = .moving ∧ targetOk s (ckey p) = true) ∨ (atFallow t.core.run = true ∧ moveReady s (ckey p) = true) →
      ∃ u, exec (.moveQuiesced p) s = .next u ∧ (∀ j, j ≠ ckey p → u.tile j = s.tile j) ∧ u.mem = s.mem ∧
        u.tile (ckey p) = { t with moveStage := 1, bin := (u.tile (ckey p)).bin } ∧
        ((u.tile (ckey p)).bin.gather.all fun g => g.mask == 0) = true ∧
        (∀ q j, j < 64 → (u.tile (ckey p)).bin.visible q j = t.bin.visible q j) ∧
        ∀ c x, InCtx s p c x → s.ctx c = some x →
          u.ctx c = some { x with rec_ := { x.rec_ with hang := x.rec_.hang.filter fun cyc => !cyc.contains (ckey p) } }) ∧
    (t.core.run = .moving → t.moveStage = 0 → targetOk s (ckey p) = false →
      exec (.moveQuiesced p) s = .next (cancelMove s (ckey p))) ∧
    (t.moveStage = 1 → exec (.binCopyComplete p) s = .next (s.modTile (ckey p) fun t => { t with moveStage := 2 })) ∧
    (t.moveTo = some new → t.moveStage = 2 → physOf s (ckey p) = some old → damagedLines t.bin = [] → goodTile s old = true →
      (∀ q, q ∈ spanTiles s (physDie new) (physRow new) → goodTile s q = true) →
      ∃ u, exec (.moveResume p) s = .next u ∧ physOf u (ckey p) = some new ∧ u.mem = s.mem ∧
        ((s.row (physDie new) (physRow new)).gap = some (physPos new) →
          (u.row (physDie new) (physRow new)).gap = some (physPos old)) ∧
        (t.core.run ≠ .moving → t.core.run ≠ .held →
          u.tile (ckey p) = { t with moveStage := 0, moveTo := none, bin := { t.bin with scrubPtr := 0 } }) ∧
        (∀ c x, t.core.run = .moving → InCtx s p c x → t.core.fits →
          u.tile (ckey p) = { t with
            moveStage := 0, moveTo := none, bin := { t.bin with scrubPtr := 0 }
            core := { t.core.past with run := if x.run.holds then .held else .running } }) ∧
        (∀ c x, t.core.run = .held → InCtx s p c x →
          u.tile (ckey p) = { t with
            moveStage := 0, moveTo := none, bin := { t.bin with scrubPtr := 0 }
            core := { t.core with run := if x.run.holds then .held else .running } }) ∧
        ∀ j, j ≠ ckey p → u.tile j = s.tile j ∧ physOf u j = physOf s j)

/-- R70, R71, R169, R303, R308: the next transaction of a read descriptor leaves the tile as one request of at most 4 KiB
that does not cross a 4 KiB boundary, and takes an outstanding place; a write of one flit reads its lines from the bin and
leaves with them; read data is written into the bin where staging has room; an acknowledged write completes its bytes, and
the descriptor with its last byte, which raises the chosen counter by one; an error reply raises DMA_ADDRESS with the
descriptor's bin address, but one of the donor of an admission aborts it. The model's readings of what the rules leave open
here: log entries 8, 28, 94 and 97. -/
def Obligations.DmaTransactions : Prop :=
  ∀ (s : State) (p : Coord) (f n tag : Nat) (c : Nat) (x : Ctx) (t : Tile) (d : DmaDesc) (tx : DmaTxn) (fl : Flit),
    t = s.tile (ckey p) → InCtx s p c x → x.rec_.state = 1 →
    (mfind t.dma.descs n = some d → s.clk.tilesStopped = false → d.issued < d.total → t.dma.txns.length < 16 →
      openWrite t n = none → 0 < portRoom s p .request →
      (d.toRemote = false → ∃ u g, exec (.dmaTransactionIssue p n) s = .next u ∧ mfind u.mesh.flits s.mesh.nextFlit = some g ∧
        g.cls = .request ∧ g.op = 2 ∧ g.src = p ∧ g.loc = .port p.x p.y ∧ g.addr = BitVec.ofNat 64 (d.place d.issued).1 ∧
        g.len = d.nextLen ∧ g.tag = BitVec.ofNat 12 (nextFree t.dma.txns) ∧ d.nextLen ≤ 4096 - (d.place d.issued).1 % 4096 ∧
        (u.tile (ckey p)).dma = { t.dma with
          descs := mput t.dma.descs n { d with issued := d.issued + d.nextLen }
          txns := mput t.dma.txns (nextFree t.dma.txns) ⟨n, d.issued, d.nextLen, d.nextLen, 0⟩ } ∧
        u.mem = s.mem ∧ ∀ j, j ≠ ckey p → u.tile j = s.tile j) ∧
      (∀ s1 ls k, d.toRemote = true → t.portClear → Untraced s p → d.nextLen = 64 * k → 0 < k → k ≤ 2 →
        readOut s c x p d.tensor d.issued (d.place d.issued).2 (d.place d.issued).1 k = (s1, .lines ls) →
        ∃ u g, exec (.dmaTransactionIssue p n) s = .next u ∧ mfind u.mesh.flits s.mesh.nextFlit = some g ∧
          g.cls = .request ∧ g.op = 4 ∧ g.src = p ∧ g.loc = .port p.x p.y ∧ g.addr = BitVec.ofNat 64 (d.place d.issued).1 ∧
          g.len = d.nextLen ∧ g.lines = ls ∧ g.tag = BitVec.ofNat 12 (nextFree t.dma.txns) ∧
          (u.tile (ckey p)).dma = { t.dma with
            descs := mput t.dma.descs n { d with issued := d.issued + d.nextLen }
            txns := mput t.dma.txns (nextFree t.dma.txns) ⟨n, d.issued, d.nextLen, d.nextLen, 0⟩ } ∧
          u.mem = s.mem ∧ ∀ j, j ≠ ckey p → u.tile j = s.tile j)) ∧
    (s.arrived f = some fl → fl.cls = .reply → fl.dst = p → p.y < 48 → fl.ctx.toNat = c → tag = fl.tag.toNat →
      mfind t.spill tag = none → mfind t.dma.txns tag = some tx → mfind t.dma.descs tx.desc = some d →
      (fl.op = 3 → Untraced s p → stageRoom t fl.lines.length = true → tx.got + 64 * fl.lines.length ≠ tx.len →
        ∃ u, exec (.dmaReplyArrive f) s = .next u ∧ mfind u.mesh.flits f = none ∧ u.mem = s.mem ∧
          (u.tile (ckey p)).dma =
            { t.dma with txns := mput t.dma.txns tag { tx with got := tx.got + 64 * fl.lines.length } } ∧
          (u.tile (ckey p)).bin = ((writeIn s p 2 ((d.place tx.pos).2 + 128 * fl.seq.toNat) fl.lines).tile (ckey p)).bin ∧
          coreAt u p = t.core ∧ ∀ j, j ≠ ckey p → u.tile j = s.tile j) ∧
      (fl.op = 3 → stageRoom t fl.lines.length = false → exec (.dmaReplyArrive f) s = .next s) ∧
      (fl.op = 5 → ∃ u, exec (.dmaReplyArrive f) s = .next u ∧ mfind u.mesh.flits f = none ∧ u.mem = s.mem ∧
        (d.done + tx.len = d.total → (u.tile (ckey p)).dma =
            { t.dma with txns := mdel t.dma.txns tag, descs := mdel t.dma.descs tx.desc } ∧
          mget (coreAt u p).k 0 d.counter.toNat = mget t.core.k 0 d.counter.toNat + 1) ∧
        (d.done + tx.len ≠ d.total → (u.tile (ckey p)).dma =
            { t.dma with txns := mdel t.dma.txns tag, descs := mput t.dma.descs tx.desc { d with done := d.done + tx.len } } ∧
          coreAt u p = t.core) ∧
        ∀ j, j ≠ ckey p → u.tile j = s.tile j)) ∧
    (s.arrived f = some fl → fl.op = 0xD → fl.dst = p → p.y < 48 → fl.ctx.toNat = c → tag = fl.tag.toNat →
      mfind t.dma.txns tag = some tx → mfind t.dma.descs tx.desc = some d →
      exec (.dmaErrorReplyArrive f) s = .next
        (if (gSpace d.remote.toNat == 1 && gCoord d.remote.toNat != ownCoord s && admitting s c) = true then
          stopCtx (abortAdm ((s.dropFlit f).modTile (ckey p) fun t =>
            { t with dma := { t.dma with txns := mdel t.dma.txns tag } }) 1) c 15 none []
        else takeExc ((s.dropFlit f).modTile (ckey p) fun t =>
          { t with dma := { t.dma with txns := mdel t.dma.txns tag } }) p 5 d.pc.toNat false d.at_))

/-! ### Streams and sections -/

/-- R190, R191, R210, R222: an item whose number is the next expected joins its channel behind those it holds, in whatever
segment, and the number advances; one that comes early waits by its number; one for a tile that moves or is not loaded waits
at the port; and a credit message adds to the credits of the outbound channel it names. -/
def Sys2Proof.Claims.ChannelArrivals : Prop :=
  ∀ (s : State) (f ch : Nat) (fl : Flit) (x : Ctx) (t : Tile),
    s.arrived f = some fl → t = s.tile (ckey fl.dst) → live s fl.ctx.toNat fl.dst = some x → ch = fl.chan.toNat →
    fl.cls = .forward ∨ fl.cls = .collective →
    (fl.op = 0 ∨ fl.op = 8 →
      (t.moveStage ≠ 0 ∨ t.loaded = false → exec (.channelItemArrive f) s = .next s) ∧
      (t.moveStage = 0 → t.loaded = true →
        (fl.seq = (t.cst ch).seqIn → (t.cst ch).early = [] →
          ∃ (u : State) (k : ChanSt), exec (.channelItemArrive f) s = .next u ∧ k = (u.tile (ckey fl.dst)).cst ch ∧ u.mem = s.mem ∧
            k.seqIn = (t.cst ch).seqIn + 1 ∧ k.outstanding = (t.cst ch).outstanding - 1 ∧
            ((t.cst ch).spilling = true ∨ (t.cst ch).binSeg ++ (t.cst ch).memSeg = [] →
              k.store ++ k.binSeg ++ k.memSeg = (t.cst ch).store ++ (t.cst ch).binSeg ++ (t.cst ch).memSeg ++ [fl.item]) ∧
            ((t.cst ch).spilling = false → mfind u.mesh.flits f = none ∧ u.tile (ckey fl.dst) = t.setCst ch { t.cst ch with
              store := (t.cst ch).store ++ [fl.item], seqIn := (t.cst ch).seqIn + 1
              outstanding := (t.cst ch).outstanding - 1 })) ∧
        (fl.seq ≠ (t.cst ch).seqIn → mfind (t.cst ch).early (t.cst ch).seqIn.toNat = none →
          ∃ u, exec (.channelItemArrive f) s = .next u ∧ mfind u.mesh.flits f = none ∧ u.mem = s.mem ∧
            u.tile (ckey fl.dst) = t.setCst ch { t.cst ch with early := mput (t.cst ch).early fl.seq.toNat fl.item }))) ∧
    (fl.op = 1 → ∃ u, exec (.channelCreditArrive f) s = .next u ∧ mfind u.mesh.flits f = none ∧ u.mem = s.mem ∧
      u.tile (ckey fl.dst) = t.setCst ch { t.cst ch with credits := (t.cst ch).credits + fl.aux.toNat })

/-- R193, R195 to R199, R210: a steering unit between tokens takes up a sound token of its operation with its count; a token
with a reserved field or count 0 raises STEER_TOKEN and a poisoned one POISON_CONSUMED; a DROP token discards its items one
by one, each freed slot taken by the oldest item of the bin segment; and a unit whose input is empty waits. -/
def Sys2Proof.Claims.SteeringTokens : Prop :=
  ∀ (s : State) (p : Coord) (u : BitVec 2) (c : Nat) (x : Ctx) (t : Tile) (e : DWord) (i : Item) (w : Word),
    steerLive s p = some (c, x) → t = s.tile (ckey p) → e = t.steerEnt u.toNat → stMode e ≠ 0 →
    (∀ r ∈ ([(Instr.tokenPass p u, 0), (Instr.tokenDrop p u, 1), (Instr.tokenRepeat p u, 2)] : List (Instr × Nat)),
      (t.unit u.toNat).tok = none → (t.cst (stTok e)).store.head? = some i → w = i.data.extractLsb' 0 32 →
      (i.tagLo = true → exec r.1 s = .next (takeExc s p 8 0 false (3 * 2 ^ 26 + u.toNat))) ∧
      (i.tagLo = false → (3 ≤ w.toNat / 2 ^ 29 ∨ w.toNat / 2 ^ 24 % 16 ≠ 0 ∨ w.toNat % 2 ^ 24 = 0) →
        exec r.1 s = .next (takeExc s p 0x0B 0 false u.toNat)) ∧
      (i.tagLo = false → w.toNat / 2 ^ 29 = r.2 → w.toNat / 2 ^ 24 % 16 = 0 → w.toNat % 2 ^ 24 ≠ 0 →
        exec r.1 s = .next (s.modTile (ckey p) fun t =>
          { t with units := mput t.units u.toNat { tok := some w, left := w.toNat % 2 ^ 24, held := none } }))) ∧
    ((t.unit u.toNat).tok = some w → (t.unit u.toNat).held = none → hasItem t (stInput e w) = false →
      exec (.steerItemMove p u) s = .next s) ∧
    (∀ k, (t.unit u.toNat).tok = some w → w.toNat / 2 ^ 29 % 8 = 1 → (t.unit u.toNat).left = k + 2 →
      hasItem t (stInput e w) = true →
      (t.cst (stInput e w)).binSeg = [] ∨ spillItemOk t (t.chan (stInput e w)) (t.cst (stInput e w)).binAt = true →
      ∃ v, exec (.steerItemMove p u) s = .next v ∧ ((v.tile (ckey p)).unit u.toNat).left = k + 1 ∧
        ((v.tile (ckey p)).cst (stInput e w)).store =
          (t.cst (stInput e w)).store.drop 1 ++
            (if (t.cst (stInput e w)).store.length - 1 < chCap (t.chan (stInput e w)) then (t.cst (stInput e w)).binSeg.take 1
            else []) ∧
        v.mem = s.mem)

/-- Stream items enter by their number, credits add up, and steering units obey their tokens. The model's readings of what
the rules leave open here: log entries 36 and 96. -/
def Obligations.Streams : Prop :=
  Claims.ChannelArrivals ∧ Claims.SteeringTokens

/-- R207 to R213, R370: a blocked tile reports where its port has room; a report that has reached the engine gives the
tile's edges to the wait graph, or takes them from it, and a cycle they close starts a hang window; of every edge of a
closed cycle that waits for credit the consumer's channel is ordered to spill if it may; an ordered channel enters spill
state and is counted; and a transfer of the spill engine, a write or a read, keeps the items of the channel in their order.
The model's readings of what the rules leave open here: log entries 16 and 37. -/
def Obligations.SpillAndWaits : Prop :=
  ∀ (s : State) (p : Coord) (ch : BitVec 5) (c : Nat) (x : Ctx) (t : Tile),
    steerLive s p = some (c, x) → t = s.tile (ckey p) → s.ctx c = some x →
    (blocked s x.cdef (ckey p) = true → t.reported = false → t.unreport = false →
      (reportFlits c p (waitEdges s x.cdef (ckey p))).length ≤ portRoom s p .management →
      exec (.blockedReport p) s = .next ((reportFlits c p (waitEdges s x.cdef (ckey p))).foldl State.send
        (s.modTile (ckey p) fun t => { t with reported := true }))) ∧
    (blocked s x.cdef (ckey p) = false ∨ t.reported = true → exec (.blockedReport p) s = .next s) ∧
    (∀ l, (x.rec_.reports.find? fun e => e.1 == ckey p) = some (ckey p, l) →
      ∃ u y, exec (.waitGraphReport p) s = .next u ∧ u.tiles = s.tiles ∧ u.mem = s.mem ∧ u.ctx c = some y ∧
        y.rec_.reports = x.rec_.reports.erase (ckey p, l) ∧ y.run = x.run ∧ y.tally = x.tally ∧
        y.rec_.state = x.rec_.state ∧ mfind y.rec_.edges (ckey p) = (if l = [] then none else some l) ∧
        (l ≠ [] → watched x = true → x.rec_.hang = none → y.rec_.hang = waitCycle y.rec_.edges)) ∧
    (watched x = true → ∃ u, exec (.spillOrder c) s = .next u ∧ u.mem = s.mem ∧ u.ctxs = s.ctxs ∧
      ∀ k es e q, (k, es) ∈ x.rec_.edges → e ∈ es → onCycle x.rec_.edges k e = true → creditTarget s k e = some q →
        mayEnterSpill s x.cdef q.1 q.2 = true → ((u.tile q.1).cst q.2).ordered = true) ∧
    (watched x = false → exec (.spillOrder c) s = .next s) ∧
    ((t.cst ch.toNat).ordered = true → ∃ u, exec (.spillEnter p ch) s = .next u ∧
      ((u.tile (ckey p)).cst ch.toNat).ordered = false ∧ ((u.tile (ckey p)).cst ch.toNat).store = (t.cst ch.toNat).store ∧
      (∃ y, u.ctx c = some y ∧ y.tally.spills = x.tally.spills + 1) ∧ u.mem = s.mem) ∧
    (∀ tag r, (t.spill.find? fun e => e.2.ch == ch.toNat && e.2.got = e.2.len) = some (tag, r) →
      (∀ l, t.bin.lineOk l = true) → (chBinCap (t.chan ch.toNat) = 0 → (t.cst ch.toNat).binSeg = []) →
      ∃ (u : State) (k : ChanSt), exec (.spillTransferComplete p ch) s = .next u ∧ u.mem = s.mem ∧
        k = (u.tile (ckey p)).cst ch.toNat ∧
        (k.store ++ k.binSeg ++ k.memSeg).map (·.data) =
          ((t.cst ch.toNat).store ++ (t.cst ch.toNat).binSeg ++ (t.cst ch.toNat).memSeg).map (·.data) ∧
        (r.write = true → k.store = (t.cst ch.toNat).store ∧ k.binSeg = (t.cst ch.toNat).binSeg))

/-- R45, R89, R152, R199, R202, R203, R206: a section whose tiles have all ended, with nothing in flight and nothing left,
gives way to the next; what a tile is left with raises SECTION_RESIDUE; a tile's load sets its core to the state R45 gives
at program entry, its entry index apart, and its matrix state to empty; and a scale record that carries poison is consumed
by the load. -/
def Sys2Proof.Claims.SectionChange : Prop :=
  ∀ (s : State) (p : Coord) (c : Nat) (x : Ctx) (reds : List (Nat × List DWord)),
    (s.ctx c = some x → x.rec_.state = 1 → x.run.phase = .running → x.run.released = true →
      (x.cdef.keys.any fun k => (s.tile k).core.run == .secEnd) = true → sectionDrained s c x.cdef = true →
      ((∀ q ∈ x.cdef.tiles, residue (s.tile (ckey q)) = none) →
        (∀ k ∈ x.cdef.colls, k.startSec ≠ x.run.section_) →
        ∃ u y, exec (.sectionEnd c reds []) s = .next u ∧ u.ctx c = some y ∧ y.run = { x.run with
            phase := .loading, section_ := (x.run.section_ + 1) % max 1 x.cdef.sections, arrived := [], releasing := false
            heard := [], released := false, loadCircuit := y.run.loadCircuit } ∧
          y.tally = x.tally ∧ u.mem = s.mem ∧ (∀ q ∈ x.cdef.tiles, (u.tile (ckey q)).loaded = false) ∧
          ∀ j, (∀ q ∈ x.cdef.tiles, ckey q ≠ j) → u.tile j = s.tile j) ∧
      (∀ errs q n, (x.cdef.tiles.findSome? fun q => (residue (s.tile (ckey q))).map fun n => (q, n)) = some (q, n) →
        exec (.sectionEnd c reds errs) s = .next (takeExc s q 0x0C (coreAt s q).pc.toNat false n))) ∧
    (InCtx s p c x → x.rec_.state = 1 → x.run.phase = .loading → (s.tile (ckey p)).loaded = false →
      (s.tile (ckey p)).moveStage = 0 → moveReady s (ckey p) = false →
      sectionBad (heldReds s x.cdef) (imageOf s x.cdef) x.cdef.w x.cdef.h x.run.section_ = none →
      sectionFree s c x x.run.section_ = true →
      ∀ poison, poison = delayPoison s x (newDelays x.cdef (imageOf s x.cdef)
        (recOff (imageOf s x.cdef) x.cdef.w x.run.section_ (p.x - x.cdef.x0) (p.y - x.cdef.y0)) (s.tile (ckey p)).delays) →
      (poison = true → exec (.sectionEntry p) s = .next (stopCtx s c 5 none [])) ∧
      (poison = false → ∃ u, exec (.sectionEntry p) s = .next u ∧ u.mem = s.mem ∧ (u.tile (ckey p)).loaded = true ∧
        (coreAt u p).s = [] ∧ (coreAt u p).c = [] ∧ (coreAt u p).v = [] ∧ (coreAt u p).k = [] ∧ (coreAt u p).p = 0 ∧
        (coreAt u p).fpFlags = 0 ∧ (coreAt u p).tensorId = 0 ∧ (coreAt u p).elementBase = 0 ∧
        (u.tile (ckey p)).dma.mailbox = [] ∧ (u.tile (ckey p)).mx.cfgFormat = 0 ∧ (u.tile (ckey p)).mx.cfgDrain = 0 ∧
        (u.tile (ckey p)).mx.cfgBase = 0 ∧ (u.tile (ckey p)).mx.acc = [] ∧
        (u.tile (ckey p)).mx.bufA.loaded = false ∧ (u.tile (ckey p)).mx.bufB.loaded = false ∧
        ∀ j, j ≠ ckey p → u.tile j = s.tile j))

/-- R202, R244: SECTION_END waits for the whole context: an unreleased barrier, or a tile whose engines are not done, leaves
the state as it is. -/
def Sys2Proof.Claims.SectionWaits : Prop :=
  ∀ (s : State) (c : Nat) (x : Ctx) (reds : List (Nat × List DWord)) (errs : List LineCheck), s.ctx c = some x →
    x.run.released = false ∨ sectionDrained s c x.cdef = false ∨ x.run.phase ≠ .running →
    exec (.sectionEnd c reds errs) s = .next s

/-- R216, R217, R219, R223: a draining context that stands still becomes paused and says so; one still draining at its
deadline is reported once; and a tile whose gap since its last fallow point has grown past the interval in force is counted
for its quarter and its context, once a gap, while a tile at a fallow point has none. -/
def Sys2Proof.Claims.PauseAndFallowGap : Prop :=
  ∀ (s : State) (p : Coord) (c : Nat) (x : Ctx) (t : Tile), s.ctx c = some x → t = s.tile (ckey p) →
    (x.rec_.state = 1 → x.run.pauseState = 1 → x.cdef.keys.all (atRest s x.cdef) = true →
      nothingInFlight s c x.cdef = true → exec (.contextPauseReached c) s =
        .next (raise (s.setCtx c { x with run := { x.run with pauseState := 2 } }) .contextPaused [c])) ∧
    (x.run.pauseState = 1 → x.run.pauseLate = false → x.cdef.cluster = false →
      x.run.pauseAt + 2 * maxFallowGap s x ≤ x.rec_.slow → exec (.pauseDeadlineExpiry c) s =
        .next (raise (s.setCtx c { x with run := { x.run with pauseLate := true } }) .contextPauseLate [c])) ∧
    (x.run.pauseState ≠ 1 ∨ x.run.pauseLate = true ∨ x.rec_.slow < x.run.pauseAt + 2 * maxFallowGap s x →
      exec (.pauseDeadlineExpiry c) s = .next s) ∧
    (InCtx s p c x → cfgField s 0x2310 4 0 16 < now s - t.lastFallow → t.gapLate = false → atFallow t.core.run = false →
      ∃ u y, exec (.fallowGapLate p) s = .next u ∧ u.ctx c = some y ∧
        y.tally.fallowLate = x.tally.fallowLate + 1 ∧ u.tile (ckey p) = { t with gapLate := true } ∧ u.mem = s.mem ∧
        (∀ j, j ≠ ckey p → u.tile j = s.tile j) ∧
        (mget u.counts {} (quarterOf s p)).fallowLate = satAdd (mget s.counts {} (quarterOf s p)).fallowLate 1 65535) ∧
    (now s - t.lastFallow ≤ cfgField s 0x2310 4 0 16 ∨ t.gapLate = true ∨ atFallow t.core.run = true →
      exec (.fallowGapLate p) s = .next s)

/-- A drained section gives way to the next, a load sets the entry state, and pauses and late fallow points are reported.
The model's readings of what the rules leave open here: log entries 10, 31, 38, 83, 84, 95 and 97. -/
def Obligations.Sections : Prop :=
  Claims.SectionChange ∧ Claims.SectionWaits ∧ Claims.PauseAndFallowGap

/-! ### The mesh -/

/-- R227 to R229, R233, R234, R236, R237, R239, R240, R255: a flit in the FIFO of a tile port enters its router where a slot
of its class is free and no throttle holds it; with no fallback it goes along its row to its column and then along the
column, one router a hop, into a buffer with a slot, and to its sink at its tile, each time its output grants it the cycle,
and otherwise stays; what arrives of a hop and fails its check is resent and counted, and the link is declared failed after
the third resend of a flit that fails, or more than 64 resends on the link within the window. -/
def Sys2Proof.Claims.MeshHops : Prop :=
  ∀ (s : State) (f x y : Nat) (fl : Flit), s.flit f = some fl → s.putFlit f fl = s →
    (fl.loc = .port x y → fl.cls ≠ .collective →
      (isHead s fl = true → hasSlot s x y .tile fl = true → gapHeld s x y fl.cls = false →
        ∃ v : State, exec (.flitForward f) s = .next (pumpPort v ⟨x, y⟩) ∧ v.tiles = s.tiles ∧ v.mem = s.mem ∧
          mfind v.mesh.flits f =
            some { fl with loc := .router x y .tile, stamp := s.mesh.nextStamp, waited := 0, resends := 0 }) ∧
      (isHead s fl = false ∨ hasSlot s x y .tile fl = false ∨ gapHeld s x y fl.cls = true →
        exec (.flitForward f) s = .next s)) ∧
    (∀ inp p, fl.loc = .router x y inp → fl.cls ≠ .circuit → barrierFlit fl = false → fl.fallback = false →
      s.mesh.escape = false → p = dorPort fl.dst x y →
      (x < fl.dst.x → p = .east) ∧ (fl.dst.x < x → p = .west) ∧
      (fl.dst.x = x → fl.dst.y < 48 → y < fl.dst.y → p = .south) ∧ (fl.dst.x = x → fl.dst.y < y → fl.dst.y < 48 → p = .north) ∧
      (fl.dst.x = x → fl.dst.y = northRow → p = .north) ∧ (fl.dst.x = x → fl.dst.y = southRow → p = .south) ∧
      (fl.dst = ⟨x, y⟩ → y < 48 → p = .tile) ∧
      (isHead s fl = true → packetWhole s fl = true → granted s x y p fl = true →
        (leaves fl.dst y p = true ∨ hopDead s x y p = false) → outRoomFor s x y p fl = true →
        ∃ v : State, exec (.flitForward f) s = .next (afterLeave v fl.loc) ∧ v.tiles = s.tiles ∧ v.mem = s.mem ∧
          mfind v.mesh.flits f = some { fl with
            loc := if leaves fl.dst y p then .sink else hopTo s x y p, stamp := s.mesh.nextStamp, waited := 0, resends := 0 }) ∧
      (isHead s fl = false ∨ packetWhole s fl = false ∨ granted s x y p fl = false ∨ outRoomFor s x y p fl = false ∨
          (leaves fl.dst y p = false ∧ hopDead s x y p = true) →
        exec (.flitForward f) s = .next s)) ∧
    (∀ inp p l ls err q, fl.loc = .router x y inp → outPort s fl x y = some p → leaves fl.dst y p = false →
      hopLinks s x y p = l :: ls → q = quarterOf s ⟨(portStep p x y).1, (portStep p x y).2⟩ →
      (hopFails (flitWire fl ^^^ err) = false → exec (.flitHopNak f err) s = .next s) ∧
      (hopFails (flitWire fl ^^^ err) = true → 3 ≤ fl.resends →
        exec (.flitHopNak f err) s = .next (failLink s l fl.ctx.toNat q)) ∧
      (hopFails (flitWire fl ^^^ err) = true → fl.resends < 3 →
        ∃ u v, exec (.flitHopNak f err) s = .next u ∧ mfind v.mesh.flits f = some { fl with resends := fl.resends + 1 } ∧
          v.tiles = s.tiles ∧ v.mem = s.mem ∧
          (mget v.counts {} q).hopRetries = satAdd (mget s.counts {} q).hopRetries 1 (2 ^ 32 - 1) ∧
          u = (if 64 ≤ ((mget s.mesh.linkResends [] (resendKey l)).filter fun t => s.clk.root.toNat < t + 7200000).length then
            failLink v l fl.ctx.toNat q else v)))

/-- R232, R240, R241: with the tables loaded after a failure fallback begins; a fallback flit ages by one for each 16 cycles
it waits, at most 255, and after 64 enters the escape slot of its class at its input port of its physical router, if that is
free; from there it follows the escape route slot by slot and reaches its sink at the router of its destination. -/
def Sys2Proof.Claims.MeshFallback : Prop :=
  ∀ (s : State) (f : Nat) (fl : Flit), s.flit f = some fl →
    (s.mesh.failed ≠ [] → exec .escapeTablesLoaded s = .next { s with mesh := { s.mesh with escape := true } }) ∧
    (fl.fallback = true → fl.loc ≠ .sink → exec (.flitAgeTick f) s =
      .next (s.putFlit f { fl with age := if fl.age = 255 then 255 else fl.age + 1, waited := fl.waited + 16 })) ∧
    (∀ x y inp p, fl.loc = .router x y inp → physOf s (tkey x y) = some p →
      (fl.fallback = true → 64 ≤ fl.waited → escapeFree s (physX p) (physRow p) inp fl.cls = true →
        ∃ v : State, exec (.escapeEntry f) s = .next (afterLeave v fl.loc) ∧ v.tiles = s.tiles ∧ v.mem = s.mem ∧
          mfind v.mesh.flits f =
            some { fl with loc := .escape (physX p) (physRow p) inp, stamp := s.mesh.nextStamp, waited := 0, resends := 0 } ∧
          (mget v.counts {} (quarterOf s ⟨x, y⟩)).escapes = satAdd (mget s.counts {} (quarterOf s ⟨x, y⟩)).escapes 1 255) ∧
      (fl.fallback = false ∨ fl.waited < 64 ∨ escapeFree s (physX p) (physRow p) inp fl.cls = false →
        exec (.escapeEntry f) s = .next s)) ∧
    (∀ x y inp n, fl.loc = .escape x y inp →
      (tkey x y = escapeEnd s fl.dst → fl.cls ≠ .collective → barrierFlit fl = false →
        sinkRoom s fl = true → heldAt s fl = false → exec (.flitForward f) s = .next (s.moveFlit f fl .sink)) ∧
      (tkey x y ≠ escapeEnd s fl.dst → n = keyXY (escapeNext s (tkey x y) (escapeEnd s fl.dst)) →
        (escapeFree s n.x n.y (physInput ⟨x, y⟩ n) fl.cls = true →
          exec (.flitForward f) s = .next (s.moveFlit f fl (.escape n.x n.y (physInput ⟨x, y⟩ n)))) ∧
        (escapeFree s n.x n.y (physInput ⟨x, y⟩ n) fl.cls = false → exec (.flitForward f) s = .next s)))

/-- Flits go by row then by column one router a hop, failed hops are resent, and fallback leads to the escape route. The
model's readings of what the rules leave open here: log entries 8, 41 and 85. -/
def Obligations.Mesh : Prop :=
  Claims.MeshHops ∧ Claims.MeshFallback

/-- R208, R237, R243, R244, R246: an injection throttle sets in where an output is blocked and CONGESTION_CONTROL enables
it, and lifts when none is; a management packet is taken when all its flits are at its sink, and the report of a running
tile goes on to the wait graph; a router whose tile has arrived and which holds its children's arrives sends one on, and the
release that follows the arrive of the north-west tile goes down the tree and ends the barrier when every tile has heard it;
the entries of a circuit are written, and a circuit flit is replaced by one copy for each port of its mask. -/
def Sys2Proof.Claims.MeshServices : Prop :=
  ∀ (s : State) (p : Coord) (f c : Nat) (cls : MClass) (fl : Flit) (x : Ctx) (n : BitVec 3) (h : CircuitHop), rootStopped s = false →
    (cls ∈ [MClass.request, .reply, .forward] → bitAt (cfgInForce s 0x2270 1).toNat 31 = true →
      s.mesh.throttled.contains (8 * ckey p + classNum cls) = false → outputBlocked s p cls = true →
      ∃ u, exec (.injectionThrottleOnset p cls) s = .next u ∧ u.tiles = s.tiles ∧ u.mem = s.mem ∧
        u.mesh = { s.mesh with
          throttled := sadd s.mesh.throttled (8 * ckey p + classNum cls)
          injected := mdel s.mesh.injected (8 * ckey p + classNum cls) } ∧
        (mget u.counts {} (quarterOf s p)).throttles = satAdd (mget s.counts {} (quarterOf s p)).throttles 1 65535) ∧
    (outputBlocked s p cls = false → exec (.injectionThrottleLift p cls) s = .next { s with mesh := { s.mesh with
      throttled := sdel s.mesh.throttled (8 * ckey p + classNum cls) } } ∧ exec (.injectionThrottleOnset p cls) s = .next s) ∧
    (outputBlocked s p cls = true → exec (.injectionThrottleLift p cls) s = .next s) ∧
    (s.arrived f = some fl → fl.cls = .management →
      (wholePacket s fl = none → exec (.managementPacketAccept f) s = .next s) ∧
      ∀ k, wholePacket s fl = some k →
        (live s fl.ctx.toNat fl.src = none →
          exec (.managementPacketAccept f) s = .next (k.foldl (fun s g => s.dropFlit g.1) s)) ∧
        (live s fl.ctx.toNat fl.src = some x → s.ctx fl.ctx.toNat = some x →
          exec (.managementPacketAccept f) s = .next ((k.foldl (fun s g => s.dropFlit g.1) s).setCtx fl.ctx.toNat
            { x with rec_ := { x.rec_ with
              reports := x.rec_.reports ++ [(ckey fl.src, k.flatMap fun g => g.2.edges)] } }))) ∧
    (InCtx s p c x → s.ctx c = some x → x.rec_.state = 1 → tileArrived s (ckey p) = true →
      x.run.arrived.contains (ckey p) = false → (∀ q ∈ barrierChildren x.cdef p, (arriveOf s c p q).isSome = true) →
      (barrierParent x.cdef p = none → ∃ u, exec (.barrierArrive p) s = .next u ∧ u.tiles = s.tiles ∧ u.mem = s.mem ∧
        u.ctx c = some { x with run := { x.run with arrived := sadd x.run.arrived (ckey p) } }) ∧
      (∀ q l, barrierParent x.cdef p = some q →
        treeHop s p q { cls := .management, ctx := BitVec.ofNat 4 c, op := 9, dst := q, src := p } = some l →
        ∃ u g, exec (.barrierArrive p) s = .next u ∧ u.tiles = s.tiles ∧ u.mem = s.mem ∧
          u.ctx c = some { x with run := { x.run with arrived := sadd x.run.arrived (ckey p) } } ∧
          mfind u.mesh.flits s.mesh.nextFlit = some g ∧ g.op = 9 ∧ g.cls = .management ∧ g.dst = q ∧ g.src = p ∧ g.loc = l)) ∧
    (s.ctx c = some x → x.run.arrived.contains (tkey x.cdef.x0 x.cdef.y0) = true → x.run.releasing = false →
      hallBarrier s c x = false → ∃ u g, exec (.barrierRelease c) s = .next u ∧ u.tiles = s.tiles ∧ u.mem = s.mem ∧
        u.ctx c = some { x with run := { x.run with releasing := true, heard := [] } } ∧
        mfind u.mesh.flits s.mesh.nextFlit = some g ∧ g.op = 0xA ∧ g.cls = .management ∧
        g.loc = .router x.cdef.x0 x.cdef.y0 .tile) ∧
    (∀ i j inp, s.flit f = some fl → fl.loc = .router i j inp → fl.cls = .management → fl.op = 0xA →
      s.ctx fl.ctx.toNat = some x → (∀ q ∈ barrierChildren x.cdef ⟨i, j⟩, (treeHop s ⟨i, j⟩ q fl).isSome = true) →
      ∃ u, exec (.flitForward f) s = .next u ∧ u.tiles = s.tiles ∧ u.mem = s.mem ∧
        u.ctx fl.ctx.toNat = some { x with run := { x.run with
          heard := sadd x.run.heard (tkey i j)
          released := x.run.released || (sadd x.run.heard (tkey i j)).length = x.cdef.w * x.cdef.h } }) ∧
    (∃ u, exec (.circuitEnable n [h]) s = .next u ∧ mfind u.mesh.circuits (8 * ckey h.at_ + n.toNat) = some ⟨h.inp, h.mask, true⟩ ∧
      u = { s with mesh := { s.mesh with circuits := u.mesh.circuits } }) ∧
    (∀ e, s.flit f = some fl → circuitEnt s fl = some (p.x, p.y, e) → isHead s fl = true → circuitRoom s p.x p.y e fl = true →
      (maskPorts e.mask).all (circuitGranted s p.x p.y) = true → f < s.mesh.nextFlit →
      ∃ u, exec (.circuitFlitCopy f) s = .next u ∧ mfind u.mesh.flits f = none ∧ u.tiles = s.tiles ∧ u.mem = s.mem ∧
        ∀ i q, (maskPorts e.mask)[i]? = some q → mfind u.mesh.flits (s.mesh.nextFlit + i) = some { fl with
          loc := if q == .tile then .sink else hopTo s p.x p.y q
          dst := if q == .tile then ⟨p.x, p.y⟩ else fl.dst
          stamp := s.mesh.nextStamp + i })

/-- R248 to R253: a contribution from a tile enters the staging of its entry; an entry of type REDUCE with room at its
output gives, of one SEQ, the item of its one input as it is, or the combination of its two by its OP, to its tile or to the
staging downstream, raising POISON_CONSUMED instead where either of two is tagged; an entry of type BCAST copies the item of
its input to its tile; and a credit returns upstream to the tile that feeds the tree once every branch has returned one. -/
def Sys2Proof.Claims.InNetworkReduction : Prop :=
  ∀ (s : State) (p : Coord) (e : BitVec 5) (c : Nat) (x : Ctx) (w : DWord) (a b : Staged),
    steerLive s p = some (c, x) → w = redEntry s (ckey p) e.toNat →
    (∀ f fl i j, s.flit f = some fl → fl.loc = .port i j → fl.cls = .collective → fl.op = 7 → isHead s fl = true →
      (live s fl.ctx.toNat fl.dst).isSome = true →
      ∃ v : State, exec (.flitForward f) s = .next (pumpPort v ⟨i, j⟩) ∧ v.tiles = s.tiles ∧ v.mem = s.mem ∧
        staged v (ckey fl.dst) (fl.tag.toNat % 32) (fl.tag.toNat / 32 % 8) =
          staged s (ckey fl.dst) (fl.tag.toNat % 32) (fl.tag.toNat / 32 % 8) ++ [⟨fl.seq, fl.item⟩]) ∧
    (rType w = 1 → redRoom s p.x p.y w (rOut w) = true → (staged s (ckey p) e.toNat 0).head? = some a →
      ((rInputs w).length = 1 → rOut w = 4 → ∃ u g, exec (.reduceCombine p e) s = .next u ∧
        mfind u.mesh.flits s.mesh.nextFlit = some g ∧ g.cls = .collective ∧ g.op = 8 ∧ g.seq = a.seq ∧ g.loc = .sink ∧
        g.dst = ⟨p.x, p.y⟩ ∧ g.item = a.item ∧ u.tiles = s.tiles ∧ u.mem = s.mem ∧
        staged u (ckey p) e.toNat 0 = (staged s (ckey p) e.toNat 0).drop 1) ∧
      ((rInputs w).length = 2 → (staged s (ckey p) e.toNat 1).head? = some b → a.seq = b.seq →
        (a.item.tagged = true ∨ b.item.tagged = true → exec (.reduceCombine p e) s =
          .next (takeExc s p 8 0 false (4 * 2 ^ 26 + e.toNat))) ∧
        (a.item.tagged = false → b.item.tagged = false → rOut w = 4 → ∃ u g, exec (.reduceCombine p e) s = .next u ∧
          mfind u.mesh.flits s.mesh.nextFlit = some g ∧ g.cls = .collective ∧ g.op = 8 ∧ g.seq = a.seq ∧ g.loc = .sink ∧
          g.dst = ⟨p.x, p.y⟩ ∧ g.item.data = redOp (rOp w) a.item.data b.item.data ∧
          staged u (ckey p) e.toNat 0 = (staged s (ckey p) e.toNat 0).drop 1 ∧
          staged u (ckey p) e.toNat 1 = (staged s (ckey p) e.toNat 1).drop 1 ∧ u.tiles = s.tiles ∧ u.mem = s.mem) ∧
        (∀ k n i q1 q2 q3, a.item.tagged = false → b.item.tagged = false → rOut w ≠ 4 → redNext s p.x p.y w (rOut w) = (k, n, i) →
          treeHop s ⟨p.x, p.y⟩ (keyXY k) (redFlit s (BitVec.ofNat 4 c) p.x p.y w (rOut w)
            ⟨a.seq, { a.item with data := redOp (rOp w) a.item.data b.item.data }⟩) = some (.router q1 q2 q3) →
          ∃ u, exec (.reduceCombine p e) s = .next u ∧ u.tiles = s.tiles ∧ u.mem = s.mem ∧
            staged u k n i = staged (redPop s (ckey p) e.toNat 2) k n i ++
              [⟨a.seq, { a.item with data := redOp (rOp w) a.item.data b.item.data }⟩]))) ∧
    (rType w = 2 → (List.range 5).filter (rMask w) = [4] → (staged s (ckey p) e.toNat 0).head? = some a →
      redRoom s p.x p.y w 4 = true →
      ∃ u g, exec (.bcastCopy p e) s = .next u ∧ mfind u.mesh.flits s.mesh.nextFlit = some g ∧ g.item = a.item ∧ g.seq = a.seq ∧
        g.dst = ⟨p.x, p.y⟩ ∧ staged u (ckey p) e.toNat 0 = (staged s (ckey p) e.toNat 0).drop 1 ∧ u.tiles = s.tiles ∧
        u.mem = s.mem) ∧
    (∀ m, rType w = 2 → (List.range 5).filter (rMask w) = [4] → rIn w 0 = 4 →
      mget s.mesh.branch 0 (8 * (32 * ckey p + e.toNat) + 4) = m + 1 →
      ∀ fl : Flit, fl = { cls := .collective, ctx := BitVec.ofNat 4 c, op := 1, dst := p, src := p,
                          chan := BitVec.ofNat 5 (rTileCh w), aux := BitVec.ofNat 16 (m + 1) } →
      (sinkRoom s fl = true → heldAt s fl = false → ∃ u, exec (.bcastCredit p e) s = .next u ∧
        mget u.mesh.branch 0 (8 * (32 * ckey p + e.toNat) + 4) = 0 ∧ u.tiles = s.tiles ∧ u.mem = s.mem ∧
        mfind u.mesh.flits s.mesh.nextFlit = some { fl with stamp := s.mesh.nextStamp }) ∧
      (sinkRoom s fl = false → exec (.bcastCredit p e) s = .next s))

/-- Throttling, management packets, barriers, circuits and in-network reductions act as their rules say. The model's
readings of what the rules leave open here: log entry 40. -/
def Obligations.MeshServices : Prop :=
  Claims.MeshServices ∧ Claims.InNetworkReduction

/-! ### Main memory -/

/-- R262: the stripe, the row and the line within the row of an offset name one line of main memory, and two lines of one
stripe that share row and place in the row are the same line. -/
def Sys2Proof.Claims.LinePlaces : Prop :=
  (∀ a : Nat, a % 64 = 0 → stripeOf a < 16 ∧ lineChannel a < 192 ∧ lineChannel a / 12 = stripeOf a ∧
    lineAddr (stripeOf a) (lineRow a) (lineIndex a % 11) = a) ∧
  (∀ st row j : Nat, st < 16 → j < 11 → stripeOf (lineAddr st row j) = st ∧ lineRow (lineAddr st row j) = row ∧
    lineIndex (lineAddr st row j) % 11 = j)

/-- R260, R264, R268, R270, R284: a line whose read passes its check, or whose second read does, is delivered as it came
back; one that fails both, or stands on a retired channel, is rebuilt from a row that reads well, counted, and delivered as
it was stored; where another line of the row fails too it is delivered poisoned and stored as poison over zeros, and no line
that reads well is changed; and a line of a lost stripe is delivered poisoned and changes no byte. -/
def Sys2Proof.Claims.LineReads : Prop :=
  ∀ (s : State) (a ch row : Nat) (errs : List LineCheck) (k : LineCheck), a % 64 = 0 → ch = lineChannel a → row = lineRow a →
    k = lineCheck errs ch row →
    ((s.stripe (stripeOf a)).state = 2 → (lineRead s errs a 0).2.poison = true ∧ (lineRead s errs a 0).1.mem.data = s.mem.data) ∧
    ((s.stripe (stripeOf a)).state ≠ 2 →
      (∀ v, retiredAt s ch = false → readBack (storedLine s a) k.err1 ch row = some v → lineRead s errs a 0 = (s, v)) ∧
      (∀ v, retiredAt s ch = false → readBack (storedLine s a) k.err1 ch row = none →
        readBack (storedLine s a) k.err2 ch row = some v → lineRead s errs a 0 = (s, v)) ∧
      (retiredAt s ch = true ∨ (readBack (storedLine s a) k.err1 ch row = none ∧ readBack (storedLine s a) k.err2 ch row = none) →
        ((∀ q, q < 12 → q ≠ rowPos a → retiredAt s (12 * stripeOf a + q) = false ∧
            (lineCheck errs (12 * stripeOf a + q) row).err1 = 0) →
          (lineRead s errs a 0).2 = storedLine s a ∧
          (∀ j, cellGet (lineRead s errs a 0).1.mem.data j = cellGet s.mem.data j) ∧
          ((lineRead s errs a 0).1.stripe (stripeOf a)).recon = satAdd (s.stripe (stripeOf a)).recon 1 (2 ^ 32 - 1)) ∧
        (∀ q, q < 12 → q ≠ rowPos a → retiredAt s (12 * stripeOf a + q) = true ∨
            (readBack (rowLine s (stripeOf a) row q) (lineCheck errs (12 * stripeOf a + q) row).err1 (12 * stripeOf a + q) row = none ∧
              readBack (rowLine s (stripeOf a) row q) (lineCheck errs (12 * stripeOf a + q) row).err2 (12 * stripeOf a + q) row = none) →
          (lineRead s errs a 0).2.poison = true ∧ (lineRead s errs a 0).1.mem.poison.contains (a / 64) = true ∧
          (∀ j, j < 64 → cellGet (lineRead s errs a 0).1.mem.data (a + j) = 0) ∧
          (∀ b j, b % 64 = 0 → j < 64 → b ≠ a → (stripeOf b = stripeOf a → lineRow b = row → retiredAt s (lineChannel b) = false ∧
              (lineCheck errs (lineChannel b) row).err1 = 0) →
            cellGet (lineRead s errs a 0).1.mem.data (b + j) = cellGet s.mem.data (b + j)))))

/-- Every line has one place in its stripe, and a read delivers it, rebuilds it or delivers it poisoned. The model's
readings of what the rules leave open here: log entries 2, 43 and 90. -/
def Obligations.Lines : Prop :=
  Claims.LinePlaces ∧ Claims.LineReads

/-- R71, R261, R275, R276, R308: a request to this module's memory takes an entry of its context's share and changes no
byte; the further flits of a write join the entry that waits for them; with the share in use a request waits; a request of a
context that does not run is absorbed; and one past memory is refused with an error reply, once all of it is there. -/
def Sys2Proof.Claims.GranaryRequests : Prop :=
  ∀ (s : State) (f a : Nat) (fl : Flit) (x : Ctx) (north : Bool),
    s.arrived f = some fl → fl.cls = .request → fl.op = 2 ∨ fl.op = 4 → isGranary fl.dst = true → north = (fl.dst.y == northRow) →
    a = gOff fl.addr.toNat →
    (live s fl.ctx.toNat fl.src = none → exec (.granaryRequestAccept f) s = .next (s.dropFlit f)) ∧
    (∀ n t, live s fl.ctx.toNat fl.src = some x → fl.op = 4 → openEntry s fl north = some (n, t) →
      (mput t.parts fl.seq.toNat fl.lines).length ≠ fl.aux.toNat →
      exec (.granaryRequestAccept f) s =
        .next (putEntry (s.dropFlit f) n { t with parts := mput t.parts fl.seq.toNat fl.lines })) ∧
    (∀ n t, live s fl.ctx.toNat fl.src = some x → fl.op = 4 → openEntry s fl north = some (n, t) → t.kind = .writeLocal →
      t.bad = false → (mput t.parts fl.seq.toNat fl.lines).length = fl.aux.toNat →
      ∃ u, exec (.granaryRequestAccept f) s = .next u ∧ u.tiles = s.tiles ∧ u.mem.data = s.mem.data ∧ mfind u.mem.txns n =
        some { t with parts := [], lines := (mput t.parts fl.seq.toNat fl.lines).flatMap (·.2) }) ∧
    (live s fl.ctx.toNat fl.src = some x → (fl.op = 4 → openEntry s fl north = none) →
      (x.cdef.share ≤ entriesUsed s fl.ctx.toNat north → exec (.granaryRequestAccept f) s = .next s) ∧
      (entriesUsed s fl.ctx.toNat north < x.cdef.share → gSpace fl.addr.toNat = 0 →
        (a + fl.len ≤ memCap s → a < writeViewBase →
          ∃ u t, exec (.granaryRequestAccept f) s = .next u ∧ mfind u.mesh.flits f = none ∧ u.tiles = s.tiles ∧
            u.mem.data = s.mem.data ∧ u.mem.poison = s.mem.poison ∧
            mfind u.mem.txns (nextFree s.mem.txns) = some t ∧ t.kind = (if fl.op = 4 then .writeLocal else .readLocal) ∧
            t.addr = BitVec.ofNat 64 (if fl.len % 64 = 0 then a else a / 64 * 64) ∧ t.len = (if fl.len % 64 = 0 then fl.len else 64) ∧
            t.part = (if fl.len % 64 = 0 then none else some (a % 64, fl.len)) ∧ t.order = s.mem.nextOrder ∧
            t.src = fl.src ∧ t.tag = fl.tag ∧ t.ctx = fl.ctx ∧ t.done = 0 ∧ t.north = north ∧ t.bad = false ∧
            t.epoch = epochOf s fl.ctx.toNat ∧
            (fl.op = 4 → fl.aux = 1 → t.lines = fl.lines ∧ t.parts = []) ∧
            (fl.op = 4 → fl.aux ≠ 1 → t.lines = [] ∧ t.parts = [(fl.seq.toNat, fl.lines)])) ∧
        (memCap s < a + fl.len → a < readViewBase → a < writeViewBase → fl.op = 2 ∨ fl.aux = 1 →
          granaryRoom (s.dropFlit f) { cls := .reply, ctx := fl.ctx, op := 0xD, dst := fl.src, src := granaryPort fl.src.x north } = true →
          ∃ u g, exec (.granaryRequestAccept f) s = .next u ∧ u.tiles = s.tiles ∧ u.mem.data = s.mem.data ∧
            mfind u.mem.txns (nextFree s.mem.txns) = none ∧
            mfind u.mesh.flits s.mesh.nextFlit = some g ∧ g.cls = .reply ∧ g.op = 0xD ∧ g.dst = fl.src ∧ g.tag = fl.tag)))

/-- R263, R265, R266, R275: the last line of a read entry, whose read passes, ends the entry in a reply that carries its
lines and changes no byte; the last row of a write entry, its reads sound, is stored with its poison, every other byte of
memory stays, and the write is acknowledged; the entry is freed once its reply has left. -/
def Sys2Proof.Claims.GranaryLines : Prop :=
  ∀ (s : State) (n a : Nat) (errs : List LineCheck) (t : Txn) (g0 : Flit),
    mfind s.mem.txns n = some t → a = t.addr.toNat + 64 * t.done → a % 64 = 0 → s.mem.selfRefresh = false → onMemory t = true →
    t.bad = false → t.packet = none → t.done < t.len / 64 → rowWaits s t (stripeOf a) (lineRow a) = false → s.lostAt a = false →
    t.addr.toNat / 4096 = (t.addr.toNat + t.len - 1) / 4096 →
    g0 = { cls := .reply, ctx := t.ctx, op := 0, dst := t.src, src := granaryPort t.src.x t.north } →
    (∀ v, t.kind.writes = false → t.done + 1 = t.len / 64 → retiredAt s (lineChannel a) = false →
      readBack (storedLine s a) (lineCheck errs (lineChannel a) (lineRow a)).err1 (lineChannel a) (lineRow a) = some v →
      granaryRoom s g0 = true →
      ∃ u g, exec (.granaryLineRead n errs) s = .next u ∧ u.tiles = s.tiles ∧ u.mem.data = s.mem.data ∧
        mfind u.mesh.flits s.mesh.nextFlit = some g ∧ g.cls = .reply ∧ g.op = 3 ∧ g.dst = t.src ∧ g.tag = t.tag ∧
        g.lines = (t.lines ++ [v]).take 2 ∧ (t.lines.length < 2 → mfind u.mem.txns n = none) ∧
        (mfind u.mem.txns n = none ∨ ∃ w, mfind u.mem.txns n = some w ∧ w.reply = some 3 ∧ w.lines = t.lines ++ [v])) ∧
    (t.kind.writes = true → (s.mem.copies.any fun c => c.txn == some n) = false → 64 * t.lines.length = t.len →
      t.len / 64 - t.done = rowRun a (t.len / 64 - t.done) → (∀ p, t.part = some p → t.len = 64) →
      s.mem.retired = [] → (∀ k ∈ errs, k.row ≠ lineRow a ∨ k.ch / 12 ≠ stripeOf a) → granaryRoom s g0 = true →
      ∃ u g, exec (.granaryRowWrite n errs) s = .next u ∧ u.tiles = s.tiles ∧ mfind u.mem.txns n = none ∧
        (∀ i j ln, t.lines[t.done + i]? = some ln → j < 64 → cellGet u.mem.data (a + 64 * i + j) =
          (match t.part with
            | none => ln.data.extractLsb' (8 * j) 8
            | some (o, m) => if o ≤ j ∧ j < o + m then ln.data.extractLsb' (8 * j) 8 else cellGet s.mem.data (a + j))) ∧
        (∀ i ln, t.lines[t.done + i]? = some ln → u.mem.poison.contains (a / 64 + i) =
          (match t.part with
            | none => ln.poison
            | some (o, _) => s.mem.poison.contains (a / 64) && o != 0)) ∧
        (∀ j, j < a ∨ a + 64 * (t.len / 64 - t.done) ≤ j → cellGet u.mem.data j = cellGet s.mem.data j) ∧
        mfind u.mesh.flits s.mesh.nextFlit = some g ∧ g.cls = .reply ∧ g.op = 5 ∧ g.dst = t.src ∧ g.tag = t.tag)

/-- Requests take an entry of their context's share, and the last line of an entry answers it and frees it. The model's
readings of what the rules leave open here: log entries 42 and 44. -/
def Obligations.Granary : Prop :=
  Claims.GranaryRequests ∧ Claims.GranaryLines

/-- R267, R268, R270, R272: a channel that does not answer has met a condition of retirement, and only a channel that has
met one is retired; the first retirement of a stripe leaves it degraded with the place of the channel and is reported, a
second loses the stripe; and a scrub that finds a row sound goes on to the next row and changes no byte, and one that finds
one line bad in a whole row rebuilds and counts it. -/
def Sys2Proof.Claims.ChannelsAndScrub : Prop :=
  ∀ (s : State) (ch st row : Nat) (drift : Bool), ch < 192 → retiredAt s ch = false →
    exec (.channelResponseTimeout ch) s = .next { s with mem := { s.mem with due := sadd s.mem.due ch } } ∧
    (drift = false → s.mem.due.contains ch = false → exec (.channelRetire ch drift) s = .next s) ∧
    (drift = true ∨ s.mem.due.contains ch = true →
      ((s.stripe (ch / 12)).state = 0 → ∃ u, exec (.channelRetire ch drift) s = .next u ∧ u.mem.data = s.mem.data ∧
        u.mem.retired = sadd s.mem.retired ch ∧ (u.stripe (ch / 12)).state = 1 ∧
        (u.stripe (ch / 12)).retiredPos = BitVec.ofNat 4 (ch % 12) ∧ u.tiles = s.tiles ∧
        u.events = (raise s .memChannelRetired [ch, ch / 12]).events) ∧
      ((s.stripe (ch / 12)).state = 1 → ∃ u, exec (.channelRetire ch drift) s = .next u ∧ u.mem.data = s.mem.data ∧
        u.mem.retired = sadd s.mem.retired ch ∧ (u.stripe (ch / 12)).state = 2 ∧
        (u.stripe (ch / 12)).lostPos = BitVec.ofNat 4 (ch % 12) ∧ u.tiles = s.tiles ∧
        u.events = (raise s .stripeLost [ch / 12]).events)) ∧
    (st < 16 → s.mem.selfRefresh = false → cfgField s 0x2280 1 0 8 ≠ 0 → (s.stripe st).state ≠ 2 →
      row = mget s.mem.scrubRow 0 st → rowHeld s s.mem.nextOrder true st row = false →
      exec (.granaryScrubRow st []) s = .next { s with mem := { s.mem with
        scrubRow := mput s.mem.scrubRow st ((row + 1) % memRows s) } } ∧
      (∀ q e1 e2, q < 12 → (∀ p, p < 12 → retiredAt s (12 * st + p) = false) →
        readBack (rowLine s st row q) e1 (12 * st + q) row = none → readBack (rowLine s st row q) e2 (12 * st + q) row = none →
        ∃ u, exec (.granaryScrubRow st [⟨12 * st + q, row, e1, e2, 0, 0⟩]) s = .next u ∧ u.tiles = s.tiles ∧
          (∀ j, cellGet u.mem.data j = cellGet s.mem.data j) ∧ mget u.mem.scrubRow 0 st = (row + 1) % memRows s ∧
          (u.stripe st).recon = satAdd (s.stripe st).recon 1 (2 ^ 32 - 1)))

/-- R279, R280: a completed copy of a page of the versioned range, its lines sound, leaves the bytes and the poison of the
newest version at the place of the version being built, and every other byte as it was; the page's written bit is set where
a write waited for the copy, and a boundary's copy is done. -/
def Sys2Proof.Claims.PageCopies : Prop :=
  ∀ (s : State) (c page src dst : Nat) (x : Ctx) (boundary : Bool),
    s.ctx c = some x → s.mem.selfRefresh = false → boundary = (x.run.phase == .boundary && x.run.toCopy.contains page) →
    copying s c page = true ∨ boundary = true → copyWaits s c x.cdef page = false → recordLost s x.cdef = false →
    (∀ i, (s.stripe i).state = 0) → s.mem.retired = [] →
    src = x.cdef.slotBase (verRec s x.cdef).newest + 4096 * page →
    dst = x.cdef.slotBase (verRec s x.cdef).build + 4096 * page → src % 64 = 0 → dst % 64 = 0 →
    ∃ u y, exec (.pageCopyComplete c page []) s = .next u ∧ u.tiles = s.tiles ∧
      (∀ j, j < 4096 → cellGet u.mem.data (dst + j) = cellGet s.mem.data (src + j)) ∧
      (∀ j, j < 64 → u.mem.poison.contains (dst / 64 + j) = s.mem.poison.contains (src / 64 + j)) ∧
      (∀ j, j < dst ∨ dst + 4096 ≤ j → cellGet u.mem.data j = cellGet s.mem.data j) ∧
      copying u c page = false ∧ u.ctx c = some y ∧ y.tally = x.tally ∧ y.run.toCopy = sdel x.run.toCopy page ∧
      y.run.written = (if boundary then x.run.written else sadd x.run.written page)

/-- Retired channels degrade and then lose their stripe, the scrubber goes row by row, and a page copy copies one page. The
model's readings of what the rules leave open here: log entries 42 and 43. -/
def Obligations.ChannelsAndCopies : Prop :=
  Claims.ChannelsAndScrub ∧ Claims.PageCopies

/-! ### Step boundaries and the tally -/

/-- R281: the version record is written so that what is read back is what was written, for every record whose fields fit
their widths. -/
def Sys2Proof.Claims.VersionRecordEncoding : Prop :=
  ∀ v : VerRec, v.steps.length = 5 → v.states.length = 5 → (∀ n ∈ v.steps, n < 2 ^ 64) → (∀ n ∈ v.states, n < 4) →
    v.newest < 8 → v.build < 8 → v.slots < 8 → v.commits < 2 ^ 32 →
    v.toLine < 2 ^ 512 ∧ VerRec.ofLine v.toLine = v

/-- R280, R282: a commit makes the slot being built the newest committed version of its step, counts one commit, and then
builds in a free slot; the record at creation has slot 0 committed for FIRST_STEP − 1 and builds in slot 1. -/
def Sys2Proof.Claims.VersionRecordCommit : Prop :=
  (∀ (v : VerRec) (step : Nat), v.steps.length = 5 → v.states.length = 5 → v.build < v.slots → v.slots ≤ 5 →
    (∀ i, i < v.slots → i ≠ v.build → v.states.getD i 0 = 0) →
    v.slots ≠ 1 →
    (v.commit step).newest = v.build ∧ (v.commit step).steps.getD v.build 0 = step ∧ (v.commit step).states.getD v.build 0 = 1 ∧
    (v.commit step).commits = (v.commits + 1) % 2 ^ 32 ∧ (v.commit step).build ≠ v.build ∧
    (v.commit step).states.getD (v.commit step).build 0 = 2) ∧
  (∀ (n : Nat) (first : DWord), (VerRec.create n first).newest = 0 ∧ (VerRec.create n first).build = 1 ∧
    (VerRec.create n first).states = [1, 2, 0, 0, 0] ∧ (VerRec.create n first).steps.getD 0 0 = (first - 1).toNat ∧
    (VerRec.create n first).commits = 0 ∧ (VerRec.create n first).slots = n)

/-- The version record is read back as written, and a commit moves NEWEST and BUILD on. -/
def Obligations.VersionRecord : Prop :=
  Claims.VersionRecordEncoding ∧ Claims.VersionRecordCommit

/-- R36, R47, R150, R152, R280, R285, R405: when every tile has executed `stepend` and the step's writes are done, the
boundary begins: capture entries and tally tables of its tiles are empty, FP_FLAGS clear, and the pages not written are to
be copied. The commit then rewrites the version record in one line and, where scale records are due, those of the version
being built, and changes no other byte; a version record that cannot be told, and a scale record that is poisoned or lost,
reset the context instead. -/
def Sys2Proof.Claims.BoundaryAndCommit : Prop :=
  ∀ (s : State) (c : Nat) (x : Ctx), s.ctx c = some x → x.rec_.state = 1 →
    (x.run.phase = .running → x.run.released = true →
      (x.cdef.keys.any fun k => (s.tile k).core.run == .stepEnd) = true → stepDrained s c x.cdef = true →
      ∃ u y, exec (.stepBoundaryBegin c) s = .next u ∧ u.mem = s.mem ∧ u.ctx c = some y ∧ y.cdef = x.cdef ∧
        y.run = { x.run with phase := .boundary
                             toCopy := (List.range (x.cdef.verW / 4096)).filter fun p => !x.run.written.contains p } ∧
        ∀ k ∈ x.cdef.keys, (u.tile k).core = { (s.tile k).core with fpFlags := 0 } ∧ (u.tile k).bin.capture = [] ∧
          (u.tile k).tally = []) ∧
    (commitReady s c x = true → admitting s c = false → recordLost s x.cdef = true →
      exec (.versionCommit c) s = .next (loseRecord s c)) ∧
    (commitReady s c x = true → admitting s c = false → recordLost s x.cdef = false →
      scalePoison s x = true ∨ scaleStripeLost s x = true → exec (.versionCommit c) s = .next (stopCtx s c 5 none [])) ∧
    (commitReady s c x = true → admitting s c = false → recordLost s x.cdef = false → scalePoison s x = false →
      scaleStripeLost s x = false →
      ∃ u y, exec (.versionCommit c) s = .next u ∧ u.tiles = s.tiles ∧ u.ctx c = some y ∧ y.run.phase = .committed ∧
        y.run.written = [] ∧ y.run.step = x.run.step ∧
        cellRead u.mem.data x.cdef.verBase 64 = toLE 64 ((verRec s x.cdef).commit x.run.step.toNat).toLine ∧
        ∀ a, (a < x.cdef.verBase ∨ x.cdef.verBase + 64 ≤ a) →
          (delayedOn x = true ∨ x.run.histClear = true → ∀ j b, j < x.cdef.delayedIds.length →
            b = x.cdef.slotBase (verRec s x.cdef).build + x.cdef.scaleRec j → a < b ∨ b + 1024 ≤ a) →
          cellGet u.mem.data a = cellGet s.mem.data a)

/-- R36, R270, R398, R409, R410, R429: after the commit the record is sealed, which empties the build and counts one attempt
of its step; the next step then starts once its number is admitted, and every tile that waited at its `stepend` goes on past
it. -/
def Sys2Proof.Claims.SealAndNextStep : Prop :=
  ∀ (s : State) (c : Nat) (x : Ctx), s.ctx c = some x →
    (∀ damaged, x.run.phase = .committed → sealLost s c { x with tally := { x.tally with damaged := damaged } } = false → ∃ u y, exec (.tallySeal c damaged) s = .next u ∧ u.tiles = s.tiles ∧
      u.ctx c = some y ∧ y.run.phase = .sealed_ ∧ y.run.step = x.run.step ∧ y.cdef = x.cdef ∧ y.rec_ = x.rec_ ∧
      y.tally.entries = [] ∧ y.tally.bounded = 0 ∧ y.tally.unchecked = 0 ∧ y.tally.retries = 0 ∧
      y.tally.sealedCounts = bump x.tally.sealedCounts x.run.step) ∧
    (x.run.phase = .sealed_ → x.rec_.state = 1 → s.hall.admState = 0 → mayBegin s c (x.run.step + 1) = true →
      x.run.gen = s.dict.activeGen → s.dict.adopted = true → scalePoison s x = false → x.run.pauseState = 0 →
      (∀ k ∈ x.cdef.keys, (s.tile k).core.run = .stepEnd ∧ (s.tile k).core.fits ∧ (s.tile k).moveStage = 0) →
      ∃ u y, exec (.stepStart c) s = .next u ∧ u.mem = s.mem ∧ u.ctx c = some y ∧ y.run.step = x.run.step + 1 ∧
        y.run.phase = .running ∧ y.run.arrived = [] ∧ y.run.heard = [] ∧ y.run.releasing = false ∧ y.run.released = false ∧ y.run.excSeen = false ∧
        ∀ k ∈ x.cdef.keys, (u.tile k).core = { (s.tile k).core with run := .running }.past)

/-- R403 to R405, R407: the oldest captured line of a tile is hashed under its tensor, into a new entry of the table, the
first entry leaving a full one, or into the entry that the tensor has, and leaves the capture lane; where the focus names
the tensor the hash is added to the sum of its block; and a full table gives its first entry to the record being built,
merged under its TENSOR_ID. -/
def Sys2Proof.Claims.DigestEngine : Prop :=
  ∀ (s : State) (p : Coord) (c : Nat) (x : Ctx) (t : Tile), InCtx s p c x → s.ctx c = some x → t = s.tile (ckey p) →
    (∀ l rest h e, t.bin.capture = l :: rest → h = lineHash l.norm l.tensor l.data →
      e = { tensor := tallyId x.cdef l.tensor, lines := 1, digest := h, viewLines := b2n (l.norm.toNat / 2 ^ 62 == 0),
            viewDigest := if l.norm.toNat / 2 ^ 62 = 0 then h else 0 } →
      ∃ u y, exec (.captureLineDigest p) s = .next u ∧ u.mem = s.mem ∧ u.mesh = s.mesh ∧ OnlyTile s u (ckey p) ∧ u.ctx c = some y ∧
        y.run = x.run ∧ y.cdef = x.cdef ∧ (u.tile (ckey p)).core = t.core ∧ (u.tile (ckey p)).bin.capture = rest ∧
        ((t.tally.any fun a => a.tensor == e.tensor) = false → (u.tile (ckey p)).tally = (if 32 ≤ t.tally.length then t.tally.drop 1 else t.tally) ++ [e]) ∧
        ((t.tally.any fun a => a.tensor == e.tensor) = true →
          (u.tile (ckey p)).tally = t.tally.map fun a => if a.tensor == e.tensor then a.merge e else a) ∧
        (∀ b, mget y.tally.focus 0 b = mget x.tally.focus 0 b +
          (if bitAt x.run.focus.toNat 63 = true ∧ bits x.run.focus.toNat 59 4 = c ∧ bits x.run.focus.toNat 0 32 = e.tensor.toNat ∧
            b = bits l.norm.toNat 10 12 then h else 0))) ∧
    (∀ e rest, t.tally = e :: rest → 31 ≤ rest.length →
      ∃ u y, exec (.tallyEntryEvict p) s = .next u ∧ u.mem = s.mem ∧ u.tile (ckey p) = { t with tally := rest } ∧
        u.ctx c = some y ∧ y.tally = { x.tally with entries := mergeEntry x.tally.entries e } ∧ y.run = x.run)

/-- A step ends at its boundary, commits its version, seals its record of hashed lines, and begins the next step. The
model's readings of what the rules leave open here: log entries 21, 35, 58 and 64. -/
def Obligations.StepBoundary : Prop :=
  Claims.BoundaryAndCommit ∧ Claims.SealAndNextStep ∧ Claims.DigestEngine

/-- R410: a reset that reaches a running context before its commit clears the tensor entries and the replayed counters of
the record being built; its event counters and its fault entries are kept, and the next attempt builds in the same slot. -/
def Obligations.BuildSlotKept : Prop :=
  ∀ (s : State) (c : Nat) (x : Ctx) (cause : Nat) (target : Option DWord) (remap : List Nat), s.ctx c = some x →
    x.rec_.state = 1 → admitting s c = false → x.run.phase ≠ .committed → x.run.phase ≠ .sealed_ →
    ∃ y, (stopCtx s c cause target remap).ctx c = some y ∧ y.tally.entries = [] ∧ y.tally.bounded = 0 ∧
      y.tally.unchecked = 0 ∧ y.tally.retries = x.tally.retries ∧ y.tally.late = x.tally.late ∧
      y.tally.stale = x.tally.stale ∧ y.tally.spills = x.tally.spills ∧ y.tally.fallowLate = x.tally.fallowLate ∧
      y.tally.spillItems = x.tally.spillItems ∧ x.tally.faults <+: y.tally.faults ∧ y.tally.slot = x.tally.slot

/-! ### Links and the hall -/

/-- R293 to R298, R311: a frame slot of a link resends first, and otherwise places a waiting packet of any class that fits
in a frame into a new frame that the replay buffer keeps, against its class's credits; with nothing to send it sends a
control frame where NAK or credits are due. A good frame in sequence is accepted and its packet goes to its sink's buffer or
on its way; one out of sequence and one that is damaged leave the expected SEQ and ask for NAK; a received NAK names the
frames to resend; and the acknowledgement timer acknowledges what has arrived. The model's readings of what the rules leave
open here: log entry 45. -/
def Obligations.LinkFrames : Prop :=
  ∀ (s : State) (l : Nat) (k : Link), k = s.link l → k.up = true → k.pendTx = [] → k.pendRx = [] → (∀ e ∈ k.owe, e.1 < 8) →
    (∀ f r, k.resend = f :: r → f.units < 32 → ∃ u w, exec (.linkFrameSlot l) s = .next u ∧ u.tiles = s.tiles ∧ u.mem = s.mem ∧
      u.ctxs = s.ctxs ∧ (u.link l).resend = r ∧ (u.link l).replay = k.replay ∧ (u.link l).seqTx = k.seqTx ∧
      (u.link l).ackTx = k.seqRx ∧ (u.link l).nakDue = false ∧ (u.link l).wire = some w ∧
      w.wave = k.mapTx[f.seq.toNat % k.mapTx.length]? ∧ w.head.extractLsb' 52 12 = f.seq ∧ w.head.extractLsb' 40 12 = k.seqRx ∧
      w.head.getLsbD 39 = k.nakDue ∧ w.packets = f.packets.map (·.pk)) ∧
    (∀ (q : Queued) (n : Nat), k.resend = [] → k.replay.length < 1172 → k.outq = [q] → n = clsNum (packetClass q.pk) →
      packetUnits q.pk ≤ 16 → mget k.part 0 n = 0 → mget k.flight [] n = [] →
      8 * packetUnits q.pk ≤ bufUnits (packetClass q.pk) * jobShare s q.pk ∨ q.pk.job = 0 →
      packetUnits q.pk ≤ mget k.credits (bufUnits (packetClass q.pk)) n →
      onRing s l = false ∨ q.enters = false ∨ 2 * maxUnits (packetClass q.pk) ≤ mget k.credits (bufUnits (packetClass q.pk)) n →
      ∃ u w, exec (.linkFrameSlot l) s = .next u ∧ (u.link l).outq = [] ∧ (u.link l).seqTx = k.seqTx + 1 ∧
        (u.link l).replay =
          k.replay ++ [⟨k.seqTx, packetClass q.pk, [q], packetUnits q.pk, quarterBits (packetMarks q.pk)⟩] ∧
        (u.link l).ackTx = k.seqRx ∧ (u.link l).wire = some w ∧ w.packets = [q.pk] ∧ w.head.extractLsb' 52 12 = k.seqTx ∧
        w.wave = k.mapTx[k.seqTx.toNat % k.mapTx.length]? ∧
        mget (u.link l).credits (bufUnits (packetClass q.pk)) n =
          mget k.credits (bufUnits (packetClass q.pk)) n - packetUnits q.pk ∧
        u.tiles = s.tiles ∧ u.mem = s.mem ∧ u.ctxs = s.ctxs) ∧
    (k.resend = [] → k.outq = [] →
      (k.nakDue = true → ∃ u w, exec (.linkFrameSlot l) s = .next u ∧ (u.link l).nakDue = false ∧ (u.link l).wire = some w ∧
        w.wave = none ∧ w.head.getLsbD 39 = true ∧ w.head.extractLsb' 40 12 = k.seqRx ∧ w.down = k.markDue ∧ u.tiles = s.tiles ∧
        u.mem = s.mem) ∧
      (k.nakDue = false → (k.owe.any fun e => e.2 != 0) = false → exec (.linkFrameSlot l) s = .next s)) ∧
    (∀ fr : LinkFrame, fr.uncorrectable = false →
      (fr.good = false ∨ 4 < fr.cls.toNat ∨ 16 < fr.units.toNat → exec (.linkFrameReceive l fr) s =
        .next (s.modLink l fun k => { k with nakked := true, nakDue := true })) ∧
      (fr.good = true → fr.cls.toNat ≤ 4 → fr.units.toNat ≤ 16 → fr.units ≠ 0 → fr.seq ≠ k.seqRx →
        ∃ u, exec (.linkFrameReceive l fr) s = .next u ∧ u.tiles = s.tiles ∧ u.mem = s.mem ∧ (u.link l).seqRx = k.seqRx ∧
          (u.link l).replay = ackFrames fr.ack k.replay ∧ (u.link l).nakked = true ∧ (u.link l).inq = k.inq ∧
          (u.link l).nakDue = (k.nakDue || !k.nakked)) ∧
      (∀ p : Packet, fr.good = true → fr.cls.toNat ≤ 4 → fr.units.toNat ≤ 16 → fr.units ≠ 0 → fr.seq = k.seqRx →
        fr.packets = [p] → clsNum (packetClass p) = fr.cls.toNat → packetUnits p ≤ fr.units.toNat → mget k.inPart [] fr.cls.toNat = [] →
        (p.dest.toNat = ownCoord s → p.op.toNat < 6 →
          ∃ u, exec (.linkFrameReceive l fr) s = .next u ∧ u.tiles = s.tiles ∧ u.mem = s.mem ∧ (u.link l).seqRx = k.seqRx + 1 ∧
            (u.link l).nakked = false ∧ (u.link l).replay = ackFrames fr.ack k.replay ∧ (u.link l).inq = k.inq ++
              [{ p with poison := (List.range p.data.length).map fun i => fr.poison.getLsbD ((2 + 4 * i) / 4) }]) ∧
        (∀ w, p.dest.toNat ≠ ownCoord s → routeFrom s (linkSouth l) allSlots p (travelOf s l) = some w →
          ∃ u, exec (.linkFrameReceive l fr) s = .next u ∧ u.tiles = s.tiles ∧ u.mem = s.mem ∧ (u.link l).seqRx = k.seqRx + 1 ∧
            (u.link w.link).outq = (s.link w.link).outq ++
              [⟨{ p with poison := (List.range p.data.length).map fun i => fr.poison.getLsbD ((2 + 4 * i) / 4) },
                w.enters, w.fallback, l⟩]))) ∧
    (∀ (fr : LinkFrame) times, fr.uncorrectable = true →
      times = now s :: (mget k.badWords [] fr.wave.toNat).filter (fun t => now s < t + 1000) →
      (times.length ≤ 16 → ∃ u, exec (.linkFrameReceive l fr) s = .next u ∧ u.tiles = s.tiles ∧ u.mem = s.mem ∧
        u.link l = { k with nakked := true, nakDue := true, uncorr := satAdd k.uncorr 1 65535,
                            badWords := mput k.badWords fr.wave.toNat times }) ∧
      (∀ rest sp, 16 < times.length → fr.wave.toNat ∈ k.mapRx → rest = k.mapRx.filter (fun i => i != fr.wave.toNat) → rest ≠ [] →
        spareOf rest (k.failedRx ||| (1#8 <<< fr.wave.toNat)) = some sp →
        ∃ u, exec (.linkFrameReceive l fr) s = .next u ∧ u.tiles = s.tiles ∧ u.mem = s.mem ∧ (u.link l).mapRx = rest ∧
          (u.link l).failedRx = k.failedRx ||| (1#8 <<< fr.wave.toNat) ∧ (u.link l).markDue = some fr.wave ∧
          (u.link l).nakDue = true ∧ (u.link l).seqRx = k.seqRx)) ∧
    (∀ seq, k.nakAt = some seq → ∃ u, exec (.linkNakResend l none) s = .next u ∧ u.tiles = s.tiles ∧ u.mem = s.mem ∧
      u.link l = { k with replay := ackFrames seq k.replay, resend := ackFrames seq k.replay,
                          resends := satAdd k.resends 1 65535, nakAt := none }) ∧
    (k.nakAt = none → ∀ d, exec (.linkNakResend l d) s = .next s) ∧
    (∃ u w, exec (.linkAckTimer l) s = .next u ∧ u.tiles = s.tiles ∧ u.mem = s.mem ∧ (u.link l).ackTx = k.seqRx ∧
      (u.link l).wire = some w ∧ w.wave = none ∧ w.head.extractLsb' 40 12 = k.seqRx ∧ (u.link l).replay = k.replay)

/-- R289 to R291, R299 to R301: an electrical lane that fails leaves its bundle and is reported, and where the rest cannot
carry the active wavelengths a transmitter names a shorter lane map at a SEQ in advance; a wavelength that fails leaves the
map and the lowest spare that the lanes can carry is named for it in the same way, while with none left the link is
degraded; a receiver asks for a NAK with a lane-down mark and notes what the transmitter names; and from the SEQ named on
the new map holds. -/
def Sys2Proof.Claims.LanesAndWavelengths : Prop :=
  ∀ (s : State) (l : Nat) (k : Link), k = s.link l → k.up = true →
    (∀ (lane : BitVec 3) n cap, k.lanesTx.getLsbD lane.toNat = false → n = (k.mapTx ++ namedSpares k.pendTx).length →
      cap = laneCapacity (healthyLanes (k.lanesTx ||| (1#8 <<< lane.toNat))) →
      (n ≤ cap → ∃ u, exec (.linkLaneFailed l true lane) s = .next u ∧ u.tiles = s.tiles ∧ u.mem = s.mem ∧
        u.events = (raise s .linkLaneFailed [l, 1, lane.toNat]).events ∧
        u.link l = { k with lanesTx := k.lanesTx ||| (1#8 <<< lane.toNat) }) ∧
      (cap < n → 0 < cap → ∃ u seq pk, exec (.linkLaneFailed l true lane) s = .next u ∧ u.tiles = s.tiles ∧ u.mem = s.mem ∧
        0 < (seq - k.seqTx).toNat ∧ (seq - k.seqTx).toNat ≤ 1024 ∧ pk.op = 8 ∧
        u.link l = { k with lanesTx := k.lanesTx ||| (1#8 <<< lane.toNat), pendTx := k.pendTx ++ [⟨seq, none, cap⟩],
                            outq := k.outq ++ [⟨pk, false, false, ownInput⟩] })) ∧
    (∀ (lane : BitVec 3) n cap, k.lanesRx.getLsbD lane.toNat = false → n = (k.mapRx ++ namedSpares k.pendRx).length →
      cap = laneCapacity (healthyLanes (k.lanesRx ||| (1#8 <<< lane.toNat))) →
      (n ≤ cap → ∃ u, exec (.linkLaneFailed l false lane) s = .next u ∧ u.tiles = s.tiles ∧ u.mem = s.mem ∧
        u.link l = { k with lanesRx := k.lanesRx ||| (1#8 <<< lane.toNat) }) ∧
      (cap < n → 0 < cap → ∃ u pk, exec (.linkLaneFailed l false lane) s = .next u ∧ u.tiles = s.tiles ∧ u.mem = s.mem ∧ pk.op = 8 ∧
        u.link l = { k with lanesRx := k.lanesRx ||| (1#8 <<< lane.toNat), outq := k.outq ++ [⟨pk, false, false, ownInput⟩] })) ∧
    (∀ (w : BitVec 3) (cause : WaveFail) rest failed cap,
      cause = .lost ∨ cause = .monitor ∨ (∃ e b, cause = .ber e b ∧ b < e * 10 ^ cfgField s 0x2290 1 12 4) ∨
        (cause = .laser ∧ ∀ i, i < 4 → l / 4 * 4 + i ≠ l → (s.link (l / 4 * 4 + i)).failedTx.getLsbD w.toNat = true) →
      k.failedTx.getLsbD w.toNat = false → w.toNat ∈ k.mapTx → k.pendTx = [] → rest = k.mapTx.filter (fun i => i != w.toNat) →
      failed = k.failedTx ||| (1#8 <<< w.toNat) → cap = laneCapacity (healthyLanes k.lanesTx) → rest ≠ [] →
      (∀ sp, spareOf rest failed = some sp → rest.length < cap →
        ∃ u seq pk, exec (.wavelengthFail l true cause w) s = .next u ∧ u.gleaner.gazDirty = true ∧ u.tiles = s.tiles ∧
          u.mem = s.mem ∧ 0 < (seq - k.seqTx).toNat ∧ (seq - k.seqTx).toNat ≤ 1024 ∧ pk.op = 8 ∧
          u.link l = { k with failedTx := failed, mapTx := rest, pendTx := [⟨seq, some (sp, w.toNat), cap⟩],
                              outq := k.outq ++ [⟨pk, false, false, ownInput⟩] }) ∧
      (spareOf rest failed = none ∨ cap ≤ rest.length → k.mapRx ≠ [] →
        ∃ u, exec (.wavelengthFail l true cause w) s = .next u ∧ u.gleaner.gazDirty = true ∧ u.tiles = s.tiles ∧ u.mem = s.mem ∧
          u.events = (raise s .linkDegraded [l]).events ∧ u.link l = { k with failedTx := failed, mapTx := rest, state := 3 })) ∧
    (∀ (w : BitVec 3) (cause : WaveFail) rest sp,
      cause = .lost ∨ cause = .monitor ∨ (∃ e b, cause = .ber e b ∧ b < e * 10 ^ cfgField s 0x2290 1 12 4) ∨
        (cause = .laser ∧ ∀ i, i < 4 → l / 4 * 4 + i ≠ l → (s.link (l / 4 * 4 + i)).failedRx.getLsbD w.toNat = true) →
      k.failedRx.getLsbD w.toNat = false → w.toNat ∈ k.mapRx → k.pendRx = [] → rest = k.mapRx.filter (fun i => i != w.toNat) →
      rest ≠ [] → spareOf rest (k.failedRx ||| (1#8 <<< w.toNat)) = some sp →
      ∃ u, exec (.wavelengthFail l false cause w) s = .next u ∧ u.gleaner.gazDirty = true ∧ u.tiles = s.tiles ∧ u.mem = s.mem ∧
        u.link l = { k with failedRx := k.failedRx ||| (1#8 <<< w.toNat), badWords := mput k.badWords w.toNat [], mapRx := rest,
                            gone := k.gone ++ [w.toNat], nakked := true, nakDue := true, markDue := some w }) ∧
    (∀ tx (w : BitVec 3) e b, e * 10 ^ cfgField s 0x2290 1 12 4 ≤ b → exec (.wavelengthFail l tx (.ber e b) w) s = .next s) ∧
    (∀ (m : LaneMap) old, old = (match m.failed with
        | some w => some w.toNat
        | none => k.gone.head?) →
      (∀ sp, m.spare = some sp → sp.toNat ∈ k.mapRx → exec (.laneMapReceive l m) s = .next s) ∧
      (∀ sp o, m.spare = some sp → sp.toNat ∉ k.mapRx → old = some o →
        ∃ u, exec (.laneMapReceive l m) s = .next u ∧ u.tiles = s.tiles ∧ u.mem = s.mem ∧
          u.link l = { k with mapRx := k.mapRx.filter fun x => x != o
                              gone := k.gone.filter fun x => x != o
                              pendRx := k.pendRx ++ [⟨m.seq, some (sp.toNat, o), m.count.toNat⟩] }) ∧
      (m.spare = none → ∃ u, exec (.laneMapReceive l m) s = .next u ∧ u.tiles = s.tiles ∧ u.mem = s.mem ∧
        u.link l = { k with gone := k.gone.filter fun x => old != some x
                            pendRx := k.pendRx ++ [⟨m.seq, none, m.count.toNat⟩] })) ∧
    (∀ seq sp w n, k.pendTx = [⟨seq, some (sp, w), n⟩] →
      (reached k.seqTx seq = false → exec (.laneMapSwitch l true) s = .next s) ∧
      (reached k.seqTx seq = true → 6 ≤ ((k.mapTx ++ [sp]).take n).length → sp ∈ (k.mapTx ++ [sp]).take n →
        ∃ u, exec (.laneMapSwitch l true) s = .next u ∧ u.link l = { k with mapTx := (k.mapTx ++ [sp]).take n, pendTx := [] } ∧
          u.events = (raise s .wavelengthSpared [l, w, sp]).events ∧ u.tiles = s.tiles ∧ u.mem = s.mem))

/-- R292, R301, R305, R314, R315: with the last frame delivered of a down link known, its buffers empty and a packet of a
later frame, or one still queued, takes another path, entering a ring again where it had entered there; a link that is up
goes down on the far end's report; a waiting fallback packet ages; and a link whose training ends with the far end that the
map names comes up with the lowest six wavelengths that its lanes carry and new sequence numbers, while another far end
leaves it down. -/
def Sys2Proof.Claims.LinksDownAndTrained : Prop :=
  ∀ (s : State) (l : Nat) (k : Link), k = s.link l → s.hall.admState = 0 →
    (∀ seq v r1 f r2 later, k.state = 0 → v = (s.modLink l fun k => { k with replay := [], resend := [], outq := [], part := [] }) →
      k.replay = r1 ++ f :: r2 → (∀ g ∈ r1, g.seq ≠ seq) → f.seq = seq →
      later = (r2.flatMap fun g => g.packets.map fun q => { q with inp := ownInput }) ++ k.outq →
      (later = [] → exec (.linkDeliveredSeqReport l seq) s = .next v) ∧
      (∀ q w, later = [q] →
        routeFrom v (linkSouth l) allSlots q.pk (if q.enters || bits (linkMap s (linkSlot l)) 30 2 != 1 then none
          else some (bits (linkMap s (linkSlot l)) 28 2, bitAt (linkMap s (linkSlot l)) 27)) = some w →
        exec (.linkDeliveredSeqReport l seq) s = .next (queuePacket v w q.inp q.pk))) ∧
    (∀ seq, k.up = true → ∃ u, exec (.linkDeliveredSeqReport l seq) s = .next u ∧ (u.link l).state = 0 ∧ (u.link l).replay = []) ∧
    (∃ u, exec (.linkFallbackAgeTick l) s = .next u ∧ u.tiles = s.tiles ∧ u.mem = s.mem ∧
      u.link l = { k with outq := k.outq.map fun q =>
        if q.fallback then { q with pk := { q.pk with age := if q.pk.age = 255 then 255 else q.pk.age + 1 } } else q }) ∧
    (∀ (lat : BitVec 14) (far : BitVec 20), l < 32 → s.clk.coasting = false → s.clk.change = none → k.state = 0 ∨ k.state = 1 →
      bits (linkMap s (linkSlot l)) 30 2 ≠ 0 →
      (mappedFar s (linkSlot l) ≠ some far.toNat → exec (.linkTrainComplete l lat far) s =
        .next (raise (s.modLink l fun k => { k with state := 0, latency := lat }) .linkMiswired [l])) ∧
      (∀ tx rx, mappedFar s (linkSlot l) = some far.toNat →
        tx = ((List.range 8).filter fun w => !k.failedTx.getLsbD w).take (min (laneCapacity (healthyLanes k.lanesTx)) 6) →
        rx = ((List.range 8).filter fun w => !k.failedRx.getLsbD w).take (min (laneCapacity (healthyLanes k.lanesRx)) 6) →
        ∃ u, exec (.linkTrainComplete l lat far) s = .next u ∧ u.tiles = s.tiles ∧ u.mem = s.mem ∧
          (u.link l).state = (if tx = [] ∨ rx = [] then 0 else if tx.length < 6 ∨ rx.length < 6 then 3 else 2) ∧
          (u.link l).mapTx = tx ∧ (u.link l).mapRx = rx ∧ (u.link l).latency = lat ∧ (u.link l).seqTx = 0 ∧
          (u.link l).seqRx = 0 ∧ (u.link l).replay = [] ∧ (u.link l).credits = []))

/-- Failed lanes and wavelengths leave their maps, a spare joins, a down link reroutes, and training brings a link up. The
model's readings of what the rules leave open here: log entry 45. -/
def Obligations.LinkHealth : Prop :=
  Claims.LanesAndWavelengths ∧ Claims.LinksDownAndTrained

/-- R298, R307 to R310, R379, R386: a request that waits at a link input and that its context's job accepts takes an inbound
entry, any other gets an error reply on its plane, and with the table full it waits on; a reply of an entry's epoch goes to
the requester, and one of another epoch, or without an entry, is discarded and counted as stale. The model's readings of
what the rules leave open here: log entries 44 and 45. -/
def Obligations.RemotePackets : Prop :=
  ∀ (s v : State) (l : Nat) (pk : Packet), waitsAt s l pk = true → v = takeIn s l pk →
    (pk.op = 0 ∨ pk.op = 2 →
      (8192 ≤ inboundUsed s (!linkSouth l) → exec (.remoteRequestArrive l pk) s = .next s) ∧
      (inboundUsed s (!linkSouth l) < 8192 →
        (jobCtx s pk.job.toNat = none ∨ (∃ c x, jobCtx s pk.job.toNat = some (c, x) ∧
            ((x.rec_.state ≠ 1 ∧ ownHold s x = false) ∨ packetInside x.cdef pk = false)) →
          exec (.remoteRequestArrive l pk) s = .next (sendReply v (linkSouth l) (replyPacket v pk 4))) ∧
        (∀ c x, jobCtx s pk.job.toNat = some (c, x) → x.rec_.state = 1 ∨ ownHold s x = true → packetInside x.cdef pk = true →
          ∃ u n t, exec (.remoteRequestArrive l pk) s = .next u ∧ mfind u.mem.txns n = some t ∧
            t.kind = (if pk.op = 2 then .inboundWrite else .inboundRead) ∧ t.ctx = BitVec.ofNat 4 c ∧ t.epoch = epochOf s c ∧
            t.addr = BitVec.ofNat 64 pk.offset.toNat ∧ t.len = 64 * pk.lines.toNat ∧ t.lines = packetLines pk ∧
            t.packet = some pk ∧ t.link = l ∧ t.north = !linkSouth l ∧ u.tiles = s.tiles ∧ u.mem.data = s.mem.data ∧
            (u.link l).inq = (s.link l).inq.erase pk))) ∧
    (pk.op = 1 ∨ pk.op = 3 ∨ pk.op = 4 → (s.hall.colls.filter fun k => !k.copyLeft.isEmpty) = [] → s.hall.admState ≠ 1 →
      ∀ errs t, mfind s.mem.txns pk.tag.toNat = some t → awaitsReply t = true → t.north = !linkSouth l →
      (t.epoch ≠ pk.epoch → exec (.remoteReplyArrive l pk errs) s = .next (countStale v t.ctx.toNat)) ∧
      (∀ ls, t.epoch = pk.epoch → t.kind = .readRemote ∨ t.kind = .writeRemote → ls = (if pk.op = 1 then packetLines pk else []) →
        granaryRoom s { cls := .reply, ctx := t.ctx, op := 0, dst := t.src, src := granaryPort t.src.x t.north } = true →
        ∃ u g, exec (.remoteReplyArrive l pk errs) s = .next u ∧ u.tiles = s.tiles ∧ u.mem.data = s.mem.data ∧
          mfind u.mesh.flits s.mesh.nextFlit = some g ∧ g.cls = .reply ∧
          g.op = (if pk.op = 1 then 3 else if pk.op = 3 then 5 else 0xD) ∧ g.dst = t.src ∧ g.tag = t.tag ∧ g.lines = ls.take 2 ∧
          (ls.length ≤ 2 → mfind u.mem.txns pk.tag.toNat = none))) ∧
    (pk.op = 1 ∨ pk.op = 3 ∨ pk.op = 4 → mfind s.mem.txns pk.tag.toNat = none → ∀ errs,
      (∀ c x, jobCtx s pk.job.toNat = some (c, x) → exec (.remoteReplyArrive l pk errs) s = .next (countStale v c)) ∧
      (jobCtx s pk.job.toNat = none → exec (.remoteReplyArrive l pk errs) s = .next v))

/-- R316, R374, R381, R382, R386: a context's own arrive waits at its module, at the root or until its children have
arrived, and then goes to the parent; a child's arrive is noted, and one for a context that does not run is absorbed; the
release of a complete barrier starts the release on the module's mesh tree; and a barrier that misses its time stops the
context unless its release is there in the same cycle, while a current hold suspends the time. -/
def Sys2Proof.Claims.HallBarriers : Prop :=
  ∀ (s v : State) (c : Nat) (x : Ctx), s.ctx c = some x →
    (x.rec_.state = 1 → hallBarrier s c x = true → tkey x.cdef.x0 x.cdef.y0 ∈ x.run.arrived → x.run.releasing = false →
      c ∉ s.hall.waiting → v = { s with hall := { s.hall with
        waiting := sadd s.hall.waiting c, waitSince := mput s.hall.waitSince c (timerStart s x.cdef.job) } } →
      (hallParent s (ownCoord s) = none ∨ hallArrived v c = false →
        exec (.hallBarrierArrive c (ownCoord s)) s = .next v) ∧
      (∀ p u, hallParent s (ownCoord s) = some p → hallArrived v c = true →
        sendPacket v false x.cdef.slotMask
          (plainPacket 6 x.cdef.job p (ownCoord s) 0 0 0 0 (epochOf s c).toNat) = some u →
        exec (.hallBarrierArrive c (ownCoord s)) s = .next u)) ∧
    (∀ child l p, child ≠ ownCoord s → findBarrier s 6 x.cdef.job child = some (l, p) →
      (x.rec_.state ≠ 1 ∨ hallBarrier s c x = false → exec (.hallBarrierArrive c child) s = .next (takeIn s l p)) ∧
      (x.rec_.state = 1 → hallBarrier s c x = true → child ∈ hallChildren s → child ∉ arrivedChildren s c →
        hallParent s (ownCoord s) = none → ∃ u, exec (.hallBarrierArrive c child) s = .next u ∧ u.tiles = s.tiles ∧
          u.mem = s.mem ∧ u.ctxs = s.ctxs ∧ u.hall.arrives = mput s.hall.arrives c (sadd (arrivedChildren s c) child))) ∧
    (takeRelease s c x = none → exec (.hallBarrierRelease c) s = .next s) ∧
    (takeRelease s c x = some v → c ∉ s.hall.waiting → exec (.hallBarrierRelease c) s = .next v) ∧
    (takeRelease s c x = some v → x.rec_.state = 1 → c ∈ s.hall.waiting → hallChildren s = [] →
      ∃ u g, exec (.hallBarrierRelease c) s = .next u ∧ u.tiles = s.tiles ∧ u.mem = s.mem ∧
        u.hall.waiting = sdel s.hall.waiting c ∧ u.hall.arrives = mdel s.hall.arrives c ∧
        u.ctx c = some { x with run := { x.run with releasing := true, heard := [] } } ∧
        mfind u.mesh.flits s.mesh.nextFlit = some g ∧ g.op = 0xA ∧ g.cls = .management ∧
        g.loc = .router x.cdef.x0 x.cdef.y0 .tile) ∧
    (x.rec_.state = 1 → c ∈ s.hall.waiting →
      (holdCurrent s x.cdef.job = true ∨ now s < mget s.hall.waitSince 0 c + hallTimeout s →
        exec (.barrierTimeoutExpiry c) s = .next s) ∧
      (holdCurrent s x.cdef.job = false → mget s.hall.waitSince 0 c + hallTimeout s ≤ now s →
        (takeRelease s c x = none → exec (.barrierTimeoutExpiry c) s = .next (stopCtx (raise { s with hall := { s.hall with
          waiting := sdel s.hall.waiting c, waitSince := mdel s.hall.waitSince c } } .barrierTimeout [c]) c 0x0A none [])) ∧
        (takeRelease s c x = some v → exec (.barrierTimeoutExpiry c) s = .next (releaseHall (countLate v c) c x))))

/-- R317 to R319, R374, R382, R386: a chunk that waits at a link input is combined or stored once, waits on for the operand
it needs, and is discarded when it has been handled before or its job has no context here; a piece of a broadcast at the end
of its ring stands in DST; a collective in which no chunk comes in time stops its context, naming the silent member, while a
hold of its job suspends the timeout and a chunk there in the expiry cycle is taken and counted. -/
def Sys2Proof.Claims.Collectives : Prop :=
  ∀ (s : State) (c l : Nat) (x : Ctx) (k : Coll) (e : CollEnt) (pk : Packet) (errs : List LineCheck),
    (pk.op = 5 → findIn s (fun p => p == pk) = some (l, pk) →
      (jobCtx s pk.job.toNat = none → exec (.collectiveChunkArrive pk errs) s = .next (takeIn s l pk)) ∧
      (jobCtx s pk.job.toNat = some (c, x) → x.rec_.state ≠ 1 ∨ replaying s c = true →
        exec (.collectiveChunkArrive pk errs) s = .next (takeIn s l pk)) ∧
      (jobCtx s pk.job.toNat = some (c, x) → x.rec_.state = 1 → replaying s c = false → s.hall.colls = [k] → k.ctx.toNat = c →
        k.entry.toNat = pk.collId.toNat / 1024 → x.cdef.colls[k.entry.toNat]? = some e →
        (chunkKey s pk ∈ k.seen → exec (.collectiveChunkArrive pk errs) s = .next (takeIn s l pk)) ∧
        (chunkKey s pk ∉ k.seen → takeChunk (noteReports s errs) errs c x k e pk = none →
          exec (.collectiveChunkArrive pk errs) s = .next s) ∧
        (∀ v, chunkKey s pk ∉ k.seen → takeChunk (noteReports s errs) errs c x k e pk = some v →
          exec (.collectiveChunkArrive pk errs) s = .next (modColl (takeIn v l pk) c k.entry.toNat fun k =>
            { k with seen := sadd k.seen (chunkKey s pk), heard := timerStart v x.cdef.job })) ∧
        (∀ q t d a, chunkKey s pk ∉ k.seen → e.kind = 3 → isTree s = false → q = pk.offset.toNat / 1024 →
          t = pk.tag.toNat / 2 % 8 → (collDims s e)[t]? = some d → (collDims s e).length = t + 1 → dimWrap s d = true →
          (ownPos s d + 1) % dimSize s d = originPos s e t q → q < e.pieces → pk.data.length = 16 → pk.poison.any id = false →
          a = x.cdef.range0 + e.dst + 1024 * q → a % 1024 = 0 → s.mem.retired = [] → (∀ i, (s.stripe i).state = 0) →
          ∃ u, exec (.collectiveChunkArrive pk []) s = .next u ∧ u.tiles = s.tiles ∧
            (∀ i j w, pk.data[i]? = some w → j < 64 → cellGet u.mem.data (a + 64 * i + j) = w.extractLsb' (8 * j) 8) ∧
            (∀ j, j < a ∨ a + 1024 ≤ j → cellGet u.mem.data j = cellGet s.mem.data j)))) ∧
    (s.ctx c = some x → x.rec_.state = 1 → s.hall.colls = [k] → k.ctx.toNat = c → x.cdef.colls[k.entry.toNat]? = some e →
      collDone s x k = false → k.replay = false →
      (holdCurrent s x.cdef.job = true ∨ now s < k.heard + hallTimeout s →
        exec (.collectiveTimeoutExpiry c k.entry errs) s = .next s) ∧
      (∀ waits, holdCurrent s x.cdef.job = false → k.heard + hallTimeout s ≤ now s →
        waits = findIn s (fun p => p.op == 5 && p.job.toNat == x.cdef.job && p.collId.toNat / 1024 == k.entry.toNat) →
        (waits = none → exec (.collectiveTimeoutExpiry c k.entry errs) s =
          .next (stopCtx (raise s .collectiveTimeout [c, k.entry.toNat, silentMember s e k]) c 0x0B none [])) ∧
        (∀ f v, waits = some f → takeChunkIn s errs f.1 f.2 = some v →
          exec (.collectiveTimeoutExpiry c k.entry errs) s = .next (countLate v c))))

/-- Hall barriers wait, release and time out, and collective chunks count once. The model's readings of what the rules leave
open here: log entries 22 and 46. -/
def Obligations.BarriersAndCollectives : Prop :=
  Claims.HallBarriers ∧ Claims.Collectives

/-- R321 to R323, R419: a reply to a copy read of an admission stands in memory, line for line, and no other byte changes;
with every piece there the step may be replayed; equal digests commit the replayed step and end the admission, others abort
it, and so do a tally no longer held and a donor silent for ADMIT_TIMEOUT; and a donor answers the handshake with the slot
that holds step t − 1. The model's readings of what the rules leave open here: log entries 48 and 55. -/
def Obligations.Admission : Prop :=
  ∀ (s : State) (c : Nat) (x : Ctx), s.hall.admCtx.toNat = c → s.ctx c = some x →
    (∀ l pk t, waitsAt s l pk = true → pk.op = 1 → mfind s.mem.txns pk.tag.toNat = some t → t.kind = .collCopy → t.reply = none →
      t.link = admCopy → t.north = !linkSouth l → t.epoch = pk.epoch → t.addr.toNat % 4096 = 0 → pk.data.length ≤ 64 →
      s.mem.retired = [] → (∀ i, (s.stripe i).state = 0) →
      ∃ u, exec (.remoteReplyArrive l pk []) s = .next u ∧ u.tiles = s.tiles ∧
        (∀ i j ln, (packetLines pk)[i]? = some ln → j < 64 →
          cellGet u.mem.data (t.addr.toNat + 64 * i + j) = ln.data.extractLsb' (8 * j) 8) ∧
        (∀ j, j < t.addr.toNat ∨ t.addr.toNat + 64 * pk.data.length ≤ j → cellGet u.mem.data j = cellGet s.mem.data j)) ∧
    (s.hall.admState = 1 → s.hall.admSlot ≠ none → admPieces x.cdef ≤ s.hall.admNext → copyReads s c = [] →
      exec .admissionLoadDone s = .next { s with hall := { s.hall with admState := 2 } }) ∧
    (s.hall.admState = 1 → s.hall.admSlot = none ∨ s.hall.admNext < admPieces x.cdef ∨ copyReads s c ≠ [] →
      exec .admissionLoadDone s = .next s) ∧
    (s.hall.admState = 2 ∨ s.hall.admState = 3 → commitReady s c x = true →
      (exec (.admissionReplayDone .pending) s =
        .next (if s.hall.admState = 2 then { s with hall := { s.hall with admState := 3, admHeard := now s } } else s)) ∧
      exec (.admissionReplayDone .missing) s = .next (stopAdmission s 4) ∧
      (∀ l v, sameDigests (viewDigests (recordEntries x.tally)) l = true → v = { s with hall := { s.hall with admState := 4 } } →
        commitStop v c x = none → exec (.admissionReplayDone (.held l)) s =
          .next (raise ((commitVersion v c x).modRec c fun r => { r with barred := false }) .admissionDone [c])) ∧
      (∀ l, sameDigests (viewDigests (recordEntries x.tally)) l = false →
        exec (.admissionReplayDone (.held l)) s = .next (stopAdmission s 2))) ∧
    ((s.hall.admState = 1 ∧ s.hall.admSlot = none) ∨ s.hall.admState = 3 →
      (s.hall.admHeard + 1000 * cfgField s 0x2290 1 16 8 ≤ now s → exec .admitTimeoutExpiry s = .next (stopAdmission s 1)) ∧
      (now s < s.hall.admHeard + 1000 * cfgField s 0x2290 1 16 8 → exec .admitTimeoutExpiry s = .next s)) ∧
    (∀ (job : BitVec 16) (src : BitVec 20) (step : DWord) i v, jobCtx s job.toNat = some (c, x) →
      (verRec s x.cdef).slotOf (step - 1).toNat = some i →
      sendPacket s false x.cdef.slotMask (plainPacket 8 job.toNat src.toNat (ownCoord s) 0 i 0 0 (epochOf s c).toNat) = some v →
      exec (.admissionHandshake job src step) s = .next v)

/-! ### Self-test and fencing -/

/-- R333, R363: with the next slot begun a fallow slot orders at most one move a tile, of a tile that has none, and changes
nothing else of any tile, and otherwise it changes nothing; in a row whose gap is fixed and which has no move under way it
orders the nearest logical tile in the sweep direction into the gap, or, at the end of the span, the nearest one behind it,
and the sweep turns. -/
def Sys2Proof.Claims.FallowSlots : Prop :=
  ∀ s : State,
    (s.boot.stage < 9 ∨ now s / slotLen s ≤ s.gleaner.slotAt / slotLen s → exec .fallowSlot s = .next s) ∧
    (9 ≤ s.boot.stage → s.gleaner.slotAt / slotLen s < now s / slotLen s →
      ∃ u, exec .fallowSlot s = .next u ∧ u.mem = s.mem ∧ u.ctxs = s.ctxs ∧ u.gleaner.phys = s.gleaner.phys ∧
        u.gleaner.bind = s.gleaner.bind ∧ u.gleaner.slotAt = now s ∧
        ∀ k, u.tile k = s.tile k ∨ ((s.tile k).moveTo = none ∧ ∃ p, u.tile k = { s.tile k with moveTo := some p })) ∧
    (∀ die row g k, (s.row die row).gap = some g → bitAt (cfgInForce s 0x2310 1).toNat 31 = true → (s.row die row).move = none →
      (s.tile k).moveTo = none →
      (nextMover s die row g (s.row die row).west = some k →
        ((slotRow s die row).tile k).moveTo = some (physAt die row g) ∧ ((slotRow s die row).row die row).move = some k ∧
        ((slotRow s die row).row die row).west = (s.row die row).west) ∧
      (nextMover s die row g (s.row die row).west = none → nextMover s die row g (!(s.row die row).west) = some k →
        ((slotRow s die row).tile k).moveTo = some (physAt die row g) ∧ ((slotRow s die row).row die row).move = some k ∧
        ((slotRow s die row).row die row).west = !(s.row die row).west))

/-- R329, R331, R336, R339, R341, R343, R345: a clean test of a gap marks it tested and starts the window of its position
anew; a failed one of a position that held no work, or of a tile under test by a background engine, puts the tile on
probation; a clean one of such a tile starts its window anew; the score falls to 0 where the test was directed; each
completed run is counted; and a tile that no engine has under test changes nothing. -/
def Sys2Proof.Claims.FallowTests : Prop :=
  ∀ (s : State) (p : Nat) (r : TestResult) (g : RowGap), g = s.row (physDie p) (physRow p) → 9 ≤ s.boot.stage →
    ((s.phys p).fence = .gap → g.gap = some (physPos p) → g.tested = false →
      (r.failed = 0 → g.jumps = false → strandedTiles s (physDie p) (physRow p) = [] →
        ∃ u, exec (.fallowTestComplete p r) s = .next u ∧
          u.row (physDie p) (physRow p) = { g with tested := true } ∧ (u.phys p).cleanAt = now s ∧ (u.phys p).used = [] ∧
          (u.phys p).fence = .gap ∧ (u.phys p).directed = false ∧
          (u.phys p).score = (if (s.phys p).directed then 0 else (s.phys p).score) ∧
          (mget u.counts {} (physQuarter p)).tests = satAdd (mget s.counts {} (physQuarter p)).tests 1 16777215 ∧
          u.tiles = s.tiles ∧ u.mem = s.mem ∧ u.ctxs = s.ctxs) ∧
      (r.failed ≠ 0 → (s.phys p).used = [] → exec (.fallowTestComplete p r) s =
        .next (enterProbation (countTest s p r) p (if (s.phys p).directed then 6 else 0) (some (r, 0)) none none))) ∧
    ((s.phys p).fence ≠ .gap ∨ g.gap ≠ some (physPos p) ∨ g.tested = true → exec (.fallowTestComplete p r) s = .next s) ∧
    (∀ l n v, bgTests s (physDie p) = (l, n) → p < 6000 → v = s.modDie (physDie p) (fun d => { d with bg := l.erase p, bgNext := n }) →
      (p ∉ l → exec (.backgroundTestComplete p r) s = .next s) ∧
      (p ∈ l → r.failed = 0 → ∃ u, exec (.backgroundTestComplete p r) s = .next u ∧ (u.phys p).cleanAt = now s ∧
        (u.phys p).used = [] ∧ (u.phys p).fence = (s.phys p).fence ∧ (u.phys p).directed = false ∧
        (u.phys p).score = (if (s.phys p).directed then 0 else (s.phys p).score) ∧
        (mget u.counts {} (physQuarter p)).tests = satAdd (mget s.counts {} (physQuarter p)).tests 1 16777215 ∧
        u.gleaner.dies = v.gleaner.dies ∧ u.tiles = s.tiles ∧ u.mem = s.mem ∧ u.ctxs = s.ctxs) ∧
      (p ∈ l → r.failed ≠ 0 → exec (.backgroundTestComplete p r) s =
        .next (enterProbation (countTest v p r) p (if (s.phys p).directed then 6 else 1) (some (r, 0)) none none)))

/-- R342, R343, R346: an input with a weight adds it to the score of a tile that is in use; below the limit nothing else
follows, and at it, or with a mesh link failed, a directed test is ordered; an input with an immediate action puts a tile
without work on probation; the score is halved in time; and a tile on probation is due for its retest after its delay, on
the rail of its die if that is free. -/
def Sys2Proof.Claims.HealthScores : Prop :=
  ∀ (s : State) (p : Nat) (src : HealthSource), p < 6000 → (logicalOf s p).filter (fun k => (ctxAt s (keyXY k)).isSome) = none →
    ((s.phys p).fence = .probation ∨ (s.phys p).fence = .fenced ∨ (s.phys p).fence = .factory →
      exec (.healthInput p src) s = .next s) ∧
    ((s.phys p).fence = .spare ∨ (s.phys p).fence = .marginal ∨ (s.phys p).fence = .gap → logicalOf s p = none →
      healthWeight src = 0 → exec (.healthInput p src) s = .next (enterProbation s p (healthSourceCode src) none none none)) ∧
    ((s.phys p).fence = .spare ∨ (s.phys p).fence = .marginal ∨ (s.phys p).fence = .gap ∨ (s.phys p).fence = .logical →
      healthWeight src ≠ 0 → src ≠ .meshLinkFailed → (s.phys p).score + healthWeight src < cfgField s 0x2310 3 16 16 →
      exec (.healthInput p src) s = .next (s.modPhys p fun h => { h with score := h.score + healthWeight src })) ∧
    ((s.phys p).fence = .spare ∨ (s.phys p).fence = .marginal ∨ (s.phys p).fence = .gap → healthWeight src ≠ 0 →
      (s.phys p).directed = false →
      src = .meshLinkFailed ∨ cfgField s 0x2310 3 16 16 ≤ (s.phys p).score + healthWeight src →
      ∃ u, exec (.healthInput p src) s = .next u ∧ (u.phys p).score = (s.phys p).score + healthWeight src ∧
        (u.phys p).directed = true ∧ (u.phys p).fence = (s.phys p).fence ∧ u.tiles = s.tiles ∧ u.mem = s.mem ∧
        (mget u.counts {} (physQuarter p)).directed = satAdd (mget s.counts {} (physQuarter p)).directed 1 255) ∧
    (∀ h, mfind s.gleaner.phys p = some h →
      (h.halvedAt + 60000000 * cfgField s 0x2310 3 8 8 ≤ now s →
        exec (.healthScoreHalving p) s = .next (s.modPhys p fun h => { h with score := h.score / 2, halvedAt := now s })) ∧
      (now s < h.halvedAt + 60000000 * cfgField s 0x2310 3 8 8 → exec (.healthScoreHalving p) s = .next s)) ∧
    ((s.phys p).fence = .probation →
      (now s < (s.phys p).probAt + 1000000 * cfgField s 0x2310 2 4 12 → exec (.probationDelayExpiry p) s = .next s) ∧
      ((s.phys p).probAt + 1000000 * cfgField s 0x2310 2 4 12 ≤ now s →
        ∃ u, exec (.probationDelayExpiry p) s = .next u ∧ (u.phys p).retestDue = true ∧ (u.phys p).fence = .probation ∧
          u.tiles = s.tiles ∧ u.mem = s.mem ∧ u.gleaner.bind = s.gleaner.bind ∧
          (logicalOf s p = none → (mget s.gleaner.dies {} (physDie p)).retest = none →
            (∀ e ∈ s.gleaner.phys, e.1 ≠ p → physDie e.1 = physDie p → retestWants s e.1 = false) →
            (mget u.gleaner.dies {} (physDie p)).retest = some p ∧ (mget u.gleaner.dies {} (physDie p)).rail = 0 ∧
              (u.phys p).corners = [])))

/-- Fallow slots order one move a row, tests start windows anew or end in probation, and health inputs add their weight. The
model's readings of what the rules leave open here: log entries 49, 52 and 98. -/
def Obligations.FallowTesting : Prop :=
  Claims.FallowSlots ∧ Claims.FallowTests ∧ Claims.HealthScores

/-- R328, R345 to R347, R349: the retest of the tile on the test rail of its die, at nominal voltage, then at the low and
the high corner, with the rail set by CORNER_MARGIN: a nominal failure leads to a decision, by which the tile is fenced, or
held where a storm is in progress; a failure at a corner returns the tile as MARGINAL, and none returns it as a spare; a
tile that is not on the rail changes nothing. -/
def Sys2Proof.Claims.ProbationRetest : Prop :=
  ∀ (s : State) (p die : Nat) (r : TestResult), 9 ≤ s.boot.stage → die = physDie p →
    (onRail s die ≠ some p ∨ cornerClock s p = false → exec (.probationRetestComplete p r) s = .next s) ∧
    (onRail s die = some p → cornerClock s p = true →
      ((s.phys p).corners = [] → r.failed = 0 → ∃ u, exec (.probationRetestComplete p r) s = .next u ∧ (u.phys p).corners = [r] ∧
        (u.phys p).fence = (s.phys p).fence ∧ (mget u.gleaner.dies {} die).rail = -cornerMargin s ∧ u.tiles = s.tiles ∧
        u.mem = s.mem) ∧
      (∀ a, (s.phys p).corners = [a] → ∃ u, exec (.probationRetestComplete p r) s = .next u ∧ (u.phys p).corners = [a, r] ∧
        (u.phys p).fence = (s.phys p).fence ∧ (mget u.gleaner.dies {} die).rail = cornerMargin s ∧ u.tiles = s.tiles ∧
        u.mem = s.mem) ∧
      ((s.phys p).corners = [] → r.failed ≠ 0 →
        ((mget s.gleaner.dies {} die).storm = false → (hourFences s die).length + 1 ≤ bits (cfgInForce s 0x2310 2).toNat 24 8 →
          ∃ u, exec (.probationRetestComplete p r) s = .next u ∧ (u.phys p).fence = .fenced ∧ u.gleaner.gazDirty = true ∧
            (mget u.gleaner.dies {} die).fences = (now s, p) :: (mget s.gleaner.dies {} die).fences ∧ u.tiles = s.tiles ∧
            u.mem = s.mem) ∧
        ((mget s.gleaner.dies {} die).storm = true ∨ bits (cfgInForce s 0x2310 2).toNat 24 8 < (hourFences s die).length + 1 →
          ∃ u, exec (.probationRetestComplete p r) s = .next u ∧ (u.phys p).fence = .probation ∧ (u.phys p).stormHeld = true ∧
            (u.phys p).retestDue = false ∧ (mget u.gleaner.dies {} die).storm = true ∧ u.tiles = s.tiles ∧ u.mem = s.mem)) ∧
      (∀ a low l, (s.phys p).corners = a :: low :: l →
        ∃ u, exec (.probationRetestComplete p r) s = .next u ∧
          (u.phys p).fence = (if low.failed = 0 ∧ r.failed = 0 then .spare else .marginal) ∧ (u.phys p).score = 0 ∧
          u.gleaner.gazDirty = true ∧ u.gleaner.bind = s.gleaner.bind ∧ u.tiles = s.tiles ∧ u.mem = s.mem))

/-- R347: a margin check ends when every tile concerned has its two results; when at least half of the tiles passed both,
those return as MARGINAL, and otherwise the tiles held are fenced; the storm of the die ends and its hourly count starts
again. -/
def Sys2Proof.Claims.MarginCheck : Prop :=
  ∀ (s : State) (die : Bool) (results : List (Nat × TestResult × TestResult)) (l good : List Nat),
    (mget s.gleaner.dies {} (b2n die)).storm = true → l = (stormTiles s (b2n die)).dedup →
    good = l.filter (fun p => ((results.find? fun e => e.1 == p).map fun e => e.2.1.failed == 0 && e.2.2.failed == 0) == some true) →
    ((∃ p ∈ l, ∀ e ∈ results, e.1 ≠ p) → exec (.marginCheckComplete die results) s = .next s) ∧
    ((∀ p ∈ l, ∃ e ∈ results, e.1 = p) → ∃ u, exec (.marginCheckComplete die results) s = .next u ∧
      (mget u.gleaner.dies {} (b2n die)).storm = false ∧ (mget u.gleaner.dies {} (b2n die)).fences = [] ∧
      u.gleaner.gazDirty = true ∧ u.tiles = s.tiles ∧ u.mem = s.mem ∧
      (l.length ≤ 2 * good.length → ∀ p ∈ good, (u.phys p).fence = .marginal) ∧
      (2 * good.length < l.length → ∀ p ∈ l, (s.phys p).stormHeld = true → (u.phys p).fence = .fenced))

/-- R358, R359: a decision is written to the copy of the gazetteer that is not current, which then is current, with the next
sequence number; the other copy stays; and with no decision to write nothing changes. -/
def Sys2Proof.Claims.GazetteerWrite : Prop :=
  ∀ (s : State) (g : GazCopy), gazCurrent s = some g →
    (s.gleaner.gazDirty = false → exec .gazetteerWrite s = .next s) ∧
    (s.gleaner.gazDirty = true →
      ∃ u, exec .gazetteerWrite s = .next u ∧ gazCurrent u = some (gazContents s g) ∧ (gazContents s g).seq = g.seq + 1 ∧
        (u.gleaner.gazA = g ∨ u.gleaner.gazB = g) ∧ u.gleaner.gazDirty = false ∧ u.tiles = s.tiles ∧ u.mem = s.mem)

/-- A retest at its corners fences, marks or returns a tile, and a decision is written to the copy not current. The model's
readings of what the rules leave open here: log entries 49 and 98. -/
def Obligations.FencingDecisions : Prop :=
  Claims.ProbationRetest ∧ Claims.MarginCheck ∧ Claims.GazetteerWrite

/-! ### Hangs and recovery -/

/-- R370 to R372: a wait cycle that has stood its window of 65,536 cycles stops the context with its record, and does not
where a tile of it is no longer blocked or has reported so in the same cycle, or before the window ends; and a context that
neither drains nor waits under another timeout stops when nothing has happened in it for its STALL_LOG2 window. -/
def Sys2Proof.Claims.HangsAndStalls : Prop :=
  ∀ (s : State) (c : Nat) (x : Ctx), s.ctx c = some x →
    (∀ cyc, x.rec_.hang = some cyc → watched x = true → x.rec_.hangAt + 65536 ≤ x.rec_.slow →
      (cycleStands s x cyc = false →
        exec (.hangWindowExpiry c) s = .next (s.modRec c fun r => { r with hang := none })) ∧
      (cycleStands s x cyc = true → exec (.hangWindowExpiry c) s = .next (stopCtx (raise { s with
        hangRec := mput s.hangRec c (hangWord s x cyc) } .contextHung [c]) c 2 none []))) ∧
    (x.rec_.hang = none ∨ watched x = false ∨ x.rec_.slow < x.rec_.hangAt + 65536 → exec (.hangWindowExpiry c) s = .next s) ∧
    (x.rec_.state = 1 → stallExempt s c x = false → x.rec_.activeAt + 2 ^ cfgField s 0x22A0 1 11 5 ≤ x.rec_.slow →
      exec (.stallWindowExpiry c) s = .next (stopCtx (raise s .contextStalled [c]) c 3 none [])) ∧
    (stallExempt s c x = true ∨ x.rec_.slow < x.rec_.activeAt + 2 ^ cfgField s 0x22A0 1 11 5 →
      exec (.stallWindowExpiry c) s = .next s)

/-- R380, R381, R386: a transaction whose reply has not come by its deadline frees its entry and stops its context, unless
its reply waits at a link input, which is then taken and counted; a linked context that recovers by itself sends and renews
its hold for no longer than HOLD_MAX; and a hold that is received suspends the timeouts of its job, whose remote
transactions start their deadlines later, until it lapses 3,000 µs after it came. -/
def Sys2Proof.Claims.DeadlinesAndHolds : Prop :=
  ∀ (s : State) (c n : Nat) (x : Ctx) (t : Txn) (job : BitVec 16) (errs : List LineCheck), s.ctx c = some x →
    (mfind s.mem.txns n = some t → t.ctx.toNat = c → t.kind.own = true → t.reply = none → x.rec_.state = 1 →
      (remoteTxn t && holdCurrent s x.cdef.job) = false → t.since + txnDeadline s t ≤ now s →
      (∀ l p, findIn s (fun p => answers t n p) = some (l, p) → exec (.txnDeadlineExpiry n errs) s =
        .next (takeReply (countLate (takeIn (noteReports s errs) l p) c) errs n t p)) ∧
      (findIn s (fun p => answers t n p) = none → exec (.txnDeadlineExpiry n errs) s =
        .next (stopCtx (raise (dropTxn s n) .txnTimeout [c, n, askedModule s t]) c 9 none []))) ∧
    (mfind s.mem.txns n = some t → t.ctx.toNat = c →
      (remoteTxn t && holdCurrent s x.cdef.job) = true ∨ now s < t.since + txnDeadline s t ∨ t.reply.isSome = true →
      exec (.txnDeadlineExpiry n errs) s = .next s) ∧
    (x.cdef.linked = true → x.rec_.state = 2 ∨ x.rec_.state = 3 → selfRecovers s x = true →
      ∀ t0, t0 = x.rec_.holdSince.getD (now s) →
      (now s < t0 + 10000 * cfgField s 0x22A0 1 0 11 → exec (.recoveryHoldSend c) s =
        .next ((sendHolds s c x).modRec c fun r => { r with holdSince := some t0 })) ∧
      (t0 + 10000 * cfgField s 0x22A0 1 0 11 ≤ now s → exec (.recoveryHoldSend c) s = .next s)) ∧
    (∀ d y, jobCtx s job.toNat = some (d, y) →
      ∃ u, exec (.recoveryHoldReceive job) s = .next u ∧ holdCurrent u job.toNat = true ∧ u.tiles = s.tiles ∧ u.mesh = s.mesh ∧
        ∀ m e, mfind s.mem.txns m = some e → mfind u.mem.txns m = some (if e.ctx.toNat == d && remoteTxn e then
          { e with since := e.since + (now s + 3000 - timerStart s job.toNat) } else e)) ∧
    (jobCtx s job.toNat = none → exec (.recoveryHoldReceive job) s = .next s) ∧
    (∃ u, exec (.recoveryHoldLapse job) s = .next u ∧
      (∀ h, h ∈ u.hall.holds ↔ h ∈ s.hall.holds ∧ (h.job = job → now s < h.at_ + 3000)) ∧ u.tiles = s.tiles ∧ u.mem = s.mem ∧ u.ctxs = s.ctxs)

/-- Hangs, stalls and late transactions stop a context with their record, and holds suspend timeouts. The model's readings
of what the rules leave open here: log entries 11, 37 and 54. -/
def Obligations.HangsAndDeadlines : Prop :=
  Claims.HangsAndStalls ∧ Claims.DeadlinesAndHolds

/-- R373 to R376: every engine notes that it has taken a stop order, once no tile of the context is being copied; the tiles
stop and discard their queues, messages and matrix work, and no tile outside the rectangle changes. -/
def Sys2Proof.Claims.StopOrders : Prop :=
  ∀ (s : State) (c : Nat) (x : Ctx), s.ctx c = some x → x.rec_.state = 2 →
    (∀ e errs, e ∉ x.rec_.stopDone → (e = .tiles → ∀ k ∈ x.cdef.keys, (s.tile k).moveStage = 0) →
      ∃ u y, exec (.contextStopOrder c e errs) s = .next u ∧ u.ctx c = some y ∧ e ∈ y.rec_.stopDone ∧ y.rec_.state = 2) ∧
    (∀ errs, StopEngine.tiles ∉ x.rec_.stopDone → (∀ k ∈ x.cdef.keys, (s.tile k).moveStage = 0) →
      ∃ u, exec (.contextStopOrder c .tiles errs) s = .next u ∧ u.mem = s.mem ∧
        (∀ k ∈ x.cdef.keys, (u.tile k).core.run = (if (s.tile k).core.run = .off then .off else .stopped) ∧
          (u.tile k).dma = {} ∧ (u.tile k).chst = [] ∧ (u.tile k).units = [] ∧ (u.tile k).mx.queue = [] ∧
          (u.tile k).owed = [] ∧ (u.tile k).spill = [] ∧ (u.tile k).ramp.target = 0 ∧
          (u.tile k).bin = { (s.tile k).bin with staging := [], trace := [] }) ∧
        ∀ k, k ∉ x.cdef.keys → u.tile k = s.tile k)

/-- R181, R366, R373, R375, R393: when every engine has stopped, the tiles of the context are cleared and their bins filled
with zeros, and a context that does not recover is stopped with its cause, or quarantined at its third reset within a
minute. -/
def Sys2Proof.Claims.ContextResetEnds : Prop :=
  ∀ (s : State) (c : Nat) (x : Ctx) (readable : Bool), s.ctx c = some x → x.rec_.state = 2 → resetDrained s c x = true →
    x.rec_.ending = false →
    ∃ u y, exec (.contextResetComplete c readable) s = .next u ∧ u.ctx c = some y ∧ y.cdef = x.cdef ∧
      (3 ≤ (recentResets s x.rec_).length → y.rec_.state = 6) ∧
      ((recentResets s x.rec_).length < 3 → x.rec_.recovering = false → y.rec_.state = 4 ∧ y.rec_.cause = x.rec_.cause) ∧
      ((recentResets s x.rec_).length < 3 → x.rec_.recovering = false → ∀ k ∈ x.cdef.keys,
        (u.tile k).core = { run := (s.tile k).core.run, halted := (s.tile k).core.halted } ∧ (u.tile k).mx = {} ∧
        (u.tile k).dma = {} ∧ (u.tile k).bin.data = [] ∧ (u.tile k).bin.tagA = [] ∧ (u.tile k).handles = [])

/-- R203, R351, R384, R388, R392: the restart of a context in recovery, once each tile to be remapped has a hole or is good
again, loads section 0 on its tiles and begins the step after its target, and CONTEXT_RECOVERED is raised with the target
and the length of the interruption; it waits while its commit, an epoch or a remap does not allow it. -/
def Sys2Proof.Claims.RestartEntry : Prop :=
  ∀ (s : State) (c : Nat) (x : Ctx) (reds : List (Nat × List DWord)) (t : DWord), s.ctx c = some x →
    (x.rec_.state = 3 → x.run.phase ≠ .committed → x.rec_.epochWait = false → remapReady s c x.rec_.remap = true →
      x.rec_.target = some t →
      (x.cdef.cluster = true ∨ sectionBad reds (imageOf s x.cdef) x.cdef.w x.cdef.h 0 = none) →
      (∀ j, spanPoisoned s (newestScale s x.cdef j) 528 = false) →
      ∃ u y, exec (.contextRestartEntry c reds) s = .next u ∧ u.ctx c = some y ∧ y.cdef = x.cdef ∧ y.rec_.state = 1 ∧
        y.rec_.recovering = false ∧ y.rec_.target = none ∧ y.rec_.remap = [] ∧ y.run.step = t + 1 ∧ y.run.section_ = 0 ∧
        y.run.phase = .running ∧
        (x.rec_.recovering = true → u.events.ring.any (fun e => e.name == .contextRecovered) = true) ∧
        (x.cdef.cluster = false → ∀ p ∈ x.cdef.tiles, (u.tile (ckey p)).loaded = true)) ∧
    (x.rec_.state ≠ 3 ∨ x.run.phase = .committed ∨ x.rec_.epochWait = true ∨ remapReady s c x.rec_.remap = false →
      exec (.contextRestartEntry c reds) s = .next s)

/-- A reset stops every engine, clears tiles and bins, and a restart begins the step after its target. The model's readings
of what the rules leave open here: log entries 10, 47, 53, 54 and 56. -/
def Obligations.StopAndRestart : Prop :=
  Claims.StopOrders ∧ Claims.ContextResetEnds ∧ Claims.RestartEntry

/-! ### Messages, the object dictionary and commands -/

/-- R424 to R426, R483: a message out of sequence is refused with SEQUENCE and one of the expected MSG_SEQ counts it on;
behind a message that waits, it waits in order; a malformed one, and one of a reserved TYPE, is refused with MESSAGE; a
HEARTBEAT in sequence feeds the watchdog whatever waits; and a port that is down takes nothing. -/
def Sys2Proof.Claims.MessageOrder : Prop :=
  ∀ (s : State) (m : MsgHdr) (idx : BitVec 16) (sub ty : BitVec 8) (off : BitVec 32) (data : List Byte) (a : BitVec 42)
    (len : BitVec 13) (errs : List LineCheck) (st : DWord) (sel : Bool) (who : BitVec 16) (n : BitVec 32),
    (∀ r ∈ ([(.odRead m idx sub off, .read idx.toNat sub.toNat off.toNat),
        (.odWrite m idx sub off data, .write idx.toNat sub.toNat off.toNat data []),
        (.bulkRead m a len errs, .bulkRead a.toNat len.toNat errs), (.bulkWrite m a data errs, .bulkWrite a.toNat data errs),
        (.stepEpoch m st sel who, .epoch st.toNat sel who.toNat),
        (.reservedTypeMessage m ty, .other ty)] : List (Instr × Msg)),
      (portUp s = false → exec r.1 s = .next s) ∧
      (portUp s = true → m.seq ≠ s.mer.msgSeq → exec r.1 s = .next (refusedMsg (returnUnits s r.2) m r.2 0x0E 0)) ∧
      (portUp s = true → m.seq = s.mer.msgSeq → s.mer.blocking ≠ none → exec r.1 s = .next { s with mer := { s.mer with
        msgSeq := s.mer.msgSeq + 1, held := s.mer.held ++ [(m, r.2)] } }) ∧
      (portUp s = true → m.seq = s.mer.msgSeq → s.mer.blocking = none → s.mer.held = [] → m.malformed = true →
        exec r.1 s = .next (refusedMsg (returnUnits (nextSeq s) r.2) m r.2 0x0F 0))) ∧
    (Heard s m → exec (.reservedTypeMessage m ty) s = .next (refusedMsg (returnUnits (nextSeq s) (.other ty)) m (.other ty) 0x0F 0)) ∧
    (portUp s = true → m.seq = s.mer.msgSeq → m.malformed = false →
      exec (.heartbeat m n) s = .next { nextSeq (returnUnits s (.other 0x0C)) with boot := { s.boot with fedAt := now s } }) ∧
    (portUp s = true → m.seq ≠ s.mer.msgSeq →
      ∃ u, exec (.heartbeat m n) s = .next u ∧ u.boot = s.boot ∧ u.mer.msgSeq = s.mer.msgSeq)

/-- R428: an event raised is numbered, timed and added to the ring of 1,024, and the module delivers the oldest event not
yet delivered as an EVENT message with its number and time. -/
def Sys2Proof.Claims.Events : Prop :=
  ∀ (s : State) (name : Ev) (d : List Nat) (v : Event),
    ((raise s name d).events.next = s.events.next + 1 ∧ (raise s name d).mem = s.mem ∧ (raise s name d).tiles = s.tiles ∧
      (raise s name d).events.ring.getLast? =
        some { seq := s.events.next, name := name, time := BitVec.ofNat 64 (now s), data := d.map (BitVec.ofNat 64 ·) } ∧
      (s.events.ring.length ≤ 1024 → (raise s name d).events.ring.length = min 1024 (s.events.ring.length + 1))) ∧
    (portUp s = true → s.events.undelivered ≠ 0 → s.events.ring[s.events.ring.length - s.events.undelivered]? = some v →
      ∃ u p, exec .eventDeliver s = .next u ∧ u.events = { s.events with undelivered := s.events.undelivered - 1 } ∧
        u.mer.responses = s.mer.responses ++ [⟨0x09, 0, 0, BitVec.ofNat 179
          ((Config.eventCode v.name).toNat + v.seq.toNat * 2 ^ 16 + v.time.toNat * 2 ^ 48), p⟩] ∧ p.length = 32 ∧
        u.tiles = s.tiles ∧ u.mem = s.mem)

/-- Messages are taken in order, refused by their first fault, and events are numbered and delivered oldest first. The
model's readings of what the rules leave open here: log entries 19, 60, 61 and 62. -/
def Obligations.MessagesAndEvents : Prop :=
  Claims.MessageOrder ∧ Claims.Events

/-- R445, R447 to R450, R455, R509: a read is answered with the entry's value, or refused with the first status that
applies; a write of an entry of the shadow set changes that value of the shadow set alone, and a write of a read-only entry
is refused; and a read of SEC_CHALLENGE draws the nonce that it returns. The model's readings of what the rules leave open
here: log entries 17 and 65. -/
def Obligations.DictionaryAccess : Prop :=
  ∀ (s v w : State) (m : MsgHdr) (idx : BitVec 16) (sub : BitVec 8) (off : BitVec 32) (data : List Byte), Heard s m →
    v = returnUnits (nextSeq s) (.read 0 0 0) → w = returnUnits (nextSeq s) (.write idx.toNat sub.toNat off.toNat data []) →
    (readRefused s 0 idx.toNat sub.toNat = none → (idx ≠ 0x5010 ∨ sub ≠ 1) → exec (.odRead m idx sub off) s =
      .next (respond v ⟨0x02, 0, m.tag, odArg idx.toNat sub.toNat off.toNat,
        readValue s idx.toNat sub.toNat off.toNat 4096⟩)) ∧
    (∀ st, readRefused s 0 idx.toNat sub.toNat = some st → exec (.odRead m idx sub off) s =
      .next (refusedMsg v m (.read idx.toNat sub.toNat off.toNat) st 0)) ∧
    (∀ e, inRecovery s = false → odFind idx.toNat sub.toNat = some e → e.acc = .rws → off = 0 → e.size ≠ 0 →
      writeRefused s 0 idx.toNat sub.toNat = none → wordRefused e data = none →
      exec (.odWrite m idx sub off data) s = .next (answered { w with dict := { s.dict with
        shadow := mset s.dict.shadow (odDefault (odKey idx.toNat sub.toNat)) (odKey idx.toNat sub.toNat)
          (BitVec.ofNat 64 (leNat data)) } } m idx.toNat sub.toNat)) ∧
    (inRecovery s = false → exec (.odWrite m 0x1000 1 0 data) s =
      .next (refusedMsg (returnUnits (nextSeq s) (.write 0x1000 1 0 data [])) m (.write 0x1000 1 0 data []) 3 0)) ∧
    (inRecovery s = false → exec (.odRead m 0x1000 1 0) s =
      .next (respond v ⟨0x02, 0, m.tag, odArg 0x1000 1 0, [1, 0, 2, 0]⟩)) ∧
    (inRecovery s = false → ∃ u n, exec (.secChallengeRead m 0) s = .next u ∧ u.sec.nonce = some (n, now s) ∧
      u.mer.responses = s.mer.responses ++ [⟨0x02, 0, m.tag, odArg 0x5010 1 0, toLE 32 n.toNat⟩] ∧
      u.sec = { s.sec with nonce := some (n, now s) } ∧ u.tiles = s.tiles ∧ u.mem = s.mem)

/-- R445: subindex 0 of an index is read by every role that may read or write a subindex of it, as one byte that holds the
highest subindex in use, and nobody writes it; and a value is carried in exactly the bytes of its type, the least
significant first. -/
def Obligations.EntryForm : Prop :=
  ∀ (s : State) (m : MsgHdr) (idx : BitVec 16), inRecovery s = false → odIndexKnown idx.toNat = true →
    (∃ e, odFind idx.toNat (odMaxSub idx.toNat) = some e) ∧
    (∀ sub e, odFind idx.toNat sub = some e → sub ≤ odMaxSub idx.toNat) ∧
    (∀ role, role < 3 → (readRefused s role idx.toNat 0 = none ↔
      ∃ sub e, odFind idx.toNat sub = some e ∧ (e.rd ||| e.wr).getLsbD role = true)) ∧
    (∀ role, role < 3 → writeRefused s role idx.toNat 0 ≠ none) ∧
    (∀ off, Heard s m → readRefused s 0 idx.toNat 0 = none → exec (.odRead m idx 0 off) s =
      .next (respond (returnUnits (nextSeq s) (.read 0 0 0)) ⟨0x02, 0, m.tag, odArg idx.toNat 0 off.toNat, [BitVec.ofNat 8 (odMaxSub idx.toNat)]⟩)) ∧
    (∀ sub e, 0 < sub → odFind idx.toNat sub = some e → e.size ≠ 0 →
      (∃ v, readValue s idx.toNat sub 0 4096 = toLE e.size v) ∧
      (∀ data, data.length ≠ e.size → wordRefused e data = some (5, 0)))

/-- R263, R264, R270, R284, R427, R429: a bulk access that may not be made is refused, and one whose rows are held or whose
memory refreshes itself waits; a bulk write stores its lines without poison, each row by its own rules, and a bulk read
answers the lines as their reads deliver them with their poison marks; where no read fails a write changes no other byte and
a read returns the bytes and marks as they are stored; and a step epoch for a context writes its LIMIT and keeps FREE. The
model's readings of what the rules leave open here: log entry 62. -/
def Obligations.BulkAndEpoch : Prop :=
  ∀ (s v w : State) (m : MsgHdr) (a : BitVec 42) (len : BitVec 13) (data : List Byte) (errs : List LineCheck) (st : DWord) (who : BitVec 16),
    Heard s m → v = returnUnits (nextSeq s) (.bulkRead a.toNat len.toNat errs) → w = returnUnits (nextSeq s) (.bulkWrite a.toNat data errs) →
    (bulkOk s a.toNat data.length = false ∨ s.lostAt a.toNat = true →
      exec (.bulkWrite m a data errs) s = .next (refusedMsg w m (.bulkWrite a.toNat data errs) 0x10 0)) ∧
    (bulkOk s a.toNat data.length = true → s.lostAt a.toNat = false →
      (bulkWaits s true a.toNat data.length = true →
        exec (.bulkWrite m a data errs) s = .next (waitMsg w m (.bulkWrite a.toNat data errs))) ∧
      (bulkWaits s true a.toNat data.length = false →
        exec (.bulkWrite m a data errs) s = .next (accepted (unbar (storeRows errs 64 (noteReports w errs) a.toNat
          ((List.range (data.length / 64)).map fun i => ⟨lineOf (data.drop (64 * i)), false⟩)) a.toNat data.length)
          m (.bulkWrite a.toNat data errs))) ∧
      (bulkWaits s true a.toNat data.length = false → errs = [] →
        ∃ u, exec (.bulkWrite m a data []) s = .next u ∧ u.tiles = s.tiles ∧
          cellRead u.mem.data a.toNat data.length = data ∧
          (∀ b, b < a.toNat ∨ a.toNat + data.length ≤ b → cellGet u.mem.data b = cellGet s.mem.data b) ∧
          (∀ l, a.toNat / 64 ≤ l → l < (a.toNat + data.length) / 64 → l ∉ u.mem.poison) ∧
          u.mer.responses = s.mer.responses ++ [⟨0x08, 0, m.tag, BitVec.ofNat 179 a.toNat, []⟩])) ∧
    (bulkOk s a.toNat len.toNat = false →
      exec (.bulkRead m a len errs) s = .next (refusedMsg v m (.bulkRead a.toNat len.toNat errs) 0x10 0)) ∧
    (bulkOk s a.toNat len.toNat = true →
      (bulkWaits s false a.toNat len.toNat = true →
        exec (.bulkRead m a len errs) s = .next (waitMsg v m (.bulkRead a.toNat len.toNat errs))) ∧
      (bulkWaits s false a.toNat len.toNat = false → ∀ r ls, linesRead (noteReports v errs) errs a.toNat 0 (len.toNat / 64) = (r, ls) →
        exec (.bulkRead m a len errs) s = .next (respond r ⟨0x06, 0, m.tag, BitVec.ofNat 179 (a.toNat +
          (List.range (len.toNat / 64)).foldl (fun p i => p + b2n (ls.getD i ⟨0, false⟩).poison * 2 ^ i) 0 * 2 ^ 42),
          ls.flatMap fun l => lineBytes l.data⟩)) ∧
      (bulkWaits s false a.toNat len.toNat = false → errs = [] → (s.stripe (stripeOf a.toNat)).state = 0 →
        (∀ i, i < len.toNat / 64 → retiredAt s (lineChannel (a.toNat + 64 * i)) = false) →
        ∃ u, exec (.bulkRead m a len []) s = .next u ∧ u.tiles = s.tiles ∧ u.mem = s.mem ∧ u.ctxs = s.ctxs ∧
          u.mer.responses = s.mer.responses ++ [⟨0x06, 0, m.tag, BitVec.ofNat 179 (a.toNat + (List.range (len.toNat / 64)).foldl
            (fun p i => p + b2n (s.mem.poison.contains (a.toNat / 64 + i)) * 2 ^ i) 0 * 2 ^ 42),
            cellRead s.mem.data a.toNat len.toNat⟩])) ∧
    (served s = true → who.toNat < 16 →
      ∃ u, exec (.stepEpoch m st true who) s = .next u ∧ u.tiles = s.tiles ∧ u.mem = s.mem ∧ u.ctxs = s.ctxs ∧
        rwGet u 0x6145 (who.toNat + 1) =
          (rwGet s 0x6145 (who.toNat + 1) &&& 0x8000000000000000) ||| BitVec.ofNat 64 (st.toNat % 2 ^ 63) ∧
        ∀ c, c < 16 → c ≠ who.toNat → rwGet u 0x6145 (c + 1) = rwGet s 0x6145 (c + 1))

/-- R456, R457, R459, R460, R543: REVERT copies the active set to the shadow set and DEFAULTS clears it; SWAP and SAVE
begin, when the sets are idle, and hold back later messages until their flash copy is verified; a verified swap makes the
shadow set active under the next generation, a failed one leaves the active set; a verified save makes the shadow copy that
of the shadow set, a failed one leaves it invalid; and an erase leaves the copy in force. The model's readings of what the
rules leave open here: log entries 18 and 66. -/
def Obligations.ConfigurationSets : Prop :=
  ∀ (s v : State) (m : MsgHdr), v = returnUnits (nextSeq s) (.write 0x2000 1 0 [1, 0, 0, 0] []) →
    (Heard s m → inRecovery s = false →
      exec (.setRevert m 2) s = .next (answered { v with dict := { v.dict with shadow := v.dict.active } } m 0x2000 1) ∧
      (s.dict.state = 0 →
        exec (.setDefaults m 4) s = .next (answered { v with dict := { v.dict with shadow := [] } } m 0x2000 1) ∧
        exec (.setSave m 3) s = .next { v with
          dict := { v.dict with state := 1, save := some m, copyS := { v.dict.copyS with valid := false } }
          mer := { v.mer with blocking := some m } } ∧
        (s.dict.erased = true → setRefused s = none → exec (.setSwap m 1) s = .next { v with
          dict := { v.dict with state := 1, swap := some { vals := v.dict.shadow, hdr := m } }
          mer := { v.mer with blocking := some m } }) ∧
        (s.dict.erased = false → exec (.setSwap m 1) s =
          .next (refusedMsg { v with dict := { v.dict with lastResult := 0x0B } } m (.write 0x2000 1 0 [] []) 0x0B 0)) ∧
        (∀ e, s.dict.erased = true → setRefused s = some e → exec (.setSwap m 1) s =
          .next (refusedMsg { v with dict := { v.dict with lastResult := BitVec.ofNat 8 e.1 } } m (.write 0x2000 1 0 [] []) e.1 e.2)))) ∧
    (∀ w, s.dict.swap = some w → s.mer.blocking = some w.hdr → s.mer.held = [] →
      (∃ u, exec (.swapFlashVerified true) s = .next u ∧ u.dict.active = w.vals ∧ u.dict.activeGen = s.dict.activeGen + 1 ∧
        u.dict.swap = none ∧ u.dict.lastResult = 0 ∧ u.mer.blocking = none ∧ u.tiles = s.tiles ∧ u.mem = s.mem ∧
        u.mer.responses = s.mer.responses ++ [⟨0x04, 0, w.hdr.tag, odArg 0x2000 1 0, []⟩]) ∧
      (∃ u, exec (.swapFlashVerified false) s = .next u ∧ u.dict.active = s.dict.active ∧
        u.dict.activeGen = s.dict.activeGen ∧ u.dict.swap = none ∧ u.dict.lastResult = 0x12 ∧ u.mer.blocking = none ∧
        u.tiles = s.tiles ∧ u.mem = s.mem ∧
        u.mer.responses = s.mer.responses ++ [⟨0x04, 0x12, w.hdr.tag, odArg 0x2000 1 0, []⟩])) ∧
    (∀ h, s.dict.save = some h → s.mer.blocking = some h → s.mer.held = [] →
      ∃ u, exec (.saveFlashVerified true) s = .next u ∧ u.dict.copyS = ⟨true, s.dict.activeGen, s.dict.shadow⟩ ∧
        u.dict.save = none ∧ u.dict.state = 0 ∧ u.dict.active = s.dict.active ∧ u.dict.shadow = s.dict.shadow ∧
        u.mer.blocking = none ∧ u.tiles = s.tiles ∧ u.mem = s.mem ∧
        ∃ v, exec (.saveFlashVerified false) s = .next v ∧ v.dict.state = 0 ∧ v.dict.save = none ∧
          v.dict.copyS.valid = false ∧ v.dict.active = s.dict.active ∧ v.dict.shadow = s.dict.shadow ∧
          v.mer.blocking = none ∧ v.mer.responses = s.mer.responses ++ [⟨0x04, 0x12, h.tag, odArg 0x2000 1 0, []⟩] ∧ v.tiles = s.tiles ∧ v.mem = s.mem) ∧
    (s.dict.erased = false → s.dict.swap = none →
      ∃ u, exec .swapEraseComplete s = .next u ∧ u.dict.erased = true ∧ u.dict.active = s.dict.active ∧
        (copy1InForce s.dict = true → u.dict.copy1 = s.dict.copy1 ∧ u.dict.copy0.valid = false) ∧
        (copy1InForce s.dict = false → u.dict.copy0 = s.dict.copy0 ∧ u.dict.copy1.valid = false) ∧
        u.tiles = s.tiles ∧ u.mem = s.mem ∧ u.mer = s.mer)

/-- R215 to R218, R361, R388, R393, R396, R413: a pause begins to drain a running context and a resume lets its held tiles
go on; RESET stops a live context with cause CONTROL, and is refused for any other; RESTART sets a stopped one running again
from its newest version, or rolled back first to an older target that its stop left, and ROLLBACK from its rollback target,
each refused in other states and for the causes that forbid it; the acknowledgement of the oldest sealed record, or of the
oldest failure signature record, releases it; and END stops a context and marks it as ending. -/
def Sys2Proof.Claims.ContextCommands : Prop :=
  ∀ (s v : State) (m : MsgHdr) (c : Nat) (x : Ctx), v = returnUnits (nextSeq s) (.write 0 0 0 [0] []) → Heard s m → inRecovery s = false →
    c < 16 → s.ctx c = some x →
    (x.run.pauseState = 0 → x.rec_.state = 1 →
      ∃ u, exec (.contextPauseRequest m c 1) s = .next (answered u m 0x6140 (c + 1)) ∧
        u.ctx c = some { x with
          run := { x.run with pauseReq := true, pauseState := 1, pauseAt := x.rec_.slow, pauseLate := false }
          rec_ := { x.rec_ with hang := none } } ∧ u.tiles = s.tiles ∧ u.mem = s.mem) ∧
    (x.run.pauseState ≠ 0 →
      ∃ u y, exec (.contextResumeRequest m c 0) s = .next (answered u m 0x6140 (c + 1)) ∧
        u.ctx c = some y ∧ y.run = { x.run with pauseReq := false, pauseState := 0 } ∧ y.cdef = x.cdef ∧ u.mem = s.mem ∧
        ∀ k ∈ x.cdef.keys, (s.tile k).moveStage = 0 → (s.tile k).core.run = .held → (u.tile k).core.run = .running) ∧
    (x.rec_.state = 1 ∨ x.rec_.state = 3 ∨ x.rec_.state = 5 →
      exec (.contextResetCommand m c 0x10000000) s = .next (answered (stopCtx v c 1 none []) m 0x6190 (c + 1))) ∧
    (x.rec_.state = 2 ∨ x.rec_.state = 4 ∨ x.rec_.state = 6 → exec (.contextResetCommand m c 0x10000000) s =
      .next (refusedMsg v m (.write 0x6190 (c + 1) 0 [] []) 8 0)) ∧
    (x.rec_.state ≠ 2 → x.rec_.state ≠ 6 → exec (.contextEnd m c 0x2000000000000000) s =
      .next (answered ((stopCtx v c 1 none []).modRec c fun r => { r with ending := true }) m 0x6130 (c + 1))) ∧
    (x.rec_.state = 6 → exec (.contextEnd m c 0x2000000000000000) s =
      .next (answered ((beginReset v c x 1 none []).modRec c fun r => { r with ending := true }) m 0x6130 (c + 1))) ∧
    (x.rec_.state = 2 → exec (.contextEnd m c 0x2000000000000000) s =
      .next (answered (v.modRec c fun r => { r with ending := true }) m 0x6130 (c + 1))) ∧
    (x.rec_.state = 4 → x.rec_.cause ≠ 13 → x.rec_.cause ≠ 16 → (x.rec_.cause = 12 → plotGone s x.cdef = false) →
      x.rec_.epochWait = false →
      (x.rec_.pending = none →
        exec (.contextRestart m c 0x20000000) s = .next (answered (runOn v c) m 0x6190 (c + 1))) ∧
      (∀ t u, x.rec_.pending = some t → rollBack v c x t = some u →
        exec (.contextRestart m c 0x20000000) s = .next (answered (runOn u c) m 0x6190 (c + 1)))) ∧
    (x.rec_.state = 5 ∨ x.rec_.state = 4 ∧ x.rec_.cause ≠ 13 ∧ x.rec_.cause ≠ 16 → x.rec_.epochWait = false →
      ∀ u, rollBack v c x (rwGet s 0x6193 (c + 1)) = some u →
        exec (.contextRollbackCommand m c 0x30000000) s = .next (answered (runOn u c) m 0x6190 (c + 1))) ∧
    (x.rec_.state ≠ 4 ∨ x.rec_.cause = 13 ∨ x.rec_.cause = 16 → exec (.contextRestart m c 0x20000000) s =
      .next (refusedMsg v m (.write 0x6190 (c + 1) 0 [] []) 8 0)) ∧
    (∀ r, (x.tally.recs.find? fun r => !r.acked) = some r → r.slot < 64 →
      ∃ u, exec (.tallyAck m c (BitVec.ofNat 32 r.slot)) s = .next (answered u m 0x4102 (c + 1)) ∧
        u.ctx c = some { x with tally := { x.tally with
          recs := x.tally.recs.map (fun q => if q.slot == r.slot then { q with acked := true } else q)
          ackedStep := some r.step } } ∧ u.tiles = s.tiles ∧ u.mem = s.mem) ∧
    (∀ r t, s.gleaner.fsr = r :: t → r.seq < 2 ^ 32 → exec (.fsrAck m (BitVec.ofNat 32 r.seq)) s =
      .next (answered { v with gleaner := { v.gleaner with fsr := t } } m 0x4300 3))

/-- R321, R322, R376 to R379: an admission starts for an admissible live context and its handshake goes to the donor, and is
refused for one that is not admissible; a cancelled one aborts; a partition reset stops the contexts that meet its
rectangle, clears the free tiles in it and is refused where its rectangle is none of the grid; and after the wait of an
epoch a restart that it held up may proceed, and the message that waited for it is tried again. -/
def Sys2Proof.Claims.AdmissionAndPartition : Prop :=
  ∀ (s v : State) (m : MsgHdr), v = returnUnits (nextSeq s) (.write 0 0 0 [0] []) → Heard s m → inRecovery s = false →
    (∀ (w : DWord) c x, s.ctx c = some x → c = bits w.toNat 52 4 → w.toNat % 2 ^ 32 = 1 → w.toNat / 2 ^ 56 = 0 → admBusy s = false →
      (x.cdef.admissible = true → ∃ u, exec (.admissionStart m w) s = .next (answered u m 0x6160 1) ∧ u.hall.admState = 1 ∧
        u.hall.admCause = 0 ∧ u.hall.admCtx = BitVec.ofNat 4 c ∧ u.hall.admDonor = BitVec.ofNat 20 (bits w.toNat 32 20) ∧
        u.hall.admStep = rwGet s 0x6160 2 ∧ u.tiles = s.tiles ∧ u.ctxs = s.ctxs ∧ u.mem = s.mem) ∧
      (x.cdef.admissible = false → ∃ u, exec (.admissionStart m w) s =
        .next (refusedMsg u m (.write 0x6160 1 0 [] []) 8 0) ∧ u.hall.admState = 6 ∧ u.hall.admCause = 3 ∧ u.tiles = s.tiles ∧
        u.ctxs = s.ctxs ∧ u.mem = s.mem)) ∧
    (∀ w : DWord, w.toNat % 2 ^ 32 = 2 → w.toNat / 2 ^ 56 = 0 → exec (.admissionCancel m w) s =
      .next (answered (if admBusy s then stopAdmission (rwPut v 0x6160 1 (w &&& 0x00FFFFFF00000000)) 6
        else rwPut v 0x6160 1 (w &&& 0x00FFFFFF00000000)) m 0x6160 1)) ∧
    (∀ w : Word, partitionBad s w.toNat = none → w.toNat % 2 ^ 17 = 0 →
      ∃ u, exec (.partitionReset m w) s = .next (answered u m 0x6191 1) ∧
        (∀ c x, s.ctx c = some x → x.rec_.state = 1 → x.cdef.px0 ≤ bits w.toNat 23 4 → bits w.toNat 27 4 ≤ x.cdef.px1 →
          x.cdef.py0 ≤ bits w.toNat 17 3 → bits w.toNat 20 3 ≤ x.cdef.py1 →
          ∃ y, u.ctx c = some y ∧ y.cdef = x.cdef ∧ y.rec_.state = 2 ∧ y.rec_.cause = 14) ∧
        ∀ i j, 8 * bits w.toNat 27 4 ≤ i → i < 8 * bits w.toNat 23 4 + 8 → 8 * bits w.toNat 20 3 ≤ j →
          j < 8 * bits w.toNat 17 3 + 8 → ctxAt s (keyXY (tkey i j)) = none → (u.tile (tkey i j)).core = {} ∧
            (u.tile (tkey i j)).bin.data = [] ∧ (u.tile (tkey i j)).dma = {} ∧ (u.tile (tkey i j)).mx = {}) ∧
    (∀ w : Word, w.toNat % 2 ^ 17 = 0 → (∀ b, partitionBad s w.toNat = some b → exec (.partitionReset m w) s =
      .next (refusedMsg v m (.write 0x6191 1 0 [] []) 7 b))) ∧
    (∀ c, ∃ u, exec (.epochWaitExpiry c) s = .next (retryHeld u) ∧ u.tiles = s.tiles ∧ u.mem = s.mem ∧ u.mer = s.mer ∧
      epochRecent u c = false ∧ ∀ x, s.ctx c = some x → u.ctx c = some { x with rec_ := { x.rec_ with epochWait := false } })

/-- Commands pause, resume, reset, restart, roll back, end and acknowledge contexts, admit a module and reset a partition.
The model's readings of what the rules leave open here: log entries 48, 54, 56, 57, 84 and 87. -/
def Obligations.ContextCommands : Prop :=
  Claims.ContextCommands ∧ Claims.AdmissionAndPartition

/-- R379, R454: where every check of the creation entries and of the loader passes, CONTEXT_CREATE makes the context with a
new epoch and its first step to come, its tiles are free of any earlier program, those of a cluster-mode context wait to
begin it, and their bins are filled with zeros; a failed check refuses it and names the entry; and one whose epoch is too
recent waits. The model's readings of what the rules leave open here: log entries 10, 39 and 67. -/
def Obligations.ContextCreation : Prop :=
  ∀ (s v : State) (m : MsgHdr) (n : Nat) (w : DWord) (reds : List (Nat × List DWord)) (d : CtxDef),
    v = returnUnits (nextSeq s) (.write 0 0 0 [0] []) → d = createDef s n w.toNat reds → Heard s m → inRecovery s = false → n < 16 → w.toNat / 2 ^ 60 = 1 →
    w.toNat % 2 ^ 20 = 0 → createOpen s = true →
    (∀ k, createBad s n d = some k → exec (.contextCreate m n w reds) s =
      .next (refusedMsg v m (.write 0x6130 (n + 1) 0 [] reds) 0x0C k)) ∧
    (∀ o, createBad s n d = none → loaderBad s d = some o → exec (.contextCreate m n w reds) s =
      .next (refusedMsg v m (.write 0x6130 (n + 1) 0 [] reds) 0x0D (o / 8))) ∧
    (createBad s n d = none → loaderBad s d = none → epochRecent s n = false →
      ∃ u x, exec (.contextCreate m n w reds) s = .next (answered u m 0x6130 (n + 1)) ∧ u.ctx n = some x ∧ x.cdef = d ∧
        x.rec_.state = 1 ∧ x.run.step = d.firstStep ∧ epochOf u n = epochOf s n + 1 ∧
        ∀ k ∈ d.keys, (u.tile k).core = { run := if d.cluster then .entryWait else .off } ∧ (u.tile k).mx = {} ∧ (u.tile k).dma = {} ∧ (u.tile k).bin.data = []) ∧
    (createBad s n d = none → loaderBad s d = none → epochRecent s n = true → exec (.contextCreate m n w reds) s =
      .next (waitMsg v m (.write 0x6130 (n + 1) 0 (toLE 8 w.toNat) reds)))

/-! ### Resets, power and clocks -/

/-- R277, R378, R379, R394, R478, R482 to R484: MODULE_RESET, an expired watchdog, and a double-bit error of the steward's
memory reset the module, a single-bit error is counted, and out of service only the clearing kind is taken: no context, tile
state or memory content remains, the object dictionary's flash copies, the gazetteer, the failure signatures and the
power-on identity do, and bring-up begins again at S1, on the warm path for a warm reset alone. The model's readings of what
the rules leave open here: log entries 7, 75 and 76. -/
def Obligations.ModuleResets : Prop :=
  ∀ (s v : State) (m : MsgHdr), v = answered (returnUnits (nextSeq s) (.write 0 0 0 [0] [])) m 0x6192 1 →
    (Heard s m → inRecovery s = false →
      (s.boot.outOfService = false →
        exec (.moduleResetWarm m 0x7A110001) s = .next (moduleReset v 1 false) ∧
        exec (.moduleResetCold m 0x7A110002) s = .next (moduleReset v 2 false)) ∧
      (s.boot.outOfService = true → exec (.moduleResetWarm m 0x7A110001) s = .next (refusedMsg (returnUnits (nextSeq s) (.write 0 0 0 [0] [])) m
          (.write 0x6192 1 0 [] []) 8 0) ∧
        exec (.moduleResetCold m 0x7A110002) s = .next (refusedMsg (returnUnits (nextSeq s) (.write 0 0 0 [0] [])) m
          (.write 0x6192 1 0 [] []) 8 0)) ∧
      exec (.moduleResetClear m 0x7A110003) s = .next (moduleReset v 2 true)) ∧
    (1 ≤ s.boot.stage → bitAt (cfgInForce s 0x22C0 1).toNat 31 = true →
      (s.boot.fedAt + 100000 * cfgField s 0x22C0 1 0 8 ≤ now s → exec .watchdogExpiry s = .next (moduleReset s 3 false)) ∧
      (now s < s.boot.fedAt + 100000 * cfgField s 0x22C0 1 0 8 → exec .watchdogExpiry s = .next s)) ∧
    (1 ≤ s.boot.stage → portUp s = false ∨ now s < s.boot.selfFeedUntil →
      exec .watchdogSelfFeed s = .next { s with boot := { s.boot with fedAt := now s } }) ∧
    (s.boot.on = true → exec (.stewardMemoryError true) s = .next (moduleReset s 4 false) ∧
      exec (.stewardMemoryError false) s = .next { s with boot := { s.boot with eccCorrected := satAdd s.boot.eccCorrected 1 65535 } }) ∧
    (∀ kind clear, kind ∈ [1, 2, 3, 4] →
      ∀ u, u = moduleReset s kind clear → u.ctxs = [] ∧ u.tiles = [] ∧ u.mem.data = [] ∧ u.hall.links = [] ∧
        u.pending = s.pending ∧ u.factory = s.factory ∧ u.gleaner.fsr = s.gleaner.fsr ∧ u.boot.stage = 0 ∧ u.boot.busy = some 1 ∧
        u.boot.lastKind = BitVec.ofNat 3 kind ∧ (u.boot.path = 1 ↔ kind = 1) ∧ u.events.next = 0 ∧
        u.sec.keys = s.sec.keys ∧ u.sec.debugOn = false ∧ u.clk.timeUs = s.clk.timeUs)

/-- R397, R415, R517, R525 to R528: input power above the start threshold begins S0; a shed decided leaves what flash and
OTP hold and the tally tail to be written, a disabled warning is only shown; and the tail is written to the copy that does
not hold the newer one, with the next sequence number. -/
def Sys2Proof.Claims.PowerAndSheds : Prop :=
  ∀ (s : State) (cause : ShedCause) (mv : Nat),
    (s.pow.dark = true → s.pow.tail = [] → 41000 ≤ mv → exec (.inputPowerOn mv) s = .next { s with
      pow := { s.pow with dark := false, inputMv := mv }
      boot := { s.boot with busy := some 0, since := now s, fedAt := now s } }) ∧
    (s.pow.dark = false → cause ≠ .warning ∨ bitAt (cfgInForce s 0x22D0 1).toNat 31 = true →
      ∃ u, exec (.powerShed cause) s = .next u ∧ u.pow.dark = true ∧ u.pow.shed = some (cause, now s) ∧
        u.pow.tail = tailBody s cause ∧ u.ctxs = [] ∧ u.tiles = [] ∧ u.mem.data = [] ∧ u.factory = s.factory ∧
        u.sec.keys = s.sec.keys ∧ u.pending = s.pending) ∧
    (s.pow.dark = false → bitAt (cfgInForce s 0x22D0 1).toNat 31 = false →
      exec (.powerShed .warning) s = .next { s with pow := { s.pow with warn := true } }) ∧
    (∀ t, s.pow.tail ≠ [] → newerTail s = some t →
      ∃ u w, exec .tallyTailWrite s = .next u ∧ newerTail u = some w ∧ w.seq = t.seq + 1 ∧ w.valid = true ∧
        w.bytes.drop 12 = s.pow.tail ∧ (u.factory.tail0 = t ∨ u.factory.tail1 = t) ∧ u.pow.tail = [])

/-- R520, R523, R524, R530, R531: a rail that fails while its stage turns it on stays off and is counted; the field-side
rail goes off alone, a steward rail leaves the module dark, and any other sheds the rails; the requests of the power
governor rise by one step while their average is over the limit and fall while both are low; a coolant sample takes each
condition and its event; load sheds end with the tile clocks at k = 8; and a junction above 110 °C trips the module. -/
def Sys2Proof.Claims.RailsAndCooling : Prop :=
  ∀ (s : State), s.pow.dark = false →
    (∀ r, r ∈ s.pow.rails → r ≠ .stewardCore → r ≠ .stewardIo → r ≠ .field → risingRail s r = true →
      ∃ u, exec (.railFault r) s = .next u ∧ r ∉ u.pow.rails ∧ r ∈ u.pow.faulty ∧
        u.pow.railFaults = satAdd s.pow.railFaults 1 255 ∧ u.tiles = s.tiles ∧ u.mem = s.mem ∧ u.ctxs = s.ctxs) ∧
    (∀ r, r ∈ s.pow.rails → r ≠ .stewardCore → r ≠ .stewardIo → r ≠ .field → risingRail s r = false →
      exec (.railFault r) s = .next (railCount (railsShed (railDead s r)) s.pow.railFaults r)) ∧
    (Rail.field ∈ s.pow.rails → ∃ u, exec (.railFault .field) s = .next u ∧ Rail.field ∉ u.pow.rails ∧ u.field.up = false ∧
      u.pow.railFaults = satAdd s.pow.railFaults 1 255 ∧ u.tiles = s.tiles ∧ u.mem = s.mem ∧ u.ctxs = s.ctxs) ∧
    (∀ r, r ∈ s.pow.rails → r = .stewardCore ∨ r = .stewardIo → exec (.railFault r) s = .next (powerLost s)) ∧
    (∀ mv w warn a b, a = newestAvg 10 ((w :: s.pow.watts).take 10000) → b = newestAvg 10000 ((w :: s.pow.watts).take 10000) →
      ∃ u, exec (.powerSample mv w warn) s = .next u ∧ u.pow.inputMv = mv ∧ u.pow.warn = warn ∧ u.pow.avg1ms = a ∧ u.pow.avg1s = b ∧
        u.pow.watts = (w :: s.pow.watts).take 10000 ∧
        (3000 < a → u.pow.gov1ms = if 10 ≤ s.pow.since1ms + 1 then min 12 (s.pow.gov1ms + 1) else s.pow.gov1ms) ∧
        (cfgField s 0x22D0 1 0 16 < b → u.pow.gov1s = if 1000 ≤ s.pow.since1s + 1 then min 12 (s.pow.gov1s + 1) else s.pow.gov1s) ∧
        (100 * a ≤ 97 * 3000 → 100 * b ≤ 97 * cfgField s 0x22D0 1 0 16 →
          u.pow.gov1ms = (if 1000 ≤ s.pow.since1ms + 1 then s.pow.gov1ms - 1 else s.pow.gov1ms) ∧
          u.pow.gov1s = (if 1000 ≤ s.pow.since1s + 1 then s.pow.gov1s - 1 else s.pow.gov1s)) ∧
        u.tiles = s.tiles ∧ u.mem = s.mem) ∧
    (∀ i o f, ∃ u, exec (.coolantSample i o f) s = .next u ∧ u.pow.inlet = i ∧ u.pow.outlet = o ∧
      u.pow.flow = f ∧ u.tiles = s.tiles ∧ u.mem = s.mem ∧
      ∀ n, n < 7 → mget u.pow.cool {} n = coolStep (mget s.pow.cool {} n) (coolSees i f n) (coolNeed n)) ∧
    (s.pow.loadShed = true → (mget s.pow.cool {} 5).active = false → (mget s.pow.cool {} 6).active = false →
      ∃ u, exec .coolantShedRestart s = .next u ∧ u.pow.loadShed = false ∧ u.clk.tilesStopped = rootStopped s ∧
        u.tiles = s.tiles ∧ u.mem = s.mem ∧ ∀ q, q < 4 → (u.quarter q).k = 8) ∧
    (∀ qs others, (∀ e ∈ junctions qs others, e.2 ≤ 110) → (qs.map fun e => quarterNum e.1).Nodup →
      ∃ u, exec (.junctionSample qs others) s = .next u ∧ u.tiles = s.tiles ∧ u.mem = s.mem ∧
        ∀ e ∈ qs, u.quarter (quarterNum e.1) = thermalStep (s.quarter (quarterNum e.1)) e.2) ∧
    (∀ qs others e, e ∈ junctions qs others → 110 < e.2 → ∃ u, exec (.junctionSample qs others) s = .next u ∧
      u.pow.tripHold = true ∧ u.boot.busy = some 1 ∧ u.ctxs = [] ∧ ∀ r ∈ u.pow.rails, stewardRail r = true)

/-- Power on, sheds, the tally tail, rails, the governor and coolant conditions act as their rules say. The model's readings
of what the rules leave open here: log entries 78 and 79. -/
def Obligations.Power : Prop :=
  Claims.PowerAndSheds ∧ Claims.RailsAndCooling

/-- R434, R435, R444, R499: the order of a change of root frequency: decided, links down and channels in self-refresh,
clocks stopped, PLL locked, and complete, with the port back where the change leads to 7.2 GHz; a source that becomes ready
ends holdover by a switch without a change of frequency, and the end of holdover begins one to the coast oscillator; a
source that fails hands the root to the other, or leaves it in holdover; and the first lock that fails leaves the module
coasting with its failure code. -/
def Sys2Proof.Claims.RootChanges : Prop :=
  ∀ (s : State) (m1 : Bool),
    (s.clk.source = .holdover → s.clk.change = none →
      (laneWithdrawn s.mer m1 = false → ∃ u, exec (.refReady m1) s = .next u ∧ u.clk.source = sourceOf m1 ∧ u.clk.change = none ∧
        u.clk.ready m1 = true ∧ u.tiles = s.tiles ∧ u.mem = s.mem) ∧
      (now s < s.clk.heldAt + cfgField s 0x22B0 1 0 10 → ∀ r, exec (.holdoverExpiry r) s = .next s) ∧
      (s.clk.heldAt + cfgField s 0x22B0 1 0 10 ≤ now s →
        (∃ u, exec (.holdoverExpiry none) s = .next u ∧
          u.clk = { s.clk with change := some .decided, toward := .coast, began := now s } ∧ u.tiles = s.tiles ∧ u.mem = s.mem) ∧
        ∃ u, exec (.holdoverExpiry (some m1)) s = .next u ∧ u.clk.source = sourceOf m1 ∧ u.clk.change = none ∧
          u.tiles = s.tiles ∧ u.mem = s.mem)) ∧
    (laneWithdrawn s.mer m1 = true → exec (.refReady m1) s = .next (setLock s m1 true false)) ∧
    (rxActive s.mer m1 = true → exec (.refLockLoss m1) s = .next (setLock s m1 false false)) ∧
    (rxActive s.mer m1 = false → s.clk.change = none → s.clk.source = sourceOf m1 → s.clk.coasting = false →
      ∃ u, exec (.refLockLoss m1) s = .next u ∧ u.clk.ready m1 = false ∧ u.clk.change = none ∧ u.tiles = s.tiles ∧ u.mem = s.mem ∧
        u.clk.source = (if s.clk.ready (!m1) then sourceOf (!m1) else .holdover) ∧ (s.clk.ready (!m1) = false → u.clk.heldAt = now s)) ∧
    (s.clk.coasting = true → s.clk.change = none → s.clk.ready m1 = true → s.pow.tripHold = false → s.clk.firstLock = true →
      bitAt (cfgInForce s 0x22B0 1).toNat 31 = true →
      (if m1 then s.clk.readyAtM1 else s.clk.readyAtM0) + 1000 * cfgField s 0x22B0 1 16 10 ≤ now s →
      ∃ u, exec (.relockTimerExpiry m1) s = .next u ∧
        u.clk = { s.clk with change := some .decided, toward := sourceOf m1, began := now s } ∧ u.tiles = s.tiles ∧ u.mem = s.mem) ∧
    (s.clk.coasting = false ∨ s.clk.ready m1 = false ∨ s.pow.tripHold = true ∨ (wantsLock s = false ∧
      now s < (if m1 then s.clk.readyAtM1 else s.clk.readyAtM0) + 1000 * cfgField s 0x22B0 1 16 10) →
      exec (.relockTimerExpiry m1) s = .next s) ∧
    (s.clk.change = some .decided → ∃ u, exec .rootChangeStart s = .next u ∧ u.clk.change = some .stopping ∧
      u.mem.selfRefresh = true ∧ (∀ l, l < 32 → (u.link l).up = false) ∧ u.mer.txM0 = false ∧ u.mer.txM1 = false ∧
      ((∀ l, l < 32 → (s.link l).state = 0 ∨ (s.link l).state = 4) →
        u.mem = { s.mem with selfRefresh := true } ∧ u.tiles = s.tiles ∧ u.ctxs = s.ctxs ∧ u.hall = s.hall)) ∧
    (s.clk.change = some .stopping → exec .rootClocksStopped s =
      .next { s with clk := { s.clk with change := some .stopped, tilesStopped := true } }) ∧
    (s.clk.change = some .stopped →
      exec .rootPllLock s = .next { s with clk := { s.clk with
        change := some .locked, source := s.clk.toward, coasting := s.clk.toward == .coast, tilesStopped := s.pow.loadShed
        sub := 0 } } ∧
      (s.boot.busy = some 2 → s.clk.began + 10000 ≤ now s → ∃ u, exec .rootPllLockTimeout s = .next u ∧ u.clk.change = none ∧
        u.clk.coasting = true ∧ u.clk.source = .coast ∧ u.boot.failStage = 2 ∧ u.boot.failCode = 0x21 ∧ u.mem.selfRefresh = false) ∧
      (s.boot.busy ≠ some 2 ∨ now s < s.clk.began + 10000 → exec .rootPllLockTimeout s = .next s)) ∧
    (s.clk.change = some .locked → s.clk.coasting = true ∨ s.boot.busy = none →
      ∃ u v, exec .rootChangeComplete s = .next u ∧ (u = v ∨ u = releaseHeld v) ∧ (s.mer.blocking = none → u = v) ∧
      v.clk.change = none ∧ v.mem = { s.mem with selfRefresh := false } ∧ v.tiles = s.tiles ∧ v.ctxs = s.ctxs ∧
      (s.clk.firstLock = true → s.clk.coasting = true → v.clk.coastEntries = satAdd s.clk.coastEntries 1 65535) ∧
      (s.clk.coasting = false → s.mer.enabled = true → v.mer.txM0 = true ∧ v.mer.txM1 = true ∧ v.mer.rxM0 = s.clk.lockM0 ∧
        v.mer.rxM1 = s.clk.lockM1))

/-- R31, R46, R257, R432, R436, R437: with no command waiting, what was held back is tried again and the root clock counts
one cycle, and the tile clock of a quarter counts one cycle every 5 k of them; a quarter's k moves one step of the ladder
toward its target, no faster than its rule allows, and above 8 it waits for the section load or step boundary of the
contexts in the quarter. -/
def Sys2Proof.Claims.ClocksAndThrottle : Prop :=
  ∀ (s : State) (q : Quarter) (t : Throttle), t = s.quarter (quarterNum q) →
    (s.pending = [] → step s = .next (tick (pumpMer (pumpCopies (retryHeld s))))) ∧
    (s.pow.dark = false → (tick s).clk.root = s.clk.root + 1 ∧ (tick s).tiles = s.tiles ∧ (tick s).mem = s.mem ∧
      (∀ c x, s.ctx c = some x → ∃ y, (tick s).ctx c = some y ∧ y.cdef = x.cdef ∧ y.run = x.run ∧ y.tally = x.tally) ∧
      (s.clk.tilesStopped = false → (tick s).quarter (quarterNum q) =
        (if 5 * t.k ≤ t.phase + 1 then { t with phase := 0, cycles := t.cycles + 1 } else { t with phase := t.phase + 1 }))) ∧
    (mayThrottle s = true →
      (∀ i, i < 12 → t.k = ladderK i → t.k < throttleTarget s (quarterNum q) → (t.k ≠ 8 ∨ quarterUsed s (quarterNum q) = false) →
        (stepDue s (quarterNum q) 2 = true → ∃ u, exec (.throttleStep q) s = .next u ∧ u.quarter (quarterNum q) =
          { t with k := ladderK (i + 1), steps := satAdd t.steps 1 (2 ^ 32 - 1), deep := false, steppedAt := some (now s) } ∧
          u.tiles = s.tiles ∧ u.mem = s.mem) ∧
        (stepDue s (quarterNum q) 2 = false → exec (.throttleStep q) s = .next s)) ∧
      (∀ i, i < 12 → t.k = ladderK (i + 1) → throttleTarget s (quarterNum q) < t.k →
        (stepDue s (quarterNum q) 20 = true → ∃ u, exec (.throttleStep q) s = .next u ∧ u.quarter (quarterNum q) =
          { t with k := ladderK i, steps := satAdd t.steps 1 (2 ^ 32 - 1), deep := false, steppedAt := some (now s) } ∧
          u.tiles = s.tiles ∧ u.mem = s.mem) ∧
        (stepDue s (quarterNum q) 20 = false → exec (.throttleStep q) s = .next s)) ∧
      (t.k = 8 → 8 < throttleTarget s (quarterNum q) → quarterUsed s (quarterNum q) = true →
        exec (.throttleStep q) s = .next (s.modQuarter (quarterNum q) fun t => { t with deep := true })) ∧
      (t.k = 8 → t.deep = true → 8 < throttleTarget s (quarterNum q) → stepDue s (quarterNum q) 2 = true →
        deepPoint s (quarterNum q) = true →
        ∃ u, exec (.deepThrottleApply q) s = .next u ∧ (u.quarter (quarterNum q)).k = 10 ∧
          (u.quarter (quarterNum q)).deep = false ∧ u.tiles = s.tiles ∧ u.mem = s.mem) ∧
      (deepPoint s (quarterNum q) = false → exec (.deepThrottleApply q) s = .next s))

/-- A root change goes through its stages in order, a tick advances the clocks, and throttling moves one step of the ladder.
The model's readings of what the rules leave open here: log entries 6, 9 and 64. -/
def Obligations.RootsAndClocks : Prop :=
  Claims.RootChanges ∧ Claims.ClocksAndThrottle

/-- R422, R423, R430, R431: a frame in sequence on a receiving port is accepted and returns its credits, one out of sequence
or damaged asks for a resend; a NAK that was heard resends the frames it names; a receive lane that fails is withdrawn and
its source with it, and a transmit lane when the far end has withdrawn it; a lane rejoins once it has held lock for 10 ms
and is named, or the direction has none, and a lane of the transmitter at a SEQ named in advance; and a restart begins both
directions anew and discards requests without a response. The model's readings of what the rules leave open here: log entry
63. -/
def Obligations.MeridianPort : Prop :=
  ∀ (s : State) (m1 : Bool),
    (receiving s = true →
      (∀ fr : MeridianFrame, fr.good = true → fr.uncorrectable = false → fr.units.toNat ≤ 16 →
        ∃ u m, exec (.meridianFrameReceive fr) s = .next u ∧ m.credits = min 4096 (s.mer.credits + fr.credits.toNat) ∧
          m.replay = ackMer fr.ack s.mer.replay ∧ m.nakAt = (if fr.nak then some fr.ack else s.mer.nakAt) ∧
          m.downHeard = (s.mer.downHeard || (fr.nak && fr.laneDown)) ∧ m.switchRx = namedSwitch s.mer fr ∧
          u.tiles = s.tiles ∧ u.mem = s.mem ∧
          (fr.units = 0 → u = pumpMer { s with mer := m } ∧ m.seqRx = s.mer.seqRx ∧ m.nakked = s.mer.nakked) ∧
          (fr.units ≠ 0 → fr.seq = s.mer.seqRx →
            u = pumpMer (switchLanes { s with mer := m }) ∧ m.seqRx = s.mer.seqRx + 1 ∧ m.nakked = false) ∧
          (fr.units ≠ 0 → fr.seq ≠ s.mer.seqRx → u = pumpMer { s with mer := m } ∧ m.seqRx = s.mer.seqRx ∧ m.nakked = true ∧
            (s.mer.nakked = false → m.nakDue = true))) ∧
      (∀ fr : MeridianFrame, fr.uncorrectable = false → fr.good = false ∨ 16 < fr.units.toNat →
        exec (.meridianFrameReceive fr) s = .next (pumpMer { s with mer := { s.mer with nakked := true, nakDue := true } })) ∧
      (∀ fr : MeridianFrame, fr.uncorrectable = true → fr.good = false → laneOn s.mer true fr.lane = true →
        16 ≤ ((if fr.lane then s.mer.bad1 else s.mer.bad0).filter fun t => now s < t + 1000).length →
        ∃ u, exec (.meridianFrameReceive fr) s = .next u ∧ laneOn u.mer true fr.lane = false ∧ u.clk.ready fr.lane = false ∧
          u.tiles = s.tiles ∧ u.mem = s.mem) ∧
      (laneOn s.mer true m1 = true → ∀ cause,
        (laneLost cause = true → ∃ u, exec (.meridianLaneFail true m1 cause) s = .next u ∧ laneOn u.mer true m1 = false ∧
          u.clk.ready m1 = false ∧ u.mer.nakked = true ∧ u.tiles = s.tiles ∧ u.mem = s.mem) ∧
        (laneLost cause = false → exec (.meridianLaneFail true m1 cause) s = .next s)) ∧
      (∃ u, exec .meridianRestartReceive s = .next u ∧ u.mer.seqTx = 0 ∧ u.mer.seqRx = 0 ∧ u.mer.msgSeq = 0 ∧ u.mer.outSeq = 0 ∧
        u.mer.replay = [] ∧ u.mer.held = [] ∧ u.mer.credits = 4096 ∧ u.tiles = s.tiles ∧ u.mem = s.mem ∧ u.dict = s.dict) ∧
      (s.mer.sends = true → exec .meridianAckTimer s = .next { s with mer := s.mer.putFrame 0 0 })) ∧
    (∀ q, s.mer.nakAt = some q → s.mer.sends = true → ∃ u, exec .meridianNakResend s = .next u ∧ u.mer.replay = ackMer q s.mer.replay ∧
      u.mer.nakAt = none ∧ u.mer.resends = satAdd s.mer.resends 1 65535 ∧ u.tiles = s.tiles ∧ u.mem = s.mem) ∧
    (s.mer.nakAt = none ∨ s.mer.sends = false → exec .meridianNakResend s = .next s) ∧
    (s.mer.enabled = true → laneOn s.mer false m1 = true → ∀ cause,
      (s.mer.downHeard = true → ∃ u, exec (.meridianLaneFail false m1 cause) s = .next u ∧ laneOn u.mer false m1 = false ∧
        u.mer.downHeard = false ∧ u.clk = s.clk ∧ u.tiles = s.tiles ∧ u.mem = s.mem) ∧
      (s.mer.downHeard = false → exec (.meridianLaneFail false m1 cause) s = .next s)) ∧
    (s.mer.enabled = true → laneOn s.mer true m1 = false → lockedLong s m1 = true →
      laneOn s.mer true (!m1) = false ∨ (∃ lanes at_, s.mer.switchRx = some (lanes, at_) ∧
        (if m1 then lanes.getLsbD 1 else lanes.getLsbD 0) = true ∧ (s.mer.seqRx - at_).toNat < 2048) →
      ∀ q, ∃ u, exec (.meridianLaneRejoin true m1 q) s = .next u ∧ laneOn u.mer true m1 = true ∧ u.tiles = s.tiles ∧ u.mem = s.mem) ∧
    (lockedLong s m1 = false → ∀ q, exec (.meridianLaneRejoin true m1 q) s = .next s) ∧
    (s.mer.enabled = true → laneOn s.mer false m1 = false → rootLocked s = true → ∀ q,
      (laneOn s.mer false (!m1) = true → 64 ≤ (q - s.mer.seqTx).toNat → (q - s.mer.seqTx).toNat < 2048 →
        exec (.meridianLaneRejoin false m1 q) s = .next { s with mer := { s.mer with switchTx := some (withLane s.mer false m1, q) } }) ∧
      (laneOn s.mer false (!m1) = false → ∃ u, exec (.meridianLaneRejoin false m1 q) s = .next u ∧ laneOn u.mer false m1 = true ∧
        u.tiles = s.tiles ∧ u.mem = s.mem))

/-- R464 to R467: on a field port in service a request is answered once S1 is complete, and waits before that while eight
places hold; a manager's heartbeat makes it the field manager until none comes for three periods; heartbeats go to it, or to
all nodes, every period and events in order; and a datagram that is no message is dropped and counted. -/
def Sys2Proof.Claims.FieldMessages : Prop :=
  ∀ (s : State) (tag idx : BitVec 16) (sub : BitVec 8) (off : BitVec 32) (src : BitVec 128) (echo : Bool) (at_ : Nat),
    (fieldOn s = true → s.field.tx = true →
      (1 ≤ s.boot.stage →
        (readRefused s 1 idx.toNat sub.toNat = none → exec (.legendOdRead tag idx sub off) s =
          .next (fieldSend s requester (legendBytes 2 0 tag.toNat (odKey idx.toNat sub.toNat) off.toNat
            (readValue s idx.toNat sub.toNat off.toNat 1024)))) ∧
        (∀ st, writeRefused s 1 idx.toNat sub.toNat = some st → ∃ u b, exec (.legendOdWrite tag idx sub) s = .next u ∧
          u.field.sent = s.field.sent ++ [(requester, b)] ∧ b = legendBytes 2 st tag.toNat (odKey idx.toNat sub.toNat) 0 [] ∧
          u.dict.rw = s.dict.rw ∧ u.dict.shadow = s.dict.shadow ∧ u.tiles = s.tiles ∧ u.mem = s.mem)) ∧
      (s.boot.stage = 0 → s.field.queue.length < 8 →
        ∃ u r, exec (.legendOdRead tag idx sub off) s = .next u ∧ u.field.queue = s.field.queue ++ [r] ∧
          u.field.sent = s.field.sent ∧ r = ⟨tag, false, idx.toNat, sub.toNat, off.toNat⟩) ∧
      (s.boot.stage = 0 → 8 ≤ s.field.queue.length → exec (.legendOdRead tag idx sub off) s =
        .next { s with field := { s.field with rxDropped := satAdd s.field.rxDropped 1 65535 } }) ∧
      (∃ u, exec (.legendHeartbeatReceive src) s = .next u ∧ u.field.manager = some (src, now s) ∧ u.tiles = s.tiles ∧
        u.mem = s.mem) ∧
      (1 ≤ s.boot.stage → (s.field.hbAt.any fun t => now s < t + hbPeriod s) = false → ∃ u b, exec .legendHeartbeatSend s = .next u ∧
        u.field.sent = s.field.sent ++ [((s.field.manager.map (·.1)).getD 0xFF020000000000000000000000000001, b)] ∧
        u.field.hbSeq = s.field.hbSeq + 1 ∧ u.field.hbAt = some (now s) ∧ u.tiles = s.tiles ∧ u.mem = s.mem) ∧
      (∀ e, s.field.manager = some (src, at_) → s.events.ring.find? (fun e => (e.seq - s.field.nextEvent).toNat < 2 ^ 31) = some e →
        ∃ u b, exec .legendEventSend s = .next u ∧ u.field.sent = s.field.sent ++ [(src, b)] ∧ u.field.nextEvent = e.seq + 1 ∧
          u.events = s.events ∧ u.tiles = s.tiles ∧ u.mem = s.mem) ∧
      (exec .fieldDatagramDrop s = .next { s with field := { s.field with rxDropped := satAdd s.field.rxDropped 1 65535 } }) ∧
      (∃ u b, exec (.icmpv6Request echo src) s = .next u ∧ u.field.sent = s.field.sent ++ [(src, b)] ∧ u.tiles = s.tiles ∧
        u.mem = s.mem)) ∧
    (s.field.manager = some (src, at_) →
      (at_ + 3 * hbPeriod s ≤ now s → exec .fieldManagerExpiry s = .next { s with field := { s.field with manager := none } }) ∧
      (now s < at_ + 3 * hbPeriod s → exec .fieldManagerExpiry s = .next s))

/-- R469, R470: a new fault of the pair is reported and counted, a short or a DC level above 3 V turns the transmitter off;
the end of a fault is reported; and the transmitter is on again at a retry of 1 s that finds the short gone, or 1 s after a
DC level has ended. -/
def Sys2Proof.Claims.FieldPair : Prop :=
  ∀ (s : State) (k : PairFault) (d l : BitVec 8),
    (fieldPowered s = true → faultHeld s.field k = false → (k = .dc → 3 < l.toInt.natAbs) →
      ∃ u, exec (.fieldPairFault k d l) s = .next u ∧ u.field.faults = satAdd s.field.faults 1 65535 ∧
        faultHeld u.field k = true ∧ (k = .short ∨ k = .dc → u.field.tx = false) ∧
        (k = .open_ → u.field.distance = d ∧ u.field.tx = s.field.tx) ∧ u.tiles = s.tiles ∧ u.mem = s.mem) ∧
    (l.toInt.natAbs ≤ 3 → exec (.fieldPairFault .dc d l) s = .next s) ∧
    (s.field.cable ≠ 0 → ∃ u, exec .fieldPairFaultEnd s = .next u ∧ u.field.cable = 0 ∧ u.field.tx = s.field.tx ∧
      u.field.reversed = s.field.reversed ∧ u.field.faults = s.field.faults ∧ u.tiles = s.tiles ∧ u.mem = s.mem) ∧
    (s.field.cable = 0 → s.field.reversed = true → ∃ u, exec .fieldPairFaultEnd s = .next u ∧ u.field.reversed = false ∧
      u.field.faults = s.field.faults ∧ u.tiles = s.tiles ∧ u.mem = s.mem) ∧
    (s.field.tx = false → s.field.txAt + 1000000 ≤ now s →
      (s.field.cable = 2 →
        (∃ u, exec (.fieldTxRetry true) s = .next u ∧ u.field.cable = 0 ∧ u.field.tx = true ∧ u.tiles = s.tiles ∧ u.mem = s.mem) ∧
        exec (.fieldTxRetry false) s = .next { s with field := { s.field with txAt := now s } }) ∧
      (s.field.cable = 0 → ∀ b, exec (.fieldTxRetry b) s = .next { s with field := { s.field with tx := true } })) ∧
    (s.field.tx = true ∨ now s < s.field.txAt + 1000000 → ∀ b, exec (.fieldTxRetry b) s = .next s)

/-- The field port answers after S1, keeps its manager, and takes its transmitter off and on with pair faults. The model's
readings of what the rules leave open here: log entries 60 and 68. -/
def Obligations.FieldPort : Prop :=
  Claims.FieldMessages ∧ Claims.FieldPair

/-! ### Bring-up, firmware and security -/

/-- R474 to R477, R500, R501: the end of a stage records it with its time, clears the failure, raises BRINGUP_STAGE_DONE and
begins the next stage up to TARGET; ADVANCE, HOLD and RETRY change the target, hold after the stage in progress, and run a
failed stage again; REBUILD_GAZETTEER runs S5 again; and a stage that misses its limit fails with its code. -/
def Sys2Proof.Claims.BringupControl : Prop :=
  ∀ (s v : State) (m : MsgHdr) (n t : Nat), v = returnUnits (nextSeq s) (.write 0 0 0 [0] []) →
    (n < 10 → (endStage s n).boot.stage = n ∧ (endStage s n).boot.failStage = 0 ∧ (endStage s n).boot.failCode = 0 ∧
      mget (endStage s n).boot.times 0 n = now s - s.boot.since ∧
      (n = 9 ∨ s.boot.holdReq = true ∨ s.boot.target ≤ n → (endStage s n).boot.busy = none) ∧
      (n < 9 → s.boot.holdReq = false → n < s.boot.target → (endStage s n).boot.busy = some (stageAfter s n))) ∧
    (Heard s m → inRecovery s = false → outOfServ s = false →
      (3 ≤ t → t ≤ 9 → s.boot.state.toNat ≤ 1 → s.boot.stage < t → anySlotWhole s = true →
        (s.boot.busy ≠ none ∨ s.boot.state ≠ 1 → exec (.bringupAdvance m (BitVec.ofNat 32 (2 ^ 28 + t * 2 ^ 24))) s =
          .next (answered { v with boot := { v.boot with target := t, holdReq := false } } m 0x6100 1)) ∧
        (s.boot.busy = none → s.boot.state = 1 → exec (.bringupAdvance m (BitVec.ofNat 32 (2 ^ 28 + t * 2 ^ 24))) s =
          .next (answered (startStage { v with boot := { v.boot with target := t, holdReq := false } } (stageAfter s s.boot.stage))
            m 0x6100 1))) ∧
      exec (.bringupHold m 0x20000000) s =
        .next (answered { v with boot := { v.boot with holdReq := v.boot.busy.isSome } } m 0x6100 1) ∧
      (s.boot.state = 2 → exec (.bringupRetry m 0x30000000) s = .next (answered (startStage { v with
        boot := { v.boot with failStage := 0, failCode := 0 } } s.boot.failStage) m 0x6100 1)) ∧
      (s.boot.state ≠ 2 → exec (.bringupRetry m 0x30000000) s =
        .next (refusedMsg v m (.write 0x6100 1 0 [] []) 8 0)) ∧
      (s.boot.state = 2 → s.boot.path = 0 → s.boot.failStage = 5 → s.boot.failCode = 0x50 → s.boot.s4Done = true →
        ∃ u, exec (.rebuildGazetteer m 0x40000000) s = .next (answered u m 0x6100 1) ∧ u.boot.busy = some 5 ∧
          u.boot.failStage = 0 ∧ u.gleaner.gazA = rebuiltGaz s ∧ u.mesh.failed = [] ∧ u.tiles = s.tiles ∧ u.mem = s.mem)) ∧
    (∀ lim, s.boot.busy = some n → stageLimit n = some lim →
      (stageRoot s n = true → s.boot.stageAt + lim ≤ now s →
        ∃ u, exec .stageLimitExpiry s = .next u ∧ u.boot.state = 2 ∧ u.boot.busy = none ∧ u.boot.failStage = n ∧
          u.boot.failCode = 1 ∧ u.tiles = s.tiles ∧ u.mem = s.mem) ∧
      (stageRoot s n = false ∨ now s < s.boot.stageAt + lim → exec .stageLimitExpiry s = .next s))

/-- R473, R474, R480, R481, R487, R495, R499, R500, R522: what each stage does: S0 turns on the rails of the steward, S1
loads and measures the steward image of the slot that the ROM chooses, falls back from one that does not verify and enters
ROM recovery without one, S2 has the root locked and the port up, S3 leaves memory empty, S4 decides the tiles, S5 builds
the grid of the gazetteer, S7 leaves every bin filled with zeros, S8 completes once the mapped links are up or 10 s have
passed, and S9 completes; each one is then the stage completed, and where its image or its content does not pass it falls
back or fails with its code. -/
def Sys2Proof.Claims.BringupStages : Prop :=
  ∀ (s v : State),
    (s.boot.busy = some 0 → s.pow.dark = false →
      (∃ u, exec (.stageS0 true) s = .next u ∧ u.boot.stage = 0 ∧ u.boot.on = true ∧
        ∀ r ∈ stageRails s 0, (∀ q ∈ stageRails s 0, q ∉ s.pow.faulty) → r ∈ u.pow.rails) ∧
      exec (.stageS0 false) s = .next (powerLost s)) ∧
    (s.boot.busy = some 1 → onWarm s = false → ∀ seedOk,
      (∀ ok, (chooseBoot s).2 = none → exec (.stageS1 ok seedOk) s = .next (romRecovery (chooseBoot s).1)) ∧
      (∀ b i, chooseBoot s = (v, some b) → b < 2 → slotImage v 0 b 0 = some i →
        (imageUsable v i = true → s.boot.outOfService = false →
          ∃ u, exec (.stageS1 true seedOk) s = .next u ∧ u.boot.stage = 1 ∧ u.fw.booted = BitVec.ofNat 1 b ∧
            u.fw.trial = (slotState v 0 b == 2) ∧ mfind u.fw.running i.kind.toNat = some i ∧
            mget u.sec.mr 0 0 = mget (measureImage s 0 i).sec.mr 0 0 ∧ u.tiles = s.tiles ∧ u.mem.data = s.mem.data) ∧
        exec (.stageS1 false seedOk) s = .next (slotFallback { v with
          fw := { v.fw with booted := BitVec.ofNat 1 b, trial := slotState v 0 b == 2 } }))) ∧
    (s.boot.busy = some 2 → portUp s = true → rootLocked s = true → s.pow.tripHold = false →
      ∃ u, exec .stageS2 s = .next u ∧ u.boot.stage = 2 ∧ u.clk = { s.clk with firstLock := true } ∧ u.tiles = s.tiles ∧
        u.mem = s.mem) ∧
    (portUp s = false ∨ rootLocked s = false ∨ s.pow.tripHold = true → exec .stageS2 s = .next s) ∧
    (∀ ok, s.boot.busy = some 3 → railsOk s 3 = true → stageRoot s 3 = true →
      ((if onWarm s then some s else loadFirmware s 1 1 ok) = none → ∀ t l, exec (.stageS3 ok t l) s = .next (slotFallback s)) ∧
      ((if onWarm s then some s else loadFirmware s 1 1 ok) = some v →
        (∀ l, exec (.stageS3 ok false l) s = .next (failStage v 3 0x31)) ∧
        (stripeLost s = false → ∃ u, exec (.stageS3 ok true []) s = .next u ∧ u.boot.stage = 3 ∧ u.mem.data = [] ∧
          u.mem.poison = [] ∧ u.mem.retired = s.mem.retired ∧ u.tiles = s.tiles))) ∧
    (∀ ok, s.boot.busy = some 4 → railsOk s 4 = true → stageRoot s 4 = true → s.boot.s4Done = false →
      (loadContent s 1 4 ok = none → ∀ l k, exec (.stageS4 ok l k) s = .next (failStage s 4 0x40)) ∧
      (anyStorm s = false → (loadContent s 1 4 ok).isSome = true →
        (∀ e ∈ s.gleaner.phys, e.2.fence ≠ .probation ∧ e.2.fence ≠ .marginal) →
        ∃ u, exec (.stageS4 ok [] []) s = .next u ∧ u.boot.stage = 4 ∧ u.gleaner.phys = s.gleaner.phys ∧ u.tiles = s.tiles ∧
          u.mem = s.mem)) ∧
    (∀ ok, s.boot.busy = some 5 → railsOk s 5 = true →
      ((if onWarm s then loadContent s 1 4 ok else some s) = none → exec (.stageS5 ok) s = .next (failStage s 5 0x40)) ∧
      ((if onWarm s then loadContent s 1 4 ok else some s) = some v →
        (gazCurrent v = none → exec (.stageS5 ok) s = .next (failStage v 5 0x50)) ∧
        (∀ g, gazCurrent v = some g → exec (.stageS5 ok) s = .next (buildGrid v g)))) ∧
    (∀ ok kaOk, s.boot.busy = some 7 → railsOk s 7 = true → stageRoot s 7 = true →
      ((if onWarm s then some s else loadFirmware s 2 3 ok) = none → ∀ g l k, exec (.stageS7 ok kaOk g l k) s = .next (slotFallback s)) ∧
      ((if onWarm s then some s else loadFirmware s 2 3 ok) = some v →
        (loadContent v 2 5 kaOk = none → ∀ g l k, exec (.stageS7 ok kaOk g l k) s = .next (failStage v 7 0x72)) ∧
        (∀ w, loadContent v 2 5 kaOk = some w → (∀ l k, exec (.stageS7 ok kaOk false l k) s = .next (failStage w 7 0x70)) ∧
          ∃ u, exec (.stageS7 ok kaOk true [] []) s = .next u ∧ u.boot.stage = 7 ∧ u.mem = s.mem ∧
            ∀ k, (u.tile k).bin.data = [] ∧ (u.tile k).mx = {} ∧ (u.tile k).dma = {}))) ∧
    (s.boot.busy = some 8 → stageRoot s 8 = true →
      (linksReady s = true ∨ s.boot.stageAt + 10000000 ≤ now s → exec .stageS8 s = .next (endStage s 8)) ∧
      (linksReady s = false → now s < s.boot.stageAt + 10000000 → exec .stageS8 s = .next s)) ∧
    (s.boot.busy = some 9 → exec .stageS9 s = .next (endStage s 9))

/-- R491 to R494: S6 places the tile image in the first 256 MiB and begins round 0 of the broadcast over bins filled with
zeros; a tile's report is noted with the chunks that the tile has written, and with the last one of a round in which every
region is verified the stage completes; a repair round starts for the tiles whose report is not zero; and 1 ms after the
start of a round a silent tile counts as one to repair, or the broadcast ends. -/
def Sys2Proof.Claims.FirmwareBroadcast : Prop :=
  ∀ (s v : State) (p n a : Nat) (r : BitVec 18),
    (∀ ok, s.boot.busy = some 6 → s.fw.round = none →
      ((if onWarm s then some s else loadFirmware s 3 2 ok) = none → exec (.stageS6 ok) s = .next (slotFallback s)) ∧
      ((if onWarm s then some s else loadFirmware s 3 2 ok) = some v → a = 64 * ((Config.freeWord v.draw.1).toNat % (2 ^ 22 - 66)) →
        ∃ u, exec (.stageS6 ok) s = .next u ∧ u.fw.round = some 0 ∧ u.fw.roundAt = now s ∧ (∀ q, (u.phys q).fwReport = none) ∧
          (∀ b, b < a ∨ a + 4224 ≤ b → cellGet u.mem.data b = cellGet s.mem.data b) ∧
          (stripeLost s = false → cellRead u.mem.data a 4096 =
            (List.range 16).flatMap fun c => toLE 256 (fwChunk v (c + 1)).toNat) ∧
          ∀ k, (u.tile k).bin.data = [])) ∧
    (s.fw.round = some n → s.boot.busy = some 6 →
      (p < 6000 → goodTile s p = true → (s.phys p).fwReport = none → reportForm r = true →
        ((∃ q, q ∈ silentTiles s ∧ q ≠ p) → ∃ u, exec (.tileFwReport p r) s = .next u ∧ u.fw = s.fw ∧ u.tiles = s.tiles ∧
          u.mem = s.mem ∧ (u.phys p).fwReport = some r ∧ (∀ q, q ≠ p → u.phys q = s.phys q) ∧
          ∀ c, mget (u.phys p).imem 0 c =
            if 1 ≤ c ∧ c ≤ 16 ∧ r.getLsbD c = false then fwChunk s c else mget (s.phys p).imem 0 c) ∧
        (r = 0 → silentTiles s = [p] → badReports s = [p] →
          ∃ u, exec (.tileFwReport p r) s = .next u ∧ u.fw.round = none ∧ u.boot.stage = 6)) ∧
      (reportForm r = false → exec (.tileFwReport p r) s = .next s) ∧
      (n < 3 → silentTiles s = [] → badReports s ≠ [] → ∃ u, exec .fwBroadcastRound s = .next u ∧ u.fw.round = some (n + 1) ∧
        u.fw.roundAt = now s ∧ (∀ q ∈ badReports s, (u.phys q).fwReport = none) ∧ u.tiles = s.tiles ∧ u.mem = s.mem) ∧
      (s.fw.roundAt + 1000 ≤ now s →
        (n < 3 → silentTiles s = [p] → ∃ u, exec .fwRoundTimeout s = .next u ∧ u.fw.round = some (n + 1) ∧
          (u.phys p).fwReport = none ∧ u.tiles = s.tiles ∧ u.mem = s.mem) ∧
        (n = 3 → ∃ u, exec .fwRoundTimeout s = .next u ∧ u.fw.round = none ∧ u.boot.stage = 6)) ∧
      (now s < s.fw.roundAt + 1000 → exec .fwRoundTimeout s = .next s))

/-- Bring-up runs its stages in order under ADVANCE, HOLD and RETRY, and the broadcast runs in rounds. The model's readings
of what the rules leave open here: log entries 7, 69, 70 and 71. -/
def Obligations.Bringup : Prop :=
  Claims.BringupControl ∧ Claims.BringupStages ∧ Claims.FirmwareBroadcast

/-- R486, R488, R490, R500: PROGRAM empties the idle slot and takes its source; a slot that is written is read back, and a
verified one holds the new images and is preferred, a trial slot of the firmware; CONFIRM makes the trial slot valid and
preferred, PREFER_OTHER moves the preference to a valid slot; and in ROM recovery a steward image that passes becomes a
trial image of slot A and the module restarts. -/
def Sys2Proof.Claims.FirmwareSlots : Prop :=
  ∀ (s v : State) (m : MsgHdr) (w : DWord) (n : Nat), v = returnUnits (nextSeq s) (.write 0 0 0 [0] []) → Heard s m →
    (inRecovery s = false → w.toNat / 2 ^ 60 = 1 → bits w.toNat 42 6 = 0 → bits w.toNat 58 2 < 3 →
      bits w.toNat 0 42 % 65536 = 0 → bits w.toNat 0 42 + 65536 * bits w.toNat 48 10 ≤ memCap s → 0 < bits w.toNat 48 10 →
      bits w.toNat 48 10 ≤ slotUnits (bits w.toNat 58 2) → 3 ≤ s.boot.stage → s.fw.progState = 0 →
      ∃ u, exec (.fwProgram m w) s = .next (answered u m 0x6120 1) ∧ u.fw.progState = 1 ∧
        u.fw.progRegion.toNat = bits w.toNat 58 2 ∧ u.fw.progSrc.toNat = bits w.toNat 0 42 ∧
        slotState u (bits w.toNat 58 2) (idleSlot s (bits w.toNat 58 2)) = 0 ∧ u.tiles = s.tiles ∧ u.mem = s.mem) ∧
    (s.fw.progState = 1 → exec (.fwProgramComplete none) s = .next { s with fw := { s.fw with progState := 2 } }) ∧
    (s.fw.progState ≠ 0 → ∀ l, s.fw.progImages = some l → s.fw.progRegion.toNat < 3 →
      (∃ u, exec (.fwProgramComplete (some true)) s = .next u ∧ u.fw.progState = 0 ∧ u.fw.progResult = 0 ∧
        slotState u s.fw.progRegion.toNat s.fw.progSlot.toNat = (if s.fw.progRegion = 0 then 2 else 1) ∧
        slotPref u s.fw.progRegion.toNat = s.fw.progSlot.toNat ∧ (s.fw.progRegion = 0 → u.fw.trialBoots = 0) ∧
        u.tiles = s.tiles ∧ u.mem = s.mem) ∧
      ∃ u, exec (.fwProgramComplete (some false)) s = .next u ∧ u.fw.progState = 0 ∧ u.fw.progResult = 0x12 ∧
        u.fw.stA = s.fw.stA ∧ u.fw.stB = s.fw.stB ∧ u.fw.pref = s.fw.pref) ∧
    (s.fw.progState ≠ 0 → s.fw.progImages = none → ∃ u, exec (.fwProgramComplete (some true)) s = .next u ∧ u.fw.progState = 0 ∧
      u.fw.progResult = 0x11 ∧ u.fw.stA = s.fw.stA ∧ u.fw.stB = s.fw.stB ∧ u.fw.pref = s.fw.pref) ∧
    (inRecovery s = false → s.boot.stage = 9 → s.fw.trial = true →
      ∃ u, exec (.fwConfirm m 0x2000000000000000) s = .next (answered u m 0x6120 1) ∧ slotState u 0 s.fw.booted.toNat = 1 ∧
        slotPref u 0 = s.fw.booted.toNat ∧ u.fw.trial = false ∧ u.tiles = s.tiles ∧ u.mem = s.mem) ∧
    (inRecovery s = false → s.boot.stage ≠ 9 ∨ s.fw.trial = false → exec (.fwConfirm m 0x2000000000000000) s =
      .next (refusedMsg v m (.write 0x6120 1 0 [] []) 8 0)) ∧
    (inRecovery s = false → n < 3 →
      (slotState s n (1 - slotPref s n) = 1 →
        ∃ u, exec (.fwPreferOther m (BitVec.ofNat 64 (3 * 2 ^ 60 + n * 2 ^ 58))) s = .next (answered u m 0x6120 1) ∧
          slotPref u n = 1 - slotPref s n ∧ u.tiles = s.tiles ∧ u.mem = s.mem) ∧
      (slotState s n (1 - slotPref s n) ≠ 1 → exec (.fwPreferOther m (BitVec.ofNat 64 (3 * 2 ^ 60 + n * 2 ^ 58))) s =
        .next (refusedMsg v m (.write 0x6120 1 0 [] []) 8 0))) ∧
    (∀ (data b : List Byte) (off : Word) i, inRecovery s = true → data.length < 4096 →
      off.toNat = ((mfind s.dict.partial_ (odKey 0x6121 1)).getD []).length →
      b = (mfind s.dict.partial_ (odKey 0x6121 1)).getD [] ++ data → b.length ≤ 16777216 →
      imageAt s (fun o n => (b.drop o).take n) b.length 0 1 = some i →
      ∃ u, exec (.fwRecoveryImage m off data) s = .next u ∧ slotState u 0 0 = 2 ∧ slotPref u 0 = 0 ∧
        slotImage u 0 0 0 = some i ∧ u.fw.trialBoots = 0 ∧ u.boot.busy = some 1 ∧ u.boot.path = 0)

/-- R41, R497, R498, R501: a known-answer measurement starts at S9 with no context live, and no other one running; it ends
with its figure, valid where no condition of INVALID was met, and otherwise flagged and without it; and one that is
cancelled is not valid. -/
def Sys2Proof.Claims.KnownAnswer : Prop :=
  ∀ (s v : State) (m : MsgHdr) (w : Nat) (val : Word) (inv : BitVec 7) (links : List Nat),
    v = returnUnits (nextSeq s) (.write 0 0 0 [0] []) →
    (Heard s m → inRecovery s = false → w < 6 →
      (s.boot.stage = 9 → s.boot.state.toNat ≤ 1 → s.ctxs = [] → s.ka.running = none →
        ∃ u, exec (.kaMeasureStart m (BitVec.ofNat 32 (2 ^ 28 + w * 2 ^ 24))) s = .next (answered u m 0x6111 1) ∧
          u.ka.running = some w ∧ mget u.ka.state 0 w = 1 ∧ mget u.ka.value 0 w = 0 ∧ mget u.ka.invalid 0 w = kaViolated s w ∧
          u.tiles = s.tiles ∧ u.mem = s.mem) ∧
      (s.boot.stage ≠ 9 ∨ s.ctxs ≠ [] ∨ s.ka.running ≠ none ∨ 1 < s.boot.state.toNat →
        exec (.kaMeasureStart m (BitVec.ofNat 32 (2 ^ 28 + w * 2 ^ 24))) s = .next (refusedMsg v m (.write 0x6111 1 0 [] []) 8 0))) ∧
    (s.ka.running = some w →
      (Heard s m → inRecovery s = false →
        ∃ u, exec (.kaMeasureCancel m 0x20000000) s = .next (answered u m 0x6111 1) ∧ u.ka.running = none ∧
          mget u.ka.state 0 w = 3 ∧ mget u.ka.value 0 w = 0 ∧ (mget u.ka.invalid 0 w).getLsbD 6 = true ∧ u.tiles = s.tiles ∧ u.mem = s.mem) ∧
      ∃ u, exec (.kaWorkloadComplete val inv links) s = .next u ∧ u.ka.running = none ∧
        mget u.ka.invalid 0 w = mget s.ka.invalid 0 w ||| kaViolated s w ||| (inv ||| kaLinks (kaWatch s) w links) ∧
        (mget u.ka.state 0 w = 2 ↔ mget u.ka.invalid 0 w = 0) ∧
        mget u.ka.value 0 w = (if mget u.ka.invalid 0 w = 0 then val else 0) ∧ u.tiles = s.tiles ∧ u.mem = s.mem)

/-- Firmware slots are programmed, confirmed and preferred, and known-answer runs end with a figure and its validity. The
model's readings of what the rules leave open here: log entries 72, 73 and 74. -/
def Obligations.FirmwareAndKnownAnswer : Prop :=
  Claims.FirmwareSlots ∧ Claims.KnownAnswer

/-- R505, R508 to R516: the last piece of a token that meets every condition takes effect, extends MR7 and consumes the
nonce: it opens debug levels, installs a key, or revokes one; any other whole token is refused, counted, and consumes the
nonce too; a rollback commit raises the counters of its region to the running images and never lowers one; and DEBUG_LOCK
closes every level. -/
def Sys2Proof.Claims.TokensAndCounters : Prop :=
  ∀ (s v : State) (m : MsgHdr) (off : Word) (data b : List Byte) (t : Token),
    v = returnUnits (nextSeq s) (.write 0 0 0 [0] []) → inRecovery s = false →
    (Heard s m → b = (mfind s.dict.partial_ (odKey 0x5010 2)).getD [] ++ data →
      off.toNat = ((mfind s.dict.partial_ (odKey 0x5010 2)).getD []).length → data.length ≤ 4096 → b.length = 7952 →
      t = Token.ofBytes b →
      (tokenAccepted s t b = true →
        ∀ r ∈ ([(Instr.tokenDebugUnlock m off data, 1), (Instr.tokenKeyInstall m off data, 2),
            (Instr.tokenKeyRevoke m off data, 3)] : List (Instr × Nat)), t.op = r.2 →
          ∃ u, exec r.1 s = .next u ∧ u.sec.nonce = none ∧
            mget u.sec.mr 0 7 = mget (extendMr s 7 (mrEntry (0x0200 + t.op) t.signer 0 (shaNum b))).sec.mr 0 7 ∧
            (t.op = 1 → u.sec.debugOn = true ∧ u.sec.debugMask = s.sec.debugMask ||| BitVec.ofNat 3 t.arg) ∧
            (t.op = 2 → (keySlot u t.arg).key = BitVec.ofNat 256 t.key ∧ keyState (keySlot u t.arg) = 1) ∧
            (t.op = 3 → (keySlot u t.arg).revoked = true) ∧ u.tiles = s.tiles ∧ u.mem = s.mem) ∧
      (tokenAccepted s t b = false → ∀ i ∈ [Instr.tokenDebugUnlock m off data, .tokenKeyInstall m off data, .tokenKeyRevoke m off data],
        ∃ u, exec i s = .next u ∧ u.sec.nonce = none ∧
        u.sec.refused = satAdd s.sec.refused 1 (2 ^ 32 - 1) ∧ u.sec.keys = s.sec.keys ∧ u.sec.debugOn = s.sec.debugOn ∧
        u.tiles = s.tiles ∧ u.mem = s.mem)) ∧
    (validNonce s = none → exec .secNonceExpiry s = .next { s with sec := { s.sec with nonce := none } }) ∧
    (validNonce s ≠ none → exec .secNonceExpiry s = .next s) ∧
    (∀ n, n < 3 → Heard s m →
      (s.boot.stage = 9 → (n = 0 → s.fw.trial = false) → s.sec.commit = none →
        exec (.rollbackCommit m (BitVec.ofNat 32 (2 ^ 28 + n * 2 ^ 26))) s =
          .next (answered { v with sec := { v.sec with commit := some (BitVec.ofNat 2 n) } } m 0x5011 1)) ∧
      (s.boot.stage ≠ 9 ∨ n = 0 ∧ s.fw.trial = true ∨ s.sec.commit ≠ none →
        exec (.rollbackCommit m (BitVec.ofNat 32 (2 ^ 28 + n * 2 ^ 26))) s = .next (refusedMsg v m (.write 0x5011 1 0 [] []) 8 0))) ∧
    (∀ r, s.sec.commit = some r → ∃ u, exec .rollbackCommitted s = .next u ∧ u.sec.commit = none ∧
      (∀ k, mget s.sec.counters 0 k ≤ mget u.sec.counters 0 k) ∧
      (∀ k ∈ regionKinds r.toNat, mget u.sec.counters 0 k = commitValue s k) ∧ u.tiles = s.tiles ∧ u.mem = s.mem) ∧
    (Heard s m → exec (.debugLock m 0x20000000) s = .next (answered (debugClosed v) m 0x5011 1))

/-- R512 to R514: at level TILE the debug port halts every tile of a context or lets them go on, marks its step where it
halts or writes, and writes of a tile change that tile, and of a free tile it alone; without the level it does nothing; and
a report is signed over the module's identity, its flags, the nonce, its measurement registers and its counters, and is then
readable. -/
def Sys2Proof.Claims.DebugAndAttestation : Prop :=
  ∀ (s : State) (m : MsgHdr) (p : Coord) (data : List Byte),
    (s.sec.debugOn = true → s.sec.debugMask.getLsbD 1 = true → portUp s = true →
      (∀ c x halt wr, InCtx s p c x → s.ctx c = some x → (x.tally.faults.all fun f => f.kind != 0x42) = true →
        x.tally.faults.length < 64 →
        ∃ u, exec (.debugTileAccess p halt wr) s = .next u ∧ (∀ k ∈ x.cdef.keys, k ≠ ckey p → (u.tile k).core.halted = halt) ∧
          (∀ w, wr = some w → u.tile (ckey p) =
            debugPut { s.tile (ckey p) with core := { (s.tile (ckey p)).core with halted := halt } } w) ∧
          (wr = none → u.tile (ckey p) = { s.tile (ckey p) with core := { (s.tile (ckey p)).core with halted := halt } }) ∧
          (halt = true ∨ wr ≠ none → ∃ y e, u.ctx c = some y ∧ y.tally.faults = x.tally.faults ++ [e] ∧ e.kind = 0x42) ∧ u.mem = s.mem) ∧
      (∀ halt w, ctxAt s p = none → exec (.debugTileAccess p halt (some w)) s =
        .next (debugFirmware (s.modTile (ckey p) fun t => debugPut t w) (ckey p) w)) ∧
      (∀ r d, ctxAt s p = none → exec (.debugTileAccess p false (some (.sreg r d))) s =
        .next (s.modTile (ckey p) fun t => { t with core := t.core.setS r d }))) ∧
    (s.sec.debugOn = false ∨ s.sec.debugMask.getLsbD 1 = false ∨ portUp s = false → ∀ halt wr,
      exec (.debugTileAccess p halt wr) s = .next s) ∧
    (Heard s m → inRecovery s = false → mfind s.dict.partial_ (odKey 0x5020 1) = none → data.length = 32 →
      s.sec.signing = none → s.sec.otpFault = false →
      ∃ u h, exec (.attestRequest m 0 data) s = .next (answered u m 0x5020 1) ∧ u.sec.signing = some h ∧ u.sec.report = [] ∧
        h = reportHead s data ∧ u.tiles = s.tiles ∧ u.mem = s.mem) ∧
    (∀ h, s.sec.signing = some h → ∃ u, exec .attestSignComplete s = .next u ∧ u.sec.signing = none ∧
      u.sec.report.take h.length = h ∧ u.sec.report.length = h.length + 17088 ∧ u.tiles = s.tiles ∧ u.mem = s.mem)

/-- Tokens take effect once and consume the nonce, rollback counters never fall, and reports sign the measurements. The
model's readings of what the rules leave open here: log entries 17 and 77. -/
def Obligations.TokensAndAttestation : Prop :=
  Claims.TokensAndCounters ∧ Claims.DebugAndAttestation

/-! ### The machine as a whole -/

/-- Every command has a meaning that goes on: it answers a next state from every state, one whose condition does not hold
the same state. The model's readings of what the rules leave open here: log entry 5. -/
def Obligations.EveryCommandGoesOn : Prop :=
  ∀ (c : Instr) (s : State), ∃ t, exec c s = .next t

/-- R261: every step keeps local memory in its canonical form: offsets rising, and no byte listed that an unlisted offset
reads as. -/
def Obligations.CanonicalKept : Prop :=
  ∀ s t : State, s.Canonical → step s = .next t → t.Canonical

/-- R436: every step keeps the throttle divider of every quarter on a value of the ladder. -/
def Obligations.LadderKept : Prop :=
  ∀ s t : State, (∀ q, (s.quarter q).k ∈ ladder) → step s = .next t → ∀ q, (t.quarter q).k ∈ ladder

/-- R6, R261, R359, R434, R441, R473, R477, R486, R503: what the module holds before power is first applied: no context,
tile or memory content, the coast oscillator as the source, a valid first copy of the gazetteer and of the configuration
sets with every entry at its default, slot A of each region valid and preferred, and key slot 0 active. -/
def Sys2Proof.Claims.ResetState : Prop :=
  ∀ s : State, s = State.reset →
    s.ctxs = [] ∧ s.tiles = [] ∧ s.mem.data = [] ∧ s.pending = [] ∧ s.pow.dark = true ∧ s.clk.source = .coast ∧
    s.boot.target = 2 ∧ (∃ g, gazCurrent s = some g) ∧ s.dict.copy0.valid = true ∧
    (∀ idx sub, cfgActive s idx sub = odDefault (odKey idx sub) ∧ cfgInForce s idx sub = odDefault (odKey idx sub)) ∧
    (∀ r, r < 3 → slotState s r 0 = 1 ∧ slotPref s r = 0) ∧ keyState (keySlot s 0) = 1 ∧ keyState (keySlot s 1) = 0 ∧
    s.events.next = 0 ∧ s.mer.msgSeq = 0 ∧ s.sec.debugOn = false

/-- Local memory is canonical before power is first applied. -/
def Sys2Proof.Claims.ResetCanonical : Prop := State.reset.Canonical

/-- What the module holds before power is first applied. The shipped contents of flash and fuses are those of log entry 4. -/
def Obligations.ResetState : Prop :=
  Claims.ResetState ∧ Claims.ResetCanonical
end

