-- ==== Sys2Proof/Laws/Map.lean ====
section
/-! SUPPORT. What the operations on sparse tables do: a read after a write gives the value written, a write leaves every other
key alone, and a second write at a key replaces the first. -/

namespace Sys2Proof.Machine

variable {α : Type}

theorem mget_mput (m : AMap α) (d v : α) (k j : Nat) : mget (mput m k v) d j = if j = k then v else mget m d j := by
  induction m with
  | nil => simp only [mput, mget, eq_comm]
  | cons p t ih =>
    obtain ⟨a, w⟩ := p
    simp only [mput]
    split
    · simp only [mget, eq_comm]
    · split
      · subst_vars; simp only [mget, eq_comm]; split <;> simp_all
      · simp only [mget, ih]; split
        · subst_vars; simp_all [eq_comm]
        · rfl

@[simp] theorem mget_mput_self (m : AMap α) (d v : α) (k : Nat) : mget (mput m k v) d k = v := by simp [mget_mput]

theorem mget_mput_ne (m : AMap α) (d v : α) (k j : Nat) (h : j ≠ k) : mget (mput m k v) d j = mget m d j := by
  simp [mget_mput, h]

theorem mfind_mput (m : AMap α) (v : α) (k j : Nat) : mfind (mput m k v) j = if j = k then some v else mfind m j := by
  induction m with
  | nil => simp only [mput, mfind, eq_comm]
  | cons p t ih =>
    obtain ⟨a, w⟩ := p
    simp only [mput]
    split
    · simp only [mfind, eq_comm]
    · split
      · subst_vars; simp only [mfind, eq_comm]; split <;> simp_all
      · simp only [mfind, ih]; split
        · subst_vars; simp_all [eq_comm]
        · rfl

@[simp] theorem mfind_mput_self (m : AMap α) (v : α) (k : Nat) : mfind (mput m k v) k = some v := by simp [mfind_mput]

@[simp] theorem mput_mput (m : AMap α) (v w : α) (k : Nat) : mput (mput m k v) k w = mput m k w := by
  induction m with
  | nil => simp [mput]
  | cons p t ih =>
    obtain ⟨a, x⟩ := p
    simp only [mput]
    split
    · simp [mput]
    · split
      · simp [mput]
      · simp only [mput, ih]; simp_all

theorem mget_mdel (m : AMap α) (d : α) (k j : Nat) : mget (mdel m k) d j = if j = k then d else mget m d j := by
  induction m with
  | nil => simp [mdel, mget]
  | cons p t ih =>
    obtain ⟨a, w⟩ := p
    simp only [mdel]
    split
    · subst_vars; rw [ih]; simp only [mget]; by_cases h : j = a
      · simp [h]
      · simp [h, Ne.symm h]
    · simp only [mget, ih]; by_cases h : a = j
      · subst_vars; simp_all
      · simp [h]

theorem mfind_mdel (m : AMap α) (k j : Nat) : mfind (mdel m k) j = if j = k then none else mfind m j := by
  induction m with
  | nil => simp [mdel, mfind]
  | cons p t ih =>
    obtain ⟨a, w⟩ := p
    simp only [mdel]
    split
    · subst_vars; rw [ih]; simp only [mfind]; by_cases h : j = a
      · simp [h]
      · simp [h, Ne.symm h]
    · simp only [mfind, ih]; by_cases h : a = j
      · subst_vars; simp_all
      · simp [h]

theorem mget_mset [DecidableEq α] (m : AMap α) (d v : α) (k j : Nat) :
    mget (mset m d k v) d j = if j = k then v else mget m d j := by
  unfold mset
  split
  · subst_vars; exact mget_mdel m v k j
  · exact mget_mput m d v k j

@[simp] theorem mget_mset_self [DecidableEq α] (m : AMap α) (d v : α) (k : Nat) : mget (mset m d k v) d k = v := by
  simp [mget_mset]

/-- What a table holds where it is asked with a default is what it lists. -/
theorem mget_eq_mfind (m : AMap α) (d : α) (k : Nat) : mget m d k = (mfind m k).getD d := by
  induction m with
  | nil => rfl
  | cons p t ih => obtain ⟨a, w⟩ := p; simp only [mget, mfind, ih]; split <;> rfl

end Sys2Proof.Machine
end

