-- ==== Sys2Proof/Laws/State.lean ====
section
/-! SUPPORT. One lemma for each field and each update of the state: what the update leaves unchanged, and what it writes. -/

namespace Sys2Proof.Machine

variable (s : State)

@[simp] theorem State.setTile_pending (k : Nat) (t : Tile) : (s.setTile k t).pending = s.pending := rfl
@[simp] theorem State.setTile_mesh (k : Nat) (t : Tile) : (s.setTile k t).mesh = s.mesh := rfl
@[simp] theorem State.setTile_mem (k : Nat) (t : Tile) : (s.setTile k t).mem = s.mem := rfl
@[simp] theorem State.setTile_hall (k : Nat) (t : Tile) : (s.setTile k t).hall = s.hall := rfl
@[simp] theorem State.setTile_ctxs (k : Nat) (t : Tile) : (s.setTile k t).ctxs = s.ctxs := rfl
@[simp] theorem State.setTile_epochs (k : Nat) (t : Tile) : (s.setTile k t).epochs = s.epochs := rfl
@[simp] theorem State.setTile_epochAt (k : Nat) (t : Tile) : (s.setTile k t).epochAt = s.epochAt := rfl
@[simp] theorem State.setTile_excRec (k : Nat) (t : Tile) : (s.setTile k t).excRec = s.excRec := rfl
@[simp] theorem State.setTile_hangRec (k : Nat) (t : Tile) : (s.setTile k t).hangRec = s.hangRec := rfl
@[simp] theorem State.setTile_gleaner (k : Nat) (t : Tile) : (s.setTile k t).gleaner = s.gleaner := rfl
@[simp] theorem State.setTile_counts (k : Nat) (t : Tile) : (s.setTile k t).counts = s.counts := rfl
@[simp] theorem State.setTile_events (k : Nat) (t : Tile) : (s.setTile k t).events = s.events := rfl
@[simp] theorem State.setTile_mer (k : Nat) (t : Tile) : (s.setTile k t).mer = s.mer := rfl
@[simp] theorem State.setTile_dict (k : Nat) (t : Tile) : (s.setTile k t).dict = s.dict := rfl
@[simp] theorem State.setTile_field (k : Nat) (t : Tile) : (s.setTile k t).field = s.field := rfl
@[simp] theorem State.setTile_clk (k : Nat) (t : Tile) : (s.setTile k t).clk = s.clk := rfl
@[simp] theorem State.setTile_pow (k : Nat) (t : Tile) : (s.setTile k t).pow = s.pow := rfl
@[simp] theorem State.setTile_fw (k : Nat) (t : Tile) : (s.setTile k t).fw = s.fw := rfl
@[simp] theorem State.setTile_boot (k : Nat) (t : Tile) : (s.setTile k t).boot = s.boot := rfl
@[simp] theorem State.setTile_ka (k : Nat) (t : Tile) : (s.setTile k t).ka = s.ka := rfl
@[simp] theorem State.setTile_sec (k : Nat) (t : Tile) : (s.setTile k t).sec = s.sec := rfl
@[simp] theorem State.setTile_factory (k : Nat) (t : Tile) : (s.setTile k t).factory = s.factory := rfl
@[simp] theorem State.setTile_draws (k : Nat) (t : Tile) : (s.setTile k t).draws = s.draws := rfl

@[simp] theorem State.modTile_pending (k : Nat) (f : Tile → Tile) : (s.modTile k f).pending = s.pending := rfl
@[simp] theorem State.modTile_mesh (k : Nat) (f : Tile → Tile) : (s.modTile k f).mesh = s.mesh := rfl
@[simp] theorem State.modTile_mem (k : Nat) (f : Tile → Tile) : (s.modTile k f).mem = s.mem := rfl
@[simp] theorem State.modTile_hall (k : Nat) (f : Tile → Tile) : (s.modTile k f).hall = s.hall := rfl
@[simp] theorem State.modTile_ctxs (k : Nat) (f : Tile → Tile) : (s.modTile k f).ctxs = s.ctxs := rfl
@[simp] theorem State.modTile_epochs (k : Nat) (f : Tile → Tile) : (s.modTile k f).epochs = s.epochs := rfl
@[simp] theorem State.modTile_epochAt (k : Nat) (f : Tile → Tile) : (s.modTile k f).epochAt = s.epochAt := rfl
@[simp] theorem State.modTile_excRec (k : Nat) (f : Tile → Tile) : (s.modTile k f).excRec = s.excRec := rfl
@[simp] theorem State.modTile_hangRec (k : Nat) (f : Tile → Tile) : (s.modTile k f).hangRec = s.hangRec := rfl
@[simp] theorem State.modTile_gleaner (k : Nat) (f : Tile → Tile) : (s.modTile k f).gleaner = s.gleaner := rfl
@[simp] theorem State.modTile_counts (k : Nat) (f : Tile → Tile) : (s.modTile k f).counts = s.counts := rfl
@[simp] theorem State.modTile_events (k : Nat) (f : Tile → Tile) : (s.modTile k f).events = s.events := rfl
@[simp] theorem State.modTile_mer (k : Nat) (f : Tile → Tile) : (s.modTile k f).mer = s.mer := rfl
@[simp] theorem State.modTile_dict (k : Nat) (f : Tile → Tile) : (s.modTile k f).dict = s.dict := rfl
@[simp] theorem State.modTile_field (k : Nat) (f : Tile → Tile) : (s.modTile k f).field = s.field := rfl
@[simp] theorem State.modTile_clk (k : Nat) (f : Tile → Tile) : (s.modTile k f).clk = s.clk := rfl
@[simp] theorem State.modTile_pow (k : Nat) (f : Tile → Tile) : (s.modTile k f).pow = s.pow := rfl
@[simp] theorem State.modTile_fw (k : Nat) (f : Tile → Tile) : (s.modTile k f).fw = s.fw := rfl
@[simp] theorem State.modTile_boot (k : Nat) (f : Tile → Tile) : (s.modTile k f).boot = s.boot := rfl
@[simp] theorem State.modTile_ka (k : Nat) (f : Tile → Tile) : (s.modTile k f).ka = s.ka := rfl
@[simp] theorem State.modTile_sec (k : Nat) (f : Tile → Tile) : (s.modTile k f).sec = s.sec := rfl
@[simp] theorem State.modTile_factory (k : Nat) (f : Tile → Tile) : (s.modTile k f).factory = s.factory := rfl
@[simp] theorem State.modTile_draws (k : Nat) (f : Tile → Tile) : (s.modTile k f).draws = s.draws := rfl

@[simp] theorem State.setCtx_pending (c : Nat) (x : Ctx) : (s.setCtx c x).pending = s.pending := rfl
@[simp] theorem State.setCtx_tiles (c : Nat) (x : Ctx) : (s.setCtx c x).tiles = s.tiles := rfl
@[simp] theorem State.setCtx_mesh (c : Nat) (x : Ctx) : (s.setCtx c x).mesh = s.mesh := rfl
@[simp] theorem State.setCtx_mem (c : Nat) (x : Ctx) : (s.setCtx c x).mem = s.mem := rfl
@[simp] theorem State.setCtx_hall (c : Nat) (x : Ctx) : (s.setCtx c x).hall = s.hall := rfl
@[simp] theorem State.setCtx_epochs (c : Nat) (x : Ctx) : (s.setCtx c x).epochs = s.epochs := rfl
@[simp] theorem State.setCtx_epochAt (c : Nat) (x : Ctx) : (s.setCtx c x).epochAt = s.epochAt := rfl
@[simp] theorem State.setCtx_excRec (c : Nat) (x : Ctx) : (s.setCtx c x).excRec = s.excRec := rfl
@[simp] theorem State.setCtx_hangRec (c : Nat) (x : Ctx) : (s.setCtx c x).hangRec = s.hangRec := rfl
@[simp] theorem State.setCtx_gleaner (c : Nat) (x : Ctx) : (s.setCtx c x).gleaner = s.gleaner := rfl
@[simp] theorem State.setCtx_counts (c : Nat) (x : Ctx) : (s.setCtx c x).counts = s.counts := rfl
@[simp] theorem State.setCtx_events (c : Nat) (x : Ctx) : (s.setCtx c x).events = s.events := rfl
@[simp] theorem State.setCtx_mer (c : Nat) (x : Ctx) : (s.setCtx c x).mer = s.mer := rfl
@[simp] theorem State.setCtx_dict (c : Nat) (x : Ctx) : (s.setCtx c x).dict = s.dict := rfl
@[simp] theorem State.setCtx_field (c : Nat) (x : Ctx) : (s.setCtx c x).field = s.field := rfl
@[simp] theorem State.setCtx_clk (c : Nat) (x : Ctx) : (s.setCtx c x).clk = s.clk := rfl
@[simp] theorem State.setCtx_pow (c : Nat) (x : Ctx) : (s.setCtx c x).pow = s.pow := rfl
@[simp] theorem State.setCtx_fw (c : Nat) (x : Ctx) : (s.setCtx c x).fw = s.fw := rfl
@[simp] theorem State.setCtx_boot (c : Nat) (x : Ctx) : (s.setCtx c x).boot = s.boot := rfl
@[simp] theorem State.setCtx_ka (c : Nat) (x : Ctx) : (s.setCtx c x).ka = s.ka := rfl
@[simp] theorem State.setCtx_sec (c : Nat) (x : Ctx) : (s.setCtx c x).sec = s.sec := rfl
@[simp] theorem State.setCtx_factory (c : Nat) (x : Ctx) : (s.setCtx c x).factory = s.factory := rfl
@[simp] theorem State.setCtx_draws (c : Nat) (x : Ctx) : (s.setCtx c x).draws = s.draws := rfl

@[simp] theorem State.count_pending (q : Nat) (f : QCounts → QCounts) : (s.count q f).pending = s.pending := rfl
@[simp] theorem State.count_tiles (q : Nat) (f : QCounts → QCounts) : (s.count q f).tiles = s.tiles := rfl
@[simp] theorem State.count_mesh (q : Nat) (f : QCounts → QCounts) : (s.count q f).mesh = s.mesh := rfl
@[simp] theorem State.count_mem (q : Nat) (f : QCounts → QCounts) : (s.count q f).mem = s.mem := rfl
@[simp] theorem State.count_hall (q : Nat) (f : QCounts → QCounts) : (s.count q f).hall = s.hall := rfl
@[simp] theorem State.count_ctxs (q : Nat) (f : QCounts → QCounts) : (s.count q f).ctxs = s.ctxs := rfl
@[simp] theorem State.count_epochs (q : Nat) (f : QCounts → QCounts) : (s.count q f).epochs = s.epochs := rfl
@[simp] theorem State.count_epochAt (q : Nat) (f : QCounts → QCounts) : (s.count q f).epochAt = s.epochAt := rfl
@[simp] theorem State.count_excRec (q : Nat) (f : QCounts → QCounts) : (s.count q f).excRec = s.excRec := rfl
@[simp] theorem State.count_hangRec (q : Nat) (f : QCounts → QCounts) : (s.count q f).hangRec = s.hangRec := rfl
@[simp] theorem State.count_gleaner (q : Nat) (f : QCounts → QCounts) : (s.count q f).gleaner = s.gleaner := rfl
@[simp] theorem State.count_events (q : Nat) (f : QCounts → QCounts) : (s.count q f).events = s.events := rfl
@[simp] theorem State.count_mer (q : Nat) (f : QCounts → QCounts) : (s.count q f).mer = s.mer := rfl
@[simp] theorem State.count_dict (q : Nat) (f : QCounts → QCounts) : (s.count q f).dict = s.dict := rfl
@[simp] theorem State.count_field (q : Nat) (f : QCounts → QCounts) : (s.count q f).field = s.field := rfl
@[simp] theorem State.count_clk (q : Nat) (f : QCounts → QCounts) : (s.count q f).clk = s.clk := rfl
@[simp] theorem State.count_pow (q : Nat) (f : QCounts → QCounts) : (s.count q f).pow = s.pow := rfl
@[simp] theorem State.count_fw (q : Nat) (f : QCounts → QCounts) : (s.count q f).fw = s.fw := rfl
@[simp] theorem State.count_boot (q : Nat) (f : QCounts → QCounts) : (s.count q f).boot = s.boot := rfl
@[simp] theorem State.count_ka (q : Nat) (f : QCounts → QCounts) : (s.count q f).ka = s.ka := rfl
@[simp] theorem State.count_sec (q : Nat) (f : QCounts → QCounts) : (s.count q f).sec = s.sec := rfl
@[simp] theorem State.count_factory (q : Nat) (f : QCounts → QCounts) : (s.count q f).factory = s.factory := rfl
@[simp] theorem State.count_draws (q : Nat) (f : QCounts → QCounts) : (s.count q f).draws = s.draws := rfl

@[simp] theorem State.draw_pending : s.draw.2.pending = s.pending := rfl
@[simp] theorem State.draw_tiles : s.draw.2.tiles = s.tiles := rfl
@[simp] theorem State.draw_mesh : s.draw.2.mesh = s.mesh := rfl
@[simp] theorem State.draw_mem : s.draw.2.mem = s.mem := rfl
@[simp] theorem State.draw_hall : s.draw.2.hall = s.hall := rfl
@[simp] theorem State.draw_ctxs : s.draw.2.ctxs = s.ctxs := rfl
@[simp] theorem State.draw_epochs : s.draw.2.epochs = s.epochs := rfl
@[simp] theorem State.draw_epochAt : s.draw.2.epochAt = s.epochAt := rfl
@[simp] theorem State.draw_excRec : s.draw.2.excRec = s.excRec := rfl
@[simp] theorem State.draw_hangRec : s.draw.2.hangRec = s.hangRec := rfl
@[simp] theorem State.draw_gleaner : s.draw.2.gleaner = s.gleaner := rfl
@[simp] theorem State.draw_counts : s.draw.2.counts = s.counts := rfl
@[simp] theorem State.draw_events : s.draw.2.events = s.events := rfl
@[simp] theorem State.draw_mer : s.draw.2.mer = s.mer := rfl
@[simp] theorem State.draw_dict : s.draw.2.dict = s.dict := rfl
@[simp] theorem State.draw_field : s.draw.2.field = s.field := rfl
@[simp] theorem State.draw_clk : s.draw.2.clk = s.clk := rfl
@[simp] theorem State.draw_pow : s.draw.2.pow = s.pow := rfl
@[simp] theorem State.draw_fw : s.draw.2.fw = s.fw := rfl
@[simp] theorem State.draw_boot : s.draw.2.boot = s.boot := rfl
@[simp] theorem State.draw_ka : s.draw.2.ka = s.ka := rfl
@[simp] theorem State.draw_sec : s.draw.2.sec = s.sec := rfl
@[simp] theorem State.draw_factory : s.draw.2.factory = s.factory := rfl

@[simp] theorem State.addFlit_pending (f : Flit) : (s.addFlit f).pending = s.pending := rfl
@[simp] theorem State.addFlit_tiles (f : Flit) : (s.addFlit f).tiles = s.tiles := rfl
@[simp] theorem State.addFlit_mem (f : Flit) : (s.addFlit f).mem = s.mem := rfl
@[simp] theorem State.addFlit_hall (f : Flit) : (s.addFlit f).hall = s.hall := rfl
@[simp] theorem State.addFlit_ctxs (f : Flit) : (s.addFlit f).ctxs = s.ctxs := rfl
@[simp] theorem State.addFlit_epochs (f : Flit) : (s.addFlit f).epochs = s.epochs := rfl
@[simp] theorem State.addFlit_epochAt (f : Flit) : (s.addFlit f).epochAt = s.epochAt := rfl
@[simp] theorem State.addFlit_excRec (f : Flit) : (s.addFlit f).excRec = s.excRec := rfl
@[simp] theorem State.addFlit_hangRec (f : Flit) : (s.addFlit f).hangRec = s.hangRec := rfl
@[simp] theorem State.addFlit_gleaner (f : Flit) : (s.addFlit f).gleaner = s.gleaner := rfl
@[simp] theorem State.addFlit_counts (f : Flit) : (s.addFlit f).counts = s.counts := rfl
@[simp] theorem State.addFlit_events (f : Flit) : (s.addFlit f).events = s.events := rfl
@[simp] theorem State.addFlit_mer (f : Flit) : (s.addFlit f).mer = s.mer := rfl
@[simp] theorem State.addFlit_dict (f : Flit) : (s.addFlit f).dict = s.dict := rfl
@[simp] theorem State.addFlit_field (f : Flit) : (s.addFlit f).field = s.field := rfl
@[simp] theorem State.addFlit_clk (f : Flit) : (s.addFlit f).clk = s.clk := rfl
@[simp] theorem State.addFlit_pow (f : Flit) : (s.addFlit f).pow = s.pow := rfl
@[simp] theorem State.addFlit_fw (f : Flit) : (s.addFlit f).fw = s.fw := rfl
@[simp] theorem State.addFlit_boot (f : Flit) : (s.addFlit f).boot = s.boot := rfl
@[simp] theorem State.addFlit_ka (f : Flit) : (s.addFlit f).ka = s.ka := rfl
@[simp] theorem State.addFlit_sec (f : Flit) : (s.addFlit f).sec = s.sec := rfl
@[simp] theorem State.addFlit_factory (f : Flit) : (s.addFlit f).factory = s.factory := rfl
@[simp] theorem State.addFlit_draws (f : Flit) : (s.addFlit f).draws = s.draws := rfl

@[simp] theorem State.send_pending (f : Flit) : (s.send f).pending = s.pending := rfl
@[simp] theorem State.send_tiles (f : Flit) : (s.send f).tiles = s.tiles := rfl
@[simp] theorem State.send_mem (f : Flit) : (s.send f).mem = s.mem := rfl
@[simp] theorem State.send_hall (f : Flit) : (s.send f).hall = s.hall := rfl
@[simp] theorem State.send_ctxs (f : Flit) : (s.send f).ctxs = s.ctxs := rfl
@[simp] theorem State.send_epochs (f : Flit) : (s.send f).epochs = s.epochs := rfl
@[simp] theorem State.send_epochAt (f : Flit) : (s.send f).epochAt = s.epochAt := rfl
@[simp] theorem State.send_excRec (f : Flit) : (s.send f).excRec = s.excRec := rfl
@[simp] theorem State.send_hangRec (f : Flit) : (s.send f).hangRec = s.hangRec := rfl
@[simp] theorem State.send_gleaner (f : Flit) : (s.send f).gleaner = s.gleaner := rfl
@[simp] theorem State.send_counts (f : Flit) : (s.send f).counts = s.counts := rfl
@[simp] theorem State.send_events (f : Flit) : (s.send f).events = s.events := rfl
@[simp] theorem State.send_mer (f : Flit) : (s.send f).mer = s.mer := rfl
@[simp] theorem State.send_dict (f : Flit) : (s.send f).dict = s.dict := rfl
@[simp] theorem State.send_field (f : Flit) : (s.send f).field = s.field := rfl
@[simp] theorem State.send_clk (f : Flit) : (s.send f).clk = s.clk := rfl
@[simp] theorem State.send_pow (f : Flit) : (s.send f).pow = s.pow := rfl
@[simp] theorem State.send_fw (f : Flit) : (s.send f).fw = s.fw := rfl
@[simp] theorem State.send_boot (f : Flit) : (s.send f).boot = s.boot := rfl
@[simp] theorem State.send_ka (f : Flit) : (s.send f).ka = s.ka := rfl
@[simp] theorem State.send_sec (f : Flit) : (s.send f).sec = s.sec := rfl
@[simp] theorem State.send_factory (f : Flit) : (s.send f).factory = s.factory := rfl
@[simp] theorem State.send_draws (f : Flit) : (s.send f).draws = s.draws := rfl

@[simp] theorem State.dropFlit_pending (f : Nat) : (s.dropFlit f).pending = s.pending := rfl
@[simp] theorem State.dropFlit_tiles (f : Nat) : (s.dropFlit f).tiles = s.tiles := rfl
@[simp] theorem State.dropFlit_mem (f : Nat) : (s.dropFlit f).mem = s.mem := rfl
@[simp] theorem State.dropFlit_hall (f : Nat) : (s.dropFlit f).hall = s.hall := rfl
@[simp] theorem State.dropFlit_ctxs (f : Nat) : (s.dropFlit f).ctxs = s.ctxs := rfl
@[simp] theorem State.dropFlit_epochs (f : Nat) : (s.dropFlit f).epochs = s.epochs := rfl
@[simp] theorem State.dropFlit_epochAt (f : Nat) : (s.dropFlit f).epochAt = s.epochAt := rfl
@[simp] theorem State.dropFlit_excRec (f : Nat) : (s.dropFlit f).excRec = s.excRec := rfl
@[simp] theorem State.dropFlit_hangRec (f : Nat) : (s.dropFlit f).hangRec = s.hangRec := rfl
@[simp] theorem State.dropFlit_gleaner (f : Nat) : (s.dropFlit f).gleaner = s.gleaner := rfl
@[simp] theorem State.dropFlit_counts (f : Nat) : (s.dropFlit f).counts = s.counts := rfl
@[simp] theorem State.dropFlit_events (f : Nat) : (s.dropFlit f).events = s.events := rfl
@[simp] theorem State.dropFlit_mer (f : Nat) : (s.dropFlit f).mer = s.mer := rfl
@[simp] theorem State.dropFlit_dict (f : Nat) : (s.dropFlit f).dict = s.dict := rfl
@[simp] theorem State.dropFlit_field (f : Nat) : (s.dropFlit f).field = s.field := rfl
@[simp] theorem State.dropFlit_clk (f : Nat) : (s.dropFlit f).clk = s.clk := rfl
@[simp] theorem State.dropFlit_pow (f : Nat) : (s.dropFlit f).pow = s.pow := rfl
@[simp] theorem State.dropFlit_fw (f : Nat) : (s.dropFlit f).fw = s.fw := rfl
@[simp] theorem State.dropFlit_boot (f : Nat) : (s.dropFlit f).boot = s.boot := rfl
@[simp] theorem State.dropFlit_ka (f : Nat) : (s.dropFlit f).ka = s.ka := rfl
@[simp] theorem State.dropFlit_sec (f : Nat) : (s.dropFlit f).sec = s.sec := rfl
@[simp] theorem State.dropFlit_factory (f : Nat) : (s.dropFlit f).factory = s.factory := rfl
@[simp] theorem State.dropFlit_draws (f : Nat) : (s.dropFlit f).draws = s.draws := rfl

@[simp] theorem rwPut_pending (i j : Nat) (v : DWord) : (rwPut s i j v).pending = s.pending := rfl
@[simp] theorem rwPut_tiles (i j : Nat) (v : DWord) : (rwPut s i j v).tiles = s.tiles := rfl
@[simp] theorem rwPut_mesh (i j : Nat) (v : DWord) : (rwPut s i j v).mesh = s.mesh := rfl
@[simp] theorem rwPut_mem (i j : Nat) (v : DWord) : (rwPut s i j v).mem = s.mem := rfl
@[simp] theorem rwPut_hall (i j : Nat) (v : DWord) : (rwPut s i j v).hall = s.hall := rfl
@[simp] theorem rwPut_ctxs (i j : Nat) (v : DWord) : (rwPut s i j v).ctxs = s.ctxs := rfl
@[simp] theorem rwPut_epochs (i j : Nat) (v : DWord) : (rwPut s i j v).epochs = s.epochs := rfl
@[simp] theorem rwPut_epochAt (i j : Nat) (v : DWord) : (rwPut s i j v).epochAt = s.epochAt := rfl
@[simp] theorem rwPut_excRec (i j : Nat) (v : DWord) : (rwPut s i j v).excRec = s.excRec := rfl
@[simp] theorem rwPut_hangRec (i j : Nat) (v : DWord) : (rwPut s i j v).hangRec = s.hangRec := rfl
@[simp] theorem rwPut_gleaner (i j : Nat) (v : DWord) : (rwPut s i j v).gleaner = s.gleaner := rfl
@[simp] theorem rwPut_counts (i j : Nat) (v : DWord) : (rwPut s i j v).counts = s.counts := rfl
@[simp] theorem rwPut_events (i j : Nat) (v : DWord) : (rwPut s i j v).events = s.events := rfl
@[simp] theorem rwPut_mer (i j : Nat) (v : DWord) : (rwPut s i j v).mer = s.mer := rfl
@[simp] theorem rwPut_field (i j : Nat) (v : DWord) : (rwPut s i j v).field = s.field := rfl
@[simp] theorem rwPut_clk (i j : Nat) (v : DWord) : (rwPut s i j v).clk = s.clk := rfl
@[simp] theorem rwPut_pow (i j : Nat) (v : DWord) : (rwPut s i j v).pow = s.pow := rfl
@[simp] theorem rwPut_fw (i j : Nat) (v : DWord) : (rwPut s i j v).fw = s.fw := rfl
@[simp] theorem rwPut_boot (i j : Nat) (v : DWord) : (rwPut s i j v).boot = s.boot := rfl
@[simp] theorem rwPut_ka (i j : Nat) (v : DWord) : (rwPut s i j v).ka = s.ka := rfl
@[simp] theorem rwPut_sec (i j : Nat) (v : DWord) : (rwPut s i j v).sec = s.sec := rfl
@[simp] theorem rwPut_factory (i j : Nat) (v : DWord) : (rwPut s i j v).factory = s.factory := rfl
@[simp] theorem rwPut_draws (i j : Nat) (v : DWord) : (rwPut s i j v).draws = s.draws := rfl

@[simp] theorem raise_pending (n : Ev) (d : List Nat) : (raise s n d).pending = s.pending := rfl
@[simp] theorem raise_tiles (n : Ev) (d : List Nat) : (raise s n d).tiles = s.tiles := rfl
@[simp] theorem raise_mesh (n : Ev) (d : List Nat) : (raise s n d).mesh = s.mesh := rfl
@[simp] theorem raise_mem (n : Ev) (d : List Nat) : (raise s n d).mem = s.mem := rfl
@[simp] theorem raise_hall (n : Ev) (d : List Nat) : (raise s n d).hall = s.hall := rfl
@[simp] theorem raise_ctxs (n : Ev) (d : List Nat) : (raise s n d).ctxs = s.ctxs := rfl
@[simp] theorem raise_epochs (n : Ev) (d : List Nat) : (raise s n d).epochs = s.epochs := rfl
@[simp] theorem raise_epochAt (n : Ev) (d : List Nat) : (raise s n d).epochAt = s.epochAt := rfl
@[simp] theorem raise_excRec (n : Ev) (d : List Nat) : (raise s n d).excRec = s.excRec := rfl
@[simp] theorem raise_hangRec (n : Ev) (d : List Nat) : (raise s n d).hangRec = s.hangRec := rfl
@[simp] theorem raise_gleaner (n : Ev) (d : List Nat) : (raise s n d).gleaner = s.gleaner := rfl
@[simp] theorem raise_counts (n : Ev) (d : List Nat) : (raise s n d).counts = s.counts := rfl
@[simp] theorem raise_mer (n : Ev) (d : List Nat) : (raise s n d).mer = s.mer := rfl
@[simp] theorem raise_dict (n : Ev) (d : List Nat) : (raise s n d).dict = s.dict := rfl
@[simp] theorem raise_field (n : Ev) (d : List Nat) : (raise s n d).field = s.field := rfl
@[simp] theorem raise_clk (n : Ev) (d : List Nat) : (raise s n d).clk = s.clk := rfl
@[simp] theorem raise_pow (n : Ev) (d : List Nat) : (raise s n d).pow = s.pow := rfl
@[simp] theorem raise_fw (n : Ev) (d : List Nat) : (raise s n d).fw = s.fw := rfl
@[simp] theorem raise_boot (n : Ev) (d : List Nat) : (raise s n d).boot = s.boot := rfl
@[simp] theorem raise_ka (n : Ev) (d : List Nat) : (raise s n d).ka = s.ka := rfl
@[simp] theorem raise_sec (n : Ev) (d : List Nat) : (raise s n d).sec = s.sec := rfl
@[simp] theorem raise_factory (n : Ev) (d : List Nat) : (raise s n d).factory = s.factory := rfl
@[simp] theorem raise_draws (n : Ev) (d : List Nat) : (raise s n d).draws = s.draws := rfl

@[simp] theorem putLine_pending (a : Nat) (bs : List Byte) : (putLine s a bs).pending = s.pending := rfl
@[simp] theorem putLine_tiles (a : Nat) (bs : List Byte) : (putLine s a bs).tiles = s.tiles := rfl
@[simp] theorem putLine_mesh (a : Nat) (bs : List Byte) : (putLine s a bs).mesh = s.mesh := rfl
@[simp] theorem putLine_hall (a : Nat) (bs : List Byte) : (putLine s a bs).hall = s.hall := rfl
@[simp] theorem putLine_ctxs (a : Nat) (bs : List Byte) : (putLine s a bs).ctxs = s.ctxs := rfl
@[simp] theorem putLine_epochs (a : Nat) (bs : List Byte) : (putLine s a bs).epochs = s.epochs := rfl
@[simp] theorem putLine_epochAt (a : Nat) (bs : List Byte) : (putLine s a bs).epochAt = s.epochAt := rfl
@[simp] theorem putLine_excRec (a : Nat) (bs : List Byte) : (putLine s a bs).excRec = s.excRec := rfl
@[simp] theorem putLine_hangRec (a : Nat) (bs : List Byte) : (putLine s a bs).hangRec = s.hangRec := rfl
@[simp] theorem putLine_gleaner (a : Nat) (bs : List Byte) : (putLine s a bs).gleaner = s.gleaner := rfl
@[simp] theorem putLine_counts (a : Nat) (bs : List Byte) : (putLine s a bs).counts = s.counts := rfl
@[simp] theorem putLine_events (a : Nat) (bs : List Byte) : (putLine s a bs).events = s.events := rfl
@[simp] theorem putLine_mer (a : Nat) (bs : List Byte) : (putLine s a bs).mer = s.mer := rfl
@[simp] theorem putLine_dict (a : Nat) (bs : List Byte) : (putLine s a bs).dict = s.dict := rfl
@[simp] theorem putLine_field (a : Nat) (bs : List Byte) : (putLine s a bs).field = s.field := rfl
@[simp] theorem putLine_clk (a : Nat) (bs : List Byte) : (putLine s a bs).clk = s.clk := rfl
@[simp] theorem putLine_pow (a : Nat) (bs : List Byte) : (putLine s a bs).pow = s.pow := rfl
@[simp] theorem putLine_fw (a : Nat) (bs : List Byte) : (putLine s a bs).fw = s.fw := rfl
@[simp] theorem putLine_boot (a : Nat) (bs : List Byte) : (putLine s a bs).boot = s.boot := rfl
@[simp] theorem putLine_ka (a : Nat) (bs : List Byte) : (putLine s a bs).ka = s.ka := rfl
@[simp] theorem putLine_sec (a : Nat) (bs : List Byte) : (putLine s a bs).sec = s.sec := rfl
@[simp] theorem putLine_factory (a : Nat) (bs : List Byte) : (putLine s a bs).factory = s.factory := rfl
@[simp] theorem putLine_draws (a : Nat) (bs : List Byte) : (putLine s a bs).draws = s.draws := rfl

@[simp] theorem advanceEpoch_pending (c : Nat) : (advanceEpoch s c).pending = s.pending := rfl
@[simp] theorem advanceEpoch_tiles (c : Nat) : (advanceEpoch s c).tiles = s.tiles := rfl
@[simp] theorem advanceEpoch_mesh (c : Nat) : (advanceEpoch s c).mesh = s.mesh := rfl
@[simp] theorem advanceEpoch_mem (c : Nat) : (advanceEpoch s c).mem = s.mem := rfl
@[simp] theorem advanceEpoch_hall (c : Nat) : (advanceEpoch s c).hall = s.hall := rfl
@[simp] theorem advanceEpoch_ctxs (c : Nat) : (advanceEpoch s c).ctxs = s.ctxs := rfl
@[simp] theorem advanceEpoch_excRec (c : Nat) : (advanceEpoch s c).excRec = s.excRec := rfl
@[simp] theorem advanceEpoch_hangRec (c : Nat) : (advanceEpoch s c).hangRec = s.hangRec := rfl
@[simp] theorem advanceEpoch_gleaner (c : Nat) : (advanceEpoch s c).gleaner = s.gleaner := rfl
@[simp] theorem advanceEpoch_counts (c : Nat) : (advanceEpoch s c).counts = s.counts := rfl
@[simp] theorem advanceEpoch_events (c : Nat) : (advanceEpoch s c).events = s.events := rfl
@[simp] theorem advanceEpoch_mer (c : Nat) : (advanceEpoch s c).mer = s.mer := rfl
@[simp] theorem advanceEpoch_dict (c : Nat) : (advanceEpoch s c).dict = s.dict := rfl
@[simp] theorem advanceEpoch_field (c : Nat) : (advanceEpoch s c).field = s.field := rfl
@[simp] theorem advanceEpoch_clk (c : Nat) : (advanceEpoch s c).clk = s.clk := rfl
@[simp] theorem advanceEpoch_pow (c : Nat) : (advanceEpoch s c).pow = s.pow := rfl
@[simp] theorem advanceEpoch_fw (c : Nat) : (advanceEpoch s c).fw = s.fw := rfl
@[simp] theorem advanceEpoch_boot (c : Nat) : (advanceEpoch s c).boot = s.boot := rfl
@[simp] theorem advanceEpoch_ka (c : Nat) : (advanceEpoch s c).ka = s.ka := rfl
@[simp] theorem advanceEpoch_sec (c : Nat) : (advanceEpoch s c).sec = s.sec := rfl
@[simp] theorem advanceEpoch_factory (c : Nat) : (advanceEpoch s c).factory = s.factory := rfl
@[simp] theorem advanceEpoch_draws (c : Nat) : (advanceEpoch s c).draws = s.draws := rfl

@[simp] theorem setStaged_pending (k e i : Nat) (l : List Staged) : (setStaged s k e i l).pending = s.pending := rfl
@[simp] theorem setStaged_tiles (k e i : Nat) (l : List Staged) : (setStaged s k e i l).tiles = s.tiles := rfl
@[simp] theorem setStaged_mem (k e i : Nat) (l : List Staged) : (setStaged s k e i l).mem = s.mem := rfl
@[simp] theorem setStaged_hall (k e i : Nat) (l : List Staged) : (setStaged s k e i l).hall = s.hall := rfl
@[simp] theorem setStaged_ctxs (k e i : Nat) (l : List Staged) : (setStaged s k e i l).ctxs = s.ctxs := rfl
@[simp] theorem setStaged_epochs (k e i : Nat) (l : List Staged) : (setStaged s k e i l).epochs = s.epochs := rfl
@[simp] theorem setStaged_epochAt (k e i : Nat) (l : List Staged) : (setStaged s k e i l).epochAt = s.epochAt := rfl
@[simp] theorem setStaged_excRec (k e i : Nat) (l : List Staged) : (setStaged s k e i l).excRec = s.excRec := rfl
@[simp] theorem setStaged_hangRec (k e i : Nat) (l : List Staged) : (setStaged s k e i l).hangRec = s.hangRec := rfl
@[simp] theorem setStaged_gleaner (k e i : Nat) (l : List Staged) : (setStaged s k e i l).gleaner = s.gleaner := rfl
@[simp] theorem setStaged_counts (k e i : Nat) (l : List Staged) : (setStaged s k e i l).counts = s.counts := rfl
@[simp] theorem setStaged_events (k e i : Nat) (l : List Staged) : (setStaged s k e i l).events = s.events := rfl
@[simp] theorem setStaged_mer (k e i : Nat) (l : List Staged) : (setStaged s k e i l).mer = s.mer := rfl
@[simp] theorem setStaged_dict (k e i : Nat) (l : List Staged) : (setStaged s k e i l).dict = s.dict := rfl
@[simp] theorem setStaged_field (k e i : Nat) (l : List Staged) : (setStaged s k e i l).field = s.field := rfl
@[simp] theorem setStaged_clk (k e i : Nat) (l : List Staged) : (setStaged s k e i l).clk = s.clk := rfl
@[simp] theorem setStaged_pow (k e i : Nat) (l : List Staged) : (setStaged s k e i l).pow = s.pow := rfl
@[simp] theorem setStaged_fw (k e i : Nat) (l : List Staged) : (setStaged s k e i l).fw = s.fw := rfl
@[simp] theorem setStaged_boot (k e i : Nat) (l : List Staged) : (setStaged s k e i l).boot = s.boot := rfl
@[simp] theorem setStaged_ka (k e i : Nat) (l : List Staged) : (setStaged s k e i l).ka = s.ka := rfl
@[simp] theorem setStaged_sec (k e i : Nat) (l : List Staged) : (setStaged s k e i l).sec = s.sec := rfl
@[simp] theorem setStaged_factory (k e i : Nat) (l : List Staged) : (setStaged s k e i l).factory = s.factory := rfl
@[simp] theorem setStaged_draws (k e i : Nat) (l : List Staged) : (setStaged s k e i l).draws = s.draws := rfl

@[simp] theorem State.modCore_pending (p : Coord) (f : Core → Core) : (s.modCore p f).pending = s.pending := rfl
@[simp] theorem State.modCore_mesh (p : Coord) (f : Core → Core) : (s.modCore p f).mesh = s.mesh := rfl
@[simp] theorem State.modCore_mem (p : Coord) (f : Core → Core) : (s.modCore p f).mem = s.mem := rfl
@[simp] theorem State.modCore_hall (p : Coord) (f : Core → Core) : (s.modCore p f).hall = s.hall := rfl
@[simp] theorem State.modCore_ctxs (p : Coord) (f : Core → Core) : (s.modCore p f).ctxs = s.ctxs := rfl
@[simp] theorem State.modCore_epochs (p : Coord) (f : Core → Core) : (s.modCore p f).epochs = s.epochs := rfl
@[simp] theorem State.modCore_epochAt (p : Coord) (f : Core → Core) : (s.modCore p f).epochAt = s.epochAt := rfl
@[simp] theorem State.modCore_excRec (p : Coord) (f : Core → Core) : (s.modCore p f).excRec = s.excRec := rfl
@[simp] theorem State.modCore_hangRec (p : Coord) (f : Core → Core) : (s.modCore p f).hangRec = s.hangRec := rfl
@[simp] theorem State.modCore_gleaner (p : Coord) (f : Core → Core) : (s.modCore p f).gleaner = s.gleaner := rfl
@[simp] theorem State.modCore_counts (p : Coord) (f : Core → Core) : (s.modCore p f).counts = s.counts := rfl
@[simp] theorem State.modCore_events (p : Coord) (f : Core → Core) : (s.modCore p f).events = s.events := rfl
@[simp] theorem State.modCore_mer (p : Coord) (f : Core → Core) : (s.modCore p f).mer = s.mer := rfl
@[simp] theorem State.modCore_dict (p : Coord) (f : Core → Core) : (s.modCore p f).dict = s.dict := rfl
@[simp] theorem State.modCore_field (p : Coord) (f : Core → Core) : (s.modCore p f).field = s.field := rfl
@[simp] theorem State.modCore_clk (p : Coord) (f : Core → Core) : (s.modCore p f).clk = s.clk := rfl
@[simp] theorem State.modCore_pow (p : Coord) (f : Core → Core) : (s.modCore p f).pow = s.pow := rfl
@[simp] theorem State.modCore_fw (p : Coord) (f : Core → Core) : (s.modCore p f).fw = s.fw := rfl
@[simp] theorem State.modCore_boot (p : Coord) (f : Core → Core) : (s.modCore p f).boot = s.boot := rfl
@[simp] theorem State.modCore_ka (p : Coord) (f : Core → Core) : (s.modCore p f).ka = s.ka := rfl
@[simp] theorem State.modCore_sec (p : Coord) (f : Core → Core) : (s.modCore p f).sec = s.sec := rfl
@[simp] theorem State.modCore_factory (p : Coord) (f : Core → Core) : (s.modCore p f).factory = s.factory := rfl
@[simp] theorem State.modCore_draws (p : Coord) (f : Core → Core) : (s.modCore p f).draws = s.draws := rfl

/-- A change of a live context changes nothing but the contexts. -/
theorem State.modCtx_frame (c : Nat) (f : Ctx → Ctx) : s.modCtx c f = { s with ctxs := (s.modCtx c f).ctxs } := by
  unfold State.modCtx; split <;> rfl

@[simp] theorem State.modCtx_pending (c : Nat) (f : Ctx → Ctx) : (s.modCtx c f).pending = s.pending := by rw [State.modCtx_frame]
@[simp] theorem State.modCtx_tiles (c : Nat) (f : Ctx → Ctx) : (s.modCtx c f).tiles = s.tiles := by rw [State.modCtx_frame]
@[simp] theorem State.modCtx_mesh (c : Nat) (f : Ctx → Ctx) : (s.modCtx c f).mesh = s.mesh := by rw [State.modCtx_frame]
@[simp] theorem State.modCtx_mem (c : Nat) (f : Ctx → Ctx) : (s.modCtx c f).mem = s.mem := by rw [State.modCtx_frame]
@[simp] theorem State.modCtx_hall (c : Nat) (f : Ctx → Ctx) : (s.modCtx c f).hall = s.hall := by rw [State.modCtx_frame]
@[simp] theorem State.modCtx_epochs (c : Nat) (f : Ctx → Ctx) : (s.modCtx c f).epochs = s.epochs := by rw [State.modCtx_frame]
@[simp] theorem State.modCtx_epochAt (c : Nat) (f : Ctx → Ctx) : (s.modCtx c f).epochAt = s.epochAt := by rw [State.modCtx_frame]
@[simp] theorem State.modCtx_excRec (c : Nat) (f : Ctx → Ctx) : (s.modCtx c f).excRec = s.excRec := by rw [State.modCtx_frame]
@[simp] theorem State.modCtx_hangRec (c : Nat) (f : Ctx → Ctx) : (s.modCtx c f).hangRec = s.hangRec := by rw [State.modCtx_frame]
@[simp] theorem State.modCtx_gleaner (c : Nat) (f : Ctx → Ctx) : (s.modCtx c f).gleaner = s.gleaner := by rw [State.modCtx_frame]
@[simp] theorem State.modCtx_counts (c : Nat) (f : Ctx → Ctx) : (s.modCtx c f).counts = s.counts := by rw [State.modCtx_frame]
@[simp] theorem State.modCtx_events (c : Nat) (f : Ctx → Ctx) : (s.modCtx c f).events = s.events := by rw [State.modCtx_frame]
@[simp] theorem State.modCtx_mer (c : Nat) (f : Ctx → Ctx) : (s.modCtx c f).mer = s.mer := by rw [State.modCtx_frame]
@[simp] theorem State.modCtx_dict (c : Nat) (f : Ctx → Ctx) : (s.modCtx c f).dict = s.dict := by rw [State.modCtx_frame]
@[simp] theorem State.modCtx_field (c : Nat) (f : Ctx → Ctx) : (s.modCtx c f).field = s.field := by rw [State.modCtx_frame]
@[simp] theorem State.modCtx_clk (c : Nat) (f : Ctx → Ctx) : (s.modCtx c f).clk = s.clk := by rw [State.modCtx_frame]
@[simp] theorem State.modCtx_pow (c : Nat) (f : Ctx → Ctx) : (s.modCtx c f).pow = s.pow := by rw [State.modCtx_frame]
@[simp] theorem State.modCtx_fw (c : Nat) (f : Ctx → Ctx) : (s.modCtx c f).fw = s.fw := by rw [State.modCtx_frame]
@[simp] theorem State.modCtx_boot (c : Nat) (f : Ctx → Ctx) : (s.modCtx c f).boot = s.boot := by rw [State.modCtx_frame]
@[simp] theorem State.modCtx_ka (c : Nat) (f : Ctx → Ctx) : (s.modCtx c f).ka = s.ka := by rw [State.modCtx_frame]
@[simp] theorem State.modCtx_sec (c : Nat) (f : Ctx → Ctx) : (s.modCtx c f).sec = s.sec := by rw [State.modCtx_frame]
@[simp] theorem State.modCtx_factory (c : Nat) (f : Ctx → Ctx) : (s.modCtx c f).factory = s.factory := by rw [State.modCtx_frame]
@[simp] theorem State.modCtx_draws (c : Nat) (f : Ctx → Ctx) : (s.modCtx c f).draws = s.draws := by rw [State.modCtx_frame]

@[simp] theorem State.modRun_pending (c : Nat) (f : CtxRun → CtxRun) : (s.modRun c f).pending = s.pending := State.modCtx_pending s c _
@[simp] theorem State.modRun_tiles (c : Nat) (f : CtxRun → CtxRun) : (s.modRun c f).tiles = s.tiles := State.modCtx_tiles s c _
@[simp] theorem State.modRun_mesh (c : Nat) (f : CtxRun → CtxRun) : (s.modRun c f).mesh = s.mesh := State.modCtx_mesh s c _
@[simp] theorem State.modRun_mem (c : Nat) (f : CtxRun → CtxRun) : (s.modRun c f).mem = s.mem := State.modCtx_mem s c _
@[simp] theorem State.modRun_hall (c : Nat) (f : CtxRun → CtxRun) : (s.modRun c f).hall = s.hall := State.modCtx_hall s c _
@[simp] theorem State.modRun_epochs (c : Nat) (f : CtxRun → CtxRun) : (s.modRun c f).epochs = s.epochs := State.modCtx_epochs s c _
@[simp] theorem State.modRun_epochAt (c : Nat) (f : CtxRun → CtxRun) : (s.modRun c f).epochAt = s.epochAt := State.modCtx_epochAt s c _
@[simp] theorem State.modRun_excRec (c : Nat) (f : CtxRun → CtxRun) : (s.modRun c f).excRec = s.excRec := State.modCtx_excRec s c _
@[simp] theorem State.modRun_hangRec (c : Nat) (f : CtxRun → CtxRun) : (s.modRun c f).hangRec = s.hangRec := State.modCtx_hangRec s c _
@[simp] theorem State.modRun_gleaner (c : Nat) (f : CtxRun → CtxRun) : (s.modRun c f).gleaner = s.gleaner := State.modCtx_gleaner s c _
@[simp] theorem State.modRun_counts (c : Nat) (f : CtxRun → CtxRun) : (s.modRun c f).counts = s.counts := State.modCtx_counts s c _
@[simp] theorem State.modRun_events (c : Nat) (f : CtxRun → CtxRun) : (s.modRun c f).events = s.events := State.modCtx_events s c _
@[simp] theorem State.modRun_mer (c : Nat) (f : CtxRun → CtxRun) : (s.modRun c f).mer = s.mer := State.modCtx_mer s c _
@[simp] theorem State.modRun_dict (c : Nat) (f : CtxRun → CtxRun) : (s.modRun c f).dict = s.dict := State.modCtx_dict s c _
@[simp] theorem State.modRun_field (c : Nat) (f : CtxRun → CtxRun) : (s.modRun c f).field = s.field := State.modCtx_field s c _
@[simp] theorem State.modRun_clk (c : Nat) (f : CtxRun → CtxRun) : (s.modRun c f).clk = s.clk := State.modCtx_clk s c _
@[simp] theorem State.modRun_pow (c : Nat) (f : CtxRun → CtxRun) : (s.modRun c f).pow = s.pow := State.modCtx_pow s c _
@[simp] theorem State.modRun_fw (c : Nat) (f : CtxRun → CtxRun) : (s.modRun c f).fw = s.fw := State.modCtx_fw s c _
@[simp] theorem State.modRun_boot (c : Nat) (f : CtxRun → CtxRun) : (s.modRun c f).boot = s.boot := State.modCtx_boot s c _
@[simp] theorem State.modRun_ka (c : Nat) (f : CtxRun → CtxRun) : (s.modRun c f).ka = s.ka := State.modCtx_ka s c _
@[simp] theorem State.modRun_sec (c : Nat) (f : CtxRun → CtxRun) : (s.modRun c f).sec = s.sec := State.modCtx_sec s c _
@[simp] theorem State.modRun_factory (c : Nat) (f : CtxRun → CtxRun) : (s.modRun c f).factory = s.factory := State.modCtx_factory s c _
@[simp] theorem State.modRun_draws (c : Nat) (f : CtxRun → CtxRun) : (s.modRun c f).draws = s.draws := State.modCtx_draws s c _

@[simp] theorem State.modRec_pending (c : Nat) (f : CtxRec → CtxRec) : (s.modRec c f).pending = s.pending := State.modCtx_pending s c _
@[simp] theorem State.modRec_tiles (c : Nat) (f : CtxRec → CtxRec) : (s.modRec c f).tiles = s.tiles := State.modCtx_tiles s c _
@[simp] theorem State.modRec_mesh (c : Nat) (f : CtxRec → CtxRec) : (s.modRec c f).mesh = s.mesh := State.modCtx_mesh s c _
@[simp] theorem State.modRec_mem (c : Nat) (f : CtxRec → CtxRec) : (s.modRec c f).mem = s.mem := State.modCtx_mem s c _
@[simp] theorem State.modRec_hall (c : Nat) (f : CtxRec → CtxRec) : (s.modRec c f).hall = s.hall := State.modCtx_hall s c _
@[simp] theorem State.modRec_epochs (c : Nat) (f : CtxRec → CtxRec) : (s.modRec c f).epochs = s.epochs := State.modCtx_epochs s c _
@[simp] theorem State.modRec_epochAt (c : Nat) (f : CtxRec → CtxRec) : (s.modRec c f).epochAt = s.epochAt := State.modCtx_epochAt s c _
@[simp] theorem State.modRec_excRec (c : Nat) (f : CtxRec → CtxRec) : (s.modRec c f).excRec = s.excRec := State.modCtx_excRec s c _
@[simp] theorem State.modRec_hangRec (c : Nat) (f : CtxRec → CtxRec) : (s.modRec c f).hangRec = s.hangRec := State.modCtx_hangRec s c _
@[simp] theorem State.modRec_gleaner (c : Nat) (f : CtxRec → CtxRec) : (s.modRec c f).gleaner = s.gleaner := State.modCtx_gleaner s c _
@[simp] theorem State.modRec_counts (c : Nat) (f : CtxRec → CtxRec) : (s.modRec c f).counts = s.counts := State.modCtx_counts s c _
@[simp] theorem State.modRec_events (c : Nat) (f : CtxRec → CtxRec) : (s.modRec c f).events = s.events := State.modCtx_events s c _
@[simp] theorem State.modRec_mer (c : Nat) (f : CtxRec → CtxRec) : (s.modRec c f).mer = s.mer := State.modCtx_mer s c _
@[simp] theorem State.modRec_dict (c : Nat) (f : CtxRec → CtxRec) : (s.modRec c f).dict = s.dict := State.modCtx_dict s c _
@[simp] theorem State.modRec_field (c : Nat) (f : CtxRec → CtxRec) : (s.modRec c f).field = s.field := State.modCtx_field s c _
@[simp] theorem State.modRec_clk (c : Nat) (f : CtxRec → CtxRec) : (s.modRec c f).clk = s.clk := State.modCtx_clk s c _
@[simp] theorem State.modRec_pow (c : Nat) (f : CtxRec → CtxRec) : (s.modRec c f).pow = s.pow := State.modCtx_pow s c _
@[simp] theorem State.modRec_fw (c : Nat) (f : CtxRec → CtxRec) : (s.modRec c f).fw = s.fw := State.modCtx_fw s c _
@[simp] theorem State.modRec_boot (c : Nat) (f : CtxRec → CtxRec) : (s.modRec c f).boot = s.boot := State.modCtx_boot s c _
@[simp] theorem State.modRec_ka (c : Nat) (f : CtxRec → CtxRec) : (s.modRec c f).ka = s.ka := State.modCtx_ka s c _
@[simp] theorem State.modRec_sec (c : Nat) (f : CtxRec → CtxRec) : (s.modRec c f).sec = s.sec := State.modCtx_sec s c _
@[simp] theorem State.modRec_factory (c : Nat) (f : CtxRec → CtxRec) : (s.modRec c f).factory = s.factory := State.modCtx_factory s c _
@[simp] theorem State.modRec_draws (c : Nat) (f : CtxRec → CtxRec) : (s.modRec c f).draws = s.draws := State.modCtx_draws s c _

@[simp] theorem State.modTally_pending (c : Nat) (f : CtxTally → CtxTally) : (s.modTally c f).pending = s.pending := State.modCtx_pending s c _
@[simp] theorem State.modTally_tiles (c : Nat) (f : CtxTally → CtxTally) : (s.modTally c f).tiles = s.tiles := State.modCtx_tiles s c _
@[simp] theorem State.modTally_mesh (c : Nat) (f : CtxTally → CtxTally) : (s.modTally c f).mesh = s.mesh := State.modCtx_mesh s c _
@[simp] theorem State.modTally_mem (c : Nat) (f : CtxTally → CtxTally) : (s.modTally c f).mem = s.mem := State.modCtx_mem s c _
@[simp] theorem State.modTally_hall (c : Nat) (f : CtxTally → CtxTally) : (s.modTally c f).hall = s.hall := State.modCtx_hall s c _
@[simp] theorem State.modTally_epochs (c : Nat) (f : CtxTally → CtxTally) : (s.modTally c f).epochs = s.epochs := State.modCtx_epochs s c _
@[simp] theorem State.modTally_epochAt (c : Nat) (f : CtxTally → CtxTally) : (s.modTally c f).epochAt = s.epochAt := State.modCtx_epochAt s c _
@[simp] theorem State.modTally_excRec (c : Nat) (f : CtxTally → CtxTally) : (s.modTally c f).excRec = s.excRec := State.modCtx_excRec s c _
@[simp] theorem State.modTally_hangRec (c : Nat) (f : CtxTally → CtxTally) : (s.modTally c f).hangRec = s.hangRec := State.modCtx_hangRec s c _
@[simp] theorem State.modTally_gleaner (c : Nat) (f : CtxTally → CtxTally) : (s.modTally c f).gleaner = s.gleaner := State.modCtx_gleaner s c _
@[simp] theorem State.modTally_counts (c : Nat) (f : CtxTally → CtxTally) : (s.modTally c f).counts = s.counts := State.modCtx_counts s c _
@[simp] theorem State.modTally_events (c : Nat) (f : CtxTally → CtxTally) : (s.modTally c f).events = s.events := State.modCtx_events s c _
@[simp] theorem State.modTally_mer (c : Nat) (f : CtxTally → CtxTally) : (s.modTally c f).mer = s.mer := State.modCtx_mer s c _
@[simp] theorem State.modTally_dict (c : Nat) (f : CtxTally → CtxTally) : (s.modTally c f).dict = s.dict := State.modCtx_dict s c _
@[simp] theorem State.modTally_field (c : Nat) (f : CtxTally → CtxTally) : (s.modTally c f).field = s.field := State.modCtx_field s c _
@[simp] theorem State.modTally_clk (c : Nat) (f : CtxTally → CtxTally) : (s.modTally c f).clk = s.clk := State.modCtx_clk s c _
@[simp] theorem State.modTally_pow (c : Nat) (f : CtxTally → CtxTally) : (s.modTally c f).pow = s.pow := State.modCtx_pow s c _
@[simp] theorem State.modTally_fw (c : Nat) (f : CtxTally → CtxTally) : (s.modTally c f).fw = s.fw := State.modCtx_fw s c _
@[simp] theorem State.modTally_boot (c : Nat) (f : CtxTally → CtxTally) : (s.modTally c f).boot = s.boot := State.modCtx_boot s c _
@[simp] theorem State.modTally_ka (c : Nat) (f : CtxTally → CtxTally) : (s.modTally c f).ka = s.ka := State.modCtx_ka s c _
@[simp] theorem State.modTally_sec (c : Nat) (f : CtxTally → CtxTally) : (s.modTally c f).sec = s.sec := State.modCtx_sec s c _
@[simp] theorem State.modTally_factory (c : Nat) (f : CtxTally → CtxTally) : (s.modTally c f).factory = s.factory := State.modCtx_factory s c _
@[simp] theorem State.modTally_draws (c : Nat) (f : CtxTally → CtxTally) : (s.modTally c f).draws = s.draws := State.modCtx_draws s c _

@[simp] theorem addFault_pending (c kind : Nat) (d : DWord) : (addFault s c kind d).pending = s.pending := State.modCtx_pending s c _
@[simp] theorem addFault_tiles (c kind : Nat) (d : DWord) : (addFault s c kind d).tiles = s.tiles := State.modCtx_tiles s c _
@[simp] theorem addFault_mesh (c kind : Nat) (d : DWord) : (addFault s c kind d).mesh = s.mesh := State.modCtx_mesh s c _
@[simp] theorem addFault_mem (c kind : Nat) (d : DWord) : (addFault s c kind d).mem = s.mem := State.modCtx_mem s c _
@[simp] theorem addFault_hall (c kind : Nat) (d : DWord) : (addFault s c kind d).hall = s.hall := State.modCtx_hall s c _
@[simp] theorem addFault_epochs (c kind : Nat) (d : DWord) : (addFault s c kind d).epochs = s.epochs := State.modCtx_epochs s c _
@[simp] theorem addFault_epochAt (c kind : Nat) (d : DWord) : (addFault s c kind d).epochAt = s.epochAt := State.modCtx_epochAt s c _
@[simp] theorem addFault_excRec (c kind : Nat) (d : DWord) : (addFault s c kind d).excRec = s.excRec := State.modCtx_excRec s c _
@[simp] theorem addFault_hangRec (c kind : Nat) (d : DWord) : (addFault s c kind d).hangRec = s.hangRec := State.modCtx_hangRec s c _
@[simp] theorem addFault_gleaner (c kind : Nat) (d : DWord) : (addFault s c kind d).gleaner = s.gleaner := State.modCtx_gleaner s c _
@[simp] theorem addFault_counts (c kind : Nat) (d : DWord) : (addFault s c kind d).counts = s.counts := State.modCtx_counts s c _
@[simp] theorem addFault_events (c kind : Nat) (d : DWord) : (addFault s c kind d).events = s.events := State.modCtx_events s c _
@[simp] theorem addFault_mer (c kind : Nat) (d : DWord) : (addFault s c kind d).mer = s.mer := State.modCtx_mer s c _
@[simp] theorem addFault_dict (c kind : Nat) (d : DWord) : (addFault s c kind d).dict = s.dict := State.modCtx_dict s c _
@[simp] theorem addFault_field (c kind : Nat) (d : DWord) : (addFault s c kind d).field = s.field := State.modCtx_field s c _
@[simp] theorem addFault_clk (c kind : Nat) (d : DWord) : (addFault s c kind d).clk = s.clk := State.modCtx_clk s c _
@[simp] theorem addFault_pow (c kind : Nat) (d : DWord) : (addFault s c kind d).pow = s.pow := State.modCtx_pow s c _
@[simp] theorem addFault_fw (c kind : Nat) (d : DWord) : (addFault s c kind d).fw = s.fw := State.modCtx_fw s c _
@[simp] theorem addFault_boot (c kind : Nat) (d : DWord) : (addFault s c kind d).boot = s.boot := State.modCtx_boot s c _
@[simp] theorem addFault_ka (c kind : Nat) (d : DWord) : (addFault s c kind d).ka = s.ka := State.modCtx_ka s c _
@[simp] theorem addFault_sec (c kind : Nat) (d : DWord) : (addFault s c kind d).sec = s.sec := State.modCtx_sec s c _
@[simp] theorem addFault_factory (c kind : Nat) (d : DWord) : (addFault s c kind d).factory = s.factory := State.modCtx_factory s c _
@[simp] theorem addFault_draws (c kind : Nat) (d : DWord) : (addFault s c kind d).draws = s.draws := State.modCtx_draws s c _

/-! ### What an update writes -/

@[simp] theorem State.setTile_tile (k j : Nat) (t : Tile) : (s.setTile k t).tile j = if j = k then t else s.tile j :=
  mget_mput s.tiles {} t k j

@[simp] theorem State.modTile_tile (k j : Nat) (f : Tile → Tile) :
    (s.modTile k f).tile j = if j = k then f (s.tile k) else s.tile j := mget_mput s.tiles {} _ k j

theorem State.modTile_tile_self (k : Nat) (f : Tile → Tile) : (s.modTile k f).tile k = f (s.tile k) := by simp

@[simp] theorem State.modCore_tile (p : Coord) (j : Nat) (f : Core → Core) :
    (s.modCore p f).tile j =
      if j = ckey p then { s.tile (ckey p) with core := f (s.tile (ckey p)).core } else s.tile j :=
  mget_mput s.tiles {} _ (ckey p) j

@[simp] theorem State.setTile_setTile (k : Nat) (t u : Tile) : (s.setTile k t).setTile k u = s.setTile k u := by
  simp [State.setTile]

@[simp] theorem State.setCtx_ctx (c j : Nat) (x : Ctx) : (s.setCtx c x).ctx j = if j = c then some x else s.ctx j :=
  mfind_mput s.ctxs x c j

theorem State.modCtx_ctx (c j : Nat) (f : Ctx → Ctx) :
    (s.modCtx c f).ctx j = if j = c then (s.ctx c).map f else s.ctx j := by
  unfold State.modCtx
  split
  · rename_i x h; rw [State.setCtx_ctx, h]; rfl
  · rename_i h; split
    · subst_vars; rw [h]; rfl
    · rfl

@[simp] theorem State.addFlit_flits (f : Flit) : (s.addFlit f).mesh.flits =
    mput s.mesh.flits s.mesh.nextFlit { f with stamp := s.mesh.nextStamp } := rfl
@[simp] theorem State.dropFlit_flits (f : Nat) : (s.dropFlit f).mesh.flits = mdel s.mesh.flits f := rfl
@[simp] theorem State.draw_fst : s.draw.1 = s.draws := rfl
@[simp] theorem State.draw_draws : s.draw.2.draws = s.draws + 1 := rfl
@[simp] theorem raise_next (n : Ev) (d : List Nat) : (raise s n d).events.next = s.events.next + 1 := rfl

/-- The newest event of the ring after one is raised is that event. -/
theorem raise_getLast (n : Ev) (d : List Nat) :
    (raise s n d).events.ring.getLast? =
      some ⟨s.events.next, n, BitVec.ofNat 64 (now s), d.map (BitVec.ofNat 64 ·)⟩ := by
  simp [raise]

/-! ### Registers of a core (R44) -/

@[simp] theorem Core.sreg_zero (k : Core) : k.sreg 0 = 0 := rfl

theorem Core.sreg_setS (k : Core) (r q : BitVec 5) (w : Word) :
    (k.setS r w).sreg q = if q = r ∧ r ≠ 0#5 then w else k.sreg q := by
  by_cases hr : r = 0#5
  · subst hr; simp [Core.setS]
  · have e : k.setS r w = { k with s := mset k.s 0 r.toNat w } := by simp [Core.setS, hr]
    rw [e]
    by_cases h0 : q = 0#5
    · subst h0; simp [Core.sreg, Ne.symm hr]
    · have n : (q.toNat = r.toNat) = (q = r) := propext ⟨BitVec.eq_of_toNat_eq, fun h => by rw [h]⟩
      have b : (q == 0) = false := by simp [h0]
      simp only [Core.sreg, b, Bool.false_eq_true, if_false, mget_mset, n, hr, ne_eq, not_false_eq_true, and_true]

@[simp] theorem Core.setS_pc (k : Core) (r : BitVec 5) (w : Word) : (k.setS r w).pc = k.pc := by unfold Core.setS; split <;> rfl
@[simp] theorem Core.setS_p (k : Core) (r : BitVec 5) (w : Word) : (k.setS r w).p = k.p := by unfold Core.setS; split <;> rfl
@[simp] theorem Core.setS_c (k : Core) (r : BitVec 5) (w : Word) : (k.setS r w).c = k.c := by unfold Core.setS; split <;> rfl
@[simp] theorem Core.setS_v (k : Core) (r : BitVec 5) (w : Word) : (k.setS r w).v = k.v := by unfold Core.setS; split <;> rfl
@[simp] theorem Core.setS_k (k : Core) (r : BitVec 5) (w : Word) : (k.setS r w).k = k.k := by unfold Core.setS; split <;> rfl
@[simp] theorem Core.setS_loops (k : Core) (r : BitVec 5) (w : Word) : (k.setS r w).loops = k.loops := by
  unfold Core.setS; split <;> rfl
@[simp] theorem Core.setS_fpFlags (k : Core) (r : BitVec 5) (w : Word) : (k.setS r w).fpFlags = k.fpFlags := by
  unfold Core.setS; split <;> rfl
@[simp] theorem Core.setS_run (k : Core) (r : BitVec 5) (w : Word) : (k.setS r w).run = k.run := by
  unfold Core.setS; split <;> rfl
@[simp] theorem Core.setPred_pc (k : Core) (p : BitVec 3) (b : Bool) : (k.setPred p b).pc = k.pc := by
  unfold Core.setPred; split <;> rfl
@[simp] theorem Core.setPred_c (k : Core) (p : BitVec 3) (b : Bool) : (k.setPred p b).c = k.c := by
  unfold Core.setPred; split <;> rfl
@[simp] theorem Core.setPred_s (k : Core) (p : BitVec 3) (b : Bool) : (k.setPred p b).s = k.s := by
  unfold Core.setPred; split <;> rfl
@[simp] theorem Core.setPred_loops (k : Core) (p : BitVec 3) (b : Bool) : (k.setPred p b).loops = k.loops := by
  unfold Core.setPred; split <;> rfl
@[simp] theorem Core.setV_pc (k : Core) (r : Nat) (i : Item) : (k.setV r i).pc = k.pc := rfl
@[simp] theorem Core.setV_c (k : Core) (r : Nat) (i : Item) : (k.setV r i).c = k.c := rfl
@[simp] theorem Core.setV_s (k : Core) (r : Nat) (i : Item) : (k.setV r i).s = k.s := rfl
@[simp] theorem Core.setV_loops (k : Core) (r : Nat) (i : Item) : (k.setV r i).loops = k.loops := rfl
@[simp] theorem Core.addFlags_pc (k : Core) (f : BitVec 5) : (k.addFlags f).pc = k.pc := rfl
@[simp] theorem Core.addFlags_c (k : Core) (f : BitVec 5) : (k.addFlags f).c = k.c := rfl
@[simp] theorem Core.addFlags_loops (k : Core) (f : BitVec 5) : (k.addFlags f).loops = k.loops := rfl

theorem Core.vreg_setV (k : Core) (r q : Nat) (i : Item) : (k.setV r i).vreg q = if q = r then i else k.vreg q :=
  mget_mset k.v {} i r q

end Sys2Proof.Machine
end

