-- ==== Sys2Proof/Laws/Issue.lean ====
section
/-! SUPPORT. What the issue of a Furrow instruction can do, said once: its cases, and the state after an instruction whose
effect is made. -/

namespace Sys2Proof.Machine

/-- Every answer of an issue that is not held up by a timed wait (R42, R48, R49, R52). -/
theorem issueAny_cases (h : Hdr) (slotB invalid : Bool) (s : State) (body : Tile → Act) :
    (canIssue s h.t = false ∧ issueAny h slotB invalid s body = .next s) ∨
    (canIssue s h.t = true ∧ ∃ w, (coreAt s h.t).reservedWord = some w ∧ issueAny h slotB invalid s body =
      .next (takeExc s.draw.2 h.t 1 (coreAt s h.t).pc.toNat (wordSlot w s.draws) 0)) ∨
    (canIssue s h.t = true ∧ (coreAt s h.t).reservedWord = none ∧ (h.unused != 0 || invalid) = true ∧
      issueAny h slotB invalid s body = .next (takeExc s h.t 1 (coreAt s h.t).pc.toNat slotB 0)) ∨
    (canIssue s h.t = true ∧ (coreAt s h.t).reservedWord = none ∧ (h.unused != 0 || invalid) = false ∧
      (coreAt s h.t).guard h = false ∧ issueAny h slotB invalid s body = .next (advance s h.t)) ∨
    (canIssue s h.t = true ∧ (coreAt s h.t).reservedWord = none ∧ (h.unused != 0 || invalid) = false ∧
      (coreAt s h.t).guard h = true ∧
      ((∃ t, body (s.tile (ckey h.t)) = .fin t ∧ issueAny h slotB invalid s body = .next (advance t h.t)) ∨
       (∃ t, body (s.tile (ckey h.t)) = .go t ∧ issueAny h slotB invalid s body = .next t) ∨
       (∃ w, body (s.tile (ckey h.t)) = .stall w ∧
          issueAny h slotB invalid s body = .next (s.modCore h.t fun k => { k with wait := some w })) ∨
       (∃ code detail, body (s.tile (ckey h.t)) = .exc code detail ∧
          issueAny h slotB invalid s body = .next (takeExc s h.t code (coreAt s h.t).pc.toNat slotB detail)))) := by
  unfold issueAny
  cases hc : canIssue s h.t
  · exact Or.inl ⟨rfl, by simp⟩
  right
  cases hw : (coreAt s h.t).reservedWord with
  | some w => exact Or.inl ⟨rfl, w, rfl, by simp [hw]⟩
  | none =>
  right
  cases hi : (h.unused != 0 || invalid)
  · right
    cases hg : (coreAt s h.t).guard h
    · exact Or.inl ⟨rfl, rfl, rfl, rfl, by simp [hg, hw]⟩
    · refine Or.inr ⟨rfl, rfl, rfl, rfl, ?_⟩
      cases hb : body (s.tile (ckey h.t)) with
      | fin t => exact Or.inl ⟨t, rfl, by simp [hg, hb, hw]⟩
      | go t => exact Or.inr (Or.inl ⟨t, rfl, by simp [hg, hb, hw]⟩)
      | stall w => exact Or.inr (Or.inr (Or.inl ⟨w, rfl, by simp [hg, hb, hw, State.modCore, State.modTile]⟩))
      | exc a b => exact Or.inr (Or.inr (Or.inr ⟨a, b, rfl, by simp [hg, hb, hw]⟩))
  · exact Or.inl ⟨rfl, rfl, rfl, by simp [hw]⟩

/-- An issue always answers a next state. -/
theorem issueAny_goes (h : Hdr) (slotB invalid : Bool) (s : State) (body : Tile → Act) :
    Goes (issueAny h slotB invalid s body) := by
  rcases issueAny_cases h slotB invalid s body with
    ⟨_, e⟩ | ⟨_, _, _, e⟩ | ⟨_, _, _, e⟩ | ⟨_, _, _, _, e⟩ | ⟨_, _, _, _, h⟩
  · exact ⟨_, e⟩
  · exact ⟨_, e⟩
  · exact ⟨_, e⟩
  · exact ⟨_, e⟩
  · rcases h with ⟨_, _, e⟩ | ⟨_, _, e⟩ | ⟨_, _, e⟩ | ⟨_, _, _, e⟩ <;> exact ⟨_, e⟩

theorem issue_goes (h : Hdr) (slotB invalid : Bool) (s : State) (body : Tile → Act) :
    Goes (issue h slotB invalid s body) := by
  unfold issue
  split
  · exact ⟨_, rfl⟩
  · exact issueAny_goes h slotB invalid s body

/-- An instruction that issues answers by its body, a timed wait in progress or not (R77). -/
theorem issueAny_eq {s : State} {h : Hdr} (slotB : Bool) (body : Tile → Act) (hc : canIssue s h.t = true)
    (hu : h.unused = 0) (hg : (coreAt s h.t).guard h = true) (hw : (coreAt s h.t).reservedWord = none) :
    issueAny h slotB false s body =
      match body (s.tile (ckey h.t)) with
      | .fin t => .next (advance t h.t)
      | .go t => .next t
      | .stall w => .next (s.modCore h.t fun k => { k with wait := some w })
      | .exc code detail => .next (takeExc s h.t code (coreAt s h.t).pc.toNat slotB detail) := by
  simp only [issueAny, hc, hw, if_true, hu, bne_self_eq_false, Bool.or_false, hg, Bool.not_true, Bool.false_eq_true, if_false]
  cases body (s.tile (ckey h.t)) <;> simp [State.modCore, State.modTile]

/-- An instruction that issues answers by its body. -/
theorem issue_eq {s : State} {h : Hdr} (slotB : Bool) (body : Tile → Act) (hi : Issues s h) :
    issue h slotB false s body =
      match body (s.tile (ckey h.t)) with
      | .fin t => .next (advance t h.t)
      | .go t => .next t
      | .stall w => .next (s.modCore h.t fun k => { k with wait := some w })
      | .exc code detail => .next (takeExc s h.t code (coreAt s h.t).pc.toNat slotB detail) := by
  rw [← issueAny_eq slotB body hi.1 hi.2.2.1 hi.2.2.2.1 hi.2.2.2.2]
  simp [issue, hi.2.1]

/-- Moving past an instruction that stands in range (R56 to R58). -/
theorem advance_fits (s : State) (p : Coord) (h : (coreAt s p).fits) : advance s p = s.modCore p Core.past := by
  simp only [Core.fits, coreAt] at h
  simp only [advance, advanceAt, h, if_true, State.modCore, State.modTile, Core.past]

/-- Past the last index of instruction memory the next fetch raises PC_RANGE (R56). -/
theorem advance_range (s : State) (p : Coord) (h : ¬(coreAt s p).fits) :
    advance s p = takeExc s.draw.2 p 0x0A 8191 (Config.fetchFaultSlot s.draws) 0 := by
  simp only [Core.fits, coreAt] at h
  simp only [advance, advanceAt, h, if_false]

@[simp] theorem State.modCore_modCore (s : State) (p : Coord) (f g : Core → Core) :
    (s.modCore p f).modCore p g = s.modCore p fun k => g (f k) := by
  simp [State.modCore, State.modTile, State.setTile, State.tile]

/-- An instruction that changes only the issuing core, and leaves its place and its loops, completes (R56 to R58). -/
theorem issue_fin_modCore {s : State} {h : Hdr} (slotB : Bool) (body : Tile → Act) (f : Core → Core) (hi : Issues s h)
    (hb : body (s.tile (ckey h.t)) = .fin (s.modCore h.t f)) (hf : (f (coreAt s h.t)).fits) :
    issue h slotB false s body = .next (s.modCore h.t fun k => (f k).past) := by
  rw [issue_eq slotB body hi, hb]
  simp only
  rw [advance_fits, State.modCore_modCore]
  simpa [coreAt] using hf

@[simp] theorem Core.setS_fits (k : Core) (r : BitVec 5) (w : Word) : (k.setS r w).fits ↔ k.fits := by simp [Core.fits]
@[simp] theorem Core.setPred_fits (k : Core) (p : BitVec 3) (b : Bool) : (k.setPred p b).fits ↔ k.fits := by
  simp [Core.fits]
@[simp] theorem Core.setV_fits (k : Core) (r : Nat) (i : Item) : (k.setV r i).fits ↔ k.fits := by simp [Core.fits]

end Sys2Proof.Machine
end

