-- ==== Sys2Proof/Laws/Frame.lean ====
section
/-! SUPPORT. What a context stop and a tile exception leave alone, said once for each: a stop order writes the context, its
epoch, the pause entry and the admission (R323, R367 to R373); an exception also stops the tile and writes the record (R84). -/

namespace Sys2Proof.Machine

section
variable (s : State) (c : Nat) (x : Ctx) (cause : Nat) (target : Option DWord) (remap : List Nat)

@[simp] theorem abortAdm_pending : (abortAdm s cause).pending = s.pending := by simp [abortAdm]
@[simp] theorem abortAdm_tiles : (abortAdm s cause).tiles = s.tiles := by simp [abortAdm]
@[simp] theorem abortAdm_mesh : (abortAdm s cause).mesh = s.mesh := by simp [abortAdm]
@[simp] theorem abortAdm_mem : (abortAdm s cause).mem = s.mem := by simp [abortAdm]
@[simp] theorem abortAdm_excRec : (abortAdm s cause).excRec = s.excRec := by simp [abortAdm]
@[simp] theorem abortAdm_hangRec : (abortAdm s cause).hangRec = s.hangRec := by simp [abortAdm]
@[simp] theorem abortAdm_gleaner : (abortAdm s cause).gleaner = s.gleaner := by simp [abortAdm]
@[simp] theorem abortAdm_counts : (abortAdm s cause).counts = s.counts := by simp [abortAdm]
@[simp] theorem abortAdm_mer : (abortAdm s cause).mer = s.mer := by simp [abortAdm]
@[simp] theorem abortAdm_field : (abortAdm s cause).field = s.field := by simp [abortAdm]
@[simp] theorem abortAdm_clk : (abortAdm s cause).clk = s.clk := by simp [abortAdm]
@[simp] theorem abortAdm_pow : (abortAdm s cause).pow = s.pow := by simp [abortAdm]
@[simp] theorem abortAdm_fw : (abortAdm s cause).fw = s.fw := by simp [abortAdm]
@[simp] theorem abortAdm_boot : (abortAdm s cause).boot = s.boot := by simp [abortAdm]
@[simp] theorem abortAdm_ka : (abortAdm s cause).ka = s.ka := by simp [abortAdm]
@[simp] theorem abortAdm_sec : (abortAdm s cause).sec = s.sec := by simp [abortAdm]
@[simp] theorem abortAdm_factory : (abortAdm s cause).factory = s.factory := by simp [abortAdm]
@[simp] theorem abortAdm_draws : (abortAdm s cause).draws = s.draws := by simp [abortAdm]

@[simp] theorem clearPauseEntry_pending : (clearPauseEntry s c).pending = s.pending := rfl
@[simp] theorem clearPauseEntry_tiles : (clearPauseEntry s c).tiles = s.tiles := rfl
@[simp] theorem clearPauseEntry_mesh : (clearPauseEntry s c).mesh = s.mesh := rfl
@[simp] theorem clearPauseEntry_mem : (clearPauseEntry s c).mem = s.mem := rfl
@[simp] theorem clearPauseEntry_excRec : (clearPauseEntry s c).excRec = s.excRec := rfl
@[simp] theorem clearPauseEntry_hangRec : (clearPauseEntry s c).hangRec = s.hangRec := rfl
@[simp] theorem clearPauseEntry_gleaner : (clearPauseEntry s c).gleaner = s.gleaner := rfl
@[simp] theorem clearPauseEntry_counts : (clearPauseEntry s c).counts = s.counts := rfl
@[simp] theorem clearPauseEntry_mer : (clearPauseEntry s c).mer = s.mer := rfl
@[simp] theorem clearPauseEntry_field : (clearPauseEntry s c).field = s.field := rfl
@[simp] theorem clearPauseEntry_clk : (clearPauseEntry s c).clk = s.clk := rfl
@[simp] theorem clearPauseEntry_pow : (clearPauseEntry s c).pow = s.pow := rfl
@[simp] theorem clearPauseEntry_fw : (clearPauseEntry s c).fw = s.fw := rfl
@[simp] theorem clearPauseEntry_boot : (clearPauseEntry s c).boot = s.boot := rfl
@[simp] theorem clearPauseEntry_ka : (clearPauseEntry s c).ka = s.ka := rfl
@[simp] theorem clearPauseEntry_sec : (clearPauseEntry s c).sec = s.sec := rfl
@[simp] theorem clearPauseEntry_factory : (clearPauseEntry s c).factory = s.factory := rfl
@[simp] theorem clearPauseEntry_draws : (clearPauseEntry s c).draws = s.draws := rfl

@[simp] theorem beginReset_pending : (beginReset s c x cause target remap).pending = s.pending := by simp [beginReset]
@[simp] theorem beginReset_tiles : (beginReset s c x cause target remap).tiles = s.tiles := by simp [beginReset]
@[simp] theorem beginReset_mesh : (beginReset s c x cause target remap).mesh = s.mesh := by simp [beginReset]
@[simp] theorem beginReset_mem : (beginReset s c x cause target remap).mem = s.mem := by simp [beginReset]
@[simp] theorem beginReset_excRec : (beginReset s c x cause target remap).excRec = s.excRec := by simp [beginReset]
@[simp] theorem beginReset_hangRec : (beginReset s c x cause target remap).hangRec = s.hangRec := by simp [beginReset]
@[simp] theorem beginReset_gleaner : (beginReset s c x cause target remap).gleaner = s.gleaner := by simp [beginReset]
@[simp] theorem beginReset_counts : (beginReset s c x cause target remap).counts = s.counts := by simp [beginReset]
@[simp] theorem beginReset_mer : (beginReset s c x cause target remap).mer = s.mer := by simp [beginReset]
@[simp] theorem beginReset_field : (beginReset s c x cause target remap).field = s.field := by simp [beginReset]
@[simp] theorem beginReset_clk : (beginReset s c x cause target remap).clk = s.clk := by simp [beginReset]
@[simp] theorem beginReset_pow : (beginReset s c x cause target remap).pow = s.pow := by simp [beginReset]
@[simp] theorem beginReset_fw : (beginReset s c x cause target remap).fw = s.fw := by simp [beginReset]
@[simp] theorem beginReset_boot : (beginReset s c x cause target remap).boot = s.boot := by simp [beginReset]
@[simp] theorem beginReset_ka : (beginReset s c x cause target remap).ka = s.ka := by simp [beginReset]
@[simp] theorem beginReset_sec : (beginReset s c x cause target remap).sec = s.sec := by simp [beginReset]
@[simp] theorem beginReset_factory : (beginReset s c x cause target remap).factory = s.factory := by simp [beginReset]
@[simp] theorem beginReset_draws : (beginReset s c x cause target remap).draws = s.draws := by simp [beginReset]

@[simp] theorem mergeCause_pending : (mergeCause s c x cause target remap).pending = s.pending := by
  unfold mergeCause; dsimp only; split <;> (try split) <;> (try split) <;> simp
@[simp] theorem mergeCause_tiles : (mergeCause s c x cause target remap).tiles = s.tiles := by
  unfold mergeCause; dsimp only; split <;> (try split) <;> (try split) <;> simp
@[simp] theorem mergeCause_mesh : (mergeCause s c x cause target remap).mesh = s.mesh := by
  unfold mergeCause; dsimp only; split <;> (try split) <;> (try split) <;> simp
@[simp] theorem mergeCause_mem : (mergeCause s c x cause target remap).mem = s.mem := by
  unfold mergeCause; dsimp only; split <;> (try split) <;> (try split) <;> simp
@[simp] theorem mergeCause_excRec : (mergeCause s c x cause target remap).excRec = s.excRec := by
  unfold mergeCause; dsimp only; split <;> (try split) <;> (try split) <;> simp
@[simp] theorem mergeCause_hangRec : (mergeCause s c x cause target remap).hangRec = s.hangRec := by
  unfold mergeCause; dsimp only; split <;> (try split) <;> (try split) <;> simp
@[simp] theorem mergeCause_gleaner : (mergeCause s c x cause target remap).gleaner = s.gleaner := by
  unfold mergeCause; dsimp only; split <;> (try split) <;> (try split) <;> simp
@[simp] theorem mergeCause_counts : (mergeCause s c x cause target remap).counts = s.counts := by
  unfold mergeCause; dsimp only; split <;> (try split) <;> (try split) <;> simp
@[simp] theorem mergeCause_mer : (mergeCause s c x cause target remap).mer = s.mer := by
  unfold mergeCause; dsimp only; split <;> (try split) <;> (try split) <;> simp
@[simp] theorem mergeCause_field : (mergeCause s c x cause target remap).field = s.field := by
  unfold mergeCause; dsimp only; split <;> (try split) <;> (try split) <;> simp
@[simp] theorem mergeCause_clk : (mergeCause s c x cause target remap).clk = s.clk := by
  unfold mergeCause; dsimp only; split <;> (try split) <;> (try split) <;> simp
@[simp] theorem mergeCause_pow : (mergeCause s c x cause target remap).pow = s.pow := by
  unfold mergeCause; dsimp only; split <;> (try split) <;> (try split) <;> simp
@[simp] theorem mergeCause_fw : (mergeCause s c x cause target remap).fw = s.fw := by
  unfold mergeCause; dsimp only; split <;> (try split) <;> (try split) <;> simp
@[simp] theorem mergeCause_boot : (mergeCause s c x cause target remap).boot = s.boot := by
  unfold mergeCause; dsimp only; split <;> (try split) <;> (try split) <;> simp
@[simp] theorem mergeCause_ka : (mergeCause s c x cause target remap).ka = s.ka := by
  unfold mergeCause; dsimp only; split <;> (try split) <;> (try split) <;> simp
@[simp] theorem mergeCause_sec : (mergeCause s c x cause target remap).sec = s.sec := by
  unfold mergeCause; dsimp only; split <;> (try split) <;> (try split) <;> simp
@[simp] theorem mergeCause_factory : (mergeCause s c x cause target remap).factory = s.factory := by
  unfold mergeCause; dsimp only; split <;> (try split) <;> (try split) <;> simp
@[simp] theorem mergeCause_draws : (mergeCause s c x cause target remap).draws = s.draws := by
  unfold mergeCause; dsimp only; split <;> (try split) <;> (try split) <;> simp

@[simp] theorem stopState_pending : (stopState s c x cause target remap).pending = s.pending := by
  unfold stopState; split <;> (try split) <;> simp
@[simp] theorem stopState_tiles : (stopState s c x cause target remap).tiles = s.tiles := by
  unfold stopState; split <;> (try split) <;> simp
@[simp] theorem stopState_mesh : (stopState s c x cause target remap).mesh = s.mesh := by
  unfold stopState; split <;> (try split) <;> simp
@[simp] theorem stopState_mem : (stopState s c x cause target remap).mem = s.mem := by
  unfold stopState; split <;> (try split) <;> simp
@[simp] theorem stopState_excRec : (stopState s c x cause target remap).excRec = s.excRec := by
  unfold stopState; split <;> (try split) <;> simp
@[simp] theorem stopState_hangRec : (stopState s c x cause target remap).hangRec = s.hangRec := by
  unfold stopState; split <;> (try split) <;> simp
@[simp] theorem stopState_gleaner : (stopState s c x cause target remap).gleaner = s.gleaner := by
  unfold stopState; split <;> (try split) <;> simp
@[simp] theorem stopState_counts : (stopState s c x cause target remap).counts = s.counts := by
  unfold stopState; split <;> (try split) <;> simp
@[simp] theorem stopState_mer : (stopState s c x cause target remap).mer = s.mer := by
  unfold stopState; split <;> (try split) <;> simp
@[simp] theorem stopState_field : (stopState s c x cause target remap).field = s.field := by
  unfold stopState; split <;> (try split) <;> simp
@[simp] theorem stopState_clk : (stopState s c x cause target remap).clk = s.clk := by
  unfold stopState; split <;> (try split) <;> simp
@[simp] theorem stopState_pow : (stopState s c x cause target remap).pow = s.pow := by
  unfold stopState; split <;> (try split) <;> simp
@[simp] theorem stopState_fw : (stopState s c x cause target remap).fw = s.fw := by
  unfold stopState; split <;> (try split) <;> simp
@[simp] theorem stopState_boot : (stopState s c x cause target remap).boot = s.boot := by
  unfold stopState; split <;> (try split) <;> simp
@[simp] theorem stopState_ka : (stopState s c x cause target remap).ka = s.ka := by
  unfold stopState; split <;> (try split) <;> simp
@[simp] theorem stopState_sec : (stopState s c x cause target remap).sec = s.sec := by
  unfold stopState; split <;> (try split) <;> simp
@[simp] theorem stopState_factory : (stopState s c x cause target remap).factory = s.factory := by
  unfold stopState; split <;> (try split) <;> simp
@[simp] theorem stopState_draws : (stopState s c x cause target remap).draws = s.draws := by
  unfold stopState; split <;> (try split) <;> simp

@[simp] theorem stopCtx_pending : (stopCtx s c cause target remap).pending = s.pending := by
  unfold stopCtx; split <;> (try split) <;> simp
@[simp] theorem stopCtx_tiles : (stopCtx s c cause target remap).tiles = s.tiles := by
  unfold stopCtx; split <;> (try split) <;> simp
@[simp] theorem stopCtx_mesh : (stopCtx s c cause target remap).mesh = s.mesh := by
  unfold stopCtx; split <;> (try split) <;> simp
@[simp] theorem stopCtx_mem : (stopCtx s c cause target remap).mem = s.mem := by
  unfold stopCtx; split <;> (try split) <;> simp
@[simp] theorem stopCtx_excRec : (stopCtx s c cause target remap).excRec = s.excRec := by
  unfold stopCtx; split <;> (try split) <;> simp
@[simp] theorem stopCtx_hangRec : (stopCtx s c cause target remap).hangRec = s.hangRec := by
  unfold stopCtx; split <;> (try split) <;> simp
@[simp] theorem stopCtx_gleaner : (stopCtx s c cause target remap).gleaner = s.gleaner := by
  unfold stopCtx; split <;> (try split) <;> simp
@[simp] theorem stopCtx_counts : (stopCtx s c cause target remap).counts = s.counts := by
  unfold stopCtx; split <;> (try split) <;> simp
@[simp] theorem stopCtx_mer : (stopCtx s c cause target remap).mer = s.mer := by
  unfold stopCtx; split <;> (try split) <;> simp
@[simp] theorem stopCtx_field : (stopCtx s c cause target remap).field = s.field := by
  unfold stopCtx; split <;> (try split) <;> simp
@[simp] theorem stopCtx_clk : (stopCtx s c cause target remap).clk = s.clk := by
  unfold stopCtx; split <;> (try split) <;> simp
@[simp] theorem stopCtx_pow : (stopCtx s c cause target remap).pow = s.pow := by
  unfold stopCtx; split <;> (try split) <;> simp
@[simp] theorem stopCtx_fw : (stopCtx s c cause target remap).fw = s.fw := by
  unfold stopCtx; split <;> (try split) <;> simp
@[simp] theorem stopCtx_boot : (stopCtx s c cause target remap).boot = s.boot := by
  unfold stopCtx; split <;> (try split) <;> simp
@[simp] theorem stopCtx_ka : (stopCtx s c cause target remap).ka = s.ka := by
  unfold stopCtx; split <;> (try split) <;> simp
@[simp] theorem stopCtx_sec : (stopCtx s c cause target remap).sec = s.sec := by
  unfold stopCtx; split <;> (try split) <;> simp
@[simp] theorem stopCtx_factory : (stopCtx s c cause target remap).factory = s.factory := by
  unfold stopCtx; split <;> (try split) <;> simp
@[simp] theorem stopCtx_draws : (stopCtx s c cause target remap).draws = s.draws := by
  unfold stopCtx; split <;> (try split) <;> simp

end

section
variable (s : State) (p : Coord) (code pc : Nat) (slotB : Bool) (detail : Nat)

@[simp] theorem takeExc_pending : (takeExc s p code pc slotB detail).pending = s.pending := by
  unfold takeExc; split <;> (try split) <;> simp
@[simp] theorem takeExc_mesh : (takeExc s p code pc slotB detail).mesh = s.mesh := by
  unfold takeExc; split <;> (try split) <;> simp
@[simp] theorem takeExc_mem : (takeExc s p code pc slotB detail).mem = s.mem := by
  unfold takeExc; split <;> (try split) <;> simp
@[simp] theorem takeExc_hangRec : (takeExc s p code pc slotB detail).hangRec = s.hangRec := by
  unfold takeExc; split <;> (try split) <;> simp
@[simp] theorem takeExc_gleaner : (takeExc s p code pc slotB detail).gleaner = s.gleaner := by
  unfold takeExc; split <;> (try split) <;> simp
@[simp] theorem takeExc_counts : (takeExc s p code pc slotB detail).counts = s.counts := by
  unfold takeExc; split <;> (try split) <;> simp
@[simp] theorem takeExc_mer : (takeExc s p code pc slotB detail).mer = s.mer := by
  unfold takeExc; split <;> (try split) <;> simp
@[simp] theorem takeExc_field : (takeExc s p code pc slotB detail).field = s.field := by
  unfold takeExc; split <;> (try split) <;> simp
@[simp] theorem takeExc_clk : (takeExc s p code pc slotB detail).clk = s.clk := by
  unfold takeExc; split <;> (try split) <;> simp
@[simp] theorem takeExc_pow : (takeExc s p code pc slotB detail).pow = s.pow := by
  unfold takeExc; split <;> (try split) <;> simp
@[simp] theorem takeExc_fw : (takeExc s p code pc slotB detail).fw = s.fw := by
  unfold takeExc; split <;> (try split) <;> simp
@[simp] theorem takeExc_boot : (takeExc s p code pc slotB detail).boot = s.boot := by
  unfold takeExc; split <;> (try split) <;> simp
@[simp] theorem takeExc_ka : (takeExc s p code pc slotB detail).ka = s.ka := by
  unfold takeExc; split <;> (try split) <;> simp
@[simp] theorem takeExc_sec : (takeExc s p code pc slotB detail).sec = s.sec := by
  unfold takeExc; split <;> (try split) <;> simp
@[simp] theorem takeExc_factory : (takeExc s p code pc slotB detail).factory = s.factory := by
  unfold takeExc; split <;> (try split) <;> simp
@[simp] theorem takeExc_draws : (takeExc s p code pc slotB detail).draws = s.draws := by
  unfold takeExc; split <;> (try split) <;> simp

/-- Every other tile is as before an exception. -/
theorem takeExc_tile_other (k : Nat) (h : k ≠ ckey p) : (takeExc s p code pc slotB detail).tile k = s.tile k := by
  unfold takeExc State.tile
  split
  · rfl
  · split <;> simp [State.modTile, State.setTile, mget_mput, h]

@[simp] theorem advanceAt_pending : (advanceAt s p pc).pending = s.pending := by
  unfold advanceAt; dsimp only; split <;> simp
@[simp] theorem advance_pending : (advance s p).pending = s.pending := by simp [advance]
@[simp] theorem advanceAt_mesh : (advanceAt s p pc).mesh = s.mesh := by
  unfold advanceAt; dsimp only; split <;> simp
@[simp] theorem advance_mesh : (advance s p).mesh = s.mesh := by simp [advance]
@[simp] theorem advanceAt_mem : (advanceAt s p pc).mem = s.mem := by
  unfold advanceAt; dsimp only; split <;> simp
@[simp] theorem advance_mem : (advance s p).mem = s.mem := by simp [advance]
@[simp] theorem advanceAt_hangRec : (advanceAt s p pc).hangRec = s.hangRec := by
  unfold advanceAt; dsimp only; split <;> simp
@[simp] theorem advance_hangRec : (advance s p).hangRec = s.hangRec := by simp [advance]
@[simp] theorem advanceAt_gleaner : (advanceAt s p pc).gleaner = s.gleaner := by
  unfold advanceAt; dsimp only; split <;> simp
@[simp] theorem advance_gleaner : (advance s p).gleaner = s.gleaner := by simp [advance]
@[simp] theorem advanceAt_counts : (advanceAt s p pc).counts = s.counts := by
  unfold advanceAt; dsimp only; split <;> simp
@[simp] theorem advance_counts : (advance s p).counts = s.counts := by simp [advance]
@[simp] theorem advanceAt_mer : (advanceAt s p pc).mer = s.mer := by
  unfold advanceAt; dsimp only; split <;> simp
@[simp] theorem advance_mer : (advance s p).mer = s.mer := by simp [advance]
@[simp] theorem advanceAt_field : (advanceAt s p pc).field = s.field := by
  unfold advanceAt; dsimp only; split <;> simp
@[simp] theorem advance_field : (advance s p).field = s.field := by simp [advance]
@[simp] theorem advanceAt_clk : (advanceAt s p pc).clk = s.clk := by
  unfold advanceAt; dsimp only; split <;> simp
@[simp] theorem advance_clk : (advance s p).clk = s.clk := by simp [advance]
@[simp] theorem advanceAt_pow : (advanceAt s p pc).pow = s.pow := by
  unfold advanceAt; dsimp only; split <;> simp
@[simp] theorem advance_pow : (advance s p).pow = s.pow := by simp [advance]
@[simp] theorem advanceAt_fw : (advanceAt s p pc).fw = s.fw := by
  unfold advanceAt; dsimp only; split <;> simp
@[simp] theorem advance_fw : (advance s p).fw = s.fw := by simp [advance]
@[simp] theorem advanceAt_boot : (advanceAt s p pc).boot = s.boot := by
  unfold advanceAt; dsimp only; split <;> simp
@[simp] theorem advance_boot : (advance s p).boot = s.boot := by simp [advance]
@[simp] theorem advanceAt_ka : (advanceAt s p pc).ka = s.ka := by
  unfold advanceAt; dsimp only; split <;> simp
@[simp] theorem advance_ka : (advance s p).ka = s.ka := by simp [advance]
@[simp] theorem advanceAt_sec : (advanceAt s p pc).sec = s.sec := by
  unfold advanceAt; dsimp only; split <;> simp
@[simp] theorem advance_sec : (advance s p).sec = s.sec := by simp [advance]
@[simp] theorem advanceAt_factory : (advanceAt s p pc).factory = s.factory := by
  unfold advanceAt; dsimp only; split <;> simp
@[simp] theorem advance_factory : (advance s p).factory = s.factory := by simp [advance]

/-- Every other tile is as before when a program counter moves. -/
theorem advance_tile_other (k : Nat) (h : k ≠ ckey p) : (advance s p).tile k = s.tile k := by
  unfold advance advanceAt
  dsimp only
  split
  · simp [State.tile, State.setTile, mget_mput, h]
  · rw [takeExc_tile_other _ _ _ _ _ _ _ h]; rfl

end

end Sys2Proof.Machine
end

