-- ==== Sys2Proof/Laws/Memory.lean ====
section
/-! SUPPORT. Byte memories: a byte read after a write is the byte written, a write leaves every other byte alone, and every
memory operation keeps the canonical form. -/

namespace Sys2Proof.Machine

open Host

/-! ### Reads and writes -/

theorem cellGet_cellPut (m : List Cell) (a j : Nat) (b : Byte) :
    cellGet (cellPut m a b) j = if j = a then b else cellGet m j := mget_mset m 0 b a j

theorem cellGet_cellWrite_outside (bs : List Byte) (m : List Cell) (a j : Nat) (h : j < a ∨ a + bs.length ≤ j) :
    cellGet (cellWrite m a bs) j = cellGet m j := by
  induction bs generalizing m a with
  | nil => rfl
  | cons b t ih =>
    simp only [List.length_cons] at h
    rw [cellWrite, ih _ _ (by omega), cellGet_cellPut, if_neg (by omega)]

theorem cellGet_cellWrite_inside (bs : List Byte) (m : List Cell) (a i : Nat) (h : i < bs.length) :
    cellGet (cellWrite m a bs) (a + i) = bs[i] := by
  induction bs generalizing m a i with
  | nil => simp at h
  | cons b t ih =>
    cases i with
    | zero => rw [cellWrite, Nat.add_zero, cellGet_cellWrite_outside _ _ _ _ (by omega), cellGet_cellPut]; simp
    | succ i =>
      rw [cellWrite]
      have e : a + (i + 1) = a + 1 + i := by omega
      rw [e, ih _ _ _ (by simpa using h)]; rfl

theorem cellRead_length (m : List Cell) (a n : Nat) : (cellRead m a n).length = n := by
  induction n generalizing a with
  | zero => rfl
  | succ n ih => simp [cellRead, ih]

theorem cellRead_cellWrite (m : List Cell) (a : Nat) (bs : List Byte) : cellRead (cellWrite m a bs) a bs.length = bs := by
  induction bs generalizing m a with
  | nil => rfl
  | cons b t ih =>
    simp only [List.length_cons, cellRead, cellWrite, ih]
    rw [cellGet_cellWrite_outside _ _ _ _ (by omega), cellGet_cellPut, if_pos rfl]

theorem mget_filter (m : List Cell) (p : Nat → Bool) (j : Nat) :
    mget (m.filter fun c => p c.1) (0 : Byte) j = if p j then mget m 0 j else 0 := by
  induction m with
  | nil => simp [mget]
  | cons c t ih =>
    obtain ⟨a, b⟩ := c
    by_cases ha : p a
    · simp only [List.filter_cons, ha, if_true, mget, ih]
      by_cases h : a = j
      · subst h; simp [ha]
      · simp [h]
    · have e : List.filter (fun c : Cell => p c.1) ((a, b) :: t) = t.filter fun c => p c.1 := by simp [ha]
      rw [e, ih]
      by_cases h : a = j
      · subst h; simp [ha]
      · simp [mget, h]

theorem cellGet_cellClear (m : List Cell) (a n j : Nat) :
    cellGet (cellClear m a n) j = if j < a ∨ a + n ≤ j then cellGet m j else 0 := by
  have h := mget_filter m (fun k => decide (k < a) || decide (a + n ≤ k)) j
  simpa [cellGet, cellClear] using h

/-! ### The canonical form -/

/-- The canonical form in words: addresses strictly rising, and no zero byte listed. -/
theorem cellsWf_iff (m : List Cell) : cellsWf m = true ↔ m.Pairwise (fun c d => c.1 < d.1) ∧ ∀ c ∈ m, c.2 ≠ 0 := by
  induction m with
  | nil => simp [cellsWf]
  | cons c t ih =>
    cases t with
    | nil => simp [cellsWf]
    | cons d u =>
      simp only [cellsWf, Bool.and_eq_true, bne_iff_ne, decide_eq_true_eq, ih, List.pairwise_cons, List.mem_cons,
        forall_eq_or_imp]
      constructor
      · rintro ⟨⟨h0, h1⟩, ⟨h2, h3⟩, h4, h5⟩
        exact ⟨⟨⟨h1, fun x hx => Nat.lt_trans h1 (h2 x hx)⟩, h2, h3⟩, h0, h4, h5⟩
      · rintro ⟨⟨⟨h1, h2⟩, h3, h4⟩, h0, h5, h6⟩
        exact ⟨⟨h0, h1⟩, ⟨h3, h4⟩, h5, h6⟩

theorem mem_mput {α : Type} (m : AMap α) (k : Nat) (v : α) (c : Nat × α) (h : c ∈ mput m k v) : c = (k, v) ∨ c ∈ m := by
  induction m with
  | nil => simpa [mput] using h
  | cons p t ih =>
    obtain ⟨a, w⟩ := p
    simp only [mput] at h
    split at h
    · simpa using h
    · split at h
      · simp only [List.mem_cons] at h ⊢; tauto
      · simp only [List.mem_cons] at h ⊢; rcases h with h | h
        · tauto
        · rcases ih h with h | h <;> tauto

/-- A write keeps the keys of a table strictly rising. -/
theorem mput_pairwise {α : Type} (m : AMap α) (k : Nat) (v : α) (h : m.Pairwise (fun c d => c.1 < d.1)) :
    (mput m k v).Pairwise (fun c d => c.1 < d.1) := by
  induction m with
  | nil => simp [mput]
  | cons p t ih =>
    obtain ⟨a, w⟩ := p
    rw [List.pairwise_cons] at h
    simp only [mput]
    split
    · rename_i hk
      rw [List.pairwise_cons, List.pairwise_cons]
      refine ⟨fun c hc => ?_, h⟩
      rcases List.mem_cons.1 hc with hc | hc
      · subst hc; exact hk
      · exact Nat.lt_trans hk (h.1 c hc)
    · split
      · subst_vars; exact List.pairwise_cons.2 h
      · refine List.pairwise_cons.2 ⟨fun c hc => ?_, ih h.2⟩
        rcases mem_mput t k v c hc with hc | hc
        · subst hc; simp only; omega
        · exact h.1 c hc

theorem mdel_sublist {α : Type} (m : AMap α) (k : Nat) : (mdel m k).Sublist m := by
  induction m with
  | nil => simp [mdel]
  | cons p t ih =>
    obtain ⟨a, w⟩ := p
    simp only [mdel]
    split
    · exact ih.cons _
    · exact ih.cons_cons _

theorem cellsWf_sublist {m n : List Cell} (h : n.Sublist m) (hm : cellsWf m = true) : cellsWf n = true := by
  rw [cellsWf_iff] at hm ⊢
  exact ⟨hm.1.sublist h, fun c hc => hm.2 c (h.subset hc)⟩

/-- A byte write keeps the canonical form. -/
theorem cellsWf_cellPut {m : List Cell} (a : Nat) (b : Byte) (hm : cellsWf m = true) : cellsWf (cellPut m a b) = true := by
  unfold cellPut mset
  split
  · exact cellsWf_sublist (mdel_sublist m a) hm
  · rename_i hb
    rw [cellsWf_iff] at hm ⊢
    refine ⟨mput_pairwise m a b hm.1, fun c hc => ?_⟩
    rcases mem_mput m a b c hc with hc | hc
    · subst hc; exact hb
    · exact hm.2 c hc

/-- A write of bytes keeps the canonical form. -/
theorem cellsWf_cellWrite (bs : List Byte) {m : List Cell} (a : Nat) (hm : cellsWf m = true) :
    cellsWf (cellWrite m a bs) = true := by
  induction bs generalizing m a with
  | nil => exact hm
  | cons b t ih => exact ih (a + 1) (cellsWf_cellPut a b hm)

theorem cellsWf_filter {m : List Cell} (p : Cell → Bool) (hm : cellsWf m = true) : cellsWf (m.filter p) = true :=
  cellsWf_sublist List.filter_sublist hm

/-- Clearing bytes keeps the canonical form. -/
theorem cellsWf_cellClear {m : List Cell} (a n : Nat) (hm : cellsWf m = true) : cellsWf (cellClear m a n) = true :=
  cellsWf_filter _ hm

/-- A fold of byte writes keeps the canonical form. -/
theorem cellsWf_foldl_cellPut {β : Type} (l : List β) (f : List Cell → β → List Cell)
    (hf : ∀ m x, cellsWf m = true → cellsWf (f m x) = true) {m : List Cell} (hm : cellsWf m = true) :
    cellsWf (l.foldl f m) = true := by
  induction l generalizing m with
  | nil => exact hm
  | cons x t ih => exact ih (hf m x hm)

/-- Equal contents are equal memories: two memories in canonical form that agree at every address are the same list. -/
theorem cells_ext {m n : List Cell} (hm : cellsWf m = true) (hn : cellsWf n = true)
    (h : ∀ a, cellGet m a = cellGet n a) : m = n := by
  have key : ∀ (l : List Cell), cellsWf l = true → ∀ c : Cell, c ∈ l ↔ (cellGet l c.1 = c.2 ∧ c.2 ≠ 0) := by
    intro l hl c
    rw [cellsWf_iff] at hl
    induction l with
    | nil => simp [cellGet, mget]; exact fun h => h.symm
    | cons d t ih =>
      obtain ⟨a, b⟩ := d
      obtain ⟨k, v⟩ := c
      have h1 := List.pairwise_cons.1 hl.1
      have ih := ih ⟨h1.2, fun c hc => hl.2 c (List.mem_cons_of_mem _ hc)⟩
      have hb : b ≠ 0 := hl.2 (a, b) (by simp)
      simp only [cellGet, mget, List.mem_cons, Prod.mk.injEq] at ih ⊢
      by_cases hk : a = k
      · subst hk
        simp only [if_true, true_and]
        constructor
        · rintro (h | h)
          · exact ⟨h.symm, h ▸ hb⟩
          · exact absurd (h1.1 _ h) (by simp)
        · rintro ⟨h, _⟩; exact Or.inl h.symm
      · simp only [if_neg hk, Ne.symm hk, false_and, false_or]; exact ih
  have p1 := ((cellsWf_iff m).1 hm).1
  have p2 := ((cellsWf_iff n).1 hn).1
  have nd : ∀ (l : List Cell), l.Pairwise (fun c d => c.1 < d.1) → l.Nodup := fun l hl =>
    hl.imp (fun h e => by subst e; exact absurd h (Nat.lt_irrefl _))
  have pm : m.Perm n := (List.perm_ext_iff_of_nodup (nd m p1) (nd n p2)).2 fun c => by rw [key m hm, key n hn, h]
  exact pm.eq_of_pairwise (fun a b _ _ h1 h2 => absurd (Nat.lt_trans h1 h2) (Nat.lt_irrefl _)) p1 p2

/-- The module at reset lists no memory. -/
theorem reset_memory_wf : Memory.wf State.reset = true := rfl

/-- A line written keeps local memory canonical. -/
theorem putLine_wf (s : State) (a : Nat) (bs : List Byte) (h : Memory.wf s = true) : Memory.wf (putLine s a bs) = true :=
  cellsWf_cellWrite bs a h

end Sys2Proof.Machine
end

