-- ==== Sys2Proof/WellFormed.lean ====
section
/-! DEFINITION. Which commands are well formed: every number that names a part of the module names one that exists. A meaning
is defined for every command; a statement about one kind of command may assume it well formed. -/

namespace Sys2Proof

/-- A logical coordinate of the full grid (R21). -/
def Coord.wf (c : Coord) : Bool := c.x < 112 && c.y < 48

/-- The issuing tile exists. -/
def Hdr.wf (h : Hdr) : Bool := h.t.wf

/-- A context number (R32). -/
def ctxOk (c : Nat) : Bool := c < 16

/-- A link number (R26). -/
def linkOk (l : Nat) : Bool := l < 32

/-- A physical tile: 60 positions in each of 50 rows of two dies (R27). -/
def physOk (p : Nat) : Bool := p < 6000

/-- A channel of main memory (R26). -/
def chanOk (ch : Nat) : Bool := ch < 192

/-- A stripe of main memory (R26). -/
def stripeOk (s : Nat) : Bool := s < 16

/-- The lines that a command's checks name lie in main memory (R262). -/
def errsOk (l : List LineCheck) : Bool := l.all fun k => chanOk k.ch && k.row < 201326592

/-- A packet carries one poison bit a line and no more than 64 lines (R307). -/
def Packet.wf (p : Packet) : Bool := p.data.length == p.poison.length && p.data.length ≤ 64

/-- A frame's packets are packets. -/
def LinkFrame.wf (f : LinkFrame) : Bool := f.packets.all Packet.wf

/-- A hop of a circuit stands at a tile. -/
def CircuitHop.wf (h : CircuitHop) : Bool := h.at_.wf

/-- A Meridian payload (R424). -/
def payloadOk (d : List (BitVec 8)) : Bool := d.length ≤ 65536

/-- A tile's reduction table has at most 32 entries (R248). -/
def redOk (r : List (BitVec 64)) : Bool := r.length ≤ 32

/-- Reduction tables of tiles. -/
def redsOk (r : List (Nat × List (BitVec 64))) : Bool := r.all fun p => redOk p.2

/-- A well-formed command. -/
def Instr.wf (i : Instr) : Bool :=
  match i with
  | .add h _ _ _ => h.wf
  | .sub h _ _ _ => h.wf
  | .and h _ _ _ => h.wf
  | .or h _ _ _ => h.wf
  | .xor h _ _ _ => h.wf
  | .shl h _ _ _ => h.wf
  | .shr h _ _ _ => h.wf
  | .sra h _ _ _ => h.wf
  | .slt h _ _ _ => h.wf
  | .sltu h _ _ _ => h.wf
  | .min h _ _ _ => h.wf
  | .max h _ _ _ => h.wf
  | .mul h _ _ _ => h.wf
  | .mulhu h _ _ _ => h.wf
  | .mulhs h _ _ _ => h.wf
  | .addi h _ _ _ => h.wf
  | .andi h _ _ _ => h.wf
  | .ori h _ _ _ => h.wf
  | .xori h _ _ _ => h.wf
  | .shli h _ _ _ => h.wf
  | .shri h _ _ _ => h.wf
  | .srai h _ _ _ => h.wf
  | .slti h _ _ _ => h.wf
  | .lui h _ _ => h.wf
  | .cmpEq h _ _ _ _ => h.wf
  | .cmpNe h _ _ _ _ => h.wf
  | .cmpLt h _ _ _ _ => h.wf
  | .cmpGe h _ _ _ _ => h.wf
  | .cmpLtu h _ _ _ _ => h.wf
  | .cmpGeu h _ _ _ _ => h.wf
  | .br h _ => h.wf
  | .call h _ => h.wf
  | .jr h _ => h.wf
  | .ret h => h.wf
  | .loop h _ _ _ _ => h.wf
  | .ld32 h _ _ _ => h.wf
  | .ld16u h _ _ _ => h.wf
  | .ld16s h _ _ _ => h.wf
  | .ld8u h _ _ _ => h.wf
  | .ld8s h _ _ _ => h.wf
  | .st32 h _ _ _ => h.wf
  | .st16 h _ _ _ => h.wf
  | .st8 h _ _ _ => h.wf
  | .vld h _ _ _ => h.wf
  | .vst h _ _ _ => h.wf
  | .vadd h _ _ _ => h.wf
  | .vsub h _ _ _ => h.wf
  | .vmul h _ _ _ => h.wf
  | .vfma h _ _ _ => h.wf
  | .vfms h _ _ _ => h.wf
  | .vmax h _ _ _ => h.wf
  | .vmin h _ _ _ => h.wf
  | .vabs h _ _ _ => h.wf
  | .vneg h _ _ _ => h.wf
  | .vcmplt h _ _ _ => h.wf
  | .vcmpeq h _ _ _ => h.wf
  | .vsel h _ _ _ => h.wf
  | .vand h _ _ _ => h.wf
  | .vor h _ _ _ => h.wf
  | .vxor h _ _ _ => h.wf
  | .vmov h _ _ _ => h.wf
  | .vaddi h _ _ _ => h.wf
  | .vsubi h _ _ _ => h.wf
  | .vexp h _ _ _ _ => h.wf
  | .vlog h _ _ _ _ => h.wf
  | .vrsqrt h _ _ _ _ => h.wf
  | .vrcp h _ _ _ _ => h.wf
  | .vredsum h _ _ _ _ => h.wf
  | .vredmax h _ _ _ _ => h.wf
  | .vredmin h _ _ _ _ => h.wf
  | .vcvt h _ _ _ _ => h.wf
  | .vcvtsr h _ _ _ _ => h.wf
  | .qrecv h _ _ _ => h.wf
  | .qsend h _ _ _ => h.wf
  | .qcount h _ _ _ => h.wf
  | .qwait h _ _ _ => h.wf
  | .vbcast h _ _ _ => h.wf
  | .vext h _ _ _ => h.wf
  | .vins h _ _ _ => h.wf
  | .mcfgFormat h _ => h.wf
  | .mcfgDrain h _ => h.wf
  | .mcfgElementBase h _ => h.wf
  | .mld h _ _ _ => h.wf
  | .mswap h => h.wf
  | .mmul h _ _ _ _ _ _ => h.wf
  | .mdrain h _ _ _ _ _ _ => h.wf
  | .msync h => h.wf
  | .mramp h _ => h.wf
  | .dma h _ => h.wf
  | .dwait h _ _ => h.wf
  | .dwaitt h _ _ _ _ => h.wf
  | .dclr h _ => h.wf
  | .msend h _ _ => h.wf
  | .mrecv h _ _ => h.wf
  | .mwait h _ _ _ => h.wf
  | .nop h => h.wf
  | .csrr h _ _ => h.wf
  | .csrw h _ _ => h.wf
  | .fallow h => h.wf
  | .stepend h => h.wf
  | .secend h => h.wf
  | .gatherWritebackTimeout t _ => t.wf
  | .binScrubRead t => t.wf
  | .binSpaceAccessArrive _ => true
  | .dmaTransactionIssue t _ => t.wf
  | .dmaReplyArrive _ => true
  | .dmaErrorReplyArrive _ => true
  | .messageArrive _ => true
  | .messageCreditArrive _ => true
  | .timedWaitExpiry t => t.wf
  | .matrixDispatch t => t.wf
  | .mldComplete t => t.wf
  | .mmulRowEnter t => t.wf
  | .witnessVerdict t _ _ => t.wf
  | .accumulatorUpdate t => t.wf
  | .mdrainRowRead t => t.wf
  | .arrayLevelStep t => t.wf
  | .dummyPass t _ => t.wf
  | .moveQuiesced t => t.wf
  | .binCopyComplete t => t.wf
  | .moveResume t => t.wf
  | .channelItemArrive _ => true
  | .channelCreditArrive _ => true
  | .tokenPass t _ => t.wf
  | .tokenDrop t _ => t.wf
  | .tokenRepeat t _ => t.wf
  | .steerItemMove t _ => t.wf
  | .sectionEnd c reds errs => ctxOk c && redsOk reds && errsOk errs
  | .sectionEntry t => t.wf
  | .blockedReport t => t.wf
  | .waitGraphReport t => t.wf
  | .spillOrder c => ctxOk c
  | .spillEnter t _ => t.wf
  | .spillTransferComplete t _ => t.wf
  | .contextPauseRequest _ c _ => ctxOk c
  | .contextResumeRequest _ c _ => ctxOk c
  | .contextPauseReached c => ctxOk c
  | .pauseDeadlineExpiry c => ctxOk c
  | .fallowGapLate t => t.wf
  | .flitForward _ => true
  | .flitHopNak _ _ => true
  | .escapeTablesLoaded => true
  | .flitAgeTick _ => true
  | .escapeEntry _ => true
  | .injectionThrottleOnset t _ => t.wf
  | .injectionThrottleLift t _ => t.wf
  | .managementPacketAccept _ => true
  | .barrierArrive t => t.wf
  | .barrierRelease c => ctxOk c
  | .circuitEnable _ path => path.all CircuitHop.wf
  | .circuitFlitCopy _ => true
  | .reduceCombine t _ => t.wf
  | .bcastCopy t _ => t.wf
  | .bcastCredit t _ => t.wf
  | .throttleStep _ => true
  | .deepThrottleApply _ => true
  | .granaryRequestAccept _ => true
  | .granaryLineRead _ errs => errsOk errs
  | .granaryRowWrite _ errs => errsOk errs
  | .channelResponseTimeout ch => chanOk ch
  | .channelRetire ch _ => chanOk ch
  | .granaryScrubRow stripe errs => stripeOk stripe && errsOk errs
  | .pageCopyComplete c _ errs => ctxOk c && errsOk errs
  | .stepBoundaryBegin c => ctxOk c
  | .versionCommit c => ctxOk c
  | .tallySeal c _ => ctxOk c
  | .stepStart c => ctxOk c
  | .captureLineDigest t => t.wf
  | .tallyEntryEvict t => t.wf
  | .linkFrameSlot l => linkOk l
  | .linkFrameReceive l fr => linkOk l && fr.wf
  | .linkNakResend l _ => linkOk l
  | .linkAckTimer l => linkOk l
  | .linkLaneFailed l _ _ => linkOk l
  | .wavelengthFail l _ _ _ => linkOk l
  | .laneMapReceive l _ => linkOk l
  | .laneMapSwitch l _ => linkOk l
  | .linkDeliveredSeqReport l _ => linkOk l
  | .remoteRequestArrive l pk => linkOk l && pk.wf
  | .remoteReplyArrive l pk errs => linkOk l && pk.wf && errsOk errs
  | .linkFallbackAgeTick _ => true
  | .hallBarrierArrive c _ => ctxOk c
  | .hallBarrierRelease c => ctxOk c
  | .barrierTimeoutExpiry c => ctxOk c
  | .collectiveChunkArrive pk errs => pk.wf && errsOk errs
  | .collectiveTimeoutExpiry c _ errs => ctxOk c && errsOk errs
  | .linkTrainComplete l _ _ => linkOk l
  | .admissionStart _ _ => true
  | .admissionCancel _ _ => true
  | .admissionLoadDone => true
  | .admissionReplayDone _ => true
  | .admitTimeoutExpiry => true
  | .fallowSlot => true
  | .fallowTestComplete p _ => physOk p
  | .backgroundTestComplete p _ => physOk p
  | .healthInput p _ => physOk p
  | .healthScoreHalving p => physOk p
  | .probationDelayExpiry p => physOk p
  | .probationRetestComplete p _ => physOk p
  | .marginCheckComplete _ _ => true
  | .gazetteerWrite => true
  | .fsrAck _ _ => true
  | .hangWindowExpiry c => ctxOk c
  | .stallWindowExpiry c => ctxOk c
  | .contextStopOrder c _ errs => ctxOk c && errsOk errs
  | .contextResetComplete c _ => ctxOk c
  | .contextRestartEntry c reds => ctxOk c && redsOk reds
  | .txnDeadlineExpiry _ errs => errsOk errs
  | .recoveryHoldSend c => ctxOk c
  | .recoveryHoldReceive _ => true
  | .recoveryHoldLapse _ => true
  | .contextResetCommand _ c _ => ctxOk c
  | .contextRestart _ c _ => ctxOk c
  | .contextRollbackCommand _ c _ => ctxOk c
  | .partitionReset _ _ => true
  | .moduleResetWarm _ _ => true
  | .moduleResetCold _ _ => true
  | .moduleResetClear _ _ => true
  | .contextCreate _ c _ reds => ctxOk c && redsOk reds
  | .contextEnd _ c _ => ctxOk c
  | .tallyAck _ c _ => ctxOk c
  | .odRead _ _ _ _ => true
  | .odWrite _ _ _ _ data => payloadOk data
  | .bulkRead _ _ _ errs => errsOk errs
  | .bulkWrite _ _ data errs => payloadOk data && errsOk errs
  | .stepEpoch _ _ _ _ => true
  | .heartbeat _ _ => true
  | .eventDeliver => true
  | .meridianFrameReceive _ => true
  | .meridianNakResend => true
  | .meridianAckTimer => true
  | .meridianLaneFail _ _ _ => true
  | .meridianLaneRejoin _ _ _ => true
  | .meridianRestartReceive => true
  | .refLockLoss _ => true
  | .refReady _ => true
  | .holdoverExpiry _ => true
  | .relockTimerExpiry _ => true
  | .rootChangeStart => true
  | .rootClocksStopped => true
  | .rootPllLock => true
  | .rootChangeComplete => true
  | .setSwap _ _ => true
  | .setRevert _ _ => true
  | .setSave _ _ => true
  | .setDefaults _ _ => true
  | .swapFlashVerified _ => true
  | .swapEraseComplete => true
  | .saveFlashVerified _ => true
  | .legendOdRead _ _ _ _ => true
  | .legendOdWrite _ _ _ => true
  | .legendHeartbeatReceive _ => true
  | .legendHeartbeatSend => true
  | .fieldManagerExpiry => true
  | .legendEventSend => true
  | .fieldDatagramDrop => true
  | .fieldPairFault _ _ _ => true
  | .fieldPairFaultEnd => true
  | .fieldTxRetry _ => true
  | .stageS0 _ => true
  | .stageS1 _ _ => true
  | .stageS2 => true
  | .stageS3 _ _ _ => true
  | .stageS4 _ _ _ => true
  | .stageS5 _ => true
  | .stageS6 _ => true
  | .fwBroadcastRound => true
  | .tileFwReport p _ => physOk p
  | .fwRoundTimeout => true
  | .stageS7 _ _ _ _ _ => true
  | .stageS8 => true
  | .stageS9 => true
  | .stageLimitExpiry => true
  | .bringupAdvance _ _ => true
  | .bringupHold _ _ => true
  | .bringupRetry _ _ => true
  | .rebuildGazetteer _ _ => true
  | .watchdogSelfFeed => true
  | .watchdogExpiry => true
  | .fwProgram _ _ => true
  | .fwProgramComplete _ => true
  | .fwConfirm _ _ => true
  | .fwPreferOther _ _ => true
  | .fwRecoveryImage _ _ data => payloadOk data
  | .kaMeasureStart _ _ => true
  | .kaMeasureCancel _ _ => true
  | .kaWorkloadComplete _ _ _ => true
  | .secChallengeRead _ _ => true
  | .secNonceExpiry => true
  | .tokenDebugUnlock _ _ data => payloadOk data
  | .tokenKeyInstall _ _ data => payloadOk data
  | .tokenKeyRevoke _ _ data => payloadOk data
  | .rollbackCommit _ _ => true
  | .debugLock _ _ => true
  | .debugTileAccess t _ _ => t.wf
  | .attestRequest _ _ data => payloadOk data
  | .attestSignComplete => true
  | .inputPowerOn _ => true
  | .powerSample _ _ _ => true
  | .powerShed _ => true
  | .tallyTailWrite => true
  | .railFault _ => true
  | .coolantSample _ _ _ => true
  | .coolantShedRestart => true
  | .junctionSample _ _ => true
  | .epochWaitExpiry c => ctxOk c
  | .rootPllLockTimeout => true
  | .stewardMemoryError _ => true
  | .icmpv6Request _ _ => true
  | .reservedTypeMessage _ _ => true
  | .admissionHandshake _ _ _ => true
  | .rollbackCommitted => true

end Sys2Proof
end

