-- ==== Sys2Proof/Tests/Slice0.lean ====
section
/-! SUPPORT. Tests of the model against the specification's own examples and tables, and witnesses of the statements' hypotheses:
each `hyp_…` shows a state and operands that meet all the hypotheses of the statement it names, for each of its clauses. -/

namespace Sys2Proof.Tests

set_option Elab.async false

open Sys2Proof.Machine

/-! ### The states of the tests: one context of 8 by 8 tiles at the north-west corner, and its first tile -/

/-- A context of the first plot: one range of memory, a versioned range of two pages with two slots, no links. -/
def dA : CtxDef :=
  { px0 := 0, px1 := 0, py0 := 0, py1 := 0, ranges := [(0x1000000, 0x100000)], share := 4, verBase := 0x800000, verW := 8192
    slots := 2, link := 0, tallyBase := 0x900000, tallySlots := 2, seed := 7, firstStep := 5, imgBase := 0x1000000
    imgLen := 4096, imgDigest := 0, sections := 1, spillBase := 0, spillSize := 0, scaleBase := 0, admissible := false
    cluster := false, tensors := [], colls := [], reds := [] }

/-- The context as it runs step 5. -/
def xA : Ctx := { cdef := dA, run := { phase := .running, step := 5 } }

/-- The north-west tile, the header of its instructions and its key 0. -/
def pA : Coord := ⟨0, 0⟩
def hA : Hdr := ⟨pA, 0, false, 0⟩

/-- A tile with a core that runs at an index. -/
def runTile (k : Core) : Tile := { core := { k with run := .running }, loaded := true }

/-- The module out of reset with the context live and the given north-west tile. -/
def withTile (t : Tile) : State := { State.reset with ctxs := [(0, xA)], tiles := [(0, t)] }

/-- The same with a core at index 1,024 and s1 = 7, s2 = −3. -/
def kA : Core := { pc := 1024, s := [(1, 7), (2, 0xFFFFFFFD)] }
def sA : State := withTile (runTile kA)

/-- No trace capture stands where the context's is off. -/
theorem untraced_of (s : State) (p : Coord) (h : (match ctxAt s p with | some e => !traceOn e.1 e.2 | none => true) = true) :
    Untraced s p := by
  intro c x hc
  rw [hc] at h
  simpa using h

/-! ### Witnesses: scalar instructions, branches and loops -/

/-- ScalarRegisterResults, CompareResults and every statement of an instruction that issues on `sA`. -/
theorem hyp_issues : Issues sA hA ∧ (coreAt sA pA).fits ∧ InCtx sA pA 0 xA := by decide +kernel
theorem hyp_untraced : Untraced sA pA := untraced_of _ _ (by decide +kernel)

/-- ScalarImmediateResults: shifts by 31 and by 32. -/
theorem hyp_shift : (31#11).toNat < 32 ∧ 32 ≤ (32#11).toNat := by decide +kernel

/-- BranchTargets: offsets from index 1,024 to 1,024, to 8,191, to 1,023 and to 8,192. -/
theorem hyp_branch : (coreAt sA pA).loops = [] ∧ (1024 ≤ (1024 : Int) + (0#22).toInt) ∧ ((1024 : Int) + (7167#22).toInt ≤ 8191) ∧
    ((1024 : Int) + (0x3FFFFF#22).toInt < 1024) ∧ (8191 < (1024 : Int) + (7168#22).toInt) := by decide +kernel

/-- The core inside a loop of counter 1 over indices 1,020 to 1,030, with three iterations left. -/
def kLoop : Core := { kA with loops := [⟨1, 1025, 1030⟩], c := [(1, 3)], pc := 1027 }
def sLoop : State := withTile (runTile kLoop)

/-- BranchLeavesLoop: targets at both ends of the body, and on both sides of it. -/
theorem hyp_leave : Issues sLoop hA ∧ (coreAt sLoop pA).loops = [⟨1, 1025, 1030⟩] ∧
    (1027 + (0x3FFFFE#22).toInt = 1025) ∧ (1027 + (3#22).toInt = 1030) ∧ (1027 + (0x3FFFFD#22).toInt = 1024) ∧
    (1027 + (4#22).toInt = 1031) := by decide +kernel

/-- LoopStart: counts of 2,047 and 0 by the immediate, and a body that ends at index 8,190. -/
theorem hyp_loop_start : (2047#11).setWidth 32 ≠ 0#32 ∧ (0#11).setWidth 32 = 0#32 ∧ 8189 + (1#10).toNat < 8191 ∧
    Issues (withTile (runTile { kA with pc := 8189 })) hA := by decide +kernel

/-- NestedLoops: the active counter, a body past the enclosing one, a fifth level, and a loop that ends with the enclosing one. -/
def sFour : State := withTile (runTile { kA with loops := [⟨0, 1024, 1030⟩, ⟨1, 1024, 1030⟩, ⟨2, 1024, 1030⟩, ⟨3, 1024, 1030⟩], pc := 1027 })
theorem hyp_nested : Issues sFour hA ∧ 4 ≤ (coreAt sFour pA).loops.length ∧ 1030 < 1027 + (4#10).toNat ∧
    (∀ f ∈ (coreAt sLoop pA).loops, f.ck ≠ 2) ∧ (∀ f ∈ (coreAt sLoop pA).loops.head?, 1027 + (3#10).toNat ≤ f.last) ∧
    (∃ f ∈ (coreAt sLoop pA).loops, f.ck = 1) := by decide +kernel

/-- LoopEnd: at the last index of the body with two iterations left, with one, and with none. -/
theorem hyp_loop_end : (1 < (2 : Word).toNat) ∧ ((1 : Word).toNat ≤ 1) ∧ ((0 : Word).toNat ≤ 1) ∧
    ({ kLoop with pc := 1030 } : Core).loops.head?.map (·.last) = some (1030#13).toNat := by decide +kernel

/-! ### Witnesses: bin accesses -/

/-- A handle that maps logical lines 0 to 62 to physical lines from 8 on, over 8 ways. -/
def handleA : DWord := BitVec.ofNat 64 (63 * 2 ^ 39 + 8 * 2 ^ 27 + 3 * 2 ^ 25)

/-- A tile with that handle; line 8 holds bytes 0x80 to 0x83, line 9 is tagged, line 10 has a gather entry. -/
def tB : Tile :=
  { runTile { kA with s := [(1, 0x89ABCDEF), (2, 63), (3, 64), (4, 128), (5, 0x40000), (6, 4032)], v := [(1, { data := 5, tagHi := true })] } with
    handles := [(0, handleA)]
    bin := { data := [(512, 0x80), (513, 0x81), (514, 0x82), (515, 0x83)], tagA := [9], tagB := [9]
             gather := [⟨10, 1, 0xEE⟩] } }
def sB : State := withTile tB

theorem hyp_bin : Issues sB hA ∧ (coreAt sB pA).fits ∧ InCtx sB pA 0 xA := by decide +kernel
theorem hyp_bin_untraced : Untraced sB pA := untraced_of _ _ (by decide +kernel)

/-- StoreVisible: the last byte of a line, and a whole line. -/
theorem hyp_store_visible : 63 + 1 ≤ 64 ∧ 0 + 64 ≤ 64 ∧ 63 < 64 := by decide +kernel

/-- StoreResults: bytes at address 63 and at address 62 × 64, and a word at address 128, whose line has a gather entry. -/
theorem hyp_store : (tB.core.sreg 2 + BitVec.ofInt 32 0).toNat = 63 ∧ 63 < 2 ^ 18 ∧ physLine tB (63 / 64) = some 8 ∧
    physLine tB (128 / 64) = some 10 ∧ 128 % 4 = 0 ∧ physLine tB (3968 / 64) = some 70 := by decide +kernel

/-- LoadResults: the first word of line 8. -/
theorem hyp_load : physLine tB 0 = some 8 ∧ tB.bin.lineOk 8 = true ∧ tB.bin.tag 8 = false := by decide +kernel

/-- ScalarAccessFaults: an address bit 18, an odd address, the first unmapped line, and the tagged line. -/
theorem hyp_fault : (2 ^ 18 ≤ (tB.core.sreg 5).toNat) ∧ (tB.core.sreg 2).toNat % 2 ≠ 0 ∧ (tB.core.sreg 2).toNat < 2 ^ 18 ∧
    physLine tB ((tB.core.sreg 6).toNat / 64) = none ∧ physLine tB ((tB.core.sreg 3).toNat / 64) = some 9 ∧
    tB.bin.lineOk 9 = true ∧ tB.bin.tag 9 = true := by decide +kernel

/-- VectorAccessResults: lines 8 and 9, and the last pair that is mapped. -/
theorem hyp_vector_access : physLine tB 0 = some 8 ∧ physLine tB 1 = some 9 ∧ physLine tB 61 = some 69 ∧ physLine tB 62 = some 70 ∧
    portsBlock sB dA (ckey pA) true (portsOf [1]) [] = none ∧ tB.bin.lineOk 8 = true ∧ tB.bin.lineOk 9 = true := by decide +kernel


/-- VectorStores, VectorLoads: the same from and to the stream ports 2 and 3. -/
theorem hyp_vector_ports : InCtx sB pA 0 xA ∧ physLine tB (128 / 64) = some 10 ∧ (8 : Nat) ≠ 9 := by decide +kernel
/-! ### Witnesses: the vector unit and queues -/

/-- A channel entry: in use, output, 128 B items, kind, peer and its channel, with 4 slots. -/
def chanA (out wide : Bool) (kind px py ch : Nat) : DWord :=
  BitVec.ofNat 64 (2 ^ 63 + (if out then 2 ^ 62 else 0) + (if wide then 2 ^ 61 else 0) + kind * 2 ^ 59 + px * 2 ^ 52 + py * 2 ^ 46
    + ch * 2 ^ 41 + 4 * 2 ^ 34)

/-- Lanes 1.0, −2.0, infinity, NaN, a subnormal, and zeros. -/
def vecA : VecData := BitVec.ofNat 1024 (0x3F800000 + 0xC0000000 * 2 ^ 32 + 0x7F800000 * 2 ^ 64 + 0x7FC00001 * 2 ^ 96 + 3 * 2 ^ 128)
def vecB : VecData := BitVec.ofNat 1024 (0x3F000000 + 0x40400000 * 2 ^ 32 + 0xFF800000 * 2 ^ 64 + 0x3F800000 * 2 ^ 96 + 0x7F7FFFFF * 2 ^ 992)

/-- A tile with vector registers v1 and v2, v3 tagged, and queues: 0 in and 1 out of 4 B, 2 in and 3 out of 128 B. -/
def tQ : Tile :=
  { runTile { kA with v := [(1, { data := vecA }), (2, { data := vecB }), (3, { tagHi := true }), (4, { tagLo := true })] } with
    chans := [(0, chanA false false 0 1 0 1), (1, chanA true false 0 1 0 0), (2, chanA false true 0 1 0 3), (3, chanA true true 0 1 0 2)]
    chst :=
      [(0, { store := [{ data := 9 }, { data := 10 }], binSeg := [{ data := 11 }, { data := 12 }], outstanding := 2 }),
       (1, { credits := 3, seqOut := 0xFFFF }), (2, { store := [{ data := vecB }] }), (3, { credits := 2 })] }
def sQ : State := withTile tQ

theorem hyp_vector : Issues sQ hA ∧ (coreAt sQ pA).fits ∧ InCtx sQ pA 0 xA := by decide +kernel

/-- VectorTwoSources: registers, and the ports 2 and 3 as a source and the destination. -/
theorem hyp_two_sources : dupPort [5, 1, 2] = false ∧ portsBlock sQ dA 0 true (portsOf [1, 2]) (portsOf [5]) = none ∧
    taggedSrc tQ [1, 2] = none ∧ dupPort [19, 18, 1] = false ∧ taggedSrc tQ [18, 1] = none ∧
    portsBlock sQ dA 0 true (portsOf [18, 1]) (portsOf [19]) = none := by decide +kernel

/-- VectorStores, VectorLoads: a tile with stream ports 2 and 3 and a handle. -/
def sP : State := withTile { tQ with handles := tB.handles }
theorem hyp_port_access : Issues sP hA ∧ portsBlock sP dA 0 true (portsOf [18]) [] = none ∧
    portsBlock sP dA 0 true [] (portsOf [19]) = none ∧ physLine (sP.tile 0) 0 = some 8 ∧ physLine (sP.tile 0) 1 = some 9 ∧
    physLine ((popAll (flushSpan sP pA 0 2) dA pA (portsOf [18])).tile 0) 0 = some 8 ∧ (sP.tile 0).bin.lineOk 8 = true := by decide +kernel
theorem hyp_port_untraced : Untraced sP pA := untraced_of _ _ (by decide +kernel)

/-- VectorThreeSources, VectorOneSource: registers, and ports 2 and 3. -/
theorem hyp_three_sources : dupPort [1, 2] = false ∧ dupPort [18, 1] = false ∧ portsBlock sQ dA 0 true (portsOf [18, 1]) [] = none ∧
    (tQ.core.vreg 5).tagged = false ∧ dupPort [19, 18] = false ∧ portsBlock sQ dA 0 true (portsOf [18]) (portsOf [19]) = none ∧
    (srcItem tQ 18).tagged = false := by decide +kernel

/-- VectorPoison: a tagged first source, a tagged second one, and a tagged destination. -/
theorem hyp_vector_poison : taggedSrc tQ [3, 1] = some 3 ∧ taggedSrc tQ [1, 4] = some 4 ∧ taggedSrc tQ [1, 2, 3] = some 3 := by
  decide +kernel

/-- VectorTwoSources, SpecialFunctions: registers v1, v2 and the tagged v3. -/
theorem hyp_registers : isPort 15 = false ∧ isPort 16 = true ∧ (tQ.core.vreg 1).tagged = false ∧ (tQ.core.vreg 3).tagged = true ∧
    (tQ.core.vreg 2).tagged = false := by decide +kernel

/-- ConversionResults: FP32 to FP8 E4M3 and FP4, to integer, and from BF16. -/
theorem hyp_convert : (∃ f, cvtOf 2 0 = some (.narrow f)) ∧ (∃ f, cvtOf 6 0 = some (.narrow f)) ∧ cvtOf 7 0 = some .toInt ∧
    (∃ f, cvtOf 0 1 = some (.widen f)) := by
  refine ⟨?_, ?_, by decide, ?_⟩ <;> exact ⟨_, rfl⟩

/-- QueueMoves, for each of its clauses. -/
theorem hyp_queue_moves : portsBlock sQ dA 0 false [0] [] = none ∧ (headItem tQ 0).tagged = false ∧
    portsBlock sQ dA 0 false [] [1] = none ∧ portBound tQ 0 = true ∧ portBound tQ 1 = true ∧ portHeld tQ 0 = false ∧
    portsBlock sQ dA 0 true [] (portsOf [19]) = none ∧ portsBlock sQ dA 0 true (portsOf [18]) [] = none ∧
    (tQ.core.vreg 3).laneTag 15 = false ∧ (tQ.core.vreg 3).laneTag 16 = true := by decide +kernel

/-- QueueBinding: port 4 is not bound, port 1 is an output, port 0 an input, port 2 wide. -/
theorem hyp_queue_binding : chUsed (tQ.chan 4) = false ∧ chOut (tQ.chan 1) = true ∧ chOut (tQ.chan 0) = false ∧
    chWide (tQ.chan 2) = true ∧ chWide (tQ.chan 0) = false ∧ isPort 20 = true := by decide +kernel

/-- ItemPopped, ItemPushed: a channel with items in its store and its bin segment, channels to another tile, within the tile and of a
reduction that feeds input 0 of entry 3. -/
def sR : State := { sQ with tiles := [(0, { tQ with chans := mput (mput tQ.chans 1 (chanA true false 1 0 0 0)) 5 (chanA true false 2 0 0 0) })]
                            mesh := { sQ.mesh with reduce := [(3, BitVec.ofNat 64 (2 ^ 62 + 4 * 2 ^ 57 + 4095 * 2 ^ 45 + 1 * 2 ^ 27))] } }
theorem hyp_items : chKind (tQ.chan 1) = 0 ∧ (tQ.cst 0).store ≠ [] ∧ (tQ.cst 0).store.length ≤ chCap (tQ.chan 0) ∧
    spillItemOk tQ (tQ.chan 0) (tQ.cst 0).binAt = true ∧ chKind ((sR.tile 0).chan 1) = 1 ∧ feedsEntry sR 0 1 = some (3, 0) ∧
    chKind ((sR.tile 0).chan 5) = 2 ∧ ((sR.tile 0).cst 0).spilling = false := by decide +kernel

/-! ### Witnesses: matrix, DMA, messages, waits and system instructions -/

/-- A tile whose handle maps 256 lines, with a FORMAT of E4M3 in force, the words of the matrix instructions in s1 to s5, and the
stream ports 2 and 3. -/
def tM : Tile :=
  { tQ with
    core := { tQ.core with s := [(1, 0x02200000), (3, 1), (4, 0x80000000), (5, 0xFF), (6, 0x03FC0000), (7, 0x12200000), (8, 0x01200000)] }
    handles := [(0, BitVec.ofNat 64 (256 * 2 ^ 39 + 3 * 2 ^ 25))]
    mx := { cfgFormat := 0x02200000 } }
def sM : State := withTile tM
def entryA (n : Nat) (op : MOp) : MEntry :=
  { num := n, pc := 1030, op := op, cfg := 0, base := 0, tensor := 0, pos := 0, swapped := false }
def sMfull : State := withTile { tM with mx := { tM.mx with queue := (List.range 8).map fun i => entryA i .mswap, nextNum := 8 } }

/-- MatrixIssue: the words of each instruction, from memory and from the ports, with seven entries waiting. -/
theorem hyp_matrix_issue : Issues sM hA ∧ (coreAt sM pA).fits ∧ tM.mx.queue.length < 8 ∧ formatOk 0x02200000 = true ∧
    drainOk 0x80000000 = true ∧ rangeOk 0 none = true ∧ rangeOk 0x03FC0000 (some 1) = true ∧
    (moveCheck tM 0 (loadSpan (progCfg tM.mx 0 tM.mx.cfgFormat)) none false).isNone = true ∧
    (moveCheck tM 0 (passSpan (progCfg tM.mx 0 tM.mx.cfgFormat) 1) none false).isNone = true ∧
    (moveCheck tM 0 (drainSpan (progCfg tM.mx 1 tM.mx.cfgDrain) 1 false) none true).isNone = true ∧
    (moveCheck tM 0 64 (some 2) false).isNone = true ∧ (moveCheck tM 0 64 (some 3) true).isNone = true ∧
    portHeld tM 2 = false ∧ portHeld tM 3 = false ∧ tM.mx.idle = true := by decide +kernel

/-- MatrixIllegal: a reserved bit, BF16 beside E4M3, and eight entries waiting. -/
theorem hyp_matrix_illegal : bits 0x12200000 28 4 ≠ 0 ∧ (bits 0x01200000 24 4 = 1 ∧ 1 < bits 0x01200000 20 4) ∧ Issues sMfull hA ∧
    8 ≤ (sMfull.tile 0).mx.queue.length := by decide +kernel

/-- A DMA descriptor of one row of 4,096 bytes from the first byte of the context's range to bin address 64, on counter 1. -/
def descNat : Nat := 0x1000000 + 64 * 2 ^ 64 + 4096 * 2 ^ 96 + 2 ^ 128 + 2 ^ 225

/-- A tile with that descriptor at bin address 32, counter k1 at 3, and targets that are reached, and not reached, by it. -/
def tD : Tile :=
  { tM with
    core := { tM.core with s := [(1, 32), (2, 3), (3, 0x8002), (4, 0x8003), (5, 4), (6, 0xFFFFFFFF), (7, 1), (8, 8), (9, 129)], k := [(1, 3)] }
    bin := { data := ((toLE 32 descNat).zip (List.range 32)).filterMap fun e => if e.1 = 0 then none else some (32 + e.2, e.1) }
    dma := { mailbox := [⟨5, { data := 1 }⟩, ⟨129, { data := 2 }⟩, ⟨129, { data := 3 }⟩] } }
/-- Beside it, a tile at (1, 0) that declares (0, 0) as a sender, and one at (0, 1) that does not. -/
def sD : State := { withTile tD with tiles := [(0, tD), (1, { dma := { senders := [0] } })] }
def sDfull : State := { sD with tiles := [(0, { tD with dma := { tD.dma with msgOut := [1] } }), (1, { dma := { senders := [0] } })] }

/-- DmaIssue: the descriptor, and the distances 0, 1, 32,767 and 32,768. -/
theorem hyp_dma : Issues sD hA ∧ (coreAt sD pA).fits ∧ InCtx sD pA 0 xA ∧ physLine tD 0 = some 0 ∧ tD.bin.gatherOf 0 = none ∧
    tD.bin.lineOk 0 = true ∧ tD.bin.tag 0 = false ∧ leNat (cellRead tD.bin.data 32 32) = descNat ∧
    descOk descNat (descOf descNat 32 0 1024) = true ∧ reachable sD dA (descOf descNat 32 0 1024) = true ∧
    descUnmapped tD (descOf descNat 32 0 1024) = none ∧ tD.dma.descs.length < 4 ∧ (3 + 65536 - 3) % 65536 = 0 ∧
    (4 + 65536 - 3) % 65536 = 1 ∧ (0x8002 + 65536 - 3) % 65536 = 32767 ∧ (0x8003 + 65536 - 3) % 65536 = 32768 := by decide +kernel
theorem hyp_dma_untraced : Untraced sD pA := untraced_of _ _ (by decide +kernel)

/-- DmaIssue: four descriptors in work, a field out of range, and remote bytes beyond the context's range. -/
theorem hyp_dma_other : 4 ≤ ({ tD.dma with descs := (List.range 4).map fun i => (i, descOf descNat 32 0 1024) } : Dma).descs.length ∧
    descOk (descNat + 1) (descOf (descNat + 1) 32 0 1024) = false ∧ descOk (descNat + 2 ^ 30) (descOf (descNat + 2 ^ 30) 32 0 1024) = true ∧
    reachable sD dA (descOf (descNat + 2 ^ 30) 32 0 1024) = false ∧ (flushSpan sD pA 0 1 == sD) = true := by decide +kernel

/-- TimedWaits: port 2 holds an item, counter k1 is reached by 3 and not by 4, and the mailbox holds messages, or none. -/
theorem hyp_timed : isPort 18 = true ∧ portBound tD 2 = true ∧ chOut (tD.chan 2) = false ∧ (tD.cst 2).store ≠ [] ∧
    countReached 3 3 = true ∧ countReached 3 4 = false ∧ tD.core.sreg 6 = 0xFFFFFFFF#32 ∧ tD.dma.mailbox ≠ [] ∧
    tM.dma.mailbox = [] := by decide +kernel

/-- TimedWaits: port 2 held by a queued load, port 4 not bound, and a message awaited of a sender that is there, and of one that is not. -/
theorem hyp_timed_other : portHeld { tD with mx := { queue := [entryA 0 (.mld 0 (some 2))] } } 2 = true ∧ portBound tD 4 = false ∧
    (∃ m ∈ tD.dma.mailbox, ∀ n ∈ some ((tD.core.sreg 9).toNat % 2 ^ 14), m.sender = n) ∧
    (∀ m ∈ tD.dma.mailbox, ∃ n ∈ some ((tD.core.sreg 7).toNat % 2 ^ 14), m.sender ≠ n) := by decide +kernel

/-- TimedWaitExpires: the same tile in a timed wait on k1, which has not reached 4 and has reached 3. -/
def sT : State := withTile { tD with core := { tD.core with timed := some ⟨.dmaCount 1 4, 2, 100⟩ } }
theorem hyp_timed_expires : canIssue sT pA = true ∧ (coreAt sT pA).timed = some ⟨.dmaCount 1 4, 2, 100⟩ ∧ (coreAt sT pA).fits ∧
    InCtx sT pA 0 xA ∧ sT.ctx 0 = some xA ∧ countReached (mget (coreAt sT pA).k 0 1) 4 = false ∧
    countReached (mget (coreAt sT pA).k 0 1) 3 = true := by decide +kernel

/-- TileMessages: to (1, 0) free and outstanding, to (0, 1) which does not declare, to (8, 0) outside; and from (1, 1). -/
theorem hyp_messages : dA.has ⟨1, 0⟩ = true ∧ (sD.tile 1).dma.senders.contains (dA.relCode pA) = true ∧
    tD.dma.msgOut.contains 1 = false ∧ (sDfull.tile 0).dma.msgOut.contains 1 = true ∧ dA.has ⟨8, 0⟩ = false ∧
    dA.has ⟨0, 1⟩ = true ∧ (sD.tile 128).dma.senders.contains 0 = false ∧ (tD.dma.mailbox[1]?).map (·.sender) = some 129 ∧
    Issues sDfull hA ∧ portsBlock sD dA 0 true (portsOf [1]) [] = none ∧ portsBlock sD dA 0 true [] (portsOf [9]) = none ∧
    0 < portRoom sD pA .request ∧ 0 < portRoom sD pA .reply ∧ tD.owed = [] ∧ tM.dma.mailbox = [] ∧
    (∀ m ∈ tD.dma.mailbox, m.sender ≠ (tD.core.sreg 7).toNat % 2 ^ 14) := by decide +kernel

/-- ControlRegisters: words for FP_FLAGS of 7 and of 0xFFFFFFFD. -/
theorem hyp_csrw : (kA.sreg 1).toNat < 32 ∧ 32 ≤ (kA.sreg 2).toNat := by decide +kernel

/-- FallowPoints: a context that runs, and one that drains. -/
def sDrain : State := { sB with ctxs := [(0, { xA with run := { xA.run with pauseReq := true, pauseState := 1 } })] }
theorem hyp_fallow : xA.run.pauseState = 0 ∧ tB.moveTo = none ∧ Issues sDrain hA ∧ InCtx sDrain pA 0 (sDrain.ctxs.headD (0, xA)).2 ∧
    (sDrain.ctxs.headD (0, xA)).2.run.pauseState ≠ 0 := by decide +kernel

/-- FallowPoints: a tile with a move ordered, and the north-west tile of a cluster. -/
def sMove : State := withTile { tB with moveTo := some 1 }
def xCluster : Ctx := { xA with cdef := { dA with cluster := true } }
theorem hyp_fallow_move : Issues sMove hA ∧ (coreAt sMove pA).fits ∧ (sMove.tile 0).moveTo ≠ none ∧ InCtx sMove pA 0 xA ∧
    InCtx { sA with ctxs := [(0, xCluster)] } pA 0 xCluster ∧ xCluster.cdef.cluster = true ∧ (pA.x - xCluster.cdef.x0) % 2 = 0 ∧
    kA.halted = false := by decide +kernel
theorem hyp_fallow_untraced : Untraced sMove pA := untraced_of _ _ (by decide +kernel)

/-- GuardAndEncoding: a word of class 0xF at the program counter, and a timed wait. -/
theorem hyp_reserved : ({ kA with prog := [0xF0000000] } : Core).reservedWord = some 0xF0000000 ∧ canIssue sT pA = true ∧
    (coreAt sT pA).timed ≠ none ∧ clusterRuns sT pA = false ∧ clusterRuns sA pA = false ∧ (coreAt sA pA).reservedWord = none := by
  decide +kernel

/-- GuardAndEncoding: bits that are not zero, a false guard, and a tile of no context. -/
theorem hyp_guard : ({ hA with unused := 1 } : Hdr).unused ≠ 0 ∧ (coreAt sA pA).guard { hA with pred := 1 } = false ∧
    (coreAt sA pA).guard { hA with neg := true } = false ∧ canIssue sA ⟨8, 0⟩ = false ∧ canIssue sA pA = true ∧
    (coreAt sA pA).timed = none := by decide +kernel

/-- PcRange: the last index. -/
def sEnd : State := withTile (runTile { kA with pc := 8191 })
theorem hyp_pc_range : Issues sEnd hA ∧ InCtx sEnd pA 0 xA ∧ (coreAt sEnd pA).loops = [] := by decide +kernel

/-- ExceptionTaken: the first exception of the step, and a second one. -/
def xSeen : Ctx := { xA with run := { xA.run with excSeen := true } }
theorem hyp_exception : sA.ctx 0 = some xA ∧ xA.rec_.state = 1 ∧ admitting sA 0 = false ∧ xA.run.excSeen = false ∧
    InCtx { sA with ctxs := [(0, xSeen)] } pA 0 xSeen ∧ xSeen.run.excSeen = true := by decide +kernel

/-! ### Witnesses: the engines of a tile -/

/-- A tile of `tM` whose matrix unit holds what is given. -/
def withMx (m : Matrix) (r : Ramp := {}) : State := withTile { tM with mx := m, ramp := r }
def entryF (n : Nat) (op : MOp) : MEntry := { entryA n op with cfg := 0x06600000 }

/-- A row of zeros on its first attempt. -/
def rowA : MRow :=
  { num := 2, index := 0, accRow := 255, t := false, z := false, swapped := false, cfg := 0x06600000, data := 0, scales := 0
    attempts := 1, passed := false, entered := true }

/-- MatrixDispatchResults: an mcfg, an mld and an mramp with their engines free, and an mld with a FORMAT word of zero. -/
def mxQ (op : MOp) (w : Word) : Matrix := { cfgFormat := w, cfgDrain := 0x80000000, cfgBase := 5, queue := [entryA 3 op, entryA 4 .mswap] }
theorem hyp_dispatch : (arrayLive (withMx (mxQ (.mld 64 none) 0x06600000)) pA).isSome = true ∧
    (mxQ (.mld 64 none) 0x06600000).room (.mld 64 none) = true ∧
    (mxQ (.mld 64 none) 0x06600000).captureOk (.mld 64 none) 0x06600000 = true ∧
    (mxQ (.mld 64 none) 0).captureOk (.mld 64 none) 0 = false ∧
    (mxQ (.mdrain 0 255 1 false true none) 0).captureOk (.mdrain 0 255 1 false true none) 0x80000000 = true := by decide +kernel

/-- MatrixDispatchResults: an mswap and an mmul with a block loaded; an engine that works, and one with no room. -/
def mxQL (op : MOp) : Matrix := { mxQ op 0x06600000 with bufA := { loaded := true, fmt := 6 }, bufB := { loaded := true, fmt := 6 } }
theorem hyp_dispatch_array : (mxQL .mswap).captureOk .mswap 0x06600000 = true ∧ (mxQL .mswap).room .mswap = true ∧
    (mxQL .mswap).captureOk (.mmul 0 255 1 false true none) 0x06600000 = true ∧
    (mxQ (.mld 64 none) 0).enginesIdle = true ∧ ({ mxQ (.mld 64 none) 0 with rows := [rowA] } : Matrix).enginesIdle = false ∧
    ({ mxQ (.mld 64 none) 0 with loadQ := [entryA 1 (.mld 0 none), entryA 2 (.mld 0 none)] } : Matrix).room (.mld 64 none) = false := by
  decide +kernel

/-- MatrixLoadsAndRows: a load of an FP4 image of 2,048 bytes, and a pass of one row over a loaded buffer. -/
def mxL : Matrix := { loadQ := [{ entryF 0 (.mld 0 none) with swapped := true }] }
def mxP : Matrix := { bufA := { loaded := true, fmt := 6 }, arrayQ := [{ entryF 2 (.mmul 0 255 1 false true none) with pos := 0 }] }
theorem hyp_load_image : (arrayLive (withMx mxL) pA).isSome = true ∧
    (readLines ((flushSpan (withMx mxL) pA 0 ((imageBytes 0x06600000 + 63) / 64)).tile 0) 0 ((imageBytes 0x06600000 + 63) / 64)).2
      = .ok 0 false := by decide +kernel
theorem hyp_load_free : (mxL.rows.any fun r => r.swapped == false) = false ∧ mxL.entering 2 = false ∧
    mxL.unwritten 2 (some (0, 2048)) = false := by decide +kernel
theorem hyp_row : (arrayLive (withMx mxP { level := 1 }) pA).isSome = true ∧ mxP.awaits false 2 = false ∧
    (mxP.buf false).loaded = true ∧ (mxP.buf false).poisoned = false ∧ (mxP.rows.find? fun r => !r.entered).isNone = true ∧
    mxP.unwritten 2 (some (0, 32)) = false ∧ rowReady ((withMx mxP).tile 0) (entryF 2 (.mmul 0 255 1 false true none)) 32 = true ∧
    (({ level := 1 } : Ramp).atWin (slotWindow (withMx mxP { level := 1 }) pA)).slotFree = true ∧
    (({ } : Ramp).atWin (slotWindow (withMx mxP) pA)).slotFree = false ∧
    (∃ v, (readRow (withMx mxP { level := 1 }) 0 dA pA
      (entryF 2 (.mmul 0 255 1 false true none)) (rowBytes 0x06600000)).2 = .bytes v) :=
  ⟨by decide +kernel, by decide +kernel, by decide +kernel, by decide +kernel, by decide +kernel, by decide +kernel,
    by decide +kernel, by decide +kernel, by decide +kernel, ⟨_, rfl⟩⟩

/-- MatrixLoadsAndRows: a load from port 2, which holds one item of 128 bytes, with as much as it needs before it, and without; a
row that waits to re-enter; a line of the row with poison; and a poisoned block. -/
def mxLQ (have_ : Nat) : Matrix :=
  { loadQ := [{ entryF 0 (.mld 0 (some 2)) with swapped := true }], loadBytes := List.replicate have_ (0, false) }
def mxR : Matrix := { mxP with rows := [{ rowA with entered := false }] }
def sRowPoison (blk : Bool) (row : Bool) : State :=
  withTile { tM with mx := { mxP with bufA := { mxP.bufA with poisoned := blk } }, ramp := { level := 1 }
                     bin := if row then { tM.bin with tagA := [0], tagB := [0] } else tM.bin }
theorem hyp_load_queue :
    imageBytes 0x06600000 ≤ (gatherItems (withMx (mxLQ 2000)) 0 dA pA 2 (imageBytes 0x06600000)
      (itemsFor (imageBytes 0x06600000)) (mxLQ 2000).loadBytes).2.length ∧
    (gatherItems (withMx (mxLQ 0)) 0 dA pA 2 (imageBytes 0x06600000)
      (itemsFor (imageBytes 0x06600000)) (mxLQ 0).loadBytes).2.length < imageBytes 0x06600000 := by decide +kernel
theorem hyp_reenter : (mxR.rows.find? fun r => !r.entered) = some { rowA with entered := false } := by decide +kernel
theorem hyp_row_poison : (∃ d, (readRow (sRowPoison false true) 0 dA pA (entryF 2 (.mmul 0 255 1 false true none)) 32).2 = .poison d) ∧
    (∃ v, (readRow (sRowPoison true false) 0 dA pA (entryF 2 (.mmul 0 255 1 false true none)) 32).2 = .bytes v) ∧
    mxP.olderDone 2 = true ∧ mxR.olderDone 2 = false := ⟨⟨_, rfl⟩, ⟨_, rfl⟩, by decide +kernel, by decide +kernel⟩

/-- WitnessAndAccumulate: a row of zeros on its first attempt, whose witness agrees and, with an upset of 1, does not; and a row
that has passed. -/
def mxW : Matrix := { bufA := imageBuf 0x06600000 0 false, rows := [rowA] }
def mxU : Matrix := { bufA := { loaded := true, fmt := 6 }, rows := [{ rowA with passed := true }], acc := [(64 * 255, 1), (64 * 254, 2)] }
theorem hyp_judged : (arrayLive (withMx mxW) pA).isSome = true ∧ mxW.rows = [] ++ rowA :: [] ∧ rowA.passed = false ∧
    rowA.entered = true ∧ rowA.attempts < 3 ∧ ¬ 1 < rowA.attempts ∧ 1 < ({ rowA with attempts := 3 } : MRow).attempts ∧
    3 ≤ ({ rowA with attempts := 3 } : MRow).attempts ∧ mxU.drainPending 2 255 = false ∧ (withMx mxW).ctx 0 = some xA := by
  decide +kernel

/-- DrainAndSmoothing: one row of an unconverted drain; levels 0 and 16. -/
def mxD : Matrix := { drainQ := [{ entryA 5 (.mdrain 0 255 1 false true none) with cfg := 0x80000000 }], acc := [(64 * 255 + 63, 1), (64 * 254, 2)] }
theorem hyp_drain : (arrayLive (withMx mxD) pA).isSome = true ∧ mxD.outBytes = [] ∧ mxD.mmulPending 5 255 = false ∧
    mxD.entering 5 = false ∧ mxD.unread 5 (some (0, 384)) = false ∧ (withMx mxD).clk.tilesStopped = false ∧
    ({ waited := true, level := 16 } : Ramp).waited = true ∧ ({ target := 1 } : Ramp).level < ({ target := 1 } : Ramp).target ∧
    64 * bits (cfgInForce (withMx mxD) 0x2240 1).toNat 16 8 ≤ (1000000 + 1) * bits (cfgInForce (withMx mxD) 0x2240 1).toNat 0 11 ∧
    (0 + 1) * bits (cfgInForce (withMx mxD) 0x2240 1).toNat 0 11 < 64 * bits (cfgInForce (withMx mxD) 0x2240 1).toNat 16 8 := by
  decide +kernel
theorem hyp_dummy : dummyPasses (withMx mxW { level := 1, last := some rowA } |>.tile 0) 0 = true ∧
    dummyPasses (withMx mxW { level := 1, last := some rowA } |>.tile 0) 1 = false := by decide +kernel

/-- BinUpkeep: the gather entry of line 10; the scrubber at a sound line, at a failed line that no handle maps, and at one that
is mapped. -/
def sScrub (l : Nat) (bad : List Nat) : State := withTile { tB with bin := { tB.bin with scrubPtr := l, badParity := bad } }
theorem hyp_upkeep : (tB.bin.gatherOf 10).isSome = true ∧ cfgField sB 0x2250 1 0 16 ≠ 0 ∧ tB.bin.gated ≠ 0xFF ∧
    scrubLine ((sScrub 4095 []).tile 0).bin = 4095 ∧ tB.bin.lineOk 4095 = true ∧ tB.bin.gatherOf 4095 = none ∧
    ((sScrub 4095 [64 * 4095]).tile 0).bin.lineOk 4095 = false ∧ lineMapped tB 4095 = false ∧
    ((sScrub 8 [512]).tile 0).bin.lineOk 8 = false ∧ lineMapped tB 8 = true := by decide +kernel

/-- BinSpaceAndMail: a read of an unmapped line and of a mapped one, a write of one line with poison, the first flit of a write of
three lines, a message and its credit, at the tile of sB. -/
def flitA (cls : MClass) (op : BitVec 4) : Flit := { cls := cls, ctx := 0, op := op, dst := pA, src := ⟨1, 1⟩, tag := 9, loc := .sink }
def withFlit (s : State) (f : Flit) : State := { s with mesh := { s.mesh with flits := [(4, f)], nextFlit := 5 } }
def fRead : Flit := { flitA .request 2 with addr := BitVec.ofNat 64 (2 * 2 ^ 62 + 4032), len := 64 }
def fGood : Flit := { flitA .request 2 with addr := BitVec.ofNat 64 (2 * 2 ^ 62 + 128), len := 64 }
def fWrite : Flit := { flitA .request 4 with addr := BitVec.ofNat 64 (2 * 2 ^ 62 + 128), len := 64, lines := [⟨1, true⟩], aux := 1 }
def fLong : Flit := { fWrite with len := 192, lines := [⟨1, true⟩, ⟨2, false⟩], aux := 2 }
def fBadW : Flit := { fWrite with addr := BitVec.ofNat 64 (2 * 2 ^ 62 + 4032) }
def sBG : State := withTile { tB with bin := { tB.bin with gather := [] } }
theorem hyp_bin_space : (withFlit sB fRead).arrived 4 = some fRead ∧ live (withFlit sB fRead) 0 pA = some xA ∧ pA.y < 48 ∧
    tB.moveStage = 0 ∧ binAddrOf (gOff fRead.addr.toNat) = 4032 ∧ (firstUnmapped tB 63 1).isSome = true ∧
    binAddrOf (gOff fWrite.addr.toNat) = 128 ∧ 128 + 64 ≤ 2 ^ 18 ∧ firstUnmapped tB 2 3 = none ∧ physLine tB 2 = some 10 ∧
    mget tB.dma.inbound (0, false) (inboundKey fWrite) = (0, false) ∧ stageRoom tB 2 = true ∧
    0 < portRoom (withFlit sB fWrite) pA .reply := by decide +kernel
theorem hyp_bin_read : (withFlit sBG fGood).arrived 4 = some fGood ∧ (sBG.tile 0).portClear ∧ (readLine (sBG.tile 0) 2).1 = sBG.tile 0 ∧
    (∃ d tag, (readLine (sBG.tile 0) 2).2 = .ok d tag) ∧ (4 : Nat) ≠ (withFlit sBG fGood).mesh.nextFlit := by
  refine ⟨?_, ?_, ?_, ⟨_, _, rfl⟩, ?_⟩ <;> decide +kernel
theorem hyp_bin_space_untraced : Untraced (withFlit sB fWrite) pA := untraced_of _ _ (by decide +kernel)

/-- TileMoves: a tile held for a move to the good gap of its row, quiet; at a stepend; with a position that is taken; copied, and
bound to position 59 of row 0. -/
def sMv (stage : Nat) (r : RunState) : State :=
  { withTile { tB with core := { tB.core with run := r }, moveTo := some 58, moveStage := stage } with
    gleaner := { State.reset.gleaner with
      bind := [(0, 59)], rows := [(0, { gap := some 58, move := some 0, tested := true })]
      phys := (List.range 60).map fun p => (p, { fence := if p = 59 then .logical else if p = 58 then .gap else .spare }) } }
def sMvBad : State := { sMv 0 .moving with gleaner := { (sMv 0 .moving).gleaner with bind := [(0, 59), (1, 58)] } }
theorem hyp_moves : tileQuiet (sMv 0 .moving) pA = true ∧ targetOk (sMv 0 .moving) 0 = true ∧ targetOk sMvBad 0 = false ∧
    moveReady (sMv 0 .stepEnd) 0 = true ∧ tileQuiet (sMv 0 .stepEnd) pA = true ∧ physOf (sMv 2 .stepEnd) (ckey pA) = some 59 ∧
    damagedLines ((sMv 2 .stepEnd).tile 0).bin = [] ∧ goodTile (sMv 2 .stepEnd) 59 = true ∧
    ((spanTiles (sMv 2 .stepEnd) (physDie 58) (physRow 58)).all (goodTile (sMv 2 .stepEnd))) = true ∧
    InCtx (sMv 0 .moving) pA 0 xA ∧ (sMv 0 .moving).ctx 0 = some xA ∧ (coreAt (sMv 2 .moving) pA).fits ∧
    ((sMv 2 .stepEnd).row (physDie 58) (physRow 58)).gap = some (physPos 58) := by decide +kernel
theorem hyp_moves_untraced : Untraced (sMv 0 .moving) pA := untraced_of _ _ (by decide +kernel)
/-- The row of the new position has its gap elsewhere. -/
def sMove2 : State := { sMv 2 .stepEnd with gleaner := { (sMv 2 .stepEnd).gleaner with rows := [(0, { gap := some 5 })] } }
theorem hyp_moves_gap : (sMove2.row (physDie 58) (physRow 58)).gap ≠ some (physPos 58) ∧ physOf sMove2 (ckey pA) = some 59 := by decide +kernel

/-- DmaTransactions: a descriptor of 8,192 bytes from the last line of a page, as a read and as a write; the reply to a read of two
lines that brings one; the acknowledgement of its last bytes, of earlier ones, and an error reply. -/
def dTx (issued done : Nat) (out : Bool) : DmaDesc :=
  { remote := 0x1000FC0, binAddr := 0, rowBytes := 8192, rows := 1, remoteStride := 0, binStride := 0, toRemote := out, counter := 1
    at_ := 32, tensor := 0, pc := 1030, issued := issued, done := done }
def sTx (d : DmaDesc) (f : Flit) (n : Nat) (sent : Nat := 64) : State :=
  withFlit (withTile { tD with dma := { descs := [(0, d)], txns := (List.range n).map fun i => (i, ⟨0, 8128 - 64 * i, 64, sent, 0⟩) } }) f
def fAck : Flit := { flitA .reply 5 with tag := 0 }
def fErr : Flit := { flitA .reply 0xD with tag := 0 }
def fData : Flit := { flitA .reply 3 with tag := 0, lines := [⟨5, true⟩] }
def sData : State :=
  withFlit (withTile { tD with dma := { descs := [(0, dTx 128 0 false)], txns := [(0, ⟨0, 0, 128, 128, 0⟩)] } }) fData
theorem hyp_dma_txn : InCtx (sTx (dTx 0 0 false) fAck 15) pA 0 xA ∧ (dTx 0 0 false).issued < (dTx 0 0 false).total ∧
    ((sTx (dTx 0 0 false) fAck 15).tile 0).dma.txns.length < 16 ∧ (sTx (dTx 8192 8128 true) fAck 1).arrived 4 = some fAck ∧
    openWrite ((sTx (dTx 0 0 false) fAck 15).tile 0) 0 = none ∧ 0 < portRoom (sTx (dTx 0 0 false) fAck 15) pA .request ∧
    (dTx 8192 8128 true).done + 64 = (dTx 8192 8128 true).total ∧ (dTx 8192 8064 true).done + 64 ≠ (dTx 8192 8064 true).total ∧
    mfind ((sTx (dTx 8192 8128 true) fAck 1).tile 0).dma.txns 0 = some ⟨0, 8128, 64, 64, 0⟩ ∧
    (sTx (dTx 8192 8128 true) fErr 1).arrived 4 = some fErr ∧ admitting (sTx (dTx 8192 8128 true) fErr 1) 0 = false ∧
    tD.portClear ∧ (dTx 0 0 true).nextLen = 64 * 1 ∧
    sData.arrived 4 = some fData ∧ stageRoom (sData.tile 0) 1 = true ∧ 0 + 64 * fData.lines.length ≠ 128 := by decide +kernel
theorem hyp_dma_lines : (∃ l, (readOut (sTx (dTx 0 0 true) fAck 0) 0 xA pA 0 0 0 0x1000FC0 1).2 = .lines l) := ⟨_, rfl⟩
theorem hyp_dma_stage : stageRoom { tD with bin := { tD.bin with staging := List.replicate 8 fLong } } 1 = false := by decide +kernel
/-- A whole context image of one plot and one section, with a code block of one instruction, every tile's record naming it and
otherwise empty; its context is about to load it. -/
def hdrI : AMap Byte :=
  [(0, 0x49), (1, 0x50), (2, 0x56), (3, 0x4F), (4, 1), (6, 2), (8, 1), (9, 1), (0x10, 0x34), (0x11, 0xB3), (0x18, 1), (0x1A, 1), (0x21, 0xB3),
   (0x28, 0x20), (0x29, 0xB3)]
def tabI : AMap Byte := [(45825, 1), (45856, 0x30), (45857, 0xB3), (45864, 4)]
def atI (l : AMap Byte) : AMap Byte := l.map fun e => (0x1000000 + e.1, e.2)
def recsI : AMap Byte := (List.range 64).map fun i => (0x1000105 + 712 * i, 4)
def xL : Ctx := { xA with run := { xA.run with phase := .loading } }
def sI : State := { sA with ctxs := [(0, xL)], tiles := [], mem := { data := atI hdrI ++ (recsI ++ atI tabI) } }

/-- The byte of that image at an offset. -/
def byteI (a : Nat) : Byte := mget hdrI (if 261 ≤ a ∧ (a - 261) % 712 = 0 ∧ (a - 261) / 712 < 64 then 4 else mget tabI 0 a) a

/-- A reader of that image. -/
def rdI : Rd := fun o n => leNat ((List.range n).map fun i => byteI (o + i))

theorem mget_atI (l t : AMap Byte) (d : Byte) (a : Nat) : mget (atI l ++ t) d (0x1000000 + a) = mget l (mget t d (0x1000000 + a)) a := by
  induction l with
  | nil => rfl
  | cons e l ih =>
    simp only [atI, List.map_cons, List.cons_append, mget] at ih ⊢
    simp only [Nat.add_left_cancel_iff, ih]

theorem mget_records (t : AMap Byte) (n j a : Nat) :
    mget (((List.range' j n).map fun i => (0x1000105 + 712 * i, (4 : Byte))) ++ t) 0 (0x1000000 + a) =
    if 261 ≤ a ∧ (a - 261) % 712 = 0 ∧ j ≤ (a - 261) / 712 ∧ (a - 261) / 712 < j + n then 4 else mget t 0 (0x1000000 + a) := by
  induction n generalizing j with
  | zero => rw [if_neg (by omega)]; rfl
  | succ n ih =>
    simp only [List.range'_succ, List.map_cons, List.cons_append, mget, ih]
    by_cases h : 0x1000105 + 712 * j = 0x1000000 + a
    · have h1 : a = 261 + 712 * j := by omega
      subst h1
      rw [if_pos h, if_pos (by omega)]
    · have : ¬ (261 ≤ a ∧ (a - 261) % 712 = 0 ∧ (a - 261) / 712 = j) := by omega
      simp only [h, if_false]
      congr 1
      apply propext
      constructor
      · rintro ⟨x, y, z, w⟩; exact ⟨x, y, by omega, by omega⟩
      · rintro ⟨x, y, z, w⟩; exact ⟨x, y, by omega, by omega⟩

theorem cell_image (a : Nat) : cellGet sI.mem.data (0x1000000 + a) = byteI a := by
  have h := mget_records (atI tabI) 64 0 a
  have h2 := mget_atI tabI [] 0 a
  rw [List.append_nil] at h2
  simp only [← List.range_eq_range', Nat.zero_le, true_and, Nat.zero_add, h2] at h
  simp only [cellGet, sI, byteI]
  rw [mget_atI, recsI, h]
  rfl

theorem byteI_rec (a : Nat) (h : 64 ≤ a) (h2 : a < 45824) : byteI a = if 261 ≤ a ∧ (a - 261) % 712 = 0 ∧ (a - 261) / 712 < 64 then 4 else 0 := by
  simp only [byteI, hdrI, tabI, mget]
  repeat rw [if_neg (by omega)]
  split
  · rfl
  · repeat rw [if_neg (by omega)]

theorem cellRead_image (n a : Nat) : cellRead sI.mem.data (0x1000000 + a) n = (List.range n).map fun i => byteI (a + i) := by
  induction n generalizing a with
  | zero => rfl
  | succ n ih =>
    rw [List.range_succ_eq_map, cellRead, cell_image, Nat.add_assoc, ih]
    simp [Function.comp_def, Nat.add_assoc, Nat.add_comm 1]

theorem imageOf_sI : imageOf sI dA = rdI := by
  funext o n
  simp only [imageOf, imgRd, rdI]
  exact congrArg leNat (cellRead_image n o)

theorem redAt_blank (x y e : Nat) : redAt (heldReds sI dA) x y e = redUnused := by
  simp only [redAt]
  split
  · rename_i p hp
    have := List.mem_of_find?_eq_some hp
    simp only [heldReds, List.mem_map] at this
    obtain ⟨c, -, rfl⟩ := this
    simp only [List.getD, List.getElem?_map]
    cases (List.range 32)[e]? <;> rfl
  · rfl

theorem leNat_zeros (n : Nat) : leNat (List.replicate n (0 : Byte)) = 0 := by
  induction n with
  | zero => rfl
  | succ n ih => simp only [List.replicate_succ, leNat, ih]; rfl

theorem rdI_blank (i k n : Nat) (hi : i < 64) (hk : 6 ≤ k) (hn : k + n ≤ 712) : rdI (256 + 712 * i + k) n = 0 := by
  have h : ((List.range n).map fun j => byteI (256 + 712 * i + k + j)) = List.replicate n 0 := by
    rw [List.eq_replicate_iff]
    refine ⟨by simp, ?_⟩
    intro b hb
    simp only [List.mem_map, List.mem_range] at hb
    obtain ⟨j, hj, rfl⟩ := hb
    rw [byteI_rec _ (by omega) (by omega), if_neg (by omega)]
  simp only [rdI, h, leNat_zeros]

theorem recHandle_blank (i n : Nat) (hi : i < 64) (hn : n < 16) : recHandle rdI (256 + 712 * i) n = 0 := by
  simp only [recHandle]
  rw [show 256 + 712 * i + 8 + 8 * n = 256 + 712 * i + (8 + 8 * n) by omega, rdI_blank i _ _ hi (by omega) (by omega)]; rfl

theorem recChan_blank (i n : Nat) (hi : i < 64) (hn : n < 32) : recChan rdI (256 + 712 * i) n = 0 := by
  simp only [recChan]
  rw [show 256 + 712 * i + 0x88 + 8 * n = 256 + 712 * i + (0x88 + 8 * n) by omega, rdI_blank i _ _ hi (by omega) (by omega)]; rfl

theorem recSteer_blank (i n : Nat) (hi : i < 64) (hn : n < 4) : recSteer rdI (256 + 712 * i) n = 0 := by
  simp only [recSteer]
  rw [show 256 + 712 * i + 0x188 + 8 * n = 256 + 712 * i + (0x188 + 8 * n) by omega, rdI_blank i _ _ hi (by omega) (by omega)]; rfl

theorem recSender_blank (i n : Nat) (hi : i < 64) (hn : n < 16) : recSender rdI (256 + 712 * i) n = 0 := by
  simp only [recSender]
  rw [show 256 + 712 * i + 0x1A8 + 2 * n = 256 + 712 * i + (0x1A8 + 2 * n) by omega, rdI_blank i _ _ hi (by omega) (by omega)]

theorem recOff_image (i : Nat) : recOff rdI 8 0 (i % 8) (i / 8) = 256 + 712 * i := by
  have : rdI (entOff (imSecTab rdI) 32 0) 8 = 256 := by decide +kernel
  simp only [recOff, this]; omega

theorem codeOk_image : ∀ i < 64, codeOk rdI (256 + 712 * i) = true := by decide +kernel

theorem section_image : sectionBad (heldReds sI dA) (imageOf sI dA) 8 8 0 = none := by
  simp only [imageOf_sI, sectionBad, firstBad, Option.map_eq_none_iff, List.find?_eq_none]
  intro e he
  simp only [recordChecks, List.mem_flatMap, List.mem_range] at he
  obtain ⟨i, hi, he⟩ := he
  replace hi : i < 64 := hi
  rw [recOff_image] at he
  simp only [List.mem_append, List.mem_cons, List.not_mem_nil, or_false] at he
  rcases he with ((((((rfl | rfl) | he) | he) | he) | he) | he)
  · simp [codeOk_image i hi]
  · simp [rdI_blank i 6 2 hi (by omega) (by omega)]
  · simp only [handleChecks, List.mem_map, List.mem_range] at he
    obtain ⟨n, hn, rfl⟩ := he
    simp [recHandle_blank i n hi hn, bits, hLen]
  · simp only [chanChecks, List.mem_cons, List.mem_map, List.mem_range, recOff_image] at he
    rcases he with rfl | ⟨n, hn, rfl⟩
    · have : ((List.range 32).map (recChan rdI (256 + 712 * i))).filter chIn = [] := by
        rw [List.filter_eq_nil_iff]
        intro a ha
        simp only [List.mem_map, List.mem_range] at ha
        obtain ⟨n, hn, rfl⟩ := ha
        rw [recChan_blank i n hi hn]; decide
      simp [this]
    · simp [chanOkAt, recOff_image, recChan_blank i n hi hn, chUsed, bits, bitAt]
  · simp only [steerChecks, List.mem_map, List.mem_range] at he
    obtain ⟨n, hn, rfl⟩ := he
    simp [recSteer_blank i n hi hn, steerOk, stMode, stChans, bits]
  · simp only [senderChecks, List.mem_map, List.mem_range] at he
    obtain ⟨n, hn, rfl⟩ := he
    simp [recSender_blank i n hi hn, bitAt]
  · simp only [redChecks, List.mem_cons, List.not_mem_nil, or_false, recOff_image] at he
    subst he
    simp only [Bool.not_eq_true', Bool.not_eq_false, Bool.and_eq_true, List.all_eq_true, List.mem_range]
    refine ⟨fun n _ => ⟨?_, ?_⟩, ?_⟩
    · simp only [redOkAt, redAt_blank, show rType redUnused = 0 by decide, beq_self_eq_true, if_true]; decide
    · simp only [redFinite, redAt_blank, show rOuts redUnused = [] by decide, List.all_nil]
    · simp only [redChannels, List.all_eq_true, List.mem_range, recOff_image]
      intro n hn
      simp [recChan_blank i n hi hn, chUsed, bitAt]

theorem shape_image (k : LoadCtx) (hw : k.plotsW = 1) (hh : k.plotsH = 1) : firstBad (shapeChecks k rdI) = none := by
  have hs : imSections rdI = 1 := by decide +kernel
  have hd : rdI (entOff (imSecTab rdI) 32 0 + 0x0C) 4 = 0 := by decide +kernel
  simp only [firstBad, Option.map_eq_none_iff, List.find?_eq_none, shapeChecks, hs, hw, hh, List.mem_flatMap, List.mem_range, List.mem_append]
  rintro e ⟨sec, h0, he⟩
  obtain rfl : sec = 0 := by omega
  rcases he with he | ⟨i, hi, he⟩
  · simp [dataChecks, hd] at he
  replace hi : i < 64 := hi
  simp only [recordShape, Nat.mul_one, recOff_image, List.mem_append, List.mem_cons, List.not_mem_nil, or_false, List.mem_map, List.mem_range] at he
  rcases he with ((((rfl | rfl) | ⟨n, hn, rfl⟩) | ⟨n, hn, rfl⟩) | ⟨n, hn, rfl⟩) | ⟨n, hn, rfl⟩
  · simp [codeOk_image i hi]
  · simp [rdI_blank i 6 2 hi (by omega) (by omega)]
  · simp [recHandle_blank i n hi hn, bits]
  · simp [recChan_blank i n hi hn, bits]
  · simp [recSteer_blank i n hi hn, bits]
  · simp [recSender_blank i n hi hn, bitAt]

/-! ### Witnesses: streams, sections and pauses -/

/-- ChannelArrivals: items of number 65,535 and of a later one to channel 0, in normal and in spill state, and a credit message to
channel 1. -/
def tC : Tile := { tQ with chst := [(0, { seqIn := 0xFFFF, outstanding := 2 }), (1, { credits := 3 })] }
def tCs : Tile := { tQ with chst := [(0, { seqIn := 0xFFFF, outstanding := 2, spilling := true, store := [{}], memSeg := [{}] })] }
def sC (f : Flit) : State := withFlit (withTile tC) f
def fItem (q : BitVec 16) : Flit := { flitA .forward 0 with seq := q, item := { data := 9 } }
def fCred : Flit := { flitA .forward 1 with chan := 1, aux := 4 }
theorem hyp_channel : (sC (fItem 0xFFFF)).arrived 4 = some (fItem 0xFFFF) ∧ (sC fCred).arrived 4 = some fCred ∧
    live (sC (fItem 0xFFFF)) 0 pA = some xA ∧ (sC (fItem 0)).tile 0 = tC ∧ tC.moveStage = 0 ∧ tC.loaded = true ∧
    (tC.cst 0).seqIn = 0xFFFF ∧ (tC.cst 0).early = [] ∧ (tC.cst 0).spilling = false ∧ (tC.cst 0).binSeg ++ (tC.cst 0).memSeg = [] ∧
    (tCs.cst 0).spilling = true ∧ ({ tC with moveStage := 1 } : Tile).moveStage ≠ 0 := by decide +kernel

/-- SteeringTokens: unit 1 splits channel 2 over two outputs under tokens of channel 4: a token of each operation, a poisoned one, one
with a reserved OP, one with count 0; the last but one item of a DROP token; and an empty input. -/
def steerE : DWord := BitVec.ofNat 64 (2 ^ 62 + 4 * 2 ^ 57 + 2 * 2 ^ 52 + 3 * 2 ^ 42 + 5 * 2 ^ 37)
def tS (i : Item) (u : SteerUnit) : Tile :=
  { tQ with steer := [(1, steerE)], units := [(1, u)], chst := [(2, { store := [{ data := vecB }], binSeg := [{ data := 1 }] }), (4, { store := [i] })] }
def sS (i : Item) (u : SteerUnit) : State := withTile (tS i u)
def tokI (w : Nat) : Item := { data := BitVec.ofNat 1024 w }
theorem hyp_tokens : steerLive (sS (tokI 1) {}) pA = some (0, xA) ∧ ((sS (tokI 1) {}).tile 0).steerEnt 1 = steerE ∧ stMode steerE ≠ 0 ∧
    ((tS (tokI 1) {}).unit 1).tok = none ∧ ((tS (tokI 1) {}).cst (stTok steerE)).store.head? = some (tokI 1) ∧
    (tokI 0x20FFFFFF).data.extractLsb' 0 32 = 0x20FFFFFF#32 ∧ 0x20FFFFFF / 2 ^ 29 = 1 ∧ 0x20FFFFFF / 2 ^ 24 % 16 = 0 ∧
    0x60000001 / 2 ^ 29 = 3 ∧ ((tS (tokI 1) ⟨some 0x20000002, 2, none⟩).unit 1).left = 0 + 2 ∧
    hasItem (tS (tokI 1) ⟨some 0x20000002, 2, none⟩) (stInput steerE 0x20000002) = true ∧
    hasItem ({ tS (tokI 1) ⟨some 0x20000002, 2, none⟩ with chst := [] } : Tile) (stInput steerE 0x20000002) = false ∧
    spillItemOk (tS (tokI 1) {}) ((tS (tokI 1) {}).chan 2) ((tS (tokI 1) {}).cst 2).binAt = true := by decide +kernel

/-- SpillAndWaits: a core that waits for an item; reports that have reached the engine; a cycle of one tile whose inbound channel 0 is
full; an order; and a channel with items in all three segments whose read of the memory segment has come back. -/
def tW (rep : Bool) (c : ChanSt) : Tile :=
  { runTile { kA with wait := some (.queueIn 2) } with
    reported := rep
    chans := [(0, BitVec.ofNat 64 (2 ^ 63 + 2 ^ 61 + 2 ^ 34 + 4 * 2 ^ 10 + 2 ^ 9)), (1, chanA true true 0 0 0 0), (2, chanA false true 0 1 0 3)]
    chst := [(0, c)] }
def sWc (t : Tile) (r : CtxRec) : State :=
  { withTile t with ctxs := [(0, { xA with cdef := { dA with spillBase := 0x1040000, spillSize := 8192 }, rec_ := r })] }
def sW (rep : Bool) (c : ChanSt) (e : AMap (List WaitEdge)) (reports : List (Nat × List WaitEdge) := []) : State :=
  sWc (tW rep c) { edges := e, reports := reports }
def edgeW : WaitEdge := ⟨1, true, 0⟩
theorem hyp_spill : steerLive (sW true {} []) pA = some (0, (sW true {} []).ctxs.headD (0, xA) |>.2) ∧ blocked (sW false {} []) dA 0 = true ∧
    (reportFlits 0 pA (waitEdges (sW false {} []) dA 0)).length ≤ portRoom (sW false {} []) pA .management ∧
    (sW false {} []).tile 0 = tW false {} ∧ blocked sA dA 0 = false ∧
    watched xA = true ∧ watched { xA with run := { xA.run with pauseState := 1 } } = false ∧
    ([(0, [edgeW])] : List (Nat × List WaitEdge)).find? (fun e => e.1 == ckey pA) = some (ckey pA, [edgeW]) ∧
    ([(0, [])] : List (Nat × List WaitEdge)).find? (fun e => e.1 == ckey pA) = some (ckey pA, []) ∧
    onCycle [(0, [edgeW])] 0 edgeW = true ∧
    creditTarget (sW true { store := [{}] } [(0, [edgeW])]) 0 edgeW = some (0, 0) ∧
    mayEnterSpill (sW true { store := [{}] } [(0, [edgeW])]) dA 0 0 = true ∧
    ((tW true { ordered := true }).cst 0).ordered = true := by decide +kernel

def txnRead : SpillTxn := { ch := 0, write := false, items := 32, addr := 0x1040000, len := 4096, got := 4096, poison := [1] }
def txnWrite : SpillTxn := { ch := 0, write := true, items := 1, addr := 0x1040000, len := 128, got := 128 }
def tBack (r : SpillTxn) : Tile :=
  { tW true { spilling := true, store := [{ data := 1 }], binSeg := [{ data := 2 }], memSeg := [{ data := 3 }, { data := 4 }], memSent := 1 }
    with spill := [(16, r)] }
theorem hyp_transfer : ((tBack txnRead).spill.find? fun e => e.2.ch == 0 && e.2.got = e.2.len) = some (16, txnRead) ∧
    ((tBack txnWrite).spill.find? fun e => e.2.ch == 0 && e.2.got = e.2.len) = some (16, txnWrite) ∧
    chBinCap ((tBack txnRead).chan 0) ≠ 0 := by decide +kernel
theorem hyp_transfer_lines (l : Nat) : (tBack txnRead).bin.lineOk l = true := rfl

/-- SectionChange: every tile of the context stands at its `secend`; one is left with a message; a tile of a sound image is not
loaded; and a delayed tensor's record with poison. -/
def sSec (rel : Bool) (mail : List Mail := []) : State :=
  { withTile { tQ with core := { kA with run := .secEnd }, chst := [], dma := { mailbox := mail } } with
    ctxs := [(0, { xA with run := { xA.run with released := rel } })] }
theorem hyp_section_end : (dA.keys.any fun k => ((sSec true).tile k).core.run == .secEnd) = true ∧ sectionDrained (sSec true) 0 dA = true ∧
    (∀ q ∈ dA.tiles, residue ((sSec true).tile (ckey q)) = none) ∧ (∀ k ∈ dA.colls, k.startSec ≠ xA.run.section_) ∧
    (dA.tiles.findSome? fun q => (residue ((sSec true [⟨5, {}⟩]).tile (ckey q))).map fun n => (q, n)) = some (pA, 32) ∧
    sectionDrained (sSec true [⟨5, {}⟩]) 0 dA = true := by decide +kernel
theorem hyp_section_entry : InCtx sI pA 0 xL ∧ xL.rec_.state = 1 ∧ xL.run.phase = .loading ∧ (sI.tile 0).loaded = false ∧
    moveReady sI 0 = false ∧ sectionFree sI 0 xL xL.run.section_ = true ∧
    sectionBad (heldReds sI dA) (imageOf sI dA) dA.w dA.h xL.run.section_ = none ∧ (∀ ids, delayPoison sI xL ids = false) :=
  ⟨by decide +kernel, by decide, by decide, by decide, by decide +kernel, by decide, section_image, fun _ => by simp [delayPoison, show delayedOn xL = false by decide]⟩

/-- SectionChange: a delayed tensor whose scale record carries poison. -/
def dSc : CtxDef := { dA with scaleBase := 4096, tensors := [{ id := 9, first := 0, delayed := true }] }
def xSc : Ctx := { xL with cdef := dSc, run := { xL.run with numerics := 0x10 } }
def sSc : State := { sI with ctxs := [(0, xSc)], mem := { sI.mem with poison := [(newestScale sI dSc 0) / 64] } }
theorem hyp_section_poison : delayPoison sSc xSc [9] = true := by decide +kernel

/-- SectionWaits: a barrier not released, a tile that still runs, a context not running. -/
theorem hyp_section_waits : (sSec false).ctx 0 = some xA ∧ xA.run.released = false ∧ sectionDrained sA 0 dA = false ∧
    xL.run.phase ≠ .running := by decide +kernel

/-- PauseAndFallowGap: a draining context whose only program is held, at its deadline and before it, and a gap of 2,001
microseconds. -/
def sPause (r : RunState) : State :=
  { withTile { tQ with core := { kA with run := r } } with ctxs := [(0, { xA with run := { xA.run with pauseState := 1 } })] }
def sGap (n : Nat) : State := { sA with clk := { sA.clk with timeUs := n } }
theorem hyp_pause : (dA.keys.all (atRest (sPause .held) dA)) = true ∧ nothingInFlight (sPause .held) 0 dA = true ∧
    0 + 2 * maxFallowGap (sPause .held) xA ≤ xA.rec_.slow ∧ xA.rec_.slow < 1 + 2 * maxFallowGap (sPause .held) xA ∧
    InCtx (sGap 2001) pA 0 xA ∧ cfgField (sGap 2001) 0x2310 4 0 16 < now (sGap 2001) - ((sGap 2001).tile 0).lastFallow ∧
    now (sGap 2000) - ((sGap 2000).tile 0).lastFallow ≤ cfgField (sGap 2000) 0x2310 4 0 16 ∧
    ((sGap 2001).tile 0).gapLate = false ∧ atFallow ((sGap 2001).tile 0).core.run = false := by decide +kernel

/-! ### Witnesses: the mesh -/

/-- A flit in a router, with the tiles of a corner bound to their positions and a link failed or not. -/
def fAt (x y : Nat) (inp : Port) (dst : Coord) : Flit := { flitA .forward 0 with dst := dst, loc := .router x y inp }
def sMesh (f : Flit) (failed : List MeshLink) (dead : Bool := false) : State :=
  { withFlit (withTile { (runTile kA) with loaded := !dead }) f with
    gleaner := { State.reset.gleaner with bind := [(0, 0), (1, 2), (128, 60), (129, 61)] }
    mesh := { (withFlit sA f).mesh with failed := failed } }
def fPort : Flit := { flitA .forward 0 with dst := ⟨5, 5⟩, loc := .port 0 0 }

/-- MeshHops: the tile port with a slot and a throttled one; the four directions at edges of the mesh, the sink, a sink that holds the
item back, a failed hop; a flit whose check fails, one that passes, and the link that 64 resends have used. -/
def hopOk (x y : Nat) (dst : Coord) (p : Port) : Bool :=
  let f := fAt x y .tile dst
  let s := sMesh f []
  s.flit 4 == some f && s.putFlit 4 f == s && dorPort dst x y == p && isHead s f && packetWhole s f && granted s x y p f &&
    outRoomFor s x y p f && (leaves dst y p || !hopDead s x y p)
theorem hyp_hops : hopOk 118 0 ⟨119, 47⟩ .east = true ∧ hopOk 1 0 ⟨0, 47⟩ .west = true ∧ hopOk 0 46 ⟨0, 47⟩ .south = true ∧
    hopOk 0 1 ⟨0, 0⟩ .north = true ∧ hopOk 0 0 ⟨0, 0⟩ .tile = true ∧ hopOk 0 0 ⟨0, northRow⟩ .north = true ∧
    hopOk 0 47 ⟨0, southRow⟩ .south = true ∧ outRoomFor (sMesh (fAt 0 0 .tile ⟨0, 0⟩) [] true) 0 0 .tile (fAt 0 0 .tile ⟨0, 0⟩) = false ∧
    hopDead (sMesh (fAt 0 0 .tile ⟨1, 0⟩) [⟨0, 0, 0, .east⟩]) 0 0 .east = true := by decide +kernel
theorem hyp_port : isHead (sMesh fPort []) fPort = true ∧ hasSlot (sMesh fPort []) 0 0 .tile fPort = true ∧
    gapHeld (sMesh fPort []) 0 0 .forward = false ∧
    gapHeld { sMesh fPort [] with mesh := { (sMesh fPort []).mesh with throttled := [2], injected := [(2, 0)] } } 0 0 .forward = true := by
  decide +kernel
theorem hyp_nak : outPort (sMesh (fAt 0 0 .tile ⟨1, 0⟩) []) (fAt 0 0 .tile ⟨1, 0⟩) 0 0 = some .east ∧
    hopLinks (sMesh (fAt 0 0 .tile ⟨1, 0⟩) []) 0 0 .east = [⟨0, 0, 0, .east⟩, ⟨0, 1, 0, .east⟩] := by decide +kernel

theorem crc_zeros (a b : Word) (h : (List.replicate 16 (0 : Byte)).foldl crcByte a = b) (l : List Byte) :
    (List.replicate 16 (0 : Byte) ++ l).foldl crcByte a = l.foldl crcByte b := by rw [List.foldl_append, h]
theorem hop_crc : hopCrc 19807342897490936955402780672 0 = 547713880 := by
  have hp : toLE 128 0 = List.replicate 16 0 ++ (List.replicate 16 0 ++ (List.replicate 16 0 ++ (List.replicate 16 0 ++
      (List.replicate 16 0 ++ (List.replicate 16 0 ++ (List.replicate 16 0 ++ (List.replicate 16 0 ++ []))))))) := by decide +kernel
  unfold hopCrc crc32
  rw [hp, List.foldl_append, show (toLE 12 19807342897490936955402780672).reverse.foldl crcByte 0xFFFFFFFF = 3627123068 by decide +kernel,
    crc_zeros 3627123068 1241657163 (by decide +kernel), crc_zeros _ 3461616484 (by decide +kernel),
    crc_zeros _ 1640614076 (by decide +kernel), crc_zeros _ 4274771990 (by decide +kernel), crc_zeros _ 3618372009 (by decide +kernel),
    crc_zeros _ 2108431814 (by decide +kernel), crc_zeros _ 4490564 (by decide +kernel), crc_zeros _ 3747253415 (by decide +kernel)]
  decide +kernel
theorem fAt_wire : flitWire (fAt 0 0 .tile ⟨1, 0⟩) = BitVec.ofNat 1152 ((19807342897490936955402780672 * 2 ^ 32 + 547713880) * 2 ^ 1024) := by
  have h : flitHead (fAt 0 0 .tile ⟨1, 0⟩) = 19807342897490936955402780672 := by decide +kernel
  have q : flitPayload (fAt 0 0 .tile ⟨1, 0⟩) = 0 := by decide +kernel
  unfold flitWire
  rw [h, q, hop_crc]
  decide +kernel
theorem hyp_nak_fails : hopFails (flitWire (fAt 0 0 .tile ⟨1, 0⟩) ^^^ BitVec.ofNat 1152 (2 ^ 1024)) = true ∧
    hopFails (flitWire (fAt 0 0 .tile ⟨1, 0⟩) ^^^ 0) = false := by
  rw [fAt_wire]
  constructor
  · have a : (BitVec.ofNat 1152 ((19807342897490936955402780672 * 2 ^ 32 + 547713880) * 2 ^ 1024) ^^^ BitVec.ofNat 1152 (2 ^ 1024)).toNat =
      (19807342897490936955402780672 * 2 ^ 32 + 547713881) * 2 ^ 1024 := by decide +kernel
    unfold hopFails
    simp only [a]
    rw [show bits ((19807342897490936955402780672 * 2 ^ 32 + 547713881) * 2 ^ 1024) 1056 96 = 19807342897490936955402780672 by decide +kernel,
      show bits ((19807342897490936955402780672 * 2 ^ 32 + 547713881) * 2 ^ 1024) 0 1024 = 0 by decide +kernel, hop_crc]
    decide +kernel
  · have a : (BitVec.ofNat 1152 ((19807342897490936955402780672 * 2 ^ 32 + 547713880) * 2 ^ 1024) ^^^ 0).toNat =
      (19807342897490936955402780672 * 2 ^ 32 + 547713880) * 2 ^ 1024 := by decide +kernel
    unfold hopFails
    simp only [a]
    rw [show bits ((19807342897490936955402780672 * 2 ^ 32 + 547713880) * 2 ^ 1024) 1056 96 = 19807342897490936955402780672 by decide +kernel,
      show bits ((19807342897490936955402780672 * 2 ^ 32 + 547713880) * 2 ^ 1024) 0 1024 = 0 by decide +kernel, hop_crc]
    decide +kernel

/-- MeshFallback: a failed link, a fallback flit that has waited 64 cycles, and escaping flits at the router of their destination and
before it, with the slot ahead free and taken. -/
def fFall (loc : FlitLoc) (w : Nat) : Flit := { fAt 1 0 .west ⟨1, 1⟩ with fallback := true, age := 255, waited := w, loc := loc }
theorem hyp_fallback : (sMesh (fFall (.router 1 0 .west) 64) [⟨0, 0, 0, .east⟩]).mesh.failed ≠ [] ∧ (fFall (.router 1 0 .west) 64).loc ≠ .sink ∧
    physOf (sMesh (fFall (.router 1 0 .west) 64) []) (tkey 1 0) = some 2 ∧
    escapeFree (sMesh (fFall (.router 1 0 .west) 64) []) 2 0 .west .forward = true ∧
    escapeFree (sMesh (fFall (.escape 2 0 .west) 64) []) 2 0 .west .forward = false ∧
    tkey 1 1 = escapeEnd (sMesh (fFall (.escape 1 1 .north) 0) []) ⟨1, 1⟩ ∧ tkey 2 0 ≠ escapeEnd (sMesh (fFall (.escape 2 0 .west) 0) []) ⟨1, 1⟩ ∧
    sinkRoom (sMesh (fFall (.escape 1 1 .north) 0) []) (fFall (.escape 1 1 .north) 0) = true := by decide +kernel
theorem hyp_fallback_held : heldAt (sMesh { fFall (.escape 1 1 .north) 0 with op := 1 } []) { fFall (.escape 1 1 .north) 0 with op := 1 } = false := by
  decide +kernel

/-- MeshServices: a management packet at its sink, whole and in part; tiles of a context whose children have arrived, the north-west one
and one east of it; a release at a leaf; and a circuit flit that goes north and to its tile. -/
def fReport (n : Nat) : Flit := { flitA .management 0xB with src := pA, dst := ⟨0, northRow⟩, len := n, edges := [⟨1, true, 0⟩] }
def fArr (x y : Nat) : Flit := { flitA .management 9 with src := ⟨x, y⟩, dst := pA, loc := .router 0 0 .east }
def sBar (arr : List Nat) : State :=
  { withTile { tQ with core := { kA with run := .stepEnd } } with
    ctxs := [(0, { xA with run := { xA.run with arrived := arr } })]
    mesh := { flits := [(4, fReport 1), (5, fArr 1 0), (6, fArr 0 1)], nextFlit := 7 } }
def fRel : Flit := { flitA .management 0xA with src := ⟨6, 7⟩, dst := ⟨7, 7⟩, loc := .router 7 7 .west }
def fBlk : Flit := { flitA .request 2 with dst := ⟨5, 0⟩, loc := .router 0 0 .tile }
def sBlk : State := sMesh fBlk [⟨0, 0, 0, .east⟩]
def fCirc : Flit := { flitA .circuit 0 with loc := .router 0 1 .north, tag := 7, dst := ⟨3, 3⟩ }
def sCirc : State := { withFlit sA fCirc with mesh := { (withFlit sA fCirc).mesh with circuits := [(8 * 128 + 7, ⟨.north, 18, true⟩)] } }
theorem hyp_services : bitAt (cfgInForce sBlk 0x2270 1).toNat 31 = true ∧ sBlk.mesh.throttled.contains (8 * ckey pA + classNum .forward) = false ∧
    outputBlocked sBlk pA .request = true ∧ outputBlocked sBlk pA .forward = false ∧ rootStopped sBlk = false ∧
    (sBar []).arrived 4 = some (fReport 1) ∧ (wholePacket (sBar []) (fReport 1)).isSome = true ∧ live (sBar []) 0 pA ≠ none ∧
    (wholePacket (withFlit sA (fReport 2)) (fReport 2)).isNone = true ∧ live (withFlit sA { fReport 1 with src := ⟨8, 0⟩ }) 0 ⟨8, 0⟩ = none ∧
    tileArrived (sBar []) 0 = true ∧ (∀ q ∈ barrierChildren dA pA, (arriveOf (sBar []) 0 pA q).isSome = true) ∧
    barrierChildren dA pA ≠ [] ∧ barrierParent dA pA = none ∧ hallBarrier (sBar [0]) 0 xA = false := by decide +kernel
theorem hyp_arrive_up : tileArrived sA (ckey ⟨7, 7⟩) = true ∧ barrierChildren dA ⟨7, 7⟩ = [] ∧ barrierParent dA ⟨7, 7⟩ = some ⟨6, 7⟩ ∧
    treeHop sA ⟨7, 7⟩ ⟨6, 7⟩ { cls := .management, ctx := 0, op := 9, dst := ⟨6, 7⟩, src := ⟨7, 7⟩ } = some (.router 6 7 .east) := by decide +kernel
theorem hyp_release : (withFlit sA fRel).flit 4 = some fRel ∧ barrierChildren dA ⟨0, 0⟩ = [⟨1, 0⟩, ⟨0, 1⟩] ∧
    (treeHop (withFlit sA fRel) pA ⟨1, 0⟩ fRel).isSome = true := by decide +kernel
theorem hyp_circuit : sCirc.flit 4 = some fCirc ∧ circuitEnt sCirc fCirc = some (0, 1, ⟨.north, 18, true⟩) ∧ maskPorts 18 = [.south, .tile] ∧
    isHead sCirc fCirc = true ∧ circuitRoom sCirc 0 1 ⟨.north, 18, true⟩ fCirc = true ∧
    (maskPorts 18).all (circuitGranted sCirc 0 1) = true ∧ 4 < sCirc.mesh.nextFlit := by decide +kernel

/-- InNetworkReduction: entry 31 adds the items of its west and its tile input and gives them to its tile; entry 29 has its tile input
alone; entry 28 adds the same and gives them to input 1 of entry 28 at the router to the east; entry 30 copies to its tile; with items sound and poisoned, and three credits returned. -/
def redW (typ op mask : Nat) (ins : List Nat) (out : Nat := 4) (next : Nat := 0) : DWord :=
  BitVec.ofNat 64 (typ * 2 ^ 62 + op * 2 ^ 60 + ins.getD 0 7 * 2 ^ 57 + ins.getD 1 7 * 2 ^ 54 + 7 * 2 ^ 51 + 7 * 2 ^ 48 + 7 * 2 ^ 45
    + out * 2 ^ 42 + mask * 2 ^ 37 + next * 2 ^ 32 + 3 * 2 ^ 27 + 2 ^ 24)
def sRed (a b : Item) (n : Nat) : State :=
  { withTile tQ with
    mesh := { reduce := [(28, redW 1 0 0 [3, 4] 2 28), (29, redW 1 0 0 [4]), (30, redW 2 0 1 [4]), (31, redW 1 0 0 [3, 4]), (32 + 28, redW 1 0 0 [4, 3])]
              staging := [(8 * 28, [⟨1, a⟩]), (8 * 28 + 1, [⟨1, b⟩]), (8 * 29, [⟨5, a⟩]), (8 * 30, [⟨7, a⟩]), (8 * 31, [⟨0xFFFF, a⟩]),
                (8 * 31 + 1, [⟨0xFFFF, b⟩, ⟨0, b⟩])]
              branch := [(8 * 30 + 4, n)] } }
def fCon : Flit := { flitA .collective 7 with src := pA, dst := pA, tag := 31 + 32, seq := 3, loc := .port 0 0 }
theorem hyp_reduction : steerLive (sRed { data := vecA } { data := vecB } 3) pA = some (0, xA) ∧
    redEntry (sRed { data := vecA } { data := vecB } 3) 0 31 = redW 1 0 0 [3, 4] ∧ rType (redW 1 0 0 [3, 4]) = 1 ∧
    (rInputs (redW 1 0 0 [3, 4])).length = 2 ∧ rOut (redW 1 0 0 [3, 4]) = 4 ∧ (rInputs (redW 1 0 0 [4])).length = 1 ∧
    redRoom (sRed { data := vecA } { data := vecB } 3) 0 0 (redW 1 0 0 [3, 4]) 4 = true ∧
    (staged (sRed { data := vecA } { data := vecB } 3) 0 31 0).head? = some ⟨0xFFFF, { data := vecA }⟩ ∧
    (staged (sRed { data := vecA } { data := vecB } 3) 0 31 1).head? = some ⟨0xFFFF, { data := vecB }⟩ ∧
    rOut (redW 1 0 0 [3, 4] 2 28) ≠ 4 ∧ redNext (sRed {} {} 3) 0 0 (redW 1 0 0 [3, 4] 2 28) 2 = (1, 28, 1) ∧
    treeHop (sRed {} {} 3) pA ⟨1, 0⟩ (redFlit (sRed {} {} 3) 0 0 0 (redW 1 0 0 [3, 4] 2 28) 2 ⟨1, {}⟩) = some (.router 1 0 .west) ∧
    redRoom (sRed {} {} 3) 0 0 (redW 1 0 0 [3, 4] 2 28) 2 = true ∧
    rType (redW 2 0 1 [4]) = 2 ∧ (List.range 5).filter (rMask (redW 2 0 1 [4])) = [4] ∧ rIn (redW 2 0 1 [4]) 0 = 4 ∧
    redRoom (sRed {} {} 3) 0 0 (redW 2 0 1 [4]) 4 = true ∧
    mget (sRed { data := vecA } { data := vecB } 3).mesh.branch 0 (8 * (32 * 0 + 30) + 4) = 2 + 1 := by decide +kernel
theorem hyp_contribution : (withFlit sA fCon).flit 4 = some fCon ∧ isHead (withFlit sA fCon) fCon = true ∧
    (live (withFlit sA fCon) 0 pA).isSome = true ∧
    sinkRoom (sRed {} {} 3) { flitA .collective 1 with src := pA, tag := 0, chan := 3, aux := 3 } = true := by decide +kernel

/-! ### Witnesses: main memory -/

theorem hyp_places : 0x20FFFFFFFC0 % 64 = 0 ∧ 15 < 16 ∧ 10 < 11 := by decide

/-- GranaryRequests: a read of the last two lines of memory, a write, and a read past it, at each granary; a share in use; a tile of
no context. -/
def fMem (op : BitVec 4) (y a n : Nat) : Flit :=
  { flitA .request op with dst := ⟨1, y⟩, addr := BitVec.ofNat 64 a, len := n, lines := if op = 4 then [⟨3, true⟩] else [] }
def txA (w : Bool) (a len done : Nat) (ls : List Line) : Txn :=
  { kind := if w then .writeLocal else .readLocal, ctx := 0, epoch := 0, north := true, src := ⟨1, 1⟩, tag := 9, addr := BitVec.ofNat 64 a, len := len
    lines := ls, done := done, order := 0, packet := none, link := 0 }
def sMem (f : Flit) (share : Nat) (txns : AMap Txn) : State :=
  { withFlit sA f with ctxs := [(0, { xA with cdef := { dA with share := share } })], mem := { txns := txns, data := [(64, 7)] } }
def sPast (op : BitVec 4) : State := sMem { fMem op 62 0x20FFFFFFFC0 128 with aux := 1 } 1 []
theorem hyp_requests : (sMem (fMem 2 62 0x20FFFFFFF80 128) 1 []).arrived 4 = some (fMem 2 62 0x20FFFFFFF80 128) ∧
    isGranary (fMem 2 62 0 64).dst = true ∧ isGranary (fMem 4 63 0 64).dst = true ∧
    live (sMem (fMem 2 62 0 64) 1 []) 0 ⟨1, 1⟩ = some { xA with cdef := { dA with share := 1 } } ∧ live (sMem (fMem 2 62 0 64) 1 []) 0 ⟨8, 0⟩ = none ∧
    entriesUsed (sMem (fMem 2 62 0 64) 1 [(0, txA false 0 64 0 [])]) 0 true = 1 ∧ entriesUsed (sMem (fMem 2 62 0 64) 1 []) 0 true < 1 ∧
    openEntry (sMem (fMem 4 62 0 64) 1 []) (fMem 4 62 0 64) true = none ∧
    gSpace 0x20FFFFFFF80 = 0 ∧ gOff 0x20FFFFFFF80 + 128 ≤ memCap (sMem (fMem 2 62 0 64) 1 []) ∧
    memCap (sPast 2) < gOff 0x20FFFFFFFC0 + 128 ∧ gOff 0x20FFFFFFFC0 < readViewBase ∧ readViewBase ≤ writeViewBase ∧
    granaryRoom ((sPast 2).dropFlit 4) { cls := .reply, ctx := 0, op := 0xD, dst := ⟨1, 1⟩, src := granaryPort 1 true } = true := by
  decide +kernel
def fPart : Flit := { fMem 4 62 0 256 with seq := 1, aux := 2 }
def txPart (n : Nat) : Txn := { txA true 0 256 0 [] with parts := [(n, [⟨3, true⟩])] }
theorem hyp_parts : openEntry (sMem fPart 1 [(6, txPart 0)]) fPart true = some (6, txPart 0) ∧ (mput (txPart 0).parts 1 [⟨3, true⟩]).length = 2 ∧
    openEntry (sMem fPart 1 [(6, txPart 1)]) fPart true = some (6, txPart 1) ∧ (mput (txPart 1).parts 1 [⟨3, true⟩]).length ≠ 2 := by decide +kernel

/-- LineReads: a line of which one bit comes back wrong, found by its check, and the same with a second read that passes; in modules
with its channel retired, with another of its row retired, and with the stripe lost. -/
def sLine (ret : List Nat) : State := { sA with mem := { data := [(64, 7), (131, 9)], retired := ret } }
def sGone : State := { sLine [] with mem := { (sLine []).mem with stripes := [(0, { state := 2 })] } }
def badLine (e1 e2 : BitVec 576) : List LineCheck := [⟨lineChannel 64, 0, e1, e2, 0, 0⟩]
theorem hyp_line_reads : lineRow 64 = 0 ∧ ((sLine []).stripe (stripeOf 64)).state ≠ 2 ∧ retiredAt (sLine [2]) (lineChannel 64) = true ∧
    retiredAt (sLine []) (lineChannel 64) = false ∧ lineChannel 64 = 2 ∧ rowPos 64 = 2 ∧ retiredAt (sLine [2, 3]) (12 * stripeOf 64 + 3) = true ∧
    lineCheck (badLine 1 0) 2 0 = ⟨2, 0, 1, 0, 0, 0⟩ ∧ (lineCheck (badLine 1 0) 3 0).err1 = 0 ∧ (sGone.stripe (stripeOf 64)).state = 2 := by
  decide +kernel
theorem hyp_line_checks : readBack (storedLine (sLine []) 64) 1 2 0 = none ∧ readBack (storedLine (sLine []) 64) 0 2 0 = some ⟨7, false⟩ := by
  decide +kernel

/-- GranaryLines: the last of two lines of a read and of a write that carries poison, and a write of part of a line. -/
theorem hyp_lines : onMemory (txA false 0 128 1 [⟨5, false⟩]) = true ∧ 128 / 64 = 1 + 1 ∧ (txA true 0 128 1 [⟨5, false⟩, ⟨3, true⟩]).kind.writes = true ∧
    (txA true 0 128 1 [⟨5, false⟩, ⟨3, true⟩]).lines[1 + 0]? = some ⟨3, true⟩ ∧ 128 / 64 - 1 = rowRun 64 (128 / 64 - 1) ∧
    rowWaits (sMem (fMem 2 62 0 64) 1 [(5, txA true 0 128 1 [])]) (txA true 0 128 1 []) (stripeOf 64) (lineRow 64) = false ∧
    (0 : Nat) / 4096 = (0 + 128 - 1) / 4096 ∧
    granaryRoom (sMem (fMem 2 62 0 64) 1 [(5, txA true 0 128 1 [])]) { cls := .reply, ctx := 0, op := 0, dst := ⟨1, 1⟩, src := granaryPort 1 true } = true
    := by decide +kernel
def txPartLine : Txn := { txA true 64 64 0 [⟨3, false⟩] with part := some (8, 16) }
theorem hyp_part_line : onMemory txPartLine = true ∧ txPartLine.len = 64 ∧ 64 * txPartLine.lines.length = txPartLine.len := by decide +kernel

/-- ChannelsAndScrub: channel 191 of a stripe that is whole and of one already degraded, due, and not due; stripe 15 of each, with every
channel in service and a line that fails both reads. -/
def sDeg : State := { sA with mem := { retired := [190], due := [191], stripes := [(15, { state := 1, retiredPos := 10 })] } }
theorem hyp_channels : retiredAt sA 191 = false ∧ (sA.stripe (191 / 12)).state = 0 ∧ retiredAt sDeg 191 = false ∧ sA.mem.due.contains 191 = false ∧
    sDeg.mem.due.contains 191 = true ∧ (sDeg.stripe (191 / 12)).state = 1 ∧ sDeg.mem.selfRefresh = false ∧ cfgField sDeg 0x2280 1 0 8 ≠ 0 ∧
    rowHeld sDeg sDeg.mem.nextOrder true 15 0 = false ∧ rowHeld sA sA.mem.nextOrder true 15 0 = false := by decide +kernel
theorem hyp_scrub_bad : readBack (rowLine sA 15 0 1) 1 181 0 = none := by decide +kernel

/-- PageCopies: the last page of the versioned range, of which version 0 is committed and version 1 built, for a write and at a boundary. -/
def sCopy : State :=
  { sA with mem :=
      { data := cellWrite [] 0x800000 (toLE 64 (VerRec.create 2 5).toLine) ++ [(0x811000, 1), (0x811FFF, 2), (0x813001, 3)]
        poison := [0x811040 / 64]
        copies := [⟨0, 1, none⟩] } }
def sBound : State := { sCopy with ctxs := [(0, { xA with run := { xA.run with phase := .boundary, toCopy := [1] } })] }
theorem hyp_page_copy : copying sCopy 0 1 = true ∧ (verRec sCopy dA).newest = 0 ∧ (verRec sCopy dA).build = 1 ∧ copyWaits sCopy 0 dA 1 = false ∧
    recordLost sCopy dA = false ∧ (dA.slotBase 0 + 4096 * 1) % 64 = 0 ∧ (dA.slotBase 1 + 4096 * 1) % 64 = 0 ∧
    (sBound.ctx 0).map (fun x => x.run.phase == .boundary && x.run.toCopy.contains 1) = some true := by decide +kernel

/-! ### Witnesses: step boundaries and the tally -/

/-- VersionRecordEncoding and VersionRecordCommit: a record whose fields are all at their largest, and one of five slots that builds
in the last. -/
def verTop : VerRec := { newest := 7, build := 7, slots := 7, commits := 2 ^ 32 - 1, steps := List.replicate 5 (2 ^ 64 - 1), states := List.replicate 5 3 }
def verFive : VerRec := { newest := 0, build := 4, slots := 5, commits := 2 ^ 32 - 1, steps := [4, 0, 0, 0, 0], states := [0, 0, 0, 0, 2] }
theorem hyp_version : (∀ n ∈ verTop.steps, n < 2 ^ 64) ∧ (∀ n ∈ verTop.states, n < 4) ∧ verTop.steps.length = 5 ∧ verTop.states.length = 5 ∧
    verFive.build < verFive.slots ∧ (∀ i, i < verFive.slots → i ≠ verFive.build → verFive.states.getD i 0 = 0) := by decide

/-- BoundaryAndCommit: every tile at its `stepend`, the barrier released; and a boundary with nothing left to copy. -/
def sStep (ph : Phase) (w : List Nat) : State :=
  { withTile { tQ with core := { kA with run := .stepEnd, fpFlags := 31 }, bin := { capture := [⟨1, 2, 0, 0, 64, 3⟩] } } with
    ctxs := [(0, { xA with run := { xA.run with phase := ph, released := true, written := w } })]
    mem := { data := cellWrite [] 0x800000 (toLE 64 (VerRec.create 2 5).toLine) } }
theorem hyp_boundary : (sStep .running []).ctx 0 = some { xA with run := { xA.run with released := true } } ∧
    (dA.keys.any fun k => ((sStep .running []).tile k).core.run == .stepEnd) = true ∧ stepDrained (sStep .running []) 0 dA = true ∧
    commitReady (sStep .boundary [0, 1]) 0 { xA with run := { xA.run with phase := .boundary } } = true ∧
    admitting (sStep .boundary [0, 1]) 0 = false ∧ recordLost (sStep .boundary [0, 1]) dA = false ∧
    scalePoison (sStep .boundary [0, 1]) xA = false ∧ scaleStripeLost (sStep .boundary [0, 1]) xA = false := by decide +kernel
/-- A versioned range with one delayed tensor: its record is due, poisoned, and in a module whose version record is lost. -/
def xDel : Ctx :=
  { xA with cdef := { dA with tensors := [{ id := 6, first := 0, delayed := true }], scaleBase := 4096 }
            run := { xA.run with phase := .boundary, numerics := 0x10010, written := [0, 1] } }
def sDel (poison : List Nat) : State := { sStep .boundary [] with ctxs := [(0, xDel)], mem := { (sStep .boundary []).mem with poison := poison } }
theorem hyp_commit : commitReady (sDel []) 0 xDel = true ∧ admitting (sDel []) 0 = false ∧ delayedOn xDel = true ∧ xDel.cdef.delayedIds = [6] ∧
    recordLost (sDel []) xDel.cdef = false ∧ scalePoison (sDel []) xDel = false ∧ scaleStripeLost (sDel []) xDel = false ∧
    recordLost (sDel [0x800000 / 64]) xDel.cdef = true ∧ scalePoison (sDel [0x811000 / 64]) xDel = true ∧
    recordLost (sDel [0x811000 / 64]) xDel.cdef = false := by decide +kernel
theorem hyp_seal : (sStep .committed []).ctx 0 = some { xA with run := { xA.run with phase := .committed, released := true } } ∧
    stripeLost (sStep .committed []) = false := by decide +kernel

/-- SealAndNextStep: every tile of the context at its `stepend`, the last at the last index but one; the next step is admitted. -/
def coreE : Core := { pc := 8190, run := .stepEnd }
def sSeal : State :=
  { sStep .sealed_ [] with
    tiles := dA.keys.map fun k => (k, { core := if k = 903 then coreE else { coreE with pc := 1024 }, loaded := true })
    dict := { State.reset.dict with rw := [(odKey 0x6145 1, 6)] } }
theorem hyp_next_step : mayBegin sSeal 0 (xA.run.step + 1) = true ∧ xA.run.gen = sSeal.dict.activeGen ∧ sSeal.dict.adopted = true ∧ scalePoison sSeal xA = false ∧
    sSeal.hall.admState = 0 ∧ xA.run.pauseState = 0 ∧
    ∀ k ∈ dA.keys, (sSeal.tile k).core.run = .stepEnd ∧ (sSeal.tile k).core.fits ∧ (sSeal.tile k).moveStage = 0 := by decide +kernel

/-- DigestEngine: a captured line with an empty table, with an entry of its tensor there and with a full table, under a focus; and a
table of 32 entries. -/
def sDig (l : List TallyEnt) (focus : DWord := 0) : State :=
  { withTile { tQ with bin := { capture := [⟨1, 2, 0, 0, 64, 3⟩, ⟨1, 2, 64, 2 ^ 62, 128, 4⟩] }, tally := l } with
    ctxs := [(0, { xA with run := { xA.run with focus := focus } })] }
def fullTab : List TallyEnt := (List.range 32).map fun i => { tensor := BitVec.ofNat 32 (0xFFFFFE00 + i) }
def sFull : State := withTile { tQ with tally := fullTab }
theorem hyp_digest : InCtx (sDig []) pA 0 xA ∧ ((sDig []).tile 0).tally = [] ∧ (fullTab.any fun a => a.tensor == tallyId dA 2) = false ∧
    32 ≤ fullTab.length ∧ (([{ tensor := 0xFFFFFFFF }] : List TallyEnt).any fun a => a.tensor == tallyId dA 2) = true ∧
    ((sFull.tile 0).tally.drop 1).length = 31 ∧ bitAt 0x80000000FFFFFFFF 63 = true ∧ bits 0x80000000FFFFFFFF 59 4 = 0 ∧
    bits 0x80000000FFFFFFFF 0 32 = (tallyId dA 2).toNat := by decide +kernel

/-! ### Witnesses: links and the hall -/

/-- A ring of four modules in one dimension, links 0 and 16 toward the next and 15 and 31 toward the one before; a linked context of
job 3; and the given links and own coordinate. -/
def dJ : CtxDef := { dA with link := BitVec.ofNat 64 (3 * 2 ^ 48 + 0xFFFF * 2 ^ 32) }
def xJ : Ctx := { xA with cdef := dJ }
def linkUpA : Link := { state := 2, mapTx := [0, 1, 2, 3, 4, 5], mapRx := [0, 1, 2, 3, 4, 5], seqTx := 0xFFF, seqRx := 0xFFF }
def sHall (own : Nat) (ks : AMap Link) : State :=
  { sA with
    ctxs := [(0, xJ)]
    dict := { State.reset.dict with rw := [(odKey 0x6170 1, BitVec.ofNat 64 (own * 2 ^ 44 + 3 * 2 ^ 20 + 2 ^ 16)), (odKey 0x6171 1, 0x40000000),
      (odKey 0x6171 16, 0x48000000)] }
    hall := { links := ks } }

/-- LinkFrames: a link at its last sequence number with a frame to resend, or one waiting packet and the fewest credits; frames that
are in sequence, out of sequence and damaged, for this module and for the next. -/
def pkM : Packet := plainPacket 6 3 1 0 0 0 0 0 0
def pkD : Packet := { plainPacket 1 4 0 2 0 0 0 0 0 with data := [5, 6, 7], poison := [false, true, false] }
def qM (p : Packet) : Queued := ⟨p, true, false, 32⟩
def linkM : Link := { linkUpA with outq := [qM pkM], credits := [(4, 4)], replay := (List.range 3).map fun i => ⟨BitVec.ofNat 12 (0xFFC + i), .management, [], 2, 0⟩ }
def linkR : Link := { linkUpA with resend := [⟨5, .request, [], 2, 0⟩], owe := [(4, 600)] }
def frameA (q : BitVec 12) : LinkFrame :=
  { good := true, seq := q, ack := 0xFFE, nak := false, cls := 1, units := 14, poison := 2, creditClass := 4, credits := 2, uncorrectable := false
    wave := 5, packets := [{ pkD with poison := [] }] }
theorem hyp_frames : linkM.up = true ∧ linkR.resend = ⟨5, .request, [], 2, 0⟩ :: [] ∧ linkM.resend = [] ∧ linkM.replay.length < 1172 ∧
    clsNum (packetClass pkM) = 4 ∧ packetUnits pkM ≤ 16 ∧ packetUnits pkD ≤ 16 ∧ mget linkM.part 0 4 = 0 ∧ mget linkM.flight [] 4 = [] ∧
    2 * maxUnits (packetClass pkM) ≤ mget linkM.credits (bufUnits (packetClass pkM)) 4 ∧
    8 * packetUnits pkM ≤ bufUnits (packetClass pkM) * jobShare (sHall 0 [(0, linkM)]) pkM ∧
    (sHall 0 [(0, linkM)]).link 0 = linkM ∧ (frameA 0xFFF).seq = linkM.seqRx ∧ (frameA 0).seq ≠ linkM.seqRx ∧
    pkD.dest.toNat = ownCoord (sHall 0 [(0, linkM)]) ∧ pkD.op.toNat < 6 ∧ packetUnits pkD ≤ (frameA 0).units.toNat ∧
    clsNum (packetClass pkD) = (frameA 0).cls.toNat ∧ (linkR.owe.any fun e => e.2 != 0) = true := by decide +kernel
theorem hyp_frame_forward : (routeFrom (sHall 1 [(0, linkM), (15, linkUpA)]) (linkSouth 0) allSlots pkD
      (travelOf (sHall 1 [(0, linkM), (15, linkUpA)]) 0)).isSome = true ∧ pkD.dest.toNat ≠ ownCoord (sHall 1 [(0, linkM), (15, linkUpA)]) := by
  decide +kernel
def linkBad : Link := { linkUpA with badWords := [(5, List.replicate 16 0)] }
theorem hyp_bad_words : (now (sHall 0 [(0, linkBad)]) :: (mget linkBad.badWords [] 5).filter fun t => now (sHall 0 [(0, linkBad)]) < t + 1000).length = 17 ∧
    (frameA 0).wave.toNat ∈ linkBad.mapRx ∧ spareOf (linkBad.mapRx.filter fun i => i != 5) (0#8 ||| (1#8 <<< 5)) = some 6 := by decide +kernel

/-- LanesAndWavelengths: with one lane failed, and with two; a wavelength that fails with spares left and with none; the packet that
names a spare, and its SEQ not yet reached and reached. -/
def linkW (q : BitVec 12) : Link := { linkUpA with mapTx := [0, 1, 2, 4, 5], pendTx := [⟨q, some (6, 3), 7⟩], gone := [1] }
def linkN : Link := { linkUpA with failedTx := 0xC0 }
theorem hyp_lanes : laneCapacity (healthyLanes (0#8 ||| (1#8 <<< 7))) = 6 ∧ (linkUpA.mapTx ++ namedSpares linkUpA.pendTx).length = 6 ∧
    laneCapacity (healthyLanes (3#8 ||| (1#8 <<< 7))) = 4 ∧ 7 ∉ linkUpA.mapRx ∧ laneCapacity (healthyLanes 0#8) = 7 ∧
    spareOf (linkUpA.mapTx.filter fun i => i != 5) (0#8 ||| (1#8 <<< 5)) = some 6 ∧
    spareOf (linkN.mapTx.filter fun i => i != 5) (linkN.failedTx ||| (1#8 <<< 5)) = none ∧
    (9 : Nat) < 1 * 10 ^ cfgField (sHall 0 []) 0x2290 1 12 4 ∧ (linkW 0).pendTx = [⟨0, some (6, 3), 7⟩] ∧ reached (linkW 0).seqTx 0 = false ∧
    reached (linkW 0xFFE).seqTx 0xFFE = true ∧ 6 ≤ (((linkW 0).mapTx ++ [6]).take 7).length := by decide +kernel
def sLaser : State := sHall 0 [(0, linkUpA), (1, { linkUpA with failedTx := 0x20, failedRx := 0x20 }), (2, { failedTx := 0x20, failedRx := 0x20 }), (3, { failedTx := 0x20, failedRx := 0x20 })]
theorem hyp_laser : ∀ i, i < 4 → 0 / 4 * 4 + i ≠ 0 → (sLaser.link (0 / 4 * 4 + i)).failedTx.getLsbD 5 = true ∧
    (sLaser.link (0 / 4 * 4 + i)).failedRx.getLsbD 5 = true := by decide +kernel

/-- LinksDownAndTrained: a link down with a packet of a frame not delivered, which goes the other way round; its age; and training. -/
def linkDownA (st : BitVec 3) : Link := { state := st, replay := [⟨4, .request, [], 2, 0⟩, ⟨5, .management, [qM pkM], 2, 0⟩] }
def vDown : State := (sHall 0 [(0, linkDownA 0), (15, linkUpA)]).modLink 0 fun k => { k with replay := [], resend := [], outq := [], part := [] }
theorem hyp_links_down : (routeFrom vDown (linkSouth 0) allSlots pkM none).isSome = true ∧ (sHall 0 []).hall.admState = 0 ∧
    (linkDownA 0).replay = [] ++ ⟨4, .request, [], 2, 0⟩ :: [⟨5, .management, [qM pkM], 2, 0⟩] ∧
    bits (linkMap (sHall 0 []) (linkSlot 31)) 30 2 ≠ 0 ∧ (sHall 0 []).clk.change = none ∧
    mappedFar (sHall 0 [(31, linkDownA 1)]) (linkSlot 31) = some 3 := by decide +kernel

/-- RemotePackets: a request of an unknown job, one of job 3 for the last lines of its range, and a reply of either epoch, each waiting
at link 0. -/
def pkR (job off : Nat) : Packet := plainPacket 0 job 0 1 0 off 64 7 0
def pkReply (e : Nat) : Packet := { plainPacket 1 3 0 1 0 0 0 9 e with data := [5], poison := [true], lines := 1 }
def txR : Txn := { txA false 0x1000 64 0 [] with kind := .readRemote, epoch := 2, north := true }
def sRem (p : Packet) : State := { sHall 0 [(0, { linkUpA with inq := [p] })] with mem := { txns := [(9, txR)] } }
theorem hyp_remote : waitsAt (sRem (pkR 4 0)) 0 (pkR 4 0) = true ∧ jobCtx (sRem (pkR 4 0)) 4 = none ∧ jobCtx (sRem (pkR 3 0)) 3 = some (0, xJ) ∧
    inboundUsed (sRem (pkR 3 0)) true < 8192 ∧ packetInside dJ (pkR 3 0x10FF000) = true ∧ mfind (sRem (pkReply 2)).mem.txns 9 = some txR ∧
    awaitsReply txR = true ∧ txR.north = !linkSouth 0 ∧ (pkReply 2).epoch = txR.epoch ∧
    granaryRoom (sRem (pkReply 2)) { cls := .reply, ctx := 0, op := 0, dst := ⟨1, 1⟩, src := granaryPort 1 true } = true := by decide +kernel

/-- HallBarriers: a context at the end of its section, at the root and at a leaf of the barrier tree, alone and with the arrive of a child
or the release of its parent waiting at a link. -/
def sHB (own : Nat) (w : List Nat) (inq : List Packet) : State :=
  { sHall own [(0, { linkUpA with inq := inq }), (15, linkUpA)] with
    ctxs := [(0, { xJ with run := { xJ.run with arrived := [0] } })]
    hall := { (sHall own [(0, { linkUpA with inq := inq }), (15, linkUpA)]).hall with waiting := w } }
def xHB : Ctx := { xJ with run := { xJ.run with arrived := [0] } }
def pkArr (src : Nat) : Packet := plainPacket 6 3 0 src 0 0 0 0 0
def pkRel (src dst : Nat) : Packet := plainPacket 7 3 dst src 0 0 0 0 0
def late (s : State) : State := { s with clk := { s.clk with timeUs := 10000000 } }
theorem hyp_hall_barriers : hallBarrier (sHB 0 [] []) 0 xHB = true ∧ hallParent (sHB 0 [] []) (ownCoord (sHB 0 [] [])) = none ∧
    hallParent (sHB 2 [] []) (ownCoord (sHB 2 [] [])) = some 3 ∧ hallChildren (sHB 2 [] []) = [] ∧ hallArrived (sHB 2 [0] []) 0 = true ∧
    (findBarrier (sHB 0 [] [pkArr 1]) 6 dJ.job 1).isSome = true ∧ 1 ∈ hallChildren (sHB 0 [] []) ∧
    takeRelease (sHB 2 [0] []) 0 xHB = none ∧ (takeRelease (sHB 2 [0] [pkRel 3 2]) 0 xHB).isSome = true ∧
    holdCurrent (late (sHB 2 [0] [])) dJ.job = false ∧
    mget (late (sHB 2 [0] [])).hall.waitSince 0 0 + hallTimeout (late (sHB 2 [0] [])) ≤ now (late (sHB 2 [0] [])) ∧
    now (sHB 2 [0] []) < mget (sHB 2 [0] []).hall.waitSince 0 0 + hallTimeout (sHB 2 [0] []) := by decide +kernel
def sHB2 (w : List Nat) : State :=
  { sHB 2 w [] with hall := { (sHB 2 w []).hall with links := [(0, linkUpA)] } }
theorem hyp_hall_pass : (sendPacket (sHB2 [0]) false dJ.slotMask (plainPacket 6 dJ.job 3 2 0 0 0 0 0)).isSome = true := by decide +kernel

/-- Collectives: the reduce-scatter of a ring of four modules, a chunk of it that is new and one handled before; and a broadcast whose
source is the next module, so that this one is the last. -/
def collE (kind source : Nat) : CollEnt :=
  { op := 0, kind := BitVec.ofNat 8 kind, dims := 1, source := BitVec.ofNat 20 source, startSec := 0, waitSec := 0, src := 0, dst := 0x10000, bytes := 4096 }
def xC (kind source : Nat) : Ctx := { xJ with cdef := { dJ with colls := [collE kind source] } }
def pkC (q : Nat) : Packet := { plainPacket 5 3 0 3 0 (1024 * q) 16 0 0 with data := (List.range 16).map (BitVec.ofNat 512), poison := List.replicate 16 false }
def collK : Coll := { ctx := 0, entry := 0, replay := false, seen := [chunkKey (sHall 0 []) (pkC 2)], work := [], staged := [], copyLeft := [], copyFrom := 0 }
def sColl (kind source : Nat) (inq : List Packet) : State :=
  { sHall 0 [(0, { linkUpA with inq := inq }), (16, linkUpA)] with
    ctxs := [(0, xC kind source)]
    hall := { (sHall 0 [(0, { linkUpA with inq := inq }), (16, linkUpA)]).hall with colls := [collK] } }
theorem hyp_collectives : jobCtx (sColl 1 0 []) 3 = some (0, xC 1 0) ∧ replaying (sColl 1 0 []) 0 = false ∧ (xC 1 0).cdef.colls[0]? = some (collE 1 0) ∧
    findIn (sColl 1 0 [pkC 1]) (fun p => p == pkC 1) = some (0, pkC 1) ∧
    chunkKey (sColl 1 0 []) (pkC 2) ∈ collK.seen ∧ chunkKey (sColl 1 0 []) (pkC 1) ∉ collK.seen ∧
    (takeChunk (sColl 1 0 []) [] 0 (xC 1 0) collK (collE 1 0) (pkC 1)).isSome = true ∧
    collDone (sColl 1 0 []) (xC 1 0) collK = false ∧ holdCurrent (sColl 1 0 []) dJ.job = false ∧
    holdCurrent { sColl 1 0 [] with hall := { (sColl 1 0 []).hall with holds := [⟨3, 0⟩] } } dJ.job = true := by decide +kernel
theorem hyp_broadcast : (collDims (sColl 3 1 []) (collE 3 1))[0]? = some 0 ∧ (collDims (sColl 3 1 []) (collE 3 1)).length = 0 + 1 ∧
    dimWrap (sColl 3 1 []) 0 = true ∧ (ownPos (sColl 3 1 []) 0 + 1) % dimSize (sColl 3 1 []) 0 = originPos (sColl 3 1 []) (collE 3 1) 0 1 ∧
    (pkC 1).offset.toNat / 1024 = 1 ∧ (pkC 1).tag.toNat / 2 % 8 = 0 ∧ 1 < (collE 3 1).pieces ∧ ((xC 3 1).cdef.range0 + 0x10000 + 1024) % 1024 = 0 := by
  decide +kernel

/-- Admission: a context that is loaded, one that has replayed its step, a donor whose slot 0 holds step 4, and a piece of the donor's
range. -/
def txCopy : Txn := { txA false 0x810000 128 0 [] with kind := .collCopy, north := true, link := admCopy }
def pkPiece : Packet := { plainPacket 1 3 0 1 0 0 0 9 0 with data := [5, 6], poison := [true, false], lines := 2 }
def sAdm (st : BitVec 4) (txns : AMap Txn := []) : State :=
  { sHall 0 [(0, { linkUpA with inq := [pkPiece] })] with
    ctxs := [(0, { xJ with run := { xJ.run with phase := .boundary }, tally := { entries := [{ tensor := 1, lines := 2, viewLines := 2, viewDigest := 3 }] } })]
    mem := { data := cellWrite [] 0x800000 (toLE 64 (VerRec.create 2 5).toLine) ++ [(0x810001, 9), (0x811FFF, 8), (0x812000, 7)], txns := txns }
    hall := { (sHall 0 [(0, { linkUpA with inq := [pkPiece] })]).hall with admState := st, admSlot := some 0, admNext := 2 } }
def xAdm : Ctx := { xJ with run := { xJ.run with phase := .boundary }, tally := { entries := [{ tensor := 1, lines := 2, viewLines := 2, viewDigest := 3 }] } }
theorem hyp_admission : (sAdm 2).ctx 0 = some xAdm ∧ commitReady (sAdm 2) 0 xAdm = true ∧ admPieces dJ = 2 ∧ copyReads (sAdm 1) 0 = [] ∧
    waitsAt (sAdm 1 [(9, txCopy)]) 0 pkPiece = true ∧ mfind (sAdm 1 [(9, txCopy)]).mem.txns 9 = some txCopy ∧ txCopy.epoch = pkPiece.epoch ∧
    txCopy.addr.toNat % 4096 = 0 ∧ copyReads (sAdm 1 [(9, txCopy)]) 0 ≠ [] ∧ commitStop { sAdm 2 with hall := { (sAdm 2).hall with admState := 4 } } 0 xAdm = none ∧
    sameDigests (viewDigests (recordEntries xAdm.tally)) (viewDigests (recordEntries xAdm.tally)) = true ∧
    sameDigests (viewDigests (recordEntries xAdm.tally)) [] = false ∧ jobCtx (sAdm 0) 3 = some (0, xAdm) ∧
    (verRec (sAdm 0) dJ).slotOf (5 - 1) = some 0 ∧ (late (sAdm 3)).hall.admHeard + 1000 * cfgField (late (sAdm 3)) 0x2290 1 16 8 ≤ now (late (sAdm 3)) ∧
    now (sAdm 3) < (sAdm 3).hall.admHeard + 1000 * cfgField (sAdm 3) 0x2290 1 16 8 ∧
    (sendPacket (sAdm 0) false dJ.slotMask (plainPacket 8 3 1 (ownCoord (sAdm 0)) 0 0 0 0 (epochOf (sAdm 0) 0).toNat)).isSome = true := by
  decide +kernel

/-! ### Witnesses: the gleaner -/

/-- The module at stage 9 with the first row's gap at position 58, tile 0 at position 59, and one tile in a state of its own. -/
def sGl (p : Nat) (h : Phys) (g : RowGap) (d : DieFence := {}) : State :=
  { State.reset with
    boot := { State.reset.boot with stage := 9 }
    clk := { State.reset.clk with coasting := false, timeUs := 4000000000 }
    gleaner := { State.reset.gleaner with phys := [(p, h)], bind := [(0, 59)], rows := [(0, g)], dies := [(physDie p, d)] } }
def resultA (n : BitVec 9) : TestResult := { failed := n, misr := 1, misrExp := 2 }

/-- FallowSlots: a slot with the gap at position 58 and no move under way, sweeping east, and west, where the sweep turns. -/
def sSlot (west : Bool) : State := sGl 58 { fence := .gap } { gap := some 58, west := west }
theorem hyp_fallow_slot : 9 ≤ (sSlot false).boot.stage ∧ (sSlot false).gleaner.slotAt / slotLen (sSlot false) < now (sSlot false) / slotLen (sSlot false) ∧
    bitAt (cfgInForce (sSlot false) 0x2310 1).toNat 31 = true ∧ ((sSlot true).row 0 0).gap = some 58 ∧
    nextMover (sSlot false) 0 0 58 false = some 0 ∧ nextMover (sSlot true) 0 0 58 true = none ∧ nextMover (sSlot true) 0 0 58 (!true) = some 0 := by
  decide +kernel

/-- FallowTests: the gap of the first row, a spare and the last tile of the East die, which is marginal and to be tested at once. -/
def sBg (p : Nat) (h : Phys) : State := sGl p h {} { bg := [p] }
theorem hyp_fallow_tests : ((sSlot false).phys 58).fence = .gap ∧ strandedTiles (sSlot false) 0 0 = [] ∧
    ((sSlot false).row (physDie 58) (physRow 58)).gap = some (physPos 58) ∧ ((sSlot false).phys 58).used = [] ∧
    7 ∈ (bgTests (sBg 7 {}) (physDie 7)).1 ∧ 5999 ∈ (bgTests (sBg 5999 { fence := .marginal, directed := true }) (physDie 5999)).1 ∧
    8 ∉ (bgTests (sBg 8 { fence := .fenced }) (physDie 8)).1 ∧ (resultA 0).failed = 0 ∧ (resultA 256).failed ≠ 0 := by decide +kernel

/-- HealthScores: a spare just under the limit and at it, and a tile on probation whose delay has passed. -/
def sScore (n : Nat) : State := sGl 5999 { score := n } {}
def sProb : State := sGl 5 { fence := .probation } {}
theorem hyp_health : (logicalOf (sScore 59) 5999).filter (fun k => (ctxAt (sScore 59) (keyXY k)).isSome) = none ∧
    ((sScore 59).phys 5999).score + healthWeight .corrected < cfgField (sScore 59) 0x2310 3 16 16 ∧
    cfgField (sScore 60) 0x2310 3 16 16 ≤ ((sScore 60).phys 5999).score + healthWeight .corrected ∧
    healthWeight .corrected ≠ 0 ∧ healthWeight .firmwareLoad = 0 ∧ (sProb.phys 5).fence = .probation ∧
    (sProb.phys 5).probAt + 1000000 * cfgField sProb 0x2310 2 4 12 ≤ now sProb ∧
    (∀ e ∈ sProb.gleaner.phys, e.1 ≠ 5 → physDie e.1 = physDie 5 → retestWants sProb e.1 = false) ∧
    ((mfind (sScore 59).gleaner.phys 5999).map fun h => decide (h.halvedAt + 60000000 * cfgField (sScore 59) 0x2310 3 8 8 ≤ now (sScore 59))) = some true := by
  decide +kernel

/-- ProbationRetest: a tile on the test rail before, at and after its low corner, its quarter at full clock; and a storm in progress. -/
def sRetest (l : List TestResult) (storm : Bool := false) : State :=
  sGl 5 { fence := .probation, retestDue := true, score := 9, corners := l } {} { retest := some 5, storm := storm }
theorem hyp_retest : onRail (sRetest []) (physDie 5) = some 5 ∧ cornerClock (sRetest []) 5 = true ∧
    (hourFences (sRetest []) 0).length + 1 ≤ bits (cfgInForce (sRetest []) 0x2310 2).toNat 24 8 ∧
    onRail (sRetest []) (physDie 6) ≠ some 6 ∧ (mget (sRetest [] true).gleaner.dies {} 0).storm = true := by decide +kernel

/-- MarginCheck: a storm on the East die with one tile fenced within the hour and one held, which pass both retests or fail one. -/
def sStorm : State :=
  { State.reset with gleaner := { State.reset.gleaner with
      phys := [(3001, { fence := .fenced }), (3002, { fence := .probation, stormHeld := true })]
      dies := [(1, { fences := [(0, 3001)], storm := true })] } }
def resM (a b : BitVec 9) : List (Nat × TestResult × TestResult) := [(3001, resultA 1, resultA 0), (3002, resultA a, resultA b)]
def goodM (l : List (Nat × TestResult × TestResult)) : List Nat :=
  ((stormTiles sStorm 1).dedup).filter fun p => ((l.find? fun e => e.1 == p).map fun e => e.2.1.failed == 0 && e.2.2.failed == 0) == some true
theorem hyp_margin : (mget sStorm.gleaner.dies {} (b2n true)).storm = true ∧ stormTiles sStorm 1 = [3001, 3002] ∧
    ((stormTiles sStorm 1).dedup).length ≤ 2 * (goodM (resM 0 0)).length ∧ 2 * (goodM (resM 0 1)).length < ((stormTiles sStorm 1).dedup).length ∧
    (∀ p ∈ (stormTiles sStorm 1).dedup, ∃ e ∈ resM 0 1, e.1 = p) := by decide +kernel

/-- GazetteerWrite: with one valid copy, and with two of which the second is current. -/
def sGaz (b : GazCopy) : State := { sRetest [] with gleaner := { (sRetest []).gleaner with gazDirty := true, gazB := b } }
theorem hyp_gazetteer : gazCurrent (sGaz {}) = some State.reset.gleaner.gazA ∧ gazCurrent (sGaz { valid := true, seq := 1 }) = some { valid := true, seq := 1 } ∧
    (sGaz {}).gleaner.gazDirty = true := by decide +kernel

/-! ### Witnesses: hangs and recovery -/

/-- The context with a recovery record. -/
def xRec (r : CtxRec) : Ctx := { xA with rec_ := r }
def sRec (r : CtxRec) : State := { sA with ctxs := [(0, xRec r)] }

/-- HangsAndStalls: a cycle of two tiles, one of which is no longer blocked, at the end of its window and before it, and a cycle of
tiles that are blocked; a context that does not wait, and one that waits in a hall barrier, at and before the end of the window. -/
def recHang : CtxRec := { hang := some [0, 1], edges := [(0, [⟨3, true, 1⟩]), (1, [⟨2, false, 0⟩])], slow := 65536 }
def recStall : CtxRec := { slow := 2 ^ 31 }
def xStuck : Ctx := { ((sW false {} []).ctxs.headD (0, xA)).2 with rec_ := { recHang with hang := some [0] } }
def sStuck : State := { sW false {} [] with ctxs := [(0, xStuck)] }
theorem hyp_hangs : (sRec recHang).ctx 0 = some (xRec recHang) ∧ watched (xRec recHang) = true ∧
    cycleStands (sRec recHang) (xRec recHang) [0, 1] = false ∧ cycleStands sStuck xStuck [0] = true ∧
    (recHang.hangAt + 65536 ≤ recHang.slow) ∧ stallExempt (sRec recStall) 0 (xRec recStall) = false ∧
    recStall.activeAt + 2 ^ cfgField (sRec recStall) 0x22A0 1 11 5 ≤ recStall.slow ∧
    recHang.slow < recHang.activeAt + 2 ^ cfgField (sRec recHang) 0x22A0 1 11 5 ∧
    stallExempt { sRec {} with hall := { State.reset.hall with waiting := [0] } } 0 (xRec {}) = true := by decide +kernel

/-- StopOrders: a context in reset whose tiles have not stopped, with a program on its first tile. -/
def recStop : CtxRec := { state := 2, stopDone := [.routers] }
theorem hyp_stop_orders : (∀ e ∈ [StopEngine.tiles, .granaryN, .granaryS, .linksN, .linksS, .steward], e ∉ recStop.stopDone) ∧
    (∀ k ∈ dA.keys, ((sRec recStop).tile k).moveStage = 0) := by decide +kernel

/-- ContextResetEnds: every engine has stopped, with two and with three resets within the minute, of a context that is
recovering or not. -/
def recDone (n : Nat) : CtxRec :=
  { state := 2, cause := 1, stopDone := [.tiles, .routers, .granaryN, .granaryS, .linksN, .linksS, .steward], resets := List.replicate n 0 }
theorem hyp_reset_ends : resetDrained (sRec (recDone 2)) 0 (xRec (recDone 2)) = true ∧ (recDone 2).ending = false ∧ (recDone 2).recovering = false ∧
    (recentResets (sRec (recDone 2)) (recDone 2)).length < 3 ∧ 3 ≤ (recentResets (sRec (recDone 3)) (recDone 3)).length := by decide +kernel

/-- RestartEntry: a context of the image of `sI`, and one in cluster mode, both recovering to version 4, one with a tile to remap. -/
def recBack : CtxRec := { state := 3, target := some 4, recovering := true, remap := [0] }
def sBack (cl : Bool) : State := { sI with ctxs := [(0, { xRec recBack with cdef := { dA with cluster := cl } })] }
theorem hyp_restart : ((sBack true).ctx 0).map (·.rec_) = some recBack ∧ (xRec recBack).run.phase ≠ .committed ∧
    remapReady (sBack true) 0 recBack.remap = true ∧ recBack.epochWait = false ∧ (∀ j, spanPoisoned (sBack true) j 528 = false) :=
  ⟨by decide, by decide, by decide +kernel, rfl, fun _ => rfl⟩
theorem hyp_restart_image : (sBack false).ctx 0 = some (xRec recBack) ∧
    sectionBad (heldReds sI dA) (imageOf (sBack false) dA) dA.w dA.h 0 = none := ⟨by decide, section_image⟩

/-- DeadlinesAndHolds: an entry at its deadline, with no reply and with one at link 0, and one under a hold; an admissible context that
recovers to its newest version; and a hold of its job. -/
def xHold : Ctx := { xRec { recBack with target := some 4 } with cdef := { dJ with admissible := true } }
def sHold : State :=
  { sHall 0 [(0, linkUpA), (15, linkUpA)] with
    ctxs := [(0, xHold)], mem := { data := cellWrite [] 0x800000 (toLE 64 (VerRec.create 2 5).toLine) } }
def sDead : State := { late (sRec {}) with mem := { txns := [(7, txA false 0 64 0 [])] } }
def pkBack : Packet := { plainPacket 1 0 1 0 0 0 0 7 2 with data := [5] }
def sDeadR (l : List Packet) (h : List Hold) : State :=
  { late (sHall 0 [(0, { linkUpA with inq := l }), (15, linkUpA)]) with
    mem := { txns := [(7, txR)] }, hall := { (sHall 0 [(0, { linkUpA with inq := l }), (15, linkUpA)]).hall with holds := h } }
theorem hyp_deadlines : mfind sDead.mem.txns 7 = some (txA false 0 64 0 []) ∧ (xRec {}).rec_.state = 1 ∧ (txA false 0 64 0 []).reply = none ∧
    (txA false 0 64 0 []).since + txnDeadline sDead (txA false 0 64 0 []) ≤ now sDead ∧ findIn sDead (fun p => answers (txA false 0 64 0 []) 7 p) = none ∧
    (remoteTxn txR && holdCurrent (sDeadR [pkBack] []) 3) = false ∧ txR.since + txnDeadline (sDeadR [pkBack] []) txR ≤ now (sDeadR [pkBack] []) ∧
    findIn (sDeadR [pkBack] []) (fun p => answers txR 7 p) = some (0, pkBack) ∧
    (remoteTxn txR && holdCurrent (sDeadR [pkBack] [⟨3, 9999999⟩]) 3) = true := by decide +kernel
theorem hyp_holds : selfRecovers sHold xHold = true ∧ xHold.cdef.linked = true ∧ now sHold < 0 + 10000 * cfgField sHold 0x22A0 1 0 11 ∧
    0 + 10000 * cfgField (late (late (late sHold))) 0x22A0 1 0 11 ≤ 2 * now (late sHold) ∧ jobCtx sHold 3 = some (0, xHold) ∧
    jobCtx sHold 5 = none := by decide +kernel

/-! ### Witnesses: messages, the dictionary and the configuration sets -/

/-- A module in service at stage 9 with its port up, expecting the last message number; the header of that message. -/
def hdrA (q : BitVec 32) (bad : Bool) : MsgHdr := { seq := q, tag := 0xBEEF, malformed := bad }
def portA : Meridian := { enabled := true, rxM0 := true, rxM1 := true, txM0 := true, txM1 := true, msgSeq := 0xFFFFFFFF }
def sPort : State :=
  { State.reset with
    mer := portA
    boot := { State.reset.boot with stage := 9, on := true, path := 1 }
    clk := { State.reset.clk with coasting := false, source := .m0, timeUs := 5000 }
    pow := { State.reset.pow with dark := false } }
def mA : MsgHdr := hdrA 0xFFFFFFFF false

/-- MessageOrder: a port down and up; out of sequence, behind a message that waits, malformed, and heard. -/
theorem hyp_message_order : portUp State.reset = false ∧ portUp sPort = true ∧ (hdrA 0 false).seq ≠ sPort.mer.msgSeq ∧ mA.seq = sPort.mer.msgSeq ∧
    ({ sPort with mer := { portA with blocking := some mA } } : State).mer.blocking ≠ none ∧ (hdrA 0xFFFFFFFF true).malformed = true ∧ Heard sPort mA := by
  decide +kernel

/-- DictionaryAccess: a readable entry, one that does not exist, a word of the shadow set, and the entries named. -/
theorem hyp_dictionary : readRefused sPort 0 0x6140 16 = none ∧ readRefused sPort 0 0x9999 1 = some 1 ∧ inRecovery sPort = false ∧
    (odFind 0x2310 4).map (·.acc) = some .rws ∧ ((odFind 0x2310 4).map (·.size)) = some 4 ∧ writeRefused sPort 0 0x2310 4 = none ∧
    (odFind 0x2310 4).all (fun e => wordRefused e [0xE8, 3, 0, 0] == none) = true := by decide +kernel

/-- BulkAndEpoch: the last line of a page at the end of memory, and one of 4,096 bytes, over whole stripes and a lost one; an access that
is not aligned, and one that waits for a refresh. -/
theorem hyp_bulk : bulkOk sPort 0x20FFFFFFFC0 64 = true ∧ bulkOk sPort 0x20FFFFFF000 4096 = true ∧ sPort.lostAt 0x20FFFFFFFC0 = false ∧
    bulkWaits sPort true 0x20FFFFFFFC0 64 = false ∧ bulkWaits sPort false 0x20FFFFFF000 4096 = false ∧ bulkOk sPort 1 64 = false ∧
    bulkWaits { sPort with mem := { selfRefresh := true } } true 0 64 = true ∧
    ({ sPort with mem := { stripes := [(stripeOf 64, { state := 2 })] } } : State).lostAt 64 = true ∧
    (sPort.stripe (stripeOf 0x20FFFFFF000)).state = 0 ∧ (∀ i, i < 64 → retiredAt sPort (lineChannel (0x20FFFFFF000 + 64 * i)) = false) ∧
    served sPort = true := by decide +kernel

/-- Events: the only event of the ring waits to be delivered. -/
def sEv : State := raise sPort .clockCoast [1, 2]
theorem hyp_events : portUp sEv = true ∧ sEv.events.undelivered ≠ 0 ∧
    sEv.events.ring[sEv.events.ring.length - sEv.events.undelivered]? = sEv.events.ring.head? ∧ sEv.events.ring ≠ [] := by decide +kernel

/-- ConfigurationSets: idle sets with the other copy erased and not; a swap, a save, and an erase under way. -/
def sSwap : State :=
  { sPort with
    dict := { sPort.dict with state := 1, erased := false, swap := some { vals := [(odKey 0x2310 4, 1000)], hdr := mA } }
    mer := { portA with blocking := some mA } }
def sSave : State :=
  { sPort with
    dict := { sPort.dict with state := 1, shadow := [(odKey 0x2310 4, 1000)], save := some mA }
    mer := { portA with blocking := some mA } }
def sErase (c1 : SetCopy) : State := { sPort with dict := { sPort.dict with erased := false, copy1 := c1 } }
theorem hyp_sets : sPort.dict.state = 0 ∧ sPort.dict.erased = true ∧ setRefused sPort = none ∧ (setRefused { sPort with dict := { sPort.dict with shadow := [(odKey 0x2310 4, 0xFFFFFFFF)] } }).isSome = true ∧ (sErase {}).dict.erased = false ∧
    sSwap.mer.blocking = some mA ∧ sSave.mer.held = [] ∧ copy1InForce (sErase {}).dict = false ∧
    copy1InForce (sErase { valid := true, gen := 1 }).dict = true := by decide +kernel

/-! ### Witnesses: commands on contexts, resets and power -/

/-- The module in service with the context in a given state. -/
def sCmd (x : Ctx) : State :=
  { sPort with
    ctxs := [(15, x)], tiles := [(0, { core := { kA with run := .held }, loaded := true })]
    mem := { data := cellWrite [] 0x800000 (toLE 64 (VerRec.create 2 5).toLine) }
    dict := { sPort.dict with rw := [(odKey 0x6193 16, 4)] } }
def recStopped : CtxRec := { state := 4, cause := 1 }

/-- ContextCommands: a context that runs, one that drains, one stopped by command, with and without an older target pending, one that
waits for its rollback, one in quarantine, and one with records in its ring. -/
def recordA (slot : Nat) (acked : Bool) : SealRec := { slot := slot, step := BitVec.ofNat 64 slot, attempt := 1, acked := acked, digest := 0 }
def xRing : Ctx := { xA with tally := { recs := [recordA 0 true, recordA 63 false] } }
theorem hyp_commands : Heard (sCmd xA) mA ∧ inRecovery (sCmd xA) = false ∧ (sCmd xA).ctx 15 = some xA ∧ xA.run.pauseState = 0 ∧ xA.rec_.state = 1 ∧
    (xRec recStopped).rec_.state = 4 ∧ (rollBack (nextSeq (sCmd (xRec recStopped))) 15 (xRec recStopped)
      (rwGet (sCmd (xRec recStopped)) 0x6193 (15 + 1))).isSome = true ∧
    (xRec { recStopped with pending := some 4 }).rec_.pending = some 4 ∧ (xRec { recStopped with state := 5 }).rec_.state = 5 ∧
    (xRec { recStopped with state := 6 }).rec_.state = 6 ∧ (xRing.tally.recs.find? fun r => !r.acked) = some (recordA 63 false) := by decide +kernel

/-- ContextCreation: the creation entries of context 15 and the header of a cluster-mode image; with a share of 256 and of 255, with the
image's MAGIC and without, and with the epoch of the context not older than TXN_REMOTE; and the whole image of `sI`. -/
def wNew : DWord := BitVec.ofNat 64 (2 ^ 60 + 2 ^ 20)
def rwNew (share : Nat) : AMap DWord :=
  [(odKey 0x6150 61, BitVec.ofNat 64 (2 ^ 38 + 512 * 2 ^ 12)), (odKey 0x6151 16, BitVec.ofNat 64 (2 * 2 ^ 38 + 2 ^ 14)),
    (odKey 0x6152 16, BitVec.ofNat 64 share), (odKey 0x6154 16, BitVec.ofNat 64 (32 * 2 ^ 38 + 4 * 2 ^ 32)), (odKey 0x6155 16, 5)]
def sNew (share : Nat) (magic : Byte) (at_ : AMap Nat) : State :=
  { sPort with
    epochAt := at_
    dict := { sPort.dict with rw := rwNew share }
    mem := { data := [(0x10000, magic), (0x10001, 0x50), (0x10002, 0x56), (0x10003, 0x4F), (0x10004, 1), (0x10006, 2), (0x10008, 1), (0x10009, 1),
      (0x1000A, 1), (0x10010, 0x40), (0x10011, 1), (0x10059, 1), (0x10060, 0x40)] } }
def wI : DWord := BitVec.ofNat 64 (2 ^ 60 + 256 * 2 ^ 20)
def sNewI (at_ : AMap Nat) : State :=
  { sPort with epochAt := at_, dict := { sPort.dict with rw := rwNew 256 }, mem := { data := sI.mem.data } }
def dNewI : CtxDef := createDef (sNewI []) 15 wI.toNat (heldReds sI dA)
theorem hyp_creation : Heard (sNewI []) mA ∧ inRecovery (sNewI []) = false ∧ createOpen (sNewI []) = true ∧ wI.toNat / 2 ^ 60 = 1 ∧
    wI.toNat % 2 ^ 20 = 0 ∧ wNew.toNat / 2 ^ 60 = 1 ∧ wNew.toNat % 2 ^ 20 = 0 ∧ createBad (sNewI []) 15 dNewI = none ∧
    epochRecent (sNewI []) 15 = false ∧ epochRecent (sNewI [(15, 5000)]) 15 = true := by decide +kernel
theorem rdI_new : imgRd (sNewI []) dNewI.imgBase = rdI := by
  have h : dNewI.imgBase = 0x1000000 := by decide +kernel
  funext o n
  simp only [imgRd, h, rdI]
  exact congrArg leNat (cellRead_image n o)
theorem image_new : imageBad (createLoad (sNewI []) dNewI) rdI = none := by
  have h2 : firstBad (headerChecks (createLoad (sNewI []) dNewI) rdI) = none := by decide +kernel
  have h3 : firstBad (sectionChecks (createLoad (sNewI []) dNewI) rdI ++ codeChecks rdI ++ tensorChecks rdI ++
      collChecks (createLoad (sNewI []) dNewI) rdI) = none := by decide +kernel
  have h4 := shape_image (createLoad (sNewI []) dNewI) (by decide +kernel) (by decide +kernel)
  generalize createLoad (sNewI []) dNewI = k at h2 h3 h4 ⊢
  simp only [imageBad, h2, h3, h4]
theorem loader_new (s : State) (d : CtxDef) (h1 : s.mem.poison = []) (h2 : imgRd s d.imgBase = rdI) (h3 : imageBad (createLoad s d) rdI = none)
    (h4 : d.cluster = false) (h5 : sectionBad d.reds rdI d.w d.h 0 = none) : loaderBad s d = none := by
  simp only [loaderBad, h1, List.find?_nil, h2, h3, h4, h5, Bool.false_eq_true, if_false]
theorem hyp_creation_good : loaderBad (sNewI []) dNewI = none := by
  have h := section_image
  rw [imageOf_sI] at h
  have hw : dNewI.w = 8 := by decide +kernel
  have hh : dNewI.h = 8 := by decide +kernel
  refine loader_new _ _ rfl rdI_new image_new (by decide +kernel) ?_
  rw [hw, hh]
  exact h
theorem hyp_creation_bad : createBad (sNew 255 0x49 []) 15 (createDef (sNew 255 0x49 []) 15 wNew.toNat []) = some (odKey 0x6152 16) ∧
    createBad (sNew 256 0 []) 15 (createDef (sNew 256 0 []) 15 wNew.toNat []) = none ∧
    loaderBad (sNew 256 0 []) (createDef (sNew 256 0 []) 15 wNew.toNat []) = some 0 := by decide +kernel

/-- AdmissionAndPartition: an admissible context and one that is not; words of the entries; a rectangle of one plot that meets a running
context, and one past the grid. -/
def xAdmit : Ctx := { xJ with cdef := { dJ with admissible := true } }
theorem hyp_admission_start : (sCmd xAdmit).ctx 15 = some xAdmit ∧ bits (0x00F0000100000001#64 : DWord).toNat 52 4 = 15 ∧
    (0x00F0000100000001#64 : DWord).toNat % 2 ^ 32 = 1 ∧ (0x00F0000100000001#64 : DWord).toNat / 2 ^ 56 = 0 ∧ xAdmit.cdef.admissible = true ∧
    xJ.cdef.admissible = false ∧ admBusy (sCmd xAdmit) = false := by
  decide +kernel
theorem hyp_partition : partitionBad sPort (2 ^ 31) = none ∧ (partitionBad sPort (2 ^ 31 + 14 * 2 ^ 23)).isSome = true ∧
    partitionBad (sCmd xA) (2 ^ 31) = none ∧ xA.rec_.state = 1 ∧ xA.cdef.px0 ≤ bits (2 ^ 31) 23 4 ∧ bits (2 ^ 31) 27 4 ≤ xA.cdef.px1 ∧
    xA.cdef.py0 ≤ bits (2 ^ 31) 17 3 ∧ bits (2 ^ 31) 20 3 ≤ xA.cdef.py1 ∧ ctxAt sPort (keyXY (tkey 0 0)) = none := by decide +kernel

/-- ModuleResets: in service, and at a watchdog timeout reached and not yet reached. -/
def sDog (t : Nat) : State := { sPort with mer := {}, clk := { sPort.clk with timeUs := t }, boot := { sPort.boot with fedAt := 0 } }
theorem hyp_module_resets : sPort.boot.outOfService = false ∧ now (sDog 5) < ({ sPort.boot with selfFeedUntil := 9 } : Bringup).selfFeedUntil ∧ bitAt (cfgInForce sPort 0x22C0 1).toNat 31 = true ∧
    0 + 100000 * cfgField sPort 0x22C0 1 0 8 ≤ now (sDog 2000000) ∧ now (sDog 1999999) < 0 + 100000 * cfgField sPort 0x22C0 1 0 8 ∧
    portUp (sDog 0) = false ∧ sPort.boot.on = true := by decide +kernel

/-- PowerAndSheds: before 48 V and in service, with a context whose tail is written; PF_WARN_ENABLE set and not; and two tail copies. -/
def sTail (b : TailCopy) : State := { State.reset with pow := { State.reset.pow with tail := [1, 2, 3] }, factory := { State.reset.factory with tail0 := { valid := true, seq := 5 }, tail1 := b } }
def sNoWarn : State := { sPort with dict := { sPort.dict with inForce := [(odKey 0x22D0 1, 0)] } }
theorem hyp_power : State.reset.pow.dark = true ∧ State.reset.pow.tail = [] ∧ sPort.pow.dark = false ∧ bitAt (cfgInForce sPort 0x22D0 1).toNat 31 = true ∧
    bitAt (cfgInForce sNoWarn 0x22D0 1).toNat 31 = false ∧ newerTail (sTail {}) = some { valid := true, seq := 5 } ∧
    newerTail (sTail { valid := true, seq := 6 }) = some { valid := true, seq := 6 } := by decide +kernel

/-- RailsAndCooling: a rail of S3 while that stage runs; the averages at their limit and above; a load shed whose conditions have
cleared; junctions at 110 and 111 °C. -/
def sRail : State := { sPort with boot := { sPort.boot with busy := some 3 }, pow := { sPort.pow with rails := [.stewardCore, .stewardIo, .granary, .field] } }
def sShed : State := { sPort with pow := { sPort.pow with loadShed := true } }
theorem hyp_rails : risingRail sRail .granary = true ∧ Rail.granary ∈ sRail.pow.rails ∧ Rail.stewardCore ∈ sRail.pow.rails ∧
    risingRail sPort .granary = false ∧ Rail.field ∈ sRail.pow.rails ∧ newestAvg 10 [3001] = 3001 ∧ cfgField sPort 0x22D0 1 0 16 < 65536 ∧
    sShed.pow.loadShed = true ∧ (mget sShed.pow.cool {} 5).active = false ∧ (mget sShed.pow.cool {} 6).active = false ∧
    (∀ e ∈ junctions [(.nw, 110), (.se, -5)] [7, 110], e.2 ≤ 110) ∧ ([Quarter.nw, .se].map quarterNum).Nodup ∧
    ((2 : Nat), (111 : Int)) ∈ junctions [(.nw, 110)] [111] := by decide +kernel

/-! ### Witnesses: clocks, the port and the field port -/

/-- The module in service with its clock tree as given. -/
def sClk (c : Clocks) : State := { sPort with clk := c }
def clkA : Clocks := { source := .m0, coasting := false, readyM0 := true, readyM1 := true, lockM0 := true, lockM1 := true, firstLock := true, timeUs := 5000 }
def clkCh (r : RootChange) (src : Source) (coast : Bool) : Clocks := { clkA with change := some r, source := src, toward := .coast, coasting := coast, began := 4000 }

/-- RootChanges: holdover before and at its end, a lane withdrawn; a source ready while the root coasts, for long enough and not; a source
lost with no lane on it; each stage of a change, the fourth at the coast oscillator; and S2 with the first lock not made in time. -/
def portOff : Meridian := { portA with rxM0 := false, rxM1 := false }
theorem hyp_root : (sClk { clkA with source := .holdover }).clk.change = none ∧ rxActive portA true = true ∧ laneWithdrawn portA true = false ∧
    laneWithdrawn { portA with rxM1 := false } true = true ∧ now (sClk { clkA with source := .holdover, heldAt := 4999 }) < 4999 + cfgField sPort 0x22B0 1 0 10 ∧
    0 + cfgField sPort 0x22B0 1 0 10 ≤ now (sClk { clkA with source := .holdover }) ∧
    (sClk { clkA with source := .coast, coasting := true }).clk.ready false = true ∧ sPort.pow.tripHold = false ∧
    bitAt (cfgInForce sPort 0x22B0 1).toNat 31 = true ∧ 0 + 1000 * cfgField sPort 0x22B0 1 16 10 ≤ 10000000 ∧ wantsLock sPort = false ∧
    now sPort < 5000 + 1000 * cfgField sPort 0x22B0 1 16 10 ∧ rxActive portOff false = false ∧ sourceOf false = clkA.source ∧
    (sClk (clkCh .locked .coast true)).clk.change = some .locked ∧ (sClk (clkCh .locked .coast true)).mer.blocking = none ∧
    ({ sClk { clkCh .stopped .coast true with timeUs := 14000 } with boot := { sPort.boot with busy := some 2 } } : State).boot.busy = some 2 ∧
    (clkCh .stopped .coast true).began + 10000 ≤ 14000 := by decide +kernel

/-- MeridianPort: a frame of the expected SEQ at its wrap, one of another, one without units and one with a unit too many; lanes on, one
off, and locked, named by the far end and alone; and codewords on a lane. -/
def frameM (q : BitVec 12) : MeridianFrame :=
  { lane := true, good := true, seq := q, ack := 2, nak := true, laneDown := true, units := 16, credits := 8191, lanesNext := 3, switchSeq := 0, uncorrectable := false }
def sMer (m : Meridian) : State := late { sPort with mer := m, clk := clkA }
def merA : Meridian := { portA with seqRx := 0xFFF, credits := 1, replay := [⟨1, 3⟩, ⟨2, 4⟩, ⟨3, 5⟩], outUnits := 5, nakAt := some 3 }
def merOne : Meridian := { merA with rxM1 := false, switchRx := some (3, 0xFFE) }
def merNo : Meridian := { merA with rxM0 := false, rxM1 := false, txM0 := false, txM1 := false }
theorem hyp_meridian : receiving (sMer merA) = true ∧ (frameM 0xFFF).seq = merA.seqRx ∧ (frameM 0).seq ≠ merA.seqRx ∧ (frameM 0).units.toNat ≤ 16 ∧
    ({ frameM 0 with units := 17 } : MeridianFrame).units.toNat = 17 ∧
    laneOn merA false true = true ∧ laneOn merA true true = true ∧ laneLost (.ber 1 9999) = true ∧ laneLost (.ber 1 10000) = false ∧
    merA.sends = true ∧ merNo.sends = false ∧ ({ merA with downHeard := true } : Meridian).downHeard = true ∧
    16 ≤ ((List.replicate 16 (now (sMer merA))).filter fun t => now (sMer merA) < t + 1000).length := by decide +kernel
theorem hyp_rejoin : laneOn merOne true true = false ∧ lockedLong (sMer merOne) true = true ∧ ((3 : BitVec 2)).getLsbD 1 = true ∧
    (merOne.seqRx - 0xFFE).toNat < 2048 ∧ laneOn merNo true false = false ∧ laneOn merNo true true = false ∧ merNo.enabled = true ∧
    lockedLong { sMer merNo with clk := { clkA with sinceM1 := 1 } } true = false ∧ rootLocked (sMer merNo) = true ∧
    laneOn { merA with txM1 := false } false true = false ∧ 64 ≤ ((64 : BitVec 12) - merA.seqTx).toNat := by decide +kernel

/-- ClocksAndThrottle: quarters one root cycle before a tile cycle; targets above and below k, at k = 8, with a context there that runs and
one at a boundary; and steps 1, 2, 19 and 20 microseconds ago. -/
def qA (k : Nat) : Throttle := { k := k, phase := 5 * k - 1, thermal := 0 }
def sThr (t : Throttle) (used : Bool) : State :=
  { sPort with clk := { clkA with qs := [(0, t), (3, t)] }, ctxs := if used then [(0, xA)] else [] }
def sThrP (t : Throttle) : State := { sThr t true with ctxs := [(0, { xA with run := { xA.run with phase := .sealed_ } })] }
theorem hyp_throttle : (sThr (qA 1) false).pending = [] ∧ (sThr (qA 1) false).clk.tilesStopped = false ∧ mayThrottle (sThr (qA 1) false) = true ∧
    (qA 8).k = ladderK 7 ∧ (qA 24).k = ladderK 11 ∧ (qA 32).k = ladderK (11 + 1) ∧
    throttleTarget (sThr { qA 24 with thermal := 12 } true) 0 = 32 ∧ throttleTarget (sThr (qA 32) false) 0 = 1 ∧
    8 < throttleTarget (sThr { qA 8 with thermal := 8 } true) 0 ∧ quarterUsed (sThr (qA 8) true) 0 = true ∧ quarterUsed (sThr (qA 8) true) 3 = false ∧
    stepDue (sThr { qA 8 with steppedAt := some 4998 } true) 0 2 = true ∧ stepDue (sThr { qA 8 with steppedAt := some 4999 } true) 0 2 = false ∧
    stepDue (sThr { qA 8 with steppedAt := some 4980 } true) 0 20 = true ∧ stepDue (sThr { qA 8 with steppedAt := some 4981 } true) 0 20 = false ∧
    deepPoint (sThr (qA 8) true) 0 = false ∧ deepPoint (sThrP (qA 8)) 0 = true := by
  decide +kernel

/-- FieldMessages: the field port in service with a manager and an event to send, S1 complete and not, with the queue full; and a
manager that has been silent for three periods. -/
def sField (st : Nat) : State :=
  { sEv with
    boot := { sEv.boot with stage := st }, pow := { sEv.pow with rails := [.field] }
    field := { State.reset.field with up := true, manager := some (9, 5000) } }
theorem hyp_field : fieldOn (sField 9) = true ∧ (sField 9).field.tx = true ∧ readRefused (sField 9) 1 0x1000 1 = none ∧
    writeRefused (sField 9) 1 0x1000 1 = some 3 ∧ (sField 0).field.queue.length < 8 ∧ (sField 9).field.manager = some (9, now (sField 9)) ∧
    (sField 9).events.ring.head?.map (·.seq) = some (sField 9).field.nextEvent ∧
    ((sField 9).events.ring.find? fun e => (e.seq - (sField 9).field.nextEvent).toNat < 2 ^ 31).isSome = true ∧
    8 ≤ (List.replicate 8 (⟨1, false, 2, 3, 4⟩ : FieldReq)).length ∧ ((sField 9).field.hbAt.any fun t => now (sField 9) < t + hbPeriod (sField 9)) = false ∧
    5000 + 3 * hbPeriod (sField 9) ≤ now (late (sField 9)) ∧ now (sField 9) < 5000 + 3 * hbPeriod (sField 9) := by decide +kernel

/-- FieldPair: no fault, a short, an open and a reversed pair; a DC level of 4 V and of 3 V; the retry of 1 s. -/
def sPair (c : BitVec 3) : State := late { sField 9 with field := { (sField 9).field with cable := c, tx := c != 2 && c != 3 && c != 0 } }
theorem hyp_pair : fieldPowered (sPair 0) = true ∧ (∀ k ∈ [PairFault.short, .open_, .reversed, .dc], faultHeld (sPair 0).field k = false) ∧
    (sPair 2).field.cable = 2 ∧ (sPair 1).field.cable ≠ 0 ∧ 3 < (0xFC#8).toInt.natAbs ∧ (0xFD#8).toInt.natAbs ≤ 3 ∧ (sPair 2).field.tx = false ∧
    (sPair 0).field.tx = false ∧ (sPair 2).field.txAt + 1000000 ≤ now (sPair 2) ∧ (sPair 1).field.tx = true := by decide +kernel

/-! ### Witnesses: bring-up, firmware and security -/

/-- The module in bring-up: a stage in progress, the stage last completed, the path. -/
def sUp (busy : Option Nat) (stage : Nat) (path : BitVec 2) : State :=
  { sPort with boot := { State.reset.boot with on := true, busy := busy, stage := stage, path := path, since := 1000, target := 9 } }

/-- A state at a time in µs. -/
def atUs (t : Nat) (s : State) : State := { s with clk := { s.clk with timeUs := t } }

/-- BringupControl: stages 0 and 9, a command while a stage runs and while none does, a failed stage, the failure that
REBUILD_GAZETTEER mends, and a stage at its limit, before it, and without the root. -/
def sFailed (n : Nat) (code : BitVec 8) : State :=
  { sUp none 4 0 with boot := { (sUp none 4 0).boot with state := 2, failStage := n, failCode := code, s4Done := true } }
theorem hyp_control : Heard (sUp (some 4) 3 0) mA ∧ outOfServ (sUp (some 4) 3 0) = false ∧ anySlotWhole (sUp (some 4) 3 0) = true ∧
    (sUp (some 4) 3 0).boot.state.toNat ≤ 1 ∧ (sUp (some 4) 3 0).boot.stage < 9 ∧ (sUp (some 4) 3 0).boot.busy ≠ none ∧
    (sFailed 5 0x50).boot.state = 2 ∧ (sFailed 5 0x50).boot.path = 0 ∧ (sFailed 5 0x50).boot.s4Done = true := by decide +kernel
def sHeld : State := { sUp none 3 0 with boot := { (sUp none 3 0).boot with state := 1 } }
theorem hyp_limit : stageLimit 4 = some 60000000 ∧ stageRoot (sUp (some 4) 3 0) 4 = true ∧ (sUp (some 4) 3 0).boot.stageAt = 0 ∧
    now (atUs 60000000 (sUp (some 4) 3 0)) = 60000000 ∧ now (sUp (some 4) 3 0) < 60000000 ∧ stageRoot { sUp (some 4) 3 0 with clk := {} } 4 = false ∧
    sHeld.boot.busy = none ∧ sHeld.boot.state = 1 ∧ anySlotWhole sHeld = true := by decide +kernel

/-- A module at S1 with slot A and slot B of the firmware in given states. -/
def sSlots (a b : BitVec 2) : State := { sUp (some 1) 0 0 with fw := { State.reset.fw with stA := [(0, a)], stB := [(0, b)] } }

/-- BringupStages: each stage in progress, on the path its clause names. -/
theorem hyp_stages_cold : (sUp (some 0) 0 0).pow.dark = false ∧ onWarm (sUp (some 1) 0 0) = false ∧
    (chooseBoot (sUp (some 1) 0 0)).2 = some 0 ∧ slotImage (sUp (some 1) 0 0) 0 0 0 = some (factoryImage 1) ∧
    imageUsable (sUp (some 1) 0 0) (factoryImage 1) = true ∧ (chooseBoot (sSlots 2 0)).2 = some 0 ∧ (chooseBoot (sSlots 3 0)).2 = none ∧ portUp (sUp (some 2) 1 0) = true ∧ rootLocked (sUp (some 2) 1 0) = true ∧
    railsOk (sUp (some 4) 3 0) 4 = true ∧ stageRoot (sUp (some 4) 3 0) 4 = true ∧ anyStorm (sUp (some 4) 3 0) = false ∧
    (loadContent (sUp (some 4) 3 0) 1 4 true).isSome = true ∧ gazCurrent (sUp (some 5) 4 0) ≠ none ∧
    gazCurrent { sUp (some 5) 4 0 with gleaner := {} } = none := by decide +kernel
theorem hyp_stages_warm : onWarm (sUp (some 3) 2 1) = true ∧ railsOk (sUp (some 3) 2 1) 3 = true ∧ stripeLost (sUp (some 3) 2 1) = false ∧
    railsOk (sUp (some 7) 6 1) 7 = true ∧ (loadContent (sUp (some 7) 6 1) 2 5 true).isSome = true ∧
    stageRoot (sUp (some 8) 7 0) 8 = true ∧ linksReady (sUp (some 8) 7 0) = true ∧ loadFirmware (sUp (some 3) 2 0) 1 1 false = none ∧
    (loadFirmware (sUp (some 3) 2 0) 1 1 true).isSome = true ∧ loadContent (sUp (some 4) 3 0) 1 4 false = none := by
  decide +kernel

/-- FirmwareBroadcast: every tile but two is fenced; round 0 with one of them silent, both silent, and both heard of which one is to
repair. -/
def sCast (a b : Option (BitVec 18)) : State :=
  { sUp (some 6) 5 1 with
    fw := { State.reset.fw with round := some 0 }
    gleaner := { State.reset.gleaner with phys := (List.range 6000).map fun p =>
      (p, if p = 7 then { fwReport := a } else if p = 5999 then { fwReport := b } else { fence := .factory }) } }
theorem mget_table (f : Nat → Phys) (n j k : Nat) :
    mget ((List.range' j n).map fun p => (p, f p)) {} k = if j ≤ k ∧ k < j + n then f k else {} := by
  induction n generalizing j with
  | zero => simp [mget]
  | succ n ih =>
    simp only [List.range'_succ, List.map_cons, mget, ih]
    by_cases h : j = k
    · subst h; simp
    · rw [if_neg h]
      congr 1
      exact propext ⟨fun ⟨a, b⟩ => ⟨by omega, by omega⟩, fun ⟨a, b⟩ => ⟨by omega, by omega⟩⟩
theorem cast_phys (a b : Option (BitVec 18)) (p : Nat) (h : p < 6000) : (sCast a b).phys p =
    if p = 7 then { fwReport := a } else if p = 5999 then { fwReport := b } else { fence := .factory } := by
  have := mget_table (fun p => if p = 7 then { fwReport := a } else if p = 5999 then { fwReport := b } else { fence := .factory }) 6000 0 p
  rw [← List.range_eq_range', if_pos ⟨by omega, by omega⟩] at this
  simpa only [State.phys, sCast] using this
theorem cast_good (a b : Option (BitVec 18)) : goodTiles (sCast a b) = [7, 5999] := by
  have h : ∀ p ∈ List.range 6000, goodTile (sCast a b) p = (p == 7 || p == 5999) := by
    intro p hp
    rw [goodTile, cast_phys a b p (List.mem_range.mp hp)]
    by_cases h1 : p = 7
    · subst h1; rfl
    · by_cases h2 : p = 5999
      · subst h2; rfl
      · simp [h1, h2]
  rw [goodTiles, List.filter_congr h]
  decide +kernel
theorem hyp_fw_broadcast : silentTiles (sCast none none) = [7, 5999] ∧ silentTiles (sCast none (some 0)) = [7] ∧
    badReports (sCast none (some 0)) = [7] ∧ silentTiles (sCast (some 1) (some 0)) = [] ∧ badReports (sCast (some 1) (some 0)) = [7] ∧
    onWarm (sUp (some 6) 5 1) = true ∧ (sUp (some 6) 5 1).fw.round = none ∧ (sCast none none).fw.roundAt + 1000 ≤ now (sCast none none) ∧
    reportForm 0x20000 = true ∧ reportForm 0x20001 = false := by
  refine ⟨?_, ?_, ?_, ?_, ?_, by decide, by decide, by decide, by decide, by decide⟩ <;> simp only [silentTiles, badReports, cast_good] <;>
    simp [cast_phys]

/-- FirmwareSlots: a PROGRAM of one unit from the last 64 KiB of memory, and of a whole firmware slot; a verification that ended; a trial
slot at S9; and a valid other slot. -/
def wProg (u a : Nat) : DWord := BitVec.ofNat 64 (2 ^ 60 + u * 2 ^ 48 + a)
def sProg (l : Option (AMap Image)) : State :=
  { sPort with fw := { State.reset.fw with progState := 1, progRegion := 0, progSlot := 1, progImages := l, stB := [(0, 1)], trial := true } }
theorem hyp_slots : (wProg 1 0x20FFFFF0000).toNat / 2 ^ 60 = 1 ∧ bits (wProg 1 0x20FFFFF0000).toNat 42 6 = 0 ∧
    bits (wProg 1 0x20FFFFF0000).toNat 0 42 + 65536 * 1 ≤ memCap sPort ∧ bits (wProg 768 0).toNat 48 10 ≤ slotUnits (bits (wProg 768 0).toNat 58 2) ∧
    sPort.fw.progState = 0 ∧ (sProg (some [])).fw.progState ≠ 0 ∧ (sProg none).fw.trial = true ∧ (sProg none).boot.stage = 9 ∧
    slotState (sProg none) 0 (1 - slotPref (sProg none) 0) = 1 := by decide +kernel
/-- A steward image without a body, its last 4,000 bytes still to come; where its signature verifies, it passes. -/
def imageR : List Byte :=
  toLE 4 0x4F564C32 ++ toLE 2 1 ++ toLE 2 1 ++ List.replicate 24 0 ++ sha256 [] ++ List.replicate 192 0 ++ List.replicate 7856 0
def sRom : State :=
  { sPort with boot := { sPort.boot with path := 2, stage := 0 }, dict := { sPort.dict with partial_ := [(odKey 0x6121 1, imageR.take 4112)] } }
theorem hyp_recovery_image (h : Config.sigVerifies (keySlot sRom 0).key ((imageR.drop 0).take 256) ((imageR.drop 256).take sigBytes) = true) :
    ∃ i, imageAt sRom (fun o n => (imageR.drop o).take n) 8112 0 1 = some i := by
  have h1 : leNat ((imageR.drop (0 + 0x10)).take 4) = 0 := by decide +kernel
  have h2 : leNat ((imageR.drop (0 + 0x14)).take 4) = 0 := by decide +kernel
  have h3 : sha256 (((imageR.drop 0).take 256).drop 0x100) == (imageR.drop (0 + 0x20)).take 32 := by decide +kernel
  have h4 : leNat ((imageR.drop 0).take 4) == 0x4F564C32 && leNat ((imageR.drop (0 + 6)).take 2) == 1 && leNat ((imageR.drop (0 + 4)).take 2) == 1 := by
    decide +kernel
  have h5 : imageAllowed sRom 1 0 (leNat ((imageR.drop (0 + 0x0C)).take 4)) = true := by decide +kernel
  simp only [imageAt, imageSize, h1, h2, Nat.add_zero, h4, h5, h3, h, Bool.true_and, Bool.and_true]
  exact ⟨_, if_pos (by decide)⟩

/-- KnownAnswer: a module at S9 without a context, and with a workload running. -/
def sKa (r : Option Nat) : State :=
  { sPort with ka := { running := r, state := [(5, 1)] }, pow := { sPort.pow with inputMv := 48000, inlet := 30, flow := 500 } }
theorem hyp_known_answer : (sKa none).ctxs = [] ∧ (sKa none).ka.running = none ∧ (sKa none).boot.stage = 9 ∧ (sKa (some 5)).ka.running = some 5 ∧
    kaViolated (sKa none) 0 = 0 ∧ kaViolated { sKa none with mem := { retired := [7] } } 0 = 8 := by decide +kernel

/-- TokensAndCounters: a token that unlocks every debug level, in the last two pieces; it is accepted where its signature verifies, and
not where the nonce is another; a rollback commit of region 0. -/
def tokenB : List Byte := toLE 4 0x4F56544B ++ toLE 2 1 ++ toLE 2 0 ++ List.replicate 16 0 ++ toLE 32 77 ++ toLE 4 7 ++ List.replicate 36 0 ++ List.replicate 7856 0
def sTok (n : BitVec 256) : State :=
  { sPort with
    sec := { sPort.sec with nonce := some (n, 4000), commit := none }, dict := { sPort.dict with partial_ := [(odKey 0x5010 2, tokenB.take 3952)] } }
theorem tokenB_length : tokenB.length = 7952 := by decide +kernel
theorem hyp_token (h : Config.sigVerifies (keySlot (sTok 77) 0).key (tokenB.take 0x60) (tokenB.drop 0x60) = true) :
    tokenAccepted (sTok 77) (Token.ofBytes tokenB) tokenB = true ∧ (Token.ofBytes tokenB).op = 1 := by
  have h1 : (Token.ofBytes tokenB).signer = 0 := by decide +kernel
  have h2 : (Token.ofBytes tokenB).wellFormed = true := by decide +kernel
  have h3 : (Token.ofBytes tokenB).serial == (sTok 77).factory.serial.toNat := by decide +kernel
  have h4 : (validNonce (sTok 77)).map (·.toNat) == some (Token.ofBytes tokenB).nonce := by decide +kernel
  have h5 : keyActive (keySlot (sTok 77) 0) = true := by decide +kernel
  have h6 : (Token.ofBytes tokenB).op = 1 := by decide +kernel
  exact ⟨by simp only [tokenAccepted, tokenPermitted, h1, h2, h3, h4, h5, h6, h, Bool.and_true], h6⟩
theorem hyp_token_refused : tokenAccepted (sTok 78) (Token.ofBytes tokenB) tokenB = false ∧ Heard (sTok 78) mA ∧ inRecovery (sTok 78) = false := by
  refine ⟨?_, by decide +kernel, by decide +kernel⟩
  have : ((validNonce (sTok 78)).map (·.toNat) == some (Token.ofBytes tokenB).nonce) = false := by decide +kernel
  simp only [tokenAccepted, this, Bool.and_false, Bool.false_and]
theorem hyp_rollback : sPort.boot.stage = 9 ∧ sPort.fw.trial = false ∧ sPort.sec.commit = none ∧ validNonce (sTok 77) ≠ none ∧
    validNonce (atUs 60004000 (sTok 77)) = none ∧ (sProg none).fw.trial = true := by decide +kernel

/-- DebugAndAttestation: level TILE open, with a context and without one; a whole nonce; a report being signed. -/
def sDbg (c : AMap Ctx) : State := { sPort with ctxs := c, sec := { sPort.sec with debugOn := true, debugMask := 2, signing := none } }
theorem hyp_debug : (sDbg []).sec.debugMask.getLsbD 1 = true ∧ portUp (sDbg []) = true ∧ InCtx (sDbg [(0, xA)]) pA 0 xA ∧
    (xA.tally.faults.all fun f => f.kind != 0x42) = true ∧ ctxAt (sDbg []) pA = none ∧ sPort.sec.otpFault = false ∧
    mfind sPort.dict.partial_ (odKey 0x5020 1) = none := by decide +kernel

/-! ### Witnesses: the machine as a whole -/

/-- CanonicalKept, ResetState and LadderKept: the module as shipped, and with bytes of local memory set. -/
theorem hyp_canonical : State.reset.Canonical := by
  show Memory.wf State.reset = true
  rfl
theorem hyp_ladder : ∀ q, (State.reset.quarter q).k ∈ ladder := by
  intro q
  have : State.reset.quarter q = {} := by simp [State.quarter, State.reset, mget]
  rw [this]; decide
theorem hyp_steps : ∃ t, step State.reset = .next t := ⟨_, rfl⟩

/-- BuildSlotKept: a running context with an entry, a fault and counts in the record of its step. -/
def xBuild : Ctx := { xA with tally := { entries := [{ tensor := 1, lines := 2, viewLines := 2, viewDigest := 3 }], retries := 4, slot := 1 } }
theorem hyp_build : (withTile (runTile kA)).ctx 0 = some xA ∧ xBuild.rec_.state = 1 ∧
    admitting ({ sA with ctxs := [(0, xBuild)] } : State) 0 = false ∧ xBuild.run.phase ≠ .committed ∧ xBuild.run.phase ≠ .sealed_ ∧
    ({ sA with ctxs := [(0, xBuild)] } : State).ctx 0 = some xBuild := by decide +kernel

/-- EntryForm: an index of one subindex and one of many, a subindex of each size, and a role that may not read. -/
theorem hyp_entry : inRecovery sPort = false ∧ odIndexKnown 0x1000 = true ∧ Heard sPort mA ∧ readRefused sPort 0 0x1000 0 = none ∧
    (odFind 0x1000 1).isSome = true ∧ odIndexKnown 0x0FFF = false := by decide +kernel

/-! ### Commands that are not well formed -/

theorem test_wf_tile : (Instr.barrierArrive ⟨111, 47⟩).wf = true ∧ (Instr.barrierArrive ⟨112, 0⟩).wf = false ∧
    (Instr.barrierArrive ⟨0, 48⟩).wf = false ∧ (Instr.nop hA).wf = true ∧ (Instr.nop { hA with t := ⟨112, 0⟩ }).wf = false := by decide +kernel
theorem test_wf_hop : (Instr.circuitEnable 0 [⟨⟨0, 0⟩, .north, 0⟩]).wf = true ∧ (Instr.circuitEnable 0 [⟨⟨112, 0⟩, .north, 0⟩]).wf = false := by decide +kernel
theorem test_wf_context : (Instr.stepStart 15).wf = true ∧ (Instr.stepStart 16).wf = false := by decide +kernel
theorem test_wf_link : (Instr.linkFrameSlot 31).wf = true ∧ (Instr.linkFrameSlot 32).wf = false := by decide +kernel
theorem test_wf_physical : (Instr.probationDelayExpiry 5999).wf = true ∧ (Instr.probationDelayExpiry 6000).wf = false := by decide +kernel
theorem test_wf_channel : (Instr.channelRetire 191 false).wf = true ∧ (Instr.channelRetire 192 false).wf = false := by decide +kernel
theorem test_wf_stripe : (Instr.granaryScrubRow 15 []).wf = true ∧ (Instr.granaryScrubRow 16 []).wf = false := by decide +kernel
theorem test_wf_packet : (Instr.remoteRequestArrive 0 { pkM with data := [1], poison := [false] }).wf = true ∧
    (Instr.remoteRequestArrive 0 { pkM with data := [1], poison := [] }).wf = false ∧
    (Instr.remoteRequestArrive 0 { pkM with data := List.replicate 65 0, poison := List.replicate 65 false }).wf = false ∧
    (Instr.linkFrameReceive 0 { frameA 0 with packets := [{ pkM with data := [1], poison := [] }] }).wf = false := by decide +kernel
theorem test_wf_payload : payloadOk (List.replicate 64 0) = true ∧ payloadOk (List.replicate 65537 0) = false := by
  simp only [payloadOk, List.length_replicate]; decide
theorem test_wf_checks : (Instr.granaryScrubRow 0 [⟨191, 201326591, 1, 0, 0, 0⟩]).wf = true ∧
    (Instr.granaryScrubRow 0 [⟨192, 0, 1, 0, 0, 0⟩]).wf = false ∧ (Instr.granaryScrubRow 0 [⟨0, 201326592, 1, 0, 0, 0⟩]).wf = false := by decide +kernel
theorem test_wf_reductions : (Instr.sectionEnd 0 [(3, List.replicate 32 0)] []).wf = true ∧
    (Instr.sectionEnd 0 [(3, List.replicate 33 0)] []).wf = false := by decide +kernel

/-! ### The specification's worked examples -/

/-- 04, MXFP4 block: 0.8, −0.3, 0.07 and 0.02 in a block of 32, by scale rules 0 and 1 and with an E4M3 scale. -/
def exBlock : List (Machine.Num × Nat) :=
  [(.fin false 13421773 (-24), 0), (.fin true 5033165 (-24), 1), (.fin false 1174405 (-24), 2), (.fin false 335544 (-24), 3)]
def exDrain (w : Nat) (fit : Bool) (delayed : Option Int) : DrainCtx := ⟨w, 0, 0, 0, 0, 0, false, fit, delayed⟩
theorem test_mxfp4_rule0 : (let b := scaledBlock (exDrain 0x65000000 false none) exBlock; (b.scale, b.codes, b.count.flush, b.count.saturate)) =
    (0x7C, [7, 0xC, 1, 0], 1, 0) := by decide +kernel
theorem test_mxfp4_rule1 : (let b := scaledBlock (exDrain 0x65000000 true none) exBlock; (b.scale, b.codes, b.count.flush)) =
    (0x7D, [5, 0xA, 1, 0], 1) := by decide +kernel
theorem test_lbf4_32 : (let b := scaledBlock (exDrain 0x69000000 false none) exBlock; (b.scale, b.codes, b.count.flush)) =
    (0x21, [7, 0xC, 1, 0], 1) := by decide +kernel
theorem test_mxfp4_saturates : (let b := scaledBlock (exDrain 0x65000000 false none) [(.fin false 15938355 (-24), 0)]; (b.codes, b.count.saturate)) =
    ([7], 1) := by decide +kernel

/-- 04, stochastic rounding: 1 + 2^−8 + 2^−10 in BF16 at the first random word that rounds it up, and at the one before. -/
theorem test_stochastic : (fBF16.convert false (.stochastic 1610612736) (.fin false 1029 (-10))).code = 0x3F81 ∧
    (fBF16.convert false (.stochastic 1610612735) (.fin false 1029 (-10))).code = 0x3F80 := by decide +kernel

/-- 08, the page of tile (5, 3): its first line is line 572,177 of channel 155, and its last line lies in row 572,183. -/
theorem test_page_lines : lineChannel 0x18027C000 = 155 ∧ lineRow 0x18027C000 = 572177 ∧ lineRow 0x18027CFC0 = 572183 ∧
    stripeOf 0x18027C000 = 12 := by decide +kernel
end Sys2Proof.Tests
end

/-! ## Proofs: updates of one tile, and the answer of an instruction that issues (R42, R52, R56) -/

namespace Sys2Proof.Machine

@[simp] theorem State.modTile_modTile (s : State) (k : Nat) (f g : Tile → Tile) :
    (s.modTile k f).modTile k g = s.modTile k fun t => g (f t) := by
  simp [State.modTile]

theorem State.modCore_eq_modTile (s : State) (p : Coord) (f : Core → Core) :
    s.modCore p f = s.modTile (ckey p) fun t => { t with core := f t.core } := rfl

theorem State.modTile_tile_ne (s : State) {k j : Nat} (f : Tile → Tile) (h : j ≠ k) : (s.modTile k f).tile j = s.tile j := by
  simp [h]

/-- A change of one tile changes nothing else. -/
theorem onlyTile_modTile (s : State) (k : Nat) (f : Tile → Tile) : OnlyTile s (s.modTile k f) k := by
  simp [OnlyTile, State.modTile]

theorem State.tile_congr {s u : State} (h : u.tiles = s.tiles) (j : Nat) : u.tile j = s.tile j := by
  simp [State.tile, h]

theorem issue_fin {s u : State} {h : Hdr} {body : Tile → Act} (slotB : Bool) (hi : Issues s h)
    (hb : body (s.tile (ckey h.t)) = .fin u) : issue h slotB false s body = .next (advance u h.t) := by
  rw [issue_eq slotB body hi, hb]

theorem issue_go {s u : State} {h : Hdr} {body : Tile → Act} (slotB : Bool) (hi : Issues s h)
    (hb : body (s.tile (ckey h.t)) = .go u) : issue h slotB false s body = .next u := by
  rw [issue_eq slotB body hi, hb]

theorem issue_exc {s : State} {h : Hdr} {body : Tile → Act} {code detail : Nat} (slotB : Bool) (hi : Issues s h)
    (hb : body (s.tile (ckey h.t)) = .exc code detail) :
    issue h slotB false s body = .next (takeExc s h.t code (coreAt s h.t).pc.toNat slotB detail) := by
  rw [issue_eq slotB body hi, hb]

theorem withCtx_inCtx {s : State} {p : Coord} {c : Nat} {x : Ctx} (hc : InCtx s p c x) (f : Nat → Ctx → Act) :
    withCtx s p f = f c x := by
  simp only [withCtx, show ctxAt s p = some (c, x) from hc]

/-- A tile changed and moved past its instruction, where its core stands in range. -/
theorem advance_modTile {s : State} {p : Coord} {f : Tile → Tile} (hf : (f (s.tile (ckey p))).core.fits) :
    advance (s.modTile (ckey p) f) p = s.modTile (ckey p) fun t => { f t with core := (f t).core.past } := by
  rw [advance_fits _ _ (by simpa [coreAt] using hf), State.modCore_eq_modTile, State.modTile_modTile]

end Sys2Proof.Machine

/-! ## Proofs: gather entries written back

Which entries stay pending, and that an access sees the same bytes before and after (R165 to R168). -/

namespace Sys2Proof.Machine

/-- A byte after a list of byte writes, where all writes of its address write `b`: it is `b` if one does, or if it was. -/
theorem cellGet_foldl_cellPut (bs : List Host.Cell) (m : List Host.Cell) (a : Nat) (b : Byte)
    (hb : ∀ c ∈ bs, c.1 = a → c.2 = b) (h : (∃ c ∈ bs, c.1 = a) ∨ cellGet m a = b) :
    cellGet (bs.foldl (fun m c => cellPut m c.1 c.2) m) a = b := by
  induction bs generalizing m with
  | nil => simpa using h
  | cons c t ih =>
    refine ih (cellPut m c.1 c.2) (fun d hd => hb d (List.mem_cons_of_mem c hd)) ?_
    rw [cellGet_cellPut]
    by_cases hc : a = c.1
    · right; simpa [hc] using hb c (by simp) hc.symm
    · simpa [hc, Ne.symm hc] using h

theorem mem_maskBytes {p data : Nat} {mask : BitVec 64} {c : Nat × Byte} :
    c ∈ maskBytes p mask data ↔
      ∃ i < 64, mask.getLsbD i = true ∧ c = (64 * p + i, BitVec.ofNat 8 (data / 256 ^ i)) := by
  simp only [maskBytes, List.mem_filterMap, List.mem_range, Option.ite_none_right_eq_some, Option.some.injEq]
  exact ⟨fun ⟨i, hi, hm, hc⟩ => ⟨i, hi, hm, hc.symm⟩, fun ⟨i, hi, hm, hc⟩ => ⟨i, hi, hm, hc.symm⟩⟩

/-- A masked write writes the bytes of its line that the mask selects and no other byte (R178). -/
theorem Bin.cellGet_write (b : Bin) (p l j data : Nat) (mask : BitVec 64) (poison : Bool) (hj : j < 64) :
    cellGet (b.write p mask data poison).data (64 * l + j) =
      if l = p ∧ mask.getLsbD j = true then BitVec.ofNat 8 (data / 256 ^ j) else cellGet b.data (64 * l + j) := by
  unfold Bin.write
  apply cellGet_foldl_cellPut
  · intro c hc ha
    obtain ⟨i, hi, hm, rfl⟩ := mem_maskBytes.1 hc
    obtain ⟨rfl, rfl⟩ : l = p ∧ j = i := by simp only at ha; omega
    simp [hm]
  · by_cases h : l = p ∧ mask.getLsbD j = true
    · exact Or.inl ⟨_, mem_maskBytes.2 ⟨j, hj, h.2, rfl⟩, by simp [h.1]⟩
    · exact Or.inr (by simp [h])

theorem Bin.gatherOf_eq_none {b : Bin} {p : Nat} :
    b.gatherOf p = none ↔ ∀ g ∈ b.gather, g.line = p → g.mask = 0 := by
  simp [Bin.gatherOf]

/-- An entry of a line is no longer pending once the line is written back. -/
def Gather.clearAt (p : Nat) (g : Gather) : Gather := if g.line == p then { g with mask := 0 } else g

@[simp] theorem Gather.clearAt_line (p : Nat) (g : Gather) : (g.clearAt p).line = g.line := by
  unfold Gather.clearAt; split <;> rfl

theorem Gather.clearAt_eq_self {p : Nat} {g : Gather} (h : g.line = p → g.mask = 0) : g.clearAt p = g := by
  unfold Gather.clearAt
  split
  · rename_i hl
    rw [← h (by simpa using hl)]
  · rfl

theorem Gather.clearAt_mask_of_eq {p : Nat} {g : Gather} (h : g.line = p) : (g.clearAt p).mask = 0 := by
  simp [Gather.clearAt, h]

theorem Bin.writeBack_of_none {b : Bin} {p : Nat} (h : b.gatherOf p = none) : b.writeBack p = b := by
  simp [Bin.writeBack, h]

theorem Bin.writeBack_of_some {b : Bin} {p : Nat} {g : Gather} (h : b.gatherOf p = some g) :
    b.writeBack p = { b.write p g.mask g.data.toNat false with gather := b.gather.map (Gather.clearAt p) } := by
  simp only [Bin.writeBack, h]; rfl

/-- A line written back leaves no entry of it pending, and every entry of another line as it was. -/
theorem Bin.writeBack_gather (b : Bin) (p : Nat) : (b.writeBack p).gather = b.gather.map (Gather.clearAt p) := by
  cases h : b.gatherOf p with
  | some g => rw [Bin.writeBack_of_some h]
  | none =>
    rw [Bin.writeBack_of_none h]
    have same : ∀ g ∈ b.gather, g.clearAt p = g := fun g hg =>
      Gather.clearAt_eq_self (Bin.gatherOf_eq_none.1 h g hg)
    rw [List.map_congr_left same, List.map_id']

/-- After a line is written back no entry of it is pending, and what is pending for another line still is. -/
theorem Bin.gatherOf_writeBack (b : Bin) (p l : Nat) :
    (b.writeBack p).gatherOf l = if l = p then none else b.gatherOf l := by
  split
  · subst l
    rw [Bin.gatherOf_eq_none, Bin.writeBack_gather]
    simp only [List.mem_map, forall_exists_index, and_imp, forall_apply_eq_imp_iff₂, Gather.clearAt_line]
    exact fun g _ h => Gather.clearAt_mask_of_eq h
  · rename_i hl
    simp only [Bin.gatherOf, Bin.writeBack_gather]
    induction b.gather with
    | nil => rfl
    | cons g r ih =>
      by_cases hg : g.line = l
      · rw [List.map_cons, Gather.clearAt_eq_self (fun h => absurd (hg.symm.trans h) hl), List.find?_cons, List.find?_cons, ih]
      · have hn : (g.line == l) = false := by simpa using hg
        simp only [List.map_cons, List.find?_cons, Gather.clearAt_line, hn, Bool.false_and, ih]

/-- A line written back shows every access the same bytes (R167, R168). -/
theorem Bin.visible_writeBack (b : Bin) (p l j : Nat) (hj : j < 64) : (b.writeBack p).visible l j = b.visible l j := by
  cases h : b.gatherOf p with
  | none => rw [Bin.writeBack_of_none h]
  | some g =>
    have hd : cellGet (b.writeBack p).data (64 * l + j) =
        if l = p ∧ g.mask.getLsbD j = true then BitVec.ofNat 8 (g.data.toNat / 256 ^ j)
        else cellGet b.data (64 * l + j) := by
      rw [Bin.writeBack_of_some h]; exact Bin.cellGet_write b p l j _ _ false hj
    unfold Bin.visible
    rw [Bin.gatherOf_writeBack, hd]
    by_cases hl : l = p
    · subst l; simp [h]
    · simp [hl]

/-- The write-back of one entry of the gather list, where it is pending. -/
def Bin.drainEntry (b : Bin) (g : Gather) : Bin := if g.mask = 0 then b else b.writeBack g.line

theorem Bin.writeBackAll_eq (b : Bin) : b.writeBackAll = b.gather.foldl Bin.drainEntry b := rfl

/-- An entry that is still pending after some were written back was pending before and is of none of their lines. -/
theorem Bin.pending_foldl_drainEntry (l : List Gather) (b : Bin) (g : Gather) (hg : g ∈ (l.foldl Bin.drainEntry b).gather)
    (hm : g.mask ≠ 0) : g ∈ b.gather ∧ ∀ e ∈ l, e.mask ≠ 0 → e.line ≠ g.line := by
  induction l generalizing b with
  | nil => exact ⟨hg, by simp⟩
  | cons e r ih =>
    obtain ⟨hb, hr⟩ := ih (b.drainEntry e) hg
    by_cases he : e.mask = 0
    · rw [Bin.drainEntry, if_pos he] at hb
      exact ⟨hb, by simpa [he] using hr⟩
    · rw [Bin.drainEntry, if_neg he, Bin.writeBack_gather] at hb
      obtain ⟨g', hg', rfl⟩ := List.mem_map.1 hb
      have hl : g'.line ≠ e.line := fun h => hm (Gather.clearAt_mask_of_eq h)
      rw [Gather.clearAt_eq_self (fun h => absurd h hl)] at hr ⊢
      exact ⟨hg', by simpa [he, hl.symm] using hr⟩

/-- No gather entry is pending after every one was written back (R166). -/
theorem Bin.writeBackAll_mask (b : Bin) : ∀ g ∈ b.writeBackAll.gather, g.mask = 0 := by
  intro g hg
  by_contra hm
  obtain ⟨hb, hne⟩ := Bin.pending_foldl_drainEntry b.gather b g hg hm
  exact hne g hb hm rfl

/-- Every gather entry written back, each access sees the same bytes (R167, R168). -/
theorem Bin.visible_writeBackAll (b : Bin) (l j : Nat) (hj : j < 64) : b.writeBackAll.visible l j = b.visible l j := by
  have drain : ∀ (es : List Gather) (b : Bin), (es.foldl Bin.drainEntry b).visible l j = b.visible l j := by
    intro es
    induction es with
    | nil => exact fun b => rfl
    | cons e r ih =>
      intro b
      rw [List.foldl_cons, ih, Bin.drainEntry]
      split
      · rfl
      · exact Bin.visible_writeBack b e.line l j hj
  exact drain b.gather b

end Sys2Proof.Machine

/-! ## Proofs: the tile port and the trace of one tile leave every other tile alone (R171, R172, R255) -/

namespace Sys2Proof.Machine

/-- A fold of steps that each leave a tile alone leaves it alone. -/
theorem tile_foldl {α : Type} (f : State → α → State) (j : Nat) (hf : ∀ s a, (f s a).tile j = s.tile j) (l : List α)
    (s : State) : (l.foldl f s).tile j = s.tile j := by
  induction l generalizing s with
  | nil => rfl
  | cons a r ih => rw [List.foldl_cons, ih, hf]

/-- A flit sent from one tile where there is room, its own record of it changed, leaves every other tile alone. -/
theorem ite_send_tile_ne (s : State) {k j : Nat} (f : Tile → Tile) (e : Flit) (room : Prop) [Decidable room] (h : j ≠ k) :
    (if room then (s.modTile k f).send e else s).tile j = s.tile j := by
  split
  · exact s.modTile_tile_ne f h
  · rfl

/-- What leaves at a tile port changes no other tile (R255). -/
theorem pumpPort_tile_ne (s : State) (p : Coord) {j : Nat} (h : j ≠ ckey p) : (pumpPort s p).tile j = s.tile j := by
  unfold pumpPort
  extract_lets k
  split
  · rfl
  · extract_lets spilled credited staged traced
    have hspilled : spilled.tile j = s.tile j := by
      unfold spilled; split
      · exact s.modTile_tile_ne _ h
      · rfl
    have hcredited : credited.tile j = spilled.tile j := tile_foldl _ j (fun _ _ => ite_send_tile_ne _ _ _ _ h) _ _
    have hstaged : staged.tile j = credited.tile j := tile_foldl _ j (fun _ _ => ite_send_tile_ne _ _ _ _ h) _ _
    have htraced : traced.tile j = staged.tile j := tile_foldl _ j (fun _ _ => ite_send_tile_ne _ _ _ _ h) _ _
    rw [← hspilled, ← hcredited, ← hstaged, ← htraced]
    split
    · rw [tile_foldl State.send j fun _ _ => rfl, State.modTile_tile_ne _ _ h]
    · rfl

theorem traceRecord_tile_ne (s : State) (p : Coord) (op a n : Nat) {j : Nat} (h : j ≠ ckey p) :
    (traceRecord s p op a n).tile j = s.tile j := by
  unfold traceRecord
  split
  · rfl
  · split
    · split
      · rfl
      · exact (pumpPort_tile_ne _ p h).trans ((State.tile_congr (State.modRun_tiles ..) j).trans (s.modTile_tile_ne _ h))
    · rfl

/-- Without trace capture a transaction leaves no record (R171, R172). -/
theorem traceRecord_untraced {s : State} {p : Coord} (h : Untraced s p) (op a n : Nat) : traceRecord s p op a n = s := by
  unfold traceRecord
  split
  · rfl
  · rename_i c x hc
    simp [h c x hc]

theorem traceWriteBacks_tile_ne (s : State) (p : Coord) (l : List Nat) {j : Nat} (h : j ≠ ckey p) :
    (traceWriteBacks s p l).tile j = s.tile j := tile_foldl _ j (fun s _ => traceRecord_tile_ne s p 1 _ 0 h) l s

theorem traceWriteBacks_untraced {s : State} {p : Coord} (h : Untraced s p) (l : List Nat) : traceWriteBacks s p l = s := by
  induction l with
  | nil => rfl
  | cons a r ih => rw [traceWriteBacks, List.foldl_cons, traceRecord_untraced h]; exact ih

end Sys2Proof.Machine

/-! ## Proofs: the flush of a tile at a fallow point (R82, R166, R219, R223) -/

namespace Sys2Proof.Machine

theorem flushGather_tile_ne (s : State) (p : Coord) {j : Nat} (h : j ≠ ckey p) : (flushGather s p).tile j = s.tile j :=
  (traceWriteBacks_tile_ne _ p _ h).trans (s.modTile_tile_ne _ h)

theorem flushGather_untraced {s : State} {p : Coord} (h : Untraced s p) :
    flushGather s p = s.modTile (ckey p) fun t => { t with bin := t.bin.writeBackAll } :=
  traceWriteBacks_untraced (s := s.modTile _ _) h _

/-- A tile that has reached a fallow point at a time, its gather entries as they were (R223). -/
def Tile.fallowAt (n : Nat) (t : Tile) : Tile := { t with lastFallow := n, gapLate := false }

/-- A tile that has reached a fallow point at a time, its gather entries written back (R166, R223). -/
def Tile.flushedAt (n : Nat) (t : Tile) : Tile := { t.fallowAt n with bin := t.bin.writeBackAll }

theorem markFallow_eq (s : State) (p : Coord) : markFallow s p = s.modTile (ckey p) (Tile.fallowAt s.clk.timeUs) := rfl

theorem flushGather_markFallow {s : State} {p : Coord} (h : Untraced s p) :
    flushGather (markFallow s p) p = s.modTile (ckey p) (Tile.flushedAt s.clk.timeUs) := by
  rw [flushGather_untraced (s := markFallow s p) h, markFallow_eq, State.modTile_modTile]
  rfl

/-- Every other tile is as it was when one ends its step. -/
theorem endStep_tile_ne (s : State) (p : Coord) {j : Nat} (h : j ≠ ckey p) : (endStep s p).tile j = s.tile j := by
  rw [endStep, State.modCore_eq_modTile, State.modTile_tile_ne _ _ h, flushGather_tile_ne _ _ h, markFallow_eq,
    State.modTile_tile_ne _ _ h]

theorem endStep_run_self (s : State) (p : Coord) : (coreAt (endStep s p) p).run = .stepEnd := by simp [coreAt, endStep]

/-- A tile whose step has ended stays so when any tile ends its step. -/
theorem endStep_run_of_stepEnd (s : State) (p q : Coord) (h : (coreAt s q).run = .stepEnd) :
    (coreAt (endStep s p) q).run = .stepEnd := by
  by_cases hq : ckey q = ckey p
  · simpa [coreAt, hq] using endStep_run_self s p
  · simpa [coreAt, endStep_tile_ne s p hq] using h

/-- Of tiles that end their step one after another, each has ended it at the end. -/
theorem foldl_endStep_run (l : List Coord) (s : State) (q : Coord) (h : q ∈ l ∨ (coreAt s q).run = .stepEnd) :
    (coreAt (l.foldl endStep s) q).run = .stepEnd := by
  induction l generalizing s with
  | nil => simpa using h
  | cons p r ih =>
    refine ih (endStep s p) ?_
    rcases h with h | h
    · rcases List.mem_cons.1 h with rfl | h
      · exact Or.inr (endStep_run_self s q)
      · exact Or.inl h
    · exact Or.inr (endStep_run_of_stepEnd s p q h)

end Sys2Proof.Machine

/-! ## Proofs: moves that can be made, before and after a change of a tile (R81, R333) -/

namespace Sys2Proof.Machine

theorem any_of_mfind {α : Type} {m : AMap α} {k : Nat} {w : α} (P : Nat × α → Bool) (hw : mfind m k = some w)
    (hP : P (k, w) = true) : m.any P = true := by
  induction m with
  | nil => simp [mfind] at hw
  | cons e r ih =>
    obtain ⟨a, u⟩ := e
    simp only [mfind] at hw
    split at hw
    · obtain rfl := Option.some.inj hw
      subst a; simp [hP]
    · simp [ih hw]

/-- Whether an entry of a table meets a condition is as before where a listed key is written and its own answer stays. -/
theorem any_mput {α : Type} (m : AMap α) (k : Nat) (v w : α) (P : Nat × α → Bool) (hw : mfind m k = some w)
    (hP : P (k, v) = P (k, w)) : (mput m k v).any P = m.any P := by
  induction m with
  | nil => simp [mfind] at hw
  | cons e r ih =>
    obtain ⟨a, u⟩ := e
    simp only [mput]
    split
    · rw [List.any_cons, hP]
      cases h : P (k, w)
      · rfl
      · rw [any_of_mfind P hw h]; rfl
    · split
      · subst a
        obtain rfl : u = w := by simpa [mfind] using hw
        rw [List.any_cons, List.any_cons, hP]
      · rename_i hk
        rw [mfind, if_neg (Ne.symm hk)] at hw
        rw [List.any_cons, List.any_cons, ih hw]

theorem State.mfind_tiles {s : State} {k : Nat} (h : s.tile k ≠ {}) : mfind s.tiles k = some (s.tile k) := by
  rw [State.tile, mget_eq_mfind] at h ⊢
  cases hf : mfind s.tiles k with
  | none => simp [hf] at h
  | some t => rfl

/-- A move is in progress in a row just as before, where a listed tile is changed and its own move is not (R81). -/
theorem rowMoving_modTile (s : State) (k die row : Nat) (f : Tile → Tile) (hk : s.tile k ≠ {})
    (hi : (f (s.tile k)).inMove = (s.tile k).inMove) : rowMoving (s.modTile k f) die row = rowMoving s die row := by
  have hp : ∀ j, physOf (s.modTile k f) j = physOf s j := fun _ => rfl
  simp only [rowMoving, hp]
  exact any_mput s.tiles k _ _ _ (State.mfind_tiles hk) (by simp only [hi])

theorem moveReady_of_none {s : State} {k : Nat} (h : (s.tile k).moveTo = none) : moveReady s k = false := by
  simp [moveReady, h]

/-- Whether a move can be made does not depend on the parts of a tile that a fallow point changes (R333). -/
theorem moveReady_modTile (s : State) (k : Nat) (f : Tile → Tile) (hm : (s.tile k).moveTo ≠ none)
    (hf : (f (s.tile k)).moveTo = (s.tile k).moveTo) (hi : (f (s.tile k)).inMove = (s.tile k).inMove) :
    moveReady (s.modTile k f) k = moveReady s k := by
  have hk : s.tile k ≠ {} := fun h => hm (by rw [h])
  have ht : targetOk (s.modTile k f) k = targetOk s k := by
    simp only [targetOk, State.modTile_tile_self, hf]
    rfl
  simp only [moveReady, ht, State.modTile_tile_self, hf, rowMoving_modTile s k _ _ f hk hi]
  rfl

end Sys2Proof.Machine

/-! ## Proofs: `nop` and the control and status registers (R19, R46, R47, R50) -/

namespace Sys2Proof.Machine

theorem exec_nop {s : State} {h : Hdr} (hi : Issues s h) (hf : (coreAt s h.t).fits) :
    exec (.nop h) s = .next (s.modCore h.t Core.past) :=
  (issue_fin false hi rfl).trans (congrArg _ (advance_fits s h.t hf))

@[simp] theorem latchHi_fits (s : State) (p : Coord) (i : Nat) (k : Core) : (latchHi s p i k).fits ↔ k.fits := by
  unfold latchHi; split <;> rfl

/-- `csrr` of a listed register writes its value and moves on (R46). -/
theorem exec_csrr_listed {s : State} {h : Hdr} {c : Nat} {x : Ctx} (r : BitVec 5) {csr : BitVec 12} {v : Word}
    (hi : Issues s h) (hf : (coreAt s h.t).fits) (hc : InCtx s h.t c x) (hv : csrValue s h.t c x csr.toNat = some v) :
    exec (.csrr h r csr) s = .next (s.modCore h.t fun k => ((latchHi s h.t csr.toNat k).setS r v).past) := by
  refine issue_fin_modCore false _ _ hi ?_ (by simpa using hf)
  rw [withCtx_inCtx hc, hv]

/-- `csrr` of an unlisted index raises ILLEGAL_INSTR (R46). -/
theorem exec_csrr_unlisted {s : State} {h : Hdr} {c : Nat} {x : Ctx} (r : BitVec 5) {csr : BitVec 12}
    (hi : Issues s h) (hc : InCtx s h.t c x) (hv : csrValue s h.t c x csr.toNat = none) :
    exec (.csrr h r csr) s = .next (takeExc s h.t 1 (coreAt s h.t).pc.toNat false 0) := by
  refine issue_exc false hi ?_
  rw [withCtx_inCtx hc, hv]

/-- The registers other than CYCLE_LO and their values (R46). -/
theorem csrValue_listed (s : State) (p : Coord) (c : Nat) (x : Ctx) :
    ∀ e ∈ ([(0x001, (coreAt s p).cycleHi), (0x002, BitVec.ofNat 32 x.run.step.toNat),
        (0x003, BitVec.ofNat 32 (x.run.step.toNat / 2 ^ 32)), (0x010, BitVec.ofNat 32 (p.x - x.cdef.x0)),
        (0x011, BitVec.ofNat 32 (p.y - x.cdef.y0)), (0x012, BitVec.ofNat 32 x.cdef.w), (0x013, BitVec.ofNat 32 x.cdef.h),
        (0x014, BitVec.ofNat 32 c), (0x020, (coreAt s p).tensorId), (0x021, (coreAt s p).elementBase),
        (0x030, BitVec.ofNat 32 (coreAt s p).fpFlags.toNat), (0x040, mget (coreAt s p).c 0 0),
        (0x041, mget (coreAt s p).c 0 1), (0x042, mget (coreAt s p).c 0 2), (0x043, mget (coreAt s p).c 0 3)]
          : List (BitVec 12 × Word)),
      csrValue s p c x e.1.toNat = some e.2 ∧ e.1.toNat ≠ 0 := by
  simp [csrValue]

theorem csrValue_unlisted (s : State) (p : Coord) (c : Nat) (x : Ctx) {csr : BitVec 12}
    (h : csr ∉ [0x000#12, 0x001, 0x002, 0x003, 0x010, 0x011, 0x012, 0x013, 0x014, 0x020, 0x021, 0x030, 0x040, 0x041, 0x042, 0x043]) :
    csrValue s p c x csr.toNat = none := by
  simp only [List.mem_cons, List.not_mem_nil, or_false, not_or, ← BitVec.toNat_inj, BitVec.reduceToNat] at h
  unfold csrValue
  split
  case h_17 => rfl
  all_goals omega

/-- A word has no bit above the five flags just where it is below 32 (R47). -/
theorem bits_reserved_flags (v : Word) : bits v.toNat 5 27 = 0 ↔ v.toNat < 32 := by
  have := v.isLt
  simp only [bits]; omega

/-- `csrw` of a read-only or unlisted index raises ILLEGAL_INSTR (R46). -/
theorem exec_csrw_illegal {s : State} {h : Hdr} (r : BitVec 5) {csr : BitVec 12} (hi : Issues s h)
    (hr : csr ∉ [0x020#12, 0x021, 0x030]) :
    exec (.csrw h r csr) s = .next (takeExc s h.t 1 (coreAt s h.t).pc.toNat false 0) := by
  refine issue_exc false hi ?_
  simp only [List.mem_cons, List.not_mem_nil, or_false, not_or, ← BitVec.toNat_inj, BitVec.reduceToNat] at hr
  dsimp only
  split
  case h_4 => rfl
  all_goals omega

/-- A word for FP_FLAGS without reserved bits is written (R19, R47). -/
theorem exec_csrw_flags {s : State} {h : Hdr} (r : BitVec 5) (hi : Issues s h) (hf : (coreAt s h.t).fits)
    (hv : ((coreAt s h.t).sreg r).toNat < 32) :
    exec (.csrw h r 0x030) s = .next (s.modCore h.t fun k => { k with fpFlags := (k.sreg r).setWidth 5 }.past) :=
  issue_fin_modCore false _ (fun k => { k with fpFlags := (k.sreg r).setWidth 5 }) hi
    (congrArg Act.fin (if_pos ((bits_reserved_flags _).2 hv))) hf

/-- A word for FP_FLAGS with a reserved bit leaves the register as it is (R19). -/
theorem exec_csrw_flags_refused {s : State} {h : Hdr} (r : BitVec 5) (hi : Issues s h) (hf : (coreAt s h.t).fits)
    (hv : 32 ≤ ((coreAt s h.t).sreg r).toNat) : exec (.csrw h r 0x030) s = .next (s.modCore h.t Core.past) := by
  have refused : ¬ bits ((coreAt s h.t).sreg r).toNat 5 27 = 0 := by rw [bits_reserved_flags]; omega
  rw [← advance_fits s h.t hf]
  exact issue_fin false hi (congrArg Act.fin (if_neg refused))

/-- Control registers: the listed ones by the table of their values, every other index by ILLEGAL_INSTR. -/
theorem controlRegisters : Claims.ControlRegisters := by
  rintro s h r csr c x k cyc hi hf hc rfl rfl
  refine ⟨exec_nop hi hf, exec_csrr_listed r hi hf hc rfl, ?_,
    issue_fin_modCore false _ (fun k => { k with tensorId := k.sreg r }) hi rfl hf,
    issue_fin_modCore false _ (fun k => { k with elementBase := k.sreg r }) hi rfl hf,
    exec_csrw_flags r hi hf, exec_csrw_flags_refused r hi hf,
    fun hl => exec_csrr_unlisted r hi hc (csrValue_unlisted s h.t c x hl), exec_csrw_illegal r hi⟩
  intro e he
  obtain ⟨hv, hne⟩ := csrValue_listed s h.t c x e he
  have latch : ∀ k, latchHi s h.t e.1.toNat k = k := fun k => if_neg hne
  simpa only [latch] using exec_csrr_listed r hi hf hc hv

end Sys2Proof.Machine

/-! ## Proofs: fallow points and the ends of sections and steps (R80 to R82, R85, R166, R216) -/

namespace Sys2Proof.Machine

/-- The state in which a `fallow` decides: the fallow point marked, and the gather entries written back where a move is
pending (R166, R223). -/
def fallowFlush (s : State) (p : Coord) : State :=
  if ((markFallow s p).tile (ckey p)).moveTo.isSome then flushGather (markFallow s p) p else markFallow s p

theorem fallowFlush_of_none {s : State} {p : Coord} (h : (s.tile (ckey p)).moveTo = none) :
    fallowFlush s p = s.modTile (ckey p) (Tile.fallowAt s.clk.timeUs) := by
  simp [fallowFlush, markFallow_eq, Tile.fallowAt, h]

theorem fallowFlush_of_move {s : State} {p : Coord} (hu : Untraced s p) (h : (s.tile (ckey p)).moveTo ≠ none) :
    fallowFlush s p = s.modTile (ckey p) (Tile.flushedAt s.clk.timeUs) := by
  rw [fallowFlush, if_pos, flushGather_markFallow hu]
  simpa [markFallow_eq, Tile.fallowAt, Option.isSome_iff_ne_none] using h

/-- The core after a `fallow`: held in a context that drains or is paused, stopped for a move that can be made, and otherwise
moved on (R80, R81, R216). -/
def fallowCore (s : State) (p : Coord) (x : Ctx) (k : Core) : Core :=
  if x.run.pauseState ≠ 0 then { k with run := .held }.past
  else if moveReady s (ckey p) then { k with run := .moving, wait := none } else k.past

theorem fallowCore_of_pause {s : State} {p : Coord} {x : Ctx} (h : x.run.pauseState ≠ 0) (k : Core) :
    fallowCore s p x k = { k with run := .held }.past := if_pos h

theorem fallowCore_of_ready {s : State} {p : Coord} {x : Ctx} (h : x.run.pauseState = 0) (hm : moveReady s (ckey p) = true)
    (k : Core) : fallowCore s p x k = { k with run := .moving, wait := none } :=
  (if_neg (not_not.2 h)).trans (if_pos hm)

theorem fallowCore_of_free {s : State} {p : Coord} {x : Ctx} (h : x.run.pauseState = 0) (hm : ¬ moveReady s (ckey p) = true)
    (k : Core) : fallowCore s p x k = k.past := (if_neg (not_not.2 h)).trans (if_neg hm)

/-- What `fallow` answers in a context, from the state in which it decides. -/
def fallowAct (u : State) (p : Coord) (x : Ctx) : Act :=
  if x.run.holds then .fin (u.modCore p fun k => { k with run := .held })
  else if moveReady u (ckey p) then .go (u.modCore p fun k => { k with run := .moving, wait := none })
  else .fin u

theorem exec_fallow_eq (h : Hdr) (s : State) : exec (.fallow h) s =
    issue h false false s fun _ => withCtx s h.t fun _ x => fallowAct (fallowFlush s h.t) h.t x := rfl

/-- What `fallow` does, where its flush changes only the tile, and neither the core nor whether the move can be made. -/
theorem exec_fallow {s : State} {h : Hdr} {c : Nat} {x : Ctx} {f : Tile → Tile} (hi : Issues s h)
    (hf : (coreAt s h.t).fits) (hc : InCtx s h.t c x) (hu : fallowFlush s h.t = s.modTile (ckey h.t) f)
    (hk : ∀ t, (f t).core = t.core) (hm : moveReady (s.modTile (ckey h.t) f) (ckey h.t) = moveReady s (ckey h.t)) :
    exec (.fallow h) s = .next (s.modTile (ckey h.t) fun t => { f t with core := fallowCore s h.t x t.core }) := by
  have act : withCtx s h.t (fun _ x => fallowAct (fallowFlush s h.t) h.t x) = fallowAct (s.modTile (ckey h.t) f) h.t x := by
    rw [withCtx_inCtx hc, hu]
  rw [exec_fallow_eq]
  by_cases running : x.run.pauseState = 0
  · have free : ¬ x.run.holds = true := by simp [CtxRun.holds, running]
    by_cases ready : moveReady s (ckey h.t) = true
    · rw [issue_go false hi (act.trans ((if_neg free).trans (if_pos (hm.trans ready)))), State.modCore_eq_modTile,
        State.modTile_modTile]
      simp only [fallowCore_of_ready running ready, hk]
    · rw [issue_fin false hi (act.trans ((if_neg free).trans (if_neg (by rwa [hm])))),
        advance_modTile (by simpa only [hk] using hf)]
      simp only [fallowCore_of_free running ready, hk]
  · have holds : x.run.holds = true := by simpa [CtxRun.holds] using running
    rw [issue_fin false hi (act.trans (if_pos holds)), State.modCore_eq_modTile, State.modTile_modTile,
      advance_modTile (by simpa only [hk] using hf)]
    simp only [fallowCore_of_pause running, hk]

theorem exec_fallow_of_none {s : State} {h : Hdr} {c : Nat} {x : Ctx} (hi : Issues s h) (hf : (coreAt s h.t).fits)
    (hc : InCtx s h.t c x) (hm : (s.tile (ckey h.t)).moveTo = none) : exec (.fallow h) s =
      .next (s.modTile (ckey h.t) fun t => { t.fallowAt s.clk.timeUs with core := fallowCore s h.t x t.core }) := by
  refine exec_fallow hi hf hc (fallowFlush_of_none hm) (fun _ => rfl) ?_
  rw [moveReady_of_none hm, moveReady_of_none (by rw [State.modTile_tile_self]; exact hm)]

theorem exec_fallow_of_move {s : State} {h : Hdr} {c : Nat} {x : Ctx} (hi : Issues s h) (hf : (coreAt s h.t).fits)
    (hc : InCtx s h.t c x) (hu : Untraced s h.t) (hm : (s.tile (ckey h.t)).moveTo ≠ none) : exec (.fallow h) s =
      .next (s.modTile (ckey h.t) fun t => { t.flushedAt s.clk.timeUs with core := fallowCore s h.t x t.core }) :=
  exec_fallow hi hf hc (fallowFlush_of_move hu hm) (fun _ => rfl) (moveReady_modTile s _ _ hm rfl rfl)

/-- A tile that may issue belongs to a context out of cluster mode, so no cluster runs there (R42, R85). -/
theorem clusterRuns_of_canIssue {s : State} {p : Coord} (h : canIssue s p = true) : clusterRuns s p = false := by
  unfold clusterRuns
  cases hc : ctxAt s p with
  | none => rfl
  | some e =>
    simp only [canIssue, hc, Bool.and_eq_true, Bool.not_eq_true'] at h
    obtain ⟨⟨⟨⟨-, plain⟩, -⟩, -⟩, -⟩ := h
    simp only [plain, Bool.false_and]

/-- The end of a tile's part of a step or section, its gather entries written back. -/
theorem flush_run_eq {s : State} {p : Coord} (hu : Untraced s p) (r : RunState) :
    (flushGather (markFallow s p) p).modCore p (fun k => { k with run := r, wait := none }) =
      s.modTile (ckey p) fun t => { t.flushedAt s.clk.timeUs with core := { t.core with run := r, wait := none } } := by
  rw [flushGather_markFallow hu, State.modCore_eq_modTile, State.modTile_modTile]
  rfl

/-- `stepend` of a tile outside a cluster ends its part of the step (R82). -/
theorem exec_stepend {s : State} {h : Hdr} (hi : Issues s h) (hu : Untraced s h.t) : exec (.stepend h) s =
    .next (s.modTile (ckey h.t) fun t =>
      { t.flushedAt s.clk.timeUs with core := { t.core with run := .stepEnd, wait := none } }) := by
  have single : exec (.stepend h) s = issue h false false s fun _ => .go (endStep s h.t) :=
    if_neg (by rw [clusterRuns_of_canIssue hi.1]; decide)
  rw [single, issue_go false hi rfl, endStep, flush_run_eq hu]

/-- `secend` ends the tile's part of the section (R82). -/
theorem exec_secend {s : State} {h : Hdr} (hi : Issues s h) (hu : Untraced s h.t) : exec (.secend h) s =
    .next (s.modTile (ckey h.t) fun t =>
      { t.flushedAt s.clk.timeUs with core := { t.core with run := .secEnd, wait := none } }) :=
  (issue_go false hi rfl).trans (congrArg _ (flush_run_eq hu .secEnd))

/-- A tile whose gather entries are written back at a fallow point differs in its core, its bin and the time of the point,
and no access sees a difference. -/
theorem exists_flushed {o : Out} {s : State} {k : Nat} {core : Core}
    (ho : o = .next (s.modTile k fun t => { t.flushedAt s.clk.timeUs with core := core })) :
    ∃ u, o = .next u ∧ OnlyTile s u k ∧
      u.tile k = { s.tile k with core := core, lastFallow := s.clk.timeUs, gapLate := false, bin := (u.tile k).bin } ∧
      (∀ g ∈ (u.tile k).bin.gather, g.mask = 0) ∧
      ∀ l j, j < 64 → (u.tile k).bin.visible l j = (s.tile k).bin.visible l j := by
  refine ⟨_, ho, onlyTile_modTile s k _, ?_⟩
  rw [State.modTile_tile_self]
  exact ⟨rfl, Bin.writeBackAll_mask (s.tile k).bin, Bin.visible_writeBackAll (s.tile k).bin⟩

/-- `stepend` of a cluster's north-west tile ends the step of its four tiles (R85). -/
theorem exec_stepend_cluster {s : State} {h : Hdr} (hc : clusterRuns s h.t = true) :
    exec (.stepend h) s = .next ((clusterTiles h.t).foldl endStep s) := if_pos hc

/-- Fallow points: each instruction by the tile it leaves, and a cluster's step end by its fold over the four tiles. -/
theorem fallowPoints : Claims.FallowPoints := by
  rintro s h c x t hc rfl
  refine ⟨fun hi hf hm => ⟨fun running => ?_, fun draining => ?_⟩, fun hi hf hu hm => ?_, fun hi hu e he => ?_, ?_⟩
  · rw [exec_fallow_of_none hi hf hc hm]
    have stays : ¬ moveReady s (ckey h.t) = true := by rw [moveReady_of_none hm]; decide
    simp only [fallowCore_of_free running stays, Tile.fallowAt]
  · rw [exec_fallow_of_none hi hf hc hm]
    simp only [fallowCore_of_pause draining, Tile.fallowAt]
  · exact exists_flushed (core := fallowCore s h.t x (coreAt s h.t)) (exec_fallow_of_move hi hf hc hu hm)
  · simp only [List.mem_cons, List.not_mem_nil, or_false] at he
    rcases he with rfl | rfl
    · exact exists_flushed (core := { coreAt s h.t with run := .stepEnd, wait := none }) (exec_stepend hi hu)
    · exact exists_flushed (core := { coreAt s h.t with run := .secEnd, wait := none }) (exec_secend hi hu)
  · intro cluster live west north running unhalted clocked
    have hr : clusterRuns s h.t = true := by
      simp [clusterRuns, show ctxAt s h.t = some (c, x) from hc, cluster, live, west, north, running, unhalted, clocked]
    exact ⟨_, exec_stepend_cluster hr, fun q hq => foldl_endStep_run (clusterTiles h.t) s q (Or.inl hq)⟩

/-- Settles O16: the control registers by their table of values, and the fallow points by the flush of the tile's gather
entries, which every access sees through and which touches no other tile. -/
theorem controlAndFallow : Obligations.ControlAndFallow := ⟨controlRegisters, fallowPoints⟩

end Sys2Proof.Machine

/-! ## Proofs: the watch of a measurement, the Meridian port and the sources of the root (R41, R430, R431, R434) -/

namespace Sys2Proof.Machine

/-- The watch of a known-answer measurement writes the record of that measurement and nothing else (R41). -/
theorem kaWatch_frame (s : State) : kaWatch s = { s with ka := (kaWatch s).ka } := by
  unfold kaWatch; split <;> rfl

@[simp] theorem kaWatch_clk (s : State) : (kaWatch s).clk = s.clk := by rw [kaWatch_frame]
@[simp] theorem kaWatch_tiles (s : State) : (kaWatch s).tiles = s.tiles := by rw [kaWatch_frame]
@[simp] theorem kaWatch_mem (s : State) : (kaWatch s).mem = s.mem := by rw [kaWatch_frame]
@[simp] theorem kaWatch_hall (s : State) : (kaWatch s).hall = s.hall := by rw [kaWatch_frame]

/-- A change of the port writes the port, and beside it only its event and the self-feeding of the watchdog (R431, R483). -/
theorem setPort_frame (s : State) (f : Meridian → Meridian) :
    setPort s f = { s with mer := (setPort s f).mer, events := (setPort s f).events, boot := (setPort s f).boot } := by
  unfold setPort; dsimp only; split
  · rfl
  · split <;> rfl

@[simp] theorem setPort_mer (s : State) (f : Meridian → Meridian) : (setPort s f).mer = f s.mer := by
  unfold setPort; dsimp only; split
  · rfl
  · split <;> rfl
@[simp] theorem setPort_clk (s : State) (f : Meridian → Meridian) : (setPort s f).clk = s.clk := by
  rw [setPort_frame]
@[simp] theorem setPort_tiles (s : State) (f : Meridian → Meridian) : (setPort s f).tiles = s.tiles := by
  rw [setPort_frame]
@[simp] theorem setPort_mem (s : State) (f : Meridian → Meridian) : (setPort s f).mem = s.mem := by
  rw [setPort_frame]
@[simp] theorem setPort_ctxs (s : State) (f : Meridian → Meridian) : (setPort s f).ctxs = s.ctxs := by
  rw [setPort_frame]
@[simp] theorem setPort_hall (s : State) (f : Meridian → Meridian) : (setPort s f).hall = s.hall := by
  rw [setPort_frame]

section
variable (s : State) (m1 lock ready : Bool)

@[simp] theorem setLock_change : (setLock s m1 lock ready).clk.change = s.clk.change := by cases m1 <;> rfl
@[simp] theorem setLock_source : (setLock s m1 lock ready).clk.source = s.clk.source := by cases m1 <;> rfl
@[simp] theorem setLock_coasting : (setLock s m1 lock ready).clk.coasting = s.clk.coasting := by cases m1 <;> rfl
@[simp] theorem setLock_now : now (setLock s m1 lock ready) = now s := by cases m1 <;> rfl
@[simp] theorem setLock_ready : (setLock s m1 lock ready).clk.ready m1 = ready := by cases m1 <;> rfl
@[simp] theorem setLock_ready_not : (setLock s m1 lock ready).clk.ready (!m1) = s.clk.ready (!m1) := by cases m1 <;> rfl
@[simp] theorem setLock_tiles : (setLock s m1 lock ready).tiles = s.tiles := rfl
@[simp] theorem setLock_mem : (setLock s m1 lock ready).mem = s.mem := rfl

end

/-- A source that becomes ready ends holdover (R434). -/
theorem takeReady_holdover {s : State} (m1 : Bool) (holds : s.clk.source = .holdover) (steady : s.clk.change = none) :
    takeReady s m1 = switchSource s m1 := by
  simp [takeReady, holds, steady]

/-- The source that the root follows fails: the other takes over, or the root holds its frequency from now on (R434, R444). -/
theorem sourceFails_followed {s : State} {m1 : Bool} (steady : s.clk.change = none) (follows : s.clk.source = sourceOf m1)
    (locked : s.clk.coasting = false) :
    sourceFails s m1 =
      if s.clk.ready (!m1) then switchSource s (!m1)
      else raise { s with clk := { s.clk with
        source := .holdover, heldAt := now s, holdovers := countAfter s s.clk.holdovers } } .clockHoldover
        [sourceCode (sourceOf m1)] := by
  simp [sourceFails, steady, follows, locked]

/-- The end of a holdover at its time: a switch to a source that is ready then, or a change to the coast oscillator. -/
theorem exec_holdoverExpiry_due {s : State} (ready : Option Bool) (holds : s.clk.source = .holdover)
    (steady : s.clk.change = none) (due : s.clk.heldAt + cfgField s 0x22B0 1 0 10 ≤ now s) :
    exec (.holdoverExpiry ready) s = .next (match ready with
      | some m1 => switchSource (setLock s m1 true true) m1
      | none => decideChange s .coast) := by
  change execHoldoverExpiry ready s = _
  simp only [execHoldoverExpiry, holds, steady]
  rw [if_neg (by simpa using due)]
  cases ready <;> rfl

theorem exec_holdoverExpiry_early {s : State} (ready : Option Bool)
    (early : now s < s.clk.heldAt + cfgField s 0x22B0 1 0 10) : exec (.holdoverExpiry ready) s = .next s := by
  change execHoldoverExpiry ready s = _
  exact if_pos (by simp [early])

end Sys2Proof.Machine

/-! ## Proofs: a link that goes down takes no other link up, and leaves the channels in self-refresh (R301, R435) -/

namespace Sys2Proof.Machine

/-- No link comes up, the clock tree stays as it is, and the channels stay in or out of self-refresh. -/
structure NoLinkUp (s u : State) : Prop where
  clk : u.clk = s.clk
  selfRefresh : u.mem.selfRefresh = s.mem.selfRefresh
  up : ∀ l, (u.link l).up = true → (s.link l).up = true

theorem NoLinkUp.refl (s : State) : NoLinkUp s s := ⟨rfl, rfl, fun _ h => h⟩

theorem NoLinkUp.trans {s u v : State} (h : NoLinkUp s u) (k : NoLinkUp u v) : NoLinkUp s v :=
  ⟨k.clk.trans h.clk, k.selfRefresh.trans h.selfRefresh, fun l hl => h.up l (k.up l hl)⟩

theorem NoLinkUp.of_eq {s u : State} (hc : u.clk = s.clk) (hm : u.mem.selfRefresh = s.mem.selfRefresh)
    (hl : u.hall.links = s.hall.links) : NoLinkUp s u :=
  ⟨hc, hm, fun l h => by simpa only [State.link, hl] using h⟩

/-- A fold of steps that each bring no link up brings none up. -/
theorem noLinkUp_foldl {α : Type} {f : State → α → State} (hf : ∀ s a, NoLinkUp s (f s a)) (l : List α) (s : State) :
    NoLinkUp s (l.foldl f s) :=
  List.foldlRecOn (motive := NoLinkUp s) l f (.refl s) fun u h a _ => h.trans (hf u a)

theorem State.modLink_link (s : State) (l j : Nat) (f : Link → Link) :
    (s.modLink l f).link j = if j = l then f (s.link l) else s.link j := mget_mput s.hall.links {} _ l j

/-- A link changed that does not come up by the change. -/
theorem noLinkUp_modLink (s : State) (l : Nat) {f : Link → Link} (hf : (f (s.link l)).up = true → (s.link l).up = true) :
    NoLinkUp s (s.modLink l f) := by
  refine ⟨rfl, rfl, fun j h => ?_⟩
  rw [State.modLink_link] at h
  split at h
  · subst j; exact hf h
  · exact h

theorem noLinkUp_addLinkFault (s : State) (l kind detail : Nat) : NoLinkUp s (addLinkFault s l kind detail) :=
  noLinkUp_foldl (fun s _ => .of_eq (by simp) (by simp) (by simp)) _ s

theorem noLinkUp_freeInput (s : State) (l : Nat) (p : Packet) : NoLinkUp s (freeInput s l p) := by
  unfold freeInput oweUnits
  split
  · exact noLinkUp_modLink s l fun h => h
  · exact .refl s

theorem noLinkUp_queuePacket (s : State) (w : Way) (inp : Nat) (p : Packet) : NoLinkUp s (queuePacket s w inp p) :=
  noLinkUp_modLink s w.link fun h => h

/-- A packet sent, or what happens where no path is left for it, brings no link up. -/
theorem noLinkUp_sendPacket_getD (s : State) (south : Bool) (mask : Nat) (p : Packet) {e : State} (h : NoLinkUp s e) :
    NoLinkUp s ((sendPacket s south mask p).getD e) := by
  unfold sendPacket
  cases routeFrom s south mask p none with
  | none => exact h
  | some w => exact noLinkUp_queuePacket s w ownInput p

theorem noLinkUp_pumpEntry (s : State) (x : Nat) : NoLinkUp s (pumpEntry s x) := by
  unfold pumpEntry
  split
  · exact .refl s
  · extract_lets l r
    have sent : NoLinkUp s r.1 := by
      refine List.foldlRecOn (motive := fun r : State × Nat => NoLinkUp s r.1) _ _ (.refl s) fun r h f _ => ?_
      split
      · exact h.trans (.of_eq rfl rfl rfl)
      · exact h
    split <;> exact sent.trans (.of_eq rfl rfl rfl)

theorem noLinkUp_answerEntry (s : State) (x : Nat) (t : Txn) (op : BitVec 4) (ls : List Line) :
    NoLinkUp s (answerEntry s x t op ls) := by
  have written : NoLinkUp s (putEntry s x { t with reply := some op, sent := 0, lines := ls, done := t.len / 64 }) :=
    .of_eq rfl rfl rfl
  exact written.trans (noLinkUp_pumpEntry _ x)

theorem noLinkUp_undeliverable (s : State) (south : Bool) (p : Packet) : NoLinkUp s (undeliverable s south p) := by
  unfold undeliverable
  split
  · exact .refl s
  · split
    · split
      · exact .refl s
      · split
        · exact .refl s
        · exact noLinkUp_answerEntry s _ _ _ _
    · exact noLinkUp_sendPacket_getD s south allSlots _ (.refl s)

theorem noLinkUp_sendOn (s : State) (l inp : Nat) (travel : Option (Nat × Bool)) (p : Packet) :
    NoLinkUp s (sendOn s l inp travel p) := by
  unfold sendOn
  split
  · exact noLinkUp_queuePacket s _ inp p
  · exact (noLinkUp_freeInput s inp p).trans (noLinkUp_undeliverable _ _ p)

/-- A stop order leaves the links as they are. -/
theorem stopCtx_links (s : State) (c cause : Nat) (target : Option DWord) (remap : List Nat) :
    (stopCtx s c cause target remap).hall.links = s.hall.links := by
  have begins (s : State) (x : Ctx) (cause target remap) : (beginReset s c x cause target remap).hall = s.hall := by
    simp [beginReset, clearPauseEntry]
  have merges (s : State) (x : Ctx) (cause target remap) : (mergeCause s c x cause target remap).hall = s.hall := by
    unfold mergeCause; dsimp only; split <;> (try split) <;> (try split) <;> simp
  have stops (s : State) (x : Ctx) (cause target remap) : (stopState s c x cause target remap).hall = s.hall := by
    unfold stopState; split <;> (try split) <;> simp [begins, merges]
  unfold stopCtx
  split
  · rfl
  · split
    · rw [stops]; simp [abortAdm]
    · rw [stops]

theorem noLinkUp_donorRoute (s : State) : NoLinkUp s (donorRoute s) := by
  unfold donorRoute
  extract_lets c
  split
  · exact .of_eq (by simp) (by simp) (by simp [stopCtx_links, abortAdm])
  · exact .refl s

theorem noLinkUp_leaveLink (s : State) (l : Nat) (seq : Option (BitVec 12)) : NoLinkUp s (leaveLink s l seq) := by
  unfold leaveLink requeue
  extract_lets k later qs w
  refine .trans ?_ (noLinkUp_donorRoute _)
  refine .trans ?_ (noLinkUp_foldl (fun u q => noLinkUp_sendOn u l q.inp _ q.pk) qs _)
  exact noLinkUp_modLink s l fun h => h

/-- A link that goes down is down, and no other one has come up (R301). -/
theorem noLinkUp_linkDown (s : State) (l : Nat) : NoLinkUp s (linkDown s l) ∧ ((linkDown s l).link l).up = false := by
  unfold linkDown
  split
  · extract_lets s1 s2 report
    have down : NoLinkUp s s1 ∧ (s1.link l).up = false :=
      ⟨noLinkUp_modLink s l (by simp [Link.up]), by simp [s1, State.modLink_link, Link.up]⟩
    have told : NoLinkUp s1 s2 := by
      have raised : NoLinkUp s1 (raise s1 .linkDown [l]) := .of_eq rfl rfl rfl
      refine (raised.trans (noLinkUp_addLinkFault _ l 0x33 (256 * l + 1))).trans (.of_eq (kaWatch_clk _) ?_ ?_)
      · rw [kaWatch_mem]
      · rw [kaWatch_hall]
    have left : NoLinkUp s2 (report.getD (leaveLink s2 l none)) := by
      unfold report
      cases mappedFar s2 (linkSlot l) with
      | none =>
        rw [Option.bind_none, Option.getD_none]
        exact noLinkUp_leaveLink s2 l none
      | some far =>
        rw [Option.bind_some]
        exact noLinkUp_sendPacket_getD s2 _ _ _ (noLinkUp_leaveLink s2 l none)
    refine ⟨down.1.trans (told.trans left), Bool.eq_false_iff.2 fun h => ?_⟩
    have still_up : (s1.link l).up = true := (told.trans left).up l h
    rw [down.2] at still_up
    cases still_up
  · rename_i h
    exact ⟨.refl s, by simpa using h⟩

/-- One link of a change of root frequency: down, unless it is idle or unused. -/
def downOne (s : State) (l : Nat) : State := if (s.link l).state == 0 || (s.link l).state == 4 then s else linkDown s l

theorem linksDown_eq (s : State) : linksDown s = (List.range 32).foldl downOne s := rfl

theorem noLinkUp_downOne (s : State) (l : Nat) : NoLinkUp s (downOne s l) ∧ ((downOne s l).link l).up = false := by
  unfold downOne
  split
  · rename_i h
    refine ⟨.refl s, ?_⟩
    rcases Bool.or_eq_true_iff.1 h with h | h <;> simp [Link.up, eq_of_beq h]
  · exact noLinkUp_linkDown s l

theorem noLinkUp_linksDown (s : State) : NoLinkUp s (linksDown s) :=
  noLinkUp_foldl (fun s l => (noLinkUp_downOne s l).1) _ s

/-- Each link of a list is down when all of the list have gone down. -/
theorem foldl_downOne_up (ls : List Nat) (s : State) (l : Nat) (h : l ∈ ls ∨ (s.link l).up = false) :
    ((ls.foldl downOne s).link l).up = false := by
  induction ls generalizing s with
  | nil => simpa using h
  | cons j r ih =>
    refine ih (downOne s j) ?_
    obtain ⟨keeps, down⟩ := noLinkUp_downOne s j
    rcases h with h | h
    · rcases List.mem_cons.1 h with rfl | h
      · exact Or.inr down
      · exact Or.inl h
    · exact Or.inr (Bool.eq_false_iff.2 fun up => absurd (keeps.up l up) (by simp [h]))

theorem linksDown_up (s : State) {l : Nat} (h : l < 32) : ((linksDown s).link l).up = false :=
  foldl_downOne_up _ s l (Or.inl (List.mem_range.2 h))

/-- With every link idle or unused there is nothing to take down. -/
theorem linksDown_idle {s : State} (idle : ∀ l, l < 32 → (s.link l).state = 0 ∨ (s.link l).state = 4) : linksDown s = s := by
  rw [linksDown_eq]
  refine List.foldlRecOn (motive := fun u => u = s) _ _ rfl fun u hu l hl => ?_
  subst hu
  exact if_pos (by simpa using idle l (List.mem_range.1 hl))

end Sys2Proof.Machine

/-! ## Proofs: changes of the root and of its frequency (R434, R435, R444, R499) -/

namespace Sys2Proof.Machine

/-! ### Ready sources, holdover and relock -/

theorem exec_refReady_withdrawn {s : State} {m1 : Bool} (off : laneWithdrawn s.mer m1 = true) :
    exec (.refReady m1) s = .next (setLock s m1 true false) :=
  congrArg Host.Outcome.next (if_pos off)

/-- A source that becomes ready in holdover takes the root (R434). -/
theorem exec_refReady_holdover {s : State} {m1 : Bool} (holds : s.clk.source = .holdover) (steady : s.clk.change = none)
    (lane : laneWithdrawn s.mer m1 = false) :
    exec (.refReady m1) s = .next (switchSource (setLock s m1 true true) m1) := by
  change Host.Outcome.next (if laneWithdrawn s.mer m1 = true then _ else _) = _
  rw [if_neg (by simp [lane]), takeReady_holdover m1 (by simpa using holds) (by simpa using steady)]

theorem exec_refLockLoss_active {s : State} {m1 : Bool} (on : rxActive s.mer m1 = true) :
    exec (.refLockLoss m1) s = .next (setLock s m1 false false) :=
  congrArg Host.Outcome.next (if_pos on)

theorem exec_refLockLoss_inactive {s : State} {m1 : Bool} (off : rxActive s.mer m1 = false) :
    exec (.refLockLoss m1) s = .next (sourceFails (setLock s m1 false false) m1) :=
  congrArg Host.Outcome.next (if_neg (Bool.eq_false_iff.1 off))

/-- AUTO_RELOCK is due: the first lock is made, and the source has been ready for RELOCK_MS (R434). -/
def autoRelock (s : State) (m1 : Bool) : Bool :=
  s.clk.firstLock && bitAt (cfgInForce s 0x22B0 1).toNat 31
    && (if m1 then s.clk.readyAtM1 else s.clk.readyAtM0) + 1000 * cfgField s 0x22B0 1 16 10 ≤ now s

theorem exec_relockTimerExpiry (s : State) (m1 : Bool) : exec (.relockTimerExpiry m1) s =
    if s.clk.coasting && s.clk.change.isNone && s.clk.ready m1 && !s.pow.tripHold
      && (autoRelock s m1 || (wantsLock s && lockRetryDue s)) then .next (decideChange s (sourceOf m1)) else .next s := rfl

/-! ### The stages of a change -/

/-- The state in which the links go down: the change has begun and the channels are in self-refresh. -/
def stopping (s : State) : State :=
  { s with clk := { s.clk with change := some .stopping }, mem := { s.mem with selfRefresh := true } }

theorem exec_rootChangeStart {s : State} (decided : s.clk.change = some .decided) : exec .rootChangeStart s =
    .next (setPort (linksDown (stopping s)) fun m => { m with txM0 := false, txM1 := false }) := by
  change execRootChangeStart s = _
  simp only [execRootChangeStart, decided]
  rfl

theorem exec_rootClocksStopped {s : State} (stops : s.clk.change = some .stopping) : exec .rootClocksStopped s =
    .next { s with clk := { s.clk with change := some .stopped, tilesStopped := true } } := by
  change execRootClocksStopped s = _
  simp only [execRootClocksStopped, stops]

theorem exec_rootPllLock {s : State} (stopped : s.clk.change = some .stopped) : exec .rootPllLock s =
    .next { s with clk := { s.clk with
      change := some .locked, source := s.clk.toward, coasting := s.clk.toward == .coast, tilesStopped := s.pow.loadShed
      sub := 0 } } := by
  change execRootPllLock s = _
  simp only [execRootPllLock, stopped]

/-- The first lock of the bring-up not made in time: the module coasts, and the failure has its code (R499). -/
def lockFailed (s : State) : State :=
  raise { s with
    clk := { s.clk with change := none, began := now s, source := .coast, coasting := true, tilesStopped := s.pow.loadShed }
    mem := { s.mem with selfRefresh := false }
    boot := { s.boot with failStage := 2, failCode := 0x21 } } .bringupFailed [2, 0x21]

theorem exec_rootPllLockTimeout {s : State} (stopped : s.clk.change = some .stopped) : exec .rootPllLockTimeout s =
    if s.boot.busy == some 2 && s.clk.began + 10000 ≤ now s then .next (lockFailed s) else .next s := by
  change execRootPllLockTimeout s = _
  simp only [execRootPllLockTimeout, stopped]
  rfl

/-- A change reported and its set point switched, before the port is back and what was held goes on (R435, R443). -/
def changeReported (s : State) : State :=
  reportChange { s with clk := { s.clk with change := none }, mem := { s.mem with selfRefresh := false } }

/-- A change complete, before what was held back goes on: the port is back where the change led to 7.2 GHz (R435). -/
def changeComplete (s : State) : State :=
  if (changeReported s).clk.coasting then changeReported s else restartStage (portBack (changeReported s))

/-- A change completes, and a message that waited may go on (R435). -/
theorem exec_rootChangeComplete {s : State} (locked : s.clk.change = some .locked) :
    ∃ goesOn : Bool, (goesOn = true → (changeComplete s).mer.blocking.isSome = true) ∧
      exec .rootChangeComplete s = .next (if goesOn then releaseHeld (changeComplete s) else changeComplete s) := by
  change ∃ goesOn : Bool, _ ∧ execRootChangeComplete s = _
  unfold execRootChangeComplete
  rw [locked]
  refine ⟨_, fun h => ?_, rfl⟩
  simp only [Bool.and_eq_true] at h
  obtain ⟨⟨⟨blocked, -⟩, -⟩, -⟩ := h
  exact blocked

/-- The report of a change raises its event and counts an entry of coasting, and nothing else. -/
theorem reportChange_frame (s : State) : reportChange s = { s with
    clk := { s.clk with coastEntries :=
      if s.clk.firstLock = true ∧ s.clk.coasting = true then satAdd s.clk.coastEntries 1 65535 else s.clk.coastEntries }
    events := (reportChange s).events } := by
  unfold reportChange
  cases first : s.clk.firstLock
  · rfl
  · cases coast : s.clk.coasting
    · rw [if_neg (by simp)]; rfl
    · rfl

/-- The port is back with both transmitters, and its lanes that are in lock receive (R435). -/
theorem portBack_enabled {s : State} (on : s.mer.enabled = true) : portBack s =
    setPort s fun m => { m with rxM0 := s.clk.lockM0, rxM1 := s.clk.lockM1, txM0 := true, txM1 := true } := if_pos on

/-- The port that is back writes the port, and beside it only its event and the bring-up's record of the watchdog. -/
theorem portBack_frame (s : State) : portBack s =
    { s with mer := (portBack s).mer, events := (portBack s).events, boot := (portBack s).boot } := by
  unfold portBack
  split
  · exact setPort_frame s _
  · rfl

theorem setPort_busy (s : State) (f : Meridian → Meridian) : (setPort s f).boot.busy = s.boot.busy := by
  unfold setPort; dsimp only; split
  · rfl
  · split <;> rfl

theorem portBack_busy (s : State) : (portBack s).boot.busy = s.boot.busy := by
  unfold portBack
  split
  · exact setPort_busy s _
  · rfl

/-- With no stage in progress none starts again. -/
theorem restartStage_idle {s : State} (idle : s.boot.busy = none) : restartStage s = s := by
  simp [restartStage, idle]

theorem changeReported_frame (s : State) : changeReported s = { s with
    clk := { s.clk with
      change := none
      coastEntries :=
        if s.clk.firstLock = true ∧ s.clk.coasting = true then satAdd s.clk.coastEntries 1 65535 else s.clk.coastEntries }
    mem := { s.mem with selfRefresh := false }
    events := (changeReported s).events } := by
  unfold changeReported; rw [reportChange_frame]

/-- A change to the coast oscillator leaves the port as it is. -/
theorem changeComplete_coasting {s : State} (coast : s.clk.coasting = true) : changeComplete s = changeReported s :=
  if_pos (by rw [changeReported_frame]; exact coast)

/-- A change to 7.2 GHz with no stage in progress brings the port back (R435). -/
theorem changeComplete_locked {s : State} (locked : s.clk.coasting = false) (idle : s.boot.busy = none) :
    changeComplete s = portBack (changeReported s) := by
  have root : ¬(changeReported s).clk.coasting = true := by rw [changeReported_frame]; simp [locked]
  have none_busy : (portBack (changeReported s)).boot.busy = none := by
    rw [portBack_busy, changeReported_frame]; exact idle
  rw [changeComplete, if_neg root, restartStage_idle none_busy]

/-- What a completed change leaves of the state where no stage waits for it. -/
theorem changeComplete_frame {s : State} (h : s.clk.coasting = true ∨ s.boot.busy = none) :
    (changeComplete s).clk = (changeReported s).clk ∧ (changeComplete s).mem = (changeReported s).mem ∧
      (changeComplete s).tiles = s.tiles ∧ (changeComplete s).ctxs = s.ctxs ∧
      (changeComplete s).mer.blocking = s.mer.blocking := by
  have reported : (changeReported s).tiles = s.tiles ∧ (changeReported s).ctxs = s.ctxs ∧ (changeReported s).mer = s.mer := by
    rw [changeReported_frame]; exact ⟨rfl, rfl, rfl⟩
  obtain ⟨tiles, ctxs, mer⟩ := reported
  cases coast : s.clk.coasting with
  | true => rw [changeComplete_coasting coast]; exact ⟨rfl, rfl, tiles, ctxs, by rw [mer]⟩
  | false =>
    have idle : s.boot.busy = none := by simpa [coast] using h
    have blocking : (portBack (changeReported s)).mer.blocking = (changeReported s).mer.blocking := by
      unfold portBack; split <;> simp
    rw [changeComplete_locked coast idle, blocking, mer, portBack_frame]
    exact ⟨rfl, rfl, tiles, ctxs, rfl⟩

/-! ### The statement -/

theorem rootChanges : Claims.RootChanges := by
  intro s m1
  refine ⟨fun holds steady => ⟨fun lane => ?_, fun early r => exec_holdoverExpiry_early r early, fun due => ?_⟩,
    exec_refReady_withdrawn, exec_refLockLoss_active, fun off steady follows locked => ?_,
    fun coast steady ready free first auto due => ?_, fun blocked => ?_, fun decided => ?_, exec_rootClocksStopped,
    fun stopped => ⟨exec_rootPllLock stopped, fun busy due => ?_, fun early => ?_⟩, fun locked idle => ?_⟩
  · exact ⟨_, exec_refReady_holdover holds steady lane, rfl, by simpa [switchSource] using steady,
      setLock_ready s m1 true true, rfl, rfl⟩
  · refine ⟨⟨_, exec_holdoverExpiry_due none holds steady due, kaWatch_clk _, kaWatch_tiles _, kaWatch_mem _⟩,
      _, exec_holdoverExpiry_due (some m1) holds steady due, rfl, ?_, rfl, rfl⟩
    simpa [switchSource] using steady
  · refine ⟨_, exec_refLockLoss_inactive off, ?_⟩
    rw [sourceFails_followed (by simpa using steady) (by simpa using follows) (by simpa using locked)]
    rw [setLock_ready_not, setLock_now]
    cases other : s.clk.ready (!m1)
    · exact ⟨setLock_ready s m1 false false, by simpa using steady, rfl, rfl, rfl, fun _ => rfl⟩
    · exact ⟨setLock_ready s m1 false false, by simpa [switchSource] using steady, rfl, rfl, rfl, fun h => absurd h (by simp)⟩
  · refine ⟨_, (exec_relockTimerExpiry s m1).trans (if_pos ?_), kaWatch_clk _, kaWatch_tiles _, kaWatch_mem _⟩
    simp [autoRelock, coast, steady, ready, free, first, auto, due]
  · rw [exec_relockTimerExpiry, if_neg]
    rcases blocked with h | h | h | ⟨hw, hn⟩
    · simp [h]
    · simp [h]
    · simp [h]
    · simp [autoRelock, hw, Nat.not_le.2 hn]
  · refine ⟨_, exec_rootChangeStart decided, ?_⟩
    have kept := noLinkUp_linksDown (stopping s)
    refine ⟨?_, ?_, fun l hl => ?_, ?_, ?_, fun idle => ?_⟩
    · rw [setPort_clk, kept.clk]; rfl
    · rw [setPort_mem, kept.selfRefresh]; rfl
    · simpa only [State.link, setPort_hall] using linksDown_up (stopping s) hl
    · rw [setPort_mer]
    · rw [setPort_mer]
    · rw [setPort_mem, setPort_tiles, setPort_ctxs, setPort_hall, linksDown_idle (s := stopping s) idle]
      exact ⟨rfl, rfl, rfl, rfl⟩
  · exact ⟨_, (exec_rootPllLockTimeout stopped).trans (if_pos (by simp [busy, due])), rfl, rfl, rfl, rfl, rfl, rfl⟩
  · refine (exec_rootPllLockTimeout stopped).trans (if_neg ?_)
    rcases early with h | h
    · simp [h]
    · simp [Nat.not_le.2 h]
  · obtain ⟨goesOn, waits, run⟩ := exec_rootChangeComplete locked
    obtain ⟨clk, mem, tiles, ctxs, blocking⟩ := changeComplete_frame idle
    refine ⟨_, changeComplete s, run, ?_, fun free => ?_, ?_, ?_, tiles, ctxs, fun first coast => ?_, fun tuned on => ?_⟩
    · cases goesOn
      · exact Or.inl rfl
      · exact Or.inr rfl
    · refine if_neg fun h => ?_
      have := waits h
      simp [blocking, free] at this
    · rw [clk, changeReported_frame]
    · rw [mem, changeReported_frame]
    · rw [clk, changeReported_frame]; exact if_pos ⟨first, coast⟩
    · have idle : s.boot.busy = none := by simpa [tuned] using idle
      have mer : (changeReported s).mer = s.mer := by rw [changeReported_frame]
      rw [changeComplete_locked tuned idle, portBack_enabled (by rw [mer]; exact on), setPort_mer, changeReported_frame]
      exact ⟨rfl, rfl, rfl, rfl⟩

end Sys2Proof.Machine

/-! ## Proofs: the root clock and the throttling of quarters (R31, R46, R257, R432, R436, R437) -/

namespace Sys2Proof.Machine

/-! ### One root cycle -/

theorem mfind_map (m : AMap Ctx) (f : Nat → Ctx → Ctx) (c : Nat) :
    mfind (m.map fun e => (e.1, f e.1 e.2)) c = (mfind m c).map (f c) := by
  induction m with
  | nil => rfl
  | cons e r ih =>
    simp only [List.map_cons, mfind]
    split
    · subst c; rfl
    · exact ih

theorem tick_lit {s : State} (lit : s.pow.dark = false) : tick s = { s with
    ctxs := s.ctxs.map fun e => (e.1, tickCtx s e.1 e.2)
    clk := { s.clk with
      root := s.clk.root + 1
      sub := if cyclesPerUs s.clk ≤ s.clk.sub + 1 then 0 else s.clk.sub + 1
      timeUs := if cyclesPerUs s.clk ≤ s.clk.sub + 1 then s.clk.timeUs + 1 else s.clk.timeUs
      qs := tickQuarters s.clk } } :=
  if_neg (by simp [lit])

/-- A root cycle moves the stall window of a context and nothing else of it (R372). -/
theorem tickCtx_frame (s : State) (c : Nat) (x : Ctx) : tickCtx s c x = { x with rec_ := (tickCtx s c x).rec_ } := by
  unfold tickCtx; split <;> rfl

/-- Every quarter's divider moves by one root cycle (R31, R46). -/
theorem mget_tickQuarters {c : Clocks} (runs : c.tilesStopped = false) (q : Quarter) :
    mget (tickQuarters c) {} (quarterNum q) = (mget c.qs {} (quarterNum q)).tick := by
  rw [tickQuarters, if_neg (by simp [runs])]
  cases q <;> simp [List.range_succ, mmod, mget_mput, quarterNum]

/-! ### The ladder -/

/-- The number of a step of the ladder from its k (R436). -/
theorem ladderStep_ladderK {i : Nat} (h : i < 13) : ladderStep (ladderK i) = i := by decide +revert

theorem State.modQuarter_quarter (s : State) (q : Nat) (f : Throttle → Throttle) :
    (s.modQuarter q f).quarter q = f (s.quarter q) := mget_mput_self s.clk.qs {} _ q

theorem kaWatch_quarter (s : State) (q : Nat) : (kaWatch s).quarter q = s.quarter q := by
  rw [State.quarter, kaWatch_clk]; rfl

section
variable {s : State} {q : Quarter} (may : mayThrottle s = true)
include may

/-- A quarter whose target is a slower clock, with no context in the way of it, slows by one step at most every 2 µs (R437). -/
theorem exec_throttleStep_slower (below : (s.quarter (quarterNum q)).k < throttleTarget s (quarterNum q))
    (free : (s.quarter (quarterNum q)).k ≠ 8 ∨ quarterUsed s (quarterNum q) = false) :
    exec (.throttleStep q) s = if stepDue s (quarterNum q) 2 then
      .next (kaWatch (s.modQuarter (quarterNum q) fun t => stepTo t (ladderStep (s.quarter (quarterNum q)).k + 1) (now s)))
    else .next s := by
  change execThrottleStep q s = _
  have at8 : (decide ((s.quarter (quarterNum q)).k = 8) && quarterUsed s (quarterNum q)) = false := by
    rcases free with h | h <;> simp [h]
  simp only [execThrottleStep, may, below, at8]
  cases stepDue s (quarterNum q) 2 <;> rfl

/-- At k = 8 with a context in the quarter the step waits for its boundary (R257). -/
theorem exec_throttleStep_deep (at8 : (s.quarter (quarterNum q)).k = 8) (below : 8 < throttleTarget s (quarterNum q))
    (used : quarterUsed s (quarterNum q) = true) :
    exec (.throttleStep q) s = .next (s.modQuarter (quarterNum q) fun t => { t with deep := true }) := by
  change execThrottleStep q s = _
  simp only [execThrottleStep, may, at8, below, used]
  rfl

/-- A quarter whose target is a faster clock speeds up by one step at most every 20 µs (R437). -/
theorem exec_throttleStep_faster (above : throttleTarget s (quarterNum q) < (s.quarter (quarterNum q)).k) :
    exec (.throttleStep q) s = if stepDue s (quarterNum q) 20 then
      .next (s.modQuarter (quarterNum q) fun t => stepTo t (ladderStep (s.quarter (quarterNum q)).k - 1) (now s))
    else .next s := by
  change execThrottleStep q s = _
  simp only [execThrottleStep, may, above, Nat.not_lt.2 above.le]
  rfl

/-- A target above 8 takes effect at the boundary of every context in the quarter (R257). -/
theorem exec_deepThrottleApply (deep : (s.quarter (quarterNum q)).deep = true)
    (below : 8 < throttleTarget s (quarterNum q)) (due : stepDue s (quarterNum q) 2 = true)
    (boundary : deepPoint s (quarterNum q) = true) :
    exec (.deepThrottleApply q) s =
      .next (kaWatch (s.modQuarter (quarterNum q) fun t => stepTo t (ladderStep (s.quarter (quarterNum q)).k + 1) (now s))) := by
  change execDeepThrottleApply q s = _
  simp only [execDeepThrottleApply, may, deep, below, due, boundary]
  rfl

end

theorem exec_deepThrottleApply_waits {s : State} {q : Quarter} (inside : deepPoint s (quarterNum q) = false) :
    exec (.deepThrottleApply q) s = .next s :=
  if_pos (by simp [inside])

theorem clocksAndThrottle : Claims.ClocksAndThrottle := by
  rintro s q t rfl
  refine ⟨fun idle => ?_, fun lit => ?_, fun may => ⟨fun i hi at_ below free => ?_, fun i hi at_ above => ?_,
    exec_throttleStep_deep may, fun at8 deep below due boundary => ?_, exec_deepThrottleApply_waits⟩⟩
  · simp only [step, idle]; rfl
  · rw [tick_lit lit]
    refine ⟨rfl, rfl, rfl, fun c x live => ⟨tickCtx s c x, ?_, ?_⟩, mget_tickQuarters (q := q)⟩
    · exact (mfind_map s.ctxs (tickCtx s) c).trans (congrArg (Option.map (tickCtx s c)) live)
    · rw [tickCtx_frame]; exact ⟨rfl, rfl, rfl⟩
  · rw [exec_throttleStep_slower may below free]
    refine ⟨fun due => ⟨_, if_pos due, ?_, kaWatch_tiles _, kaWatch_mem _⟩, fun wait => if_neg (by simp [wait])⟩
    rw [kaWatch_quarter, State.modQuarter_quarter, at_, ladderStep_ladderK (by omega)]
    rfl
  · rw [exec_throttleStep_faster may above]
    refine ⟨fun due => ⟨_, if_pos due, ?_, rfl, rfl⟩, fun wait => if_neg (by simp [wait])⟩
    rw [State.modQuarter_quarter, at_, ladderStep_ladderK (by omega)]
    rfl
  · refine ⟨_, exec_deepThrottleApply may deep below due boundary, ?_, ?_, kaWatch_tiles _, kaWatch_mem _⟩
    · rw [kaWatch_quarter, State.modQuarter_quarter, at8]; rfl
    · rw [kaWatch_quarter, State.modQuarter_quarter]; rfl

/-- Settles O51: the stages of a root change by one equation for each command, the links down because no step of the way a
down link's packets take brings one up, and a quarter's divider by the ladder's own numbering. -/
theorem rootsAndClocks : Obligations.RootsAndClocks := ⟨rootChanges, clocksAndThrottle⟩

end Sys2Proof.Machine

/-! ## Proofs: a hashed line changes its context's focus sums, not its tile alone (R403, R407) -/

namespace Sys2Proof.Machine

/-- A context of the first plot that declares no tensor, so that its lines count under 0xFFFFFFFF, which the focus names. -/
def focusCtx : Ctx :=
  { cdef :=
      { px0 := 0, px1 := 0, py0 := 0, py1 := 0, ranges := [(0x1000000, 0x100000)], share := 4, verBase := 0x800000, verW := 8192
        slots := 2, link := 0, tallyBase := 0x900000, tallySlots := 2, seed := 7, firstStep := 5, imgBase := 0x1000000
        imgLen := 4096, imgDigest := 0, sections := 1, spillBase := 0, spillSize := 0, scaleBase := 0, admissible := false
        cluster := false, tensors := [], colls := [], reds := [] }
    run := { focus := 0x80000000FFFFFFFF } }

/-- A captured line of one set bit. -/
def focusLine : CapLine := { op := 1, tensor := 2, pos := 0, norm := 0, binAddr := 0, data := 1 }

/-- That context with the line in the capture lane of its north-west tile. -/
def focusState : State :=
  { State.reset with ctxs := [(0, focusCtx)], tiles := [(0, { bin := { capture := [focusLine] } })] }

/-- The model adds the hash of the line, which is not zero, to the sum of its block (R407). -/
theorem exec_captureLineDigest_focusState : ∃ u, exec (.captureLineDigest ⟨0, 0⟩) focusState = .next u ∧
    ((u.ctx 0).map fun y => mget y.tally.focus 0 0) = some (lineHash 0 2 1) ∧ lineHash 0 2 1 ≠ 0 :=
  ⟨_, rfl, by decide +kernel, by decide +kernel⟩

/-- Refutes O31: the clause of the digest engine asks that nothing of the machine but the tile differs, and the hash of a line
whose tensor the focus names is added to the focus sums of the context, as that clause itself says. -/
theorem not_stepBoundary : ¬ Obligations.StepBoundary := by
  rintro ⟨-, -, digests⟩
  obtain ⟨v, ran, sum, nonzero⟩ := exec_captureLineDigest_focusState
  have inside : InCtx focusState ⟨0, 0⟩ 0 focusCtx := by decide +kernel
  obtain ⟨hashes, -⟩ := digests focusState ⟨0, 0⟩ 0 focusCtx _ inside rfl rfl
  obtain ⟨u, y, run, -, -, only, -⟩ := hashes focusLine [] _ _ rfl rfl rfl
  obtain rfl : u = v := Host.Outcome.next.inj (run.symm.trans ran)
  have same : u.ctx 0 = focusState.ctx 0 := by rw [only]; rfl
  rw [same] at sum
  exact nonzero (Option.some.inj sum).symm

end Sys2Proof.Machine

/-! ## Proofs: a write that the port hears, and what its entry makes of it (R424 to R426, R447, R448) -/

namespace Sys2Proof.Machine

theorem toLE_length (n v : Nat) : (toLE n v).length = n := by
  induction n generalizing v with
  | zero => rfl
  | succ n ih => simp [toLE, ih]

/-- A number read back from its bytes. -/
theorem leNat_toLE (n v : Nat) : leNat (toLE n v) = v % 256 ^ n := by
  induction n generalizing v with
  | zero => simp [toLE, leNat, Nat.mod_one]
  | succ n ih =>
    rw [toLE, leNat, ih, BitVec.toNat_ofNat, Nat.pow_succ' (m := 256), Nat.mod_mul]

/-- The state in which a word written takes effect: its MSG_SEQ counted, its units of the buffer returned (R423, R426). -/
def heardWord (s : State) : State := returnUnits (nextSeq s) (.write 0 0 0 [0] [])

@[simp] theorem heardWord_tiles (s : State) : (heardWord s).tiles = s.tiles := by simp only [heardWord, returnUnits, nextSeq]
@[simp] theorem heardWord_mem (s : State) : (heardWord s).mem = s.mem := by simp only [heardWord, returnUnits, nextSeq]

/-- A message that the port hears takes effect (R426). -/
theorem merTake_heard {s : State} {m : MsgHdr} (msg : Msg) (heard : Heard s m) :
    merTake m msg s = .next (runMsg (nextSeq s) m msg) := by
  obtain ⟨up, seq, -, blocking, held⟩ := heard
  have inOrder : inSeq s m = true := by simp [inSeq, seq]
  have free : holding (nextSeq s) = false := by simp [holding, nextSeq, blocking, held]
  simp [merTake, up, inOrder, free]

/-- A write that the port hears runs on the state with its units returned. -/
theorem merTake_write {s : State} {m : MsgHdr} (heard : Heard s m) (idx sub off : Nat) (data : List Byte) (reds : Reds) :
    merTake m (.write idx sub off data reds) s = .next (runWrite (returnUnits (nextSeq s) (.write idx sub off data reds)) m
      (.write idx sub off data reds) idx sub off data reds) := by
  rw [merTake_heard _ heard]
  obtain ⟨-, -, formed, -, -⟩ := heard
  rw [runMsg, if_neg (by rw [formed]; decide)]

/-- A word of at most 16 bytes takes as many units of the buffer as any other. -/
theorem returnUnits_word (s : State) (idx sub : Nat) {n : Nat} (v : Nat) (pos : 0 < n) (small : n ≤ 16) :
    returnUnits s (.write idx sub 0 (toLE n v) []) = returnUnits s (.write 0 0 0 [0] []) := by
  have units : msgUnits (.write idx sub 0 (toLE n v) []) = msgUnits (.write 0 0 0 [0] []) := by
    simp only [msgUnits, toLE_length, List.length_singleton]; omega
  rw [returnUnits, units]; rfl

section
variable {s u : State} {m : MsgHdr} {msg : Msg} {idx sub off : Nat} {data : List Byte} {reds : Reds}

theorem runWrite_done (done : writeEntry s m idx sub off data reds = .done u) :
    runWrite s m msg idx sub off data reds = accepted u m msg := by
  simp only [runWrite, done]

theorem runWrite_refused {st detail : Nat} (refused : writeEntry s m idx sub off data reds = .refused u st detail) :
    runWrite s m msg idx sub off data reds = refusedMsg u m msg st detail := by
  simp only [runWrite, refused]

/-- A write that restarts the module is answered first (R500). -/
theorem runWrite_resets {kind : Nat} {clear : Bool} (resets : writeEntry s m idx sub off data reds = .resets u kind clear) :
    runWrite s m msg idx sub off data reds = moduleReset (accepted u m msg) kind clear := by
  simp only [runWrite, resets]

end

section
variable {s u : State} {m : MsgHdr} {idx sub n v : Nat} (heard : Heard s m) (pos : 0 < n) (small : n ≤ 16)
include heard pos small

/-- A word heard, whose entry takes it, is answered with success (R425). -/
theorem writeWord_done (done : writeEntry (heardWord s) m idx sub 0 (toLE n v) [] = .done u) :
    writeWord m idx sub n v [] s = .next (answered u m idx sub) := by
  rw [writeWord, merTake_write heard, returnUnits_word _ idx sub v pos small]
  exact congrArg Host.Outcome.next (runWrite_done done)

/-- A word heard, which its entry refuses, is answered with the status (R425, R449). -/
theorem writeWord_refused {st detail : Nat} (refused : writeEntry (heardWord s) m idx sub 0 (toLE n v) [] = .refused u st detail) :
    writeWord m idx sub n v [] s = .next (refusedMsg u m (.write idx sub 0 [] []) st detail) := by
  rw [writeWord, merTake_write heard, returnUnits_word _ idx sub v pos small]
  exact congrArg Host.Outcome.next (runWrite_refused refused)

end

/-- Out of ROM recovery the control role may write an entry that it has the right to write. -/
theorem writeRefused_none {s : State} {idx sub : Nat} (serves : inRecovery s = false)
    (right : (odIndexKnown idx && sub ≤ odMaxSub idx && (writeRight idx sub 0).isNone) = true) :
    writeRefused s 0 idx sub = none := by
  simp only [Bool.and_eq_true, decide_eq_true_eq, Option.isNone_iff_eq_none] at right
  obtain ⟨⟨known, inRange⟩, right⟩ := right
  simp [writeRefused, locate, known, serves, Nat.not_lt.2 inRange, right]

/-- A word written whole to an entry takes its effect where every check of the entry passes (R448). -/
theorem writeEntry_word {s : State} {m : MsgHdr} {idx sub v : Nat} {e : OdEnt} (allowed : writeRefused s 0 idx sub = none)
    (row : odFind idx sub = some e) (sized : e.size ≠ 0) (atOnce : e.acc ≠ .rws) (passes : wordRefused e (toLE e.size v) = none)
    (fits : v < 256 ^ e.size) : writeEntry s m idx sub 0 (toLE e.size v) [] = writeEffect s m idx sub v [] := by
  simp only [writeEntry, allowed, row, writeChecked, sized, passes, atOnce, leNat_toLE, Nat.mod_eq_of_lt fits]
  rfl

theorem fieldOf_ofNat {v : Nat} (fits : v < 2 ^ 64) (lo w : Nat) : fieldOf (BitVec.ofNat 64 v) lo w = bits v lo w := by
  rw [fieldOf, BitVec.toNat_ofNat, Nat.mod_eq_of_lt fits]; rfl

/-- A word has a permitted encoding of a field, within the range stated for it (R19, R448). -/
def FieldChk.passes (f : FieldChk) (v : Nat) : Prop :=
  (f.allow = [] ∨ ∃ p ∈ f.allow, p.1 ≤ bits v f.lo f.width ∧ bits v f.lo f.width ≤ p.2) ∧
    ∀ r, f.range = some r → r.1 ≤ bits v f.lo f.width ∧ bits v f.lo f.width ≤ r.2

/-- A word of the entry's length whose every field passes is not refused (R446, R448). -/
theorem wordRefused_none {e : OdEnt} {v : Nat} (small : e.size ≤ 8) (fits : v < 256 ^ e.size)
    (passes : ∀ f ∈ e.fields, f.passes v) : wordRefused e (toLE e.size v) = none := by
  have word : leNat (toLE e.size v) = v := by rw [leNat_toLE, Nat.mod_eq_of_lt fits]
  have fits64 : v < 2 ^ 64 := fits.trans_le (Nat.pow_le_pow_right (show 0 < 256 by decide) small)
  have unreserved : badReserved e (BitVec.ofNat 64 v) = none := by
    simp only [badReserved, Option.map_eq_none_iff, List.find?_eq_none, fieldOf_ofNat fits64]
    intro f hf
    rcases (passes f hf).1 with h | ⟨p, hp, lo, hi⟩
    · simp [h]
    · have : (f.allow.any fun p => p.1 ≤ bits v f.lo f.width && bits v f.lo f.width ≤ p.2) = true :=
        List.any_eq_true.2 ⟨p, hp, by simp [lo, hi]⟩
      simp [this]
  have inRange : badRange e (BitVec.ofNat 64 v) = none := by
    simp only [badRange, Option.map_eq_none_iff, List.find?_eq_none, fieldOf_ofNat fits64]
    intro f hf
    cases range : f.range with
    | none => simp
    | some r => simpa using (passes f hf).2 r range
  simp [wordRefused, toLE_length, word, unreserved, inRange]

/-! ### FW_CONTROL and KA_MEASURE (R488, R497) -/

/-- The row of FW_CONTROL. -/
def fwControlRow : OdEnt :=
  { idx := 0x6120, lo := 1, hi := 1, size := 8, acc := .wo, rd := 0, wr := rCS
    fields := [rsv 42 6, enc 58 2 [(0, 2)], enc 60 4 [(1, 3)]] }

theorem odFind_fwControl : odFind 0x6120 1 = some fwControlRow := by decide +kernel

/-- The row of KA_MEASURE. -/
def kaMeasureRow : OdEnt :=
  { idx := 0x6111, lo := 1, hi := 1, size := 4, acc := .wo, rd := 0, wr := rCS
    fields := [rsv 0 24, rng 24 4 0 5, enc 28 4 [(1, 2)]] }

theorem odFind_kaMeasure : odFind 0x6111 1 = some kaMeasureRow := by decide +kernel

/-- A word of FW_CONTROL without a reserved bit or encoding has its effect (R448, R488). -/
theorem writeEntry_fwControl {s : State} {m : MsgHdr} {v : Nat} (serves : inRecovery s = false) (fits : v < 2 ^ 64)
    (reserved : bits v 42 6 = 0) (region : bits v 58 2 < 3) (op : 1 ≤ bits v 60 4 ∧ bits v 60 4 ≤ 3) :
    writeEntry s m 0x6120 1 0 (toLE 8 v) [] = writeFwControl s v := by
  refine writeEntry_word (writeRefused_none serves (by decide +kernel)) odFind_fwControl (by decide) (by decide)
    (wordRefused_none (e := fwControlRow) (by decide) fits ?_) fits
  simp [fwControlRow, FieldChk.passes, rsv, enc, reserved, Nat.le_of_lt_succ region, op]

/-- A word of KA_MEASURE without a reserved bit or encoding, for one of the workloads, has its effect (R448, R497). -/
theorem writeEntry_kaMeasure {s : State} {m : MsgHdr} {v : Nat} (serves : inRecovery s = false) (fits : v < 2 ^ 32)
    (reserved : bits v 0 24 = 0) (workload : bits v 24 4 < 6) (op : 1 ≤ bits v 28 4 ∧ bits v 28 4 ≤ 2) :
    writeEntry s m 0x6111 1 0 (toLE 4 v) [] = writeKaMeasure s v := by
  refine writeEntry_word (writeRefused_none serves (by decide +kernel)) odFind_kaMeasure (by decide) (by decide)
    (wordRefused_none (e := kaMeasureRow) (by decide) fits ?_) fits
  simp [kaMeasureRow, FieldChk.passes, rsv, rng, enc, reserved, Nat.le_of_lt_succ workload, op]

end Sys2Proof.Machine

/-! ## Proofs: firmware slots and their directory (R486, R488, R490, R500) -/

namespace Sys2Proof.Machine

/-! ### The directory -/

/-- A slot's state is the one set, where the directory holds what setting it gives (R486). -/
theorem slotState_setSlot {u : State} {f : Firmware} {region slot st : Nat} (code : st < 4)
    (a : u.fw.stA = (f.setSlot region slot st).stA) (b : u.fw.stB = (f.setSlot region slot st).stB) :
    slotState u region slot = st := by
  have bits : (BitVec.ofNat 2 st).toNat = st := by rw [BitVec.toNat_ofNat, Nat.mod_eq_of_lt code]
  unfold slotState
  by_cases h : slot = 0
  · rw [if_pos h, a, Firmware.setSlot, if_pos h, mget_mset_self, bits]
  · rw [if_neg h, b, Firmware.setSlot, if_neg h, mget_mset_self, bits]

/-- The preferred slot is the one set. -/
theorem slotPref_setPref {u : State} {f : Firmware} {region slot : Nat} (isSlot : slot < 2)
    (pref : u.fw.pref = (f.setPref region slot).pref) : slotPref u region = slot := by
  rw [slotPref, pref, Firmware.setPref, mget_mset_self, BitVec.toNat_ofNat, Nat.mod_eq_of_lt isSlot]

theorem Firmware.setSlot_trialBoots (f : Firmware) (region slot st : Nat) :
    (f.setSlot region slot st).trialBoots = f.trialBoots := by
  unfold Firmware.setSlot; split <;> rfl

/-! ### PROGRAM (R490) -/

/-- A PROGRAM that passes its checks empties the idle slot and takes its source. -/
theorem writeProgram_done {s : State} {w : Nat} (aligned : bits w 0 42 % 65536 = 0)
    (inMemory : bits w 0 42 + 65536 * bits w 48 10 ≤ memCap s) (some_ : 0 < bits w 48 10)
    (fits : bits w 48 10 ≤ slotUnits (bits w 58 2)) (stage : 3 ≤ s.boot.stage) (idle : s.fw.progState = 0) :
    ∃ u, writeProgram s w = .done u ∧ u.fw.progState = 1 ∧ u.fw.progRegion.toNat = bits w 58 2 ∧
      u.fw.progSrc.toNat = bits w 0 42 ∧ slotState u (bits w 58 2) (idleSlot s (bits w 58 2)) = 0 ∧
      u.tiles = s.tiles ∧ u.mem = s.mem := by
  unfold writeProgram
  extract_lets region units src slot get bad parsed
  rw [if_neg (by simp [src, aligned, Nat.not_lt.2 inMemory, units]), if_neg (by simp [units, region]; omega),
    if_neg (by simp [idle]; omega)]
  refine ⟨_, rfl, rfl, ?_, ?_, slotState_setSlot (f := s.fw) (by decide) rfl rfl, rfl, rfl⟩
  · exact Nat.mod_eq_of_lt (Nat.mod_lt _ (by decide))
  · exact Nat.mod_eq_of_lt (Nat.mod_lt _ (by decide))

/-- The end of a PROGRAM with its result (R490). -/
def programEnds (s : State) (region slot res : Nat) : State :=
  raise { s with fw := { s.fw with progState := 0, progResult := BitVec.ofNat 8 res, progImages := none } } .fwProgramDone
    [region, slot, res]

/-- The directory names the new images of a slot that has verified, and prefers it: a trial slot of the firmware (R486, R490). -/
def programmed (s : State) (region slot : Nat) (l : AMap Image) : State :=
  dirWrite s fun f => { (((f.setImages region slot l).setSlot region slot (if region = 0 then 2 else 1)).setPref region slot) with
    trialBoots := if region = 0 then 0 else f.trialBoots }

theorem exec_fwProgramComplete_written {s : State} (programming : s.fw.progState = 1) :
    exec (.fwProgramComplete none) s = .next { s with fw := { s.fw with progState := 2 } } :=
  congrArg Host.Outcome.next (if_pos (by simp [programming]))

theorem exec_fwProgramComplete_invalid {s : State} (ok : Bool) (programming : s.fw.progState ≠ 0) (bad : s.fw.progImages = none) :
    exec (.fwProgramComplete (some ok)) s =
      .next (programEnds s s.fw.progRegion.toNat s.fw.progSlot.toNat (if ok then 0x11 else 0x12)) := by
  change execFwProgramComplete (some ok) s = _
  simp only [execFwProgramComplete, beq_eq_false_iff_ne.2 programming, bad]
  rfl

theorem exec_fwProgramComplete_verified {s : State} {l : AMap Image} (programming : s.fw.progState ≠ 0)
    (images : s.fw.progImages = some l) : exec (.fwProgramComplete (some true)) s =
      .next (programEnds (programmed s s.fw.progRegion.toNat s.fw.progSlot.toNat l) s.fw.progRegion.toNat s.fw.progSlot.toNat 0) := by
  change execFwProgramComplete (some true) s = _
  simp only [execFwProgramComplete, beq_eq_false_iff_ne.2 programming, images]
  by_cases steward : s.fw.progRegion.toNat = 0
  · simp only [programmed, dirWrite, steward]; rfl
  · simp only [programmed, dirWrite, steward, if_false, Firmware.setPref, Firmware.setSlot_trialBoots]; rfl

theorem exec_fwProgramComplete_failed {s : State} {l : AMap Image} (programming : s.fw.progState ≠ 0)
    (images : s.fw.progImages = some l) : exec (.fwProgramComplete (some false)) s =
      .next (programEnds s s.fw.progRegion.toNat s.fw.progSlot.toNat 0x12) := by
  change execFwProgramComplete (some false) s = _
  simp only [execFwProgramComplete, beq_eq_false_iff_ne.2 programming, images]
  rfl

/-- A verified slot is valid, or on trial for the firmware, and preferred (R488, R490). -/
theorem programmed_slot (s : State) (region : BitVec 2) (slot : BitVec 1) (l : AMap Image) :
    slotState (programmed s region.toNat slot.toNat l) region.toNat slot.toNat = (if region = 0 then 2 else 1) ∧
      slotPref (programmed s region.toNat slot.toNat l) region.toNat = slot.toNat ∧
      (region = 0 → (programmed s region.toNat slot.toNat l).fw.trialBoots = 0) := by
  have zero : region.toNat = 0 ↔ region = 0 := by rw [← BitVec.toNat_inj]; rfl
  refine ⟨?_, slotPref_setPref (f := (s.fw.setImages region.toNat slot.toNat l).setSlot region.toNat slot.toNat _) slot.isLt rfl,
    fun firmware => if_pos (zero.2 firmware)⟩
  have set := slotState_setSlot (u := programmed s region.toNat slot.toNat l) (f := s.fw.setImages region.toNat slot.toNat l)
    (region := region.toNat) (slot := slot.toNat) (st := if region.toNat = 0 then 2 else 1) (by split <;> decide) rfl rfl
  simpa only [zero] using set

/-! ### CONFIRM and PREFER_OTHER (R488) -/

theorem writeConfirm_done {s : State} (stage : s.boot.stage = 9) (trial : s.fw.trial = true) :
    ∃ u, writeConfirm s = .done u ∧ slotState u 0 s.fw.booted.toNat = 1 ∧ slotPref u 0 = s.fw.booted.toNat ∧
      u.fw.trial = false ∧ u.tiles = s.tiles ∧ u.mem = s.mem :=
  ⟨_, if_neg (by simp [stage, trial]), slotState_setSlot (f := s.fw) (by decide) rfl rfl,
    slotPref_setPref (f := s.fw.setSlot 0 s.fw.booted.toNat 1) s.fw.booted.isLt rfl, rfl, rfl, rfl⟩

theorem writeConfirm_refused {s : State} (h : s.boot.stage ≠ 9 ∨ s.fw.trial = false) : writeConfirm s = .refused s 8 0 :=
  if_pos (by simpa using h)

theorem writePrefer_done {s : State} {region : Nat} (valid : slotState s region (1 - slotPref s region) = 1) :
    ∃ u, writePrefer s region = .done u ∧ slotPref u region = 1 - slotPref s region ∧ u.tiles = s.tiles ∧ u.mem = s.mem :=
  ⟨_, if_neg (by simp [valid]), slotPref_setPref (f := s.fw) (by omega) rfl, rfl, rfl⟩

theorem writePrefer_refused {s : State} {region : Nat} (other : slotState s region (1 - slotPref s region) ≠ 1) :
    writePrefer s region = .refused s 8 0 := if_pos (by simpa using other)

/-- The word of PREFER_OTHER for a region. -/
theorem bits_preferOther {n : Nat} (region : n < 3) :
    bits (3 * 2 ^ 60 + n * 2 ^ 58) 42 6 = 0 ∧ bits (3 * 2 ^ 60 + n * 2 ^ 58) 58 2 = n ∧ bits (3 * 2 ^ 60 + n * 2 ^ 58) 60 4 = 3 := by
  decide +revert

end Sys2Proof.Machine

/-! ## Proofs: a steward image that ROM recovery takes (R450, R500) -/

namespace Sys2Proof.Machine

/-! ### What a response and a module reset leave of the firmware -/

theorem switchTo_fw (s : State) (rx : Bool) (lanes : BitVec 2) : (switchTo s rx lanes).fw = s.fw := by
  unfold switchTo
  extract_lets old port first
  have hp : port.fw = s.fw := by unfold port; rw [setPort_frame]
  have hf : first.fw = port.fw := by unfold first; split <;> rfl
  split
  · exact hf.trans hp
  · exact hf.trans hp

theorem pumpData_fw (n : Nat) (s : State) : (pumpData n s).fw = s.fw := by
  induction n generalizing s with
  | zero => rfl
  | succ n ih =>
    unfold pumpData
    extract_lets m u sent
    split
    · rfl
    · rw [ih]
      split
      · split
        · exact switchTo_fw sent false _
        · rfl
      · rfl

theorem pumpMer_fw (s : State) : (pumpMer s).fw = s.fw := by
  unfold pumpMer
  extract_lets t
  have sent : t.fw = s.fw := pumpData_fw _ s
  split
  · exact sent
  · exact sent

theorem respond_fw (s : State) (r : Resp) : (respond s r).fw = s.fw := pumpMer_fw _

theorem commitCut_fw (s : State) : (commitCut s).fw = s.fw := by
  unfold commitCut
  split
  · rfl
  · rename_i r _
    exact List.foldlRecOn (motive := fun u : State => u.fw = s.fw) (regionKinds r.toNat) _ rfl fun u h k _ => h

/-- A reset on the cold path keeps the directory of the firmware and its images (R378, R478). -/
theorem moduleReset_cold_fw (s : State) (clear : Bool) : (moduleReset s 0 clear).fw = resetFw s.fw false := by
  have cut : (flashCut s).fw = s.fw := by
    unfold flashCut; dsimp only; exact commitCut_fw _
  have keeps : (moduleReset s 0 clear).fw = resetFw (flashCut s).fw false := by
    unfold moduleReset
    dsimp only
    cases gazCurrent (flashCut s) <;> rfl
  rw [keeps, cut]

/-- A reset on the cold path starts at S1. -/
theorem moduleReset_cold_boot (s : State) (clear : Bool) :
    (moduleReset s 0 clear).boot.busy = some 1 ∧ (moduleReset s 0 clear).boot.path = 0 := ⟨rfl, rfl⟩

/-! ### The image -/

/-- Whether a source holds an image that passes does not hang on what is being written or sent (R504). -/
theorem imageAt_congr {s u : State} (sec : u.sec = s.sec) (get : Nat → Nat → List Byte) (len o kind : Nat) :
    imageAt u get len o kind = imageAt s get len o kind := by
  simp only [imageAt, imageAllowed, keySlot, sec]

/-- The directory with a trial image of slot A (R500). -/
def recovered (s : State) (i : Image) : State :=
  dirWrite s fun f => { (((f.setImages 0 0 [(0, i)]).setSlot 0 0 2).setPref 0 0) with trialBoots := 0 }

theorem recovered_slot {u s : State} {i : Image} (stA : u.fw.stA = (recovered s i).fw.stA)
    (pref : u.fw.pref = (recovered s i).fw.pref) (images : u.fw.images = (recovered s i).fw.images) :
    slotState u 0 0 = 2 ∧ slotPref u 0 = 0 ∧ slotImage u 0 0 0 = some i := by
  refine ⟨?_, ?_, ?_⟩
  · rw [slotState, if_pos rfl, stA]
    exact congrArg BitVec.toNat (mget_mset_self s.fw.stA 0 2 0)
  · rw [slotPref, pref]
    exact congrArg BitVec.toNat (mget_mset_self s.fw.pref 0 0 0)
  · rw [slotImage, images]
    exact mfind_mput_self _ i 0

theorem odFind_fwRecoveryImage : odFind 0x6121 1 =
    some { idx := 0x6121, lo := 1, hi := 1, size := 0, acc := .wo, rd := 0, wr := rC } := by decide +kernel

theorem writeRefused_fwRecoveryImage (s : State) : writeRefused s 0 0x6121 1 = none := by
  have known : odIndexKnown 0x6121 = true := by decide +kernel
  have answers : romAnswers 0x6121 1 = true := by decide
  have inRange : odMaxSub 0x6121 = 1 := by decide +kernel
  have right : writeRight 0x6121 1 0 = none := by decide +kernel
  simp [writeRefused, locate, known, answers, inRange, right]

/-- The bytes of the image received so far, with one more piece (R450). -/
def recoveryBytes (s : State) (data : List Byte) : List Byte := (mfind s.dict.partial_ (odKey 0x6121 1)).getD [] ++ data

/-- The pieces received are dropped once the last has come. -/
def piecesDropped (s : State) : State := { s with dict := { s.dict with partial_ := mdel s.dict.partial_ (odKey 0x6121 1) } }

@[simp] theorem piecesDropped_fw (s : State) : (piecesDropped s).fw = s.fw := by simp only [piecesDropped]
@[simp] theorem piecesDropped_boot (s : State) : (piecesDropped s).boot = s.boot := by simp only [piecesDropped]
@[simp] theorem piecesDropped_sec (s : State) : (piecesDropped s).sec = s.sec := by simp only [piecesDropped]

/-- In ROM recovery a steward image that passes becomes the trial image of slot A, and the module restarts (R500). -/
theorem domainEffect_fwRecoveryImage {s : State} {b : List Byte} {i : Image} (rom : inRecovery s = true)
    (image : imageAt s (fun o n => (b.drop o).take n) b.length 0 1 = some i) :
    domainEffect s 0x6121 1 b = .resets (recovered s i) 0 false := by
  simp only [domainEffect, rom, image]
  rfl

/-- The last piece of an image takes effect as the whole image (R450). -/
theorem writeEntry_fwRecoveryImage {s : State} {m : MsgHdr} {off : Nat} {data : List Byte} (last : data.length < 4096)
    (next : off = ((mfind s.dict.partial_ (odKey 0x6121 1)).getD []).length) (fits : (recoveryBytes s data).length ≤ 16777216) :
    writeEntry s m 0x6121 1 off data [] = domainEffect (piecesDropped s) 0x6121 1 (recoveryBytes s data) := by
  simp only [writeEntry, writeRefused_fwRecoveryImage, odFind_fwRecoveryImage, writeChecked, if_true, writePiece]
  rw [if_neg (by simp [next, pieceMax, Nat.not_lt.2 last.le]), if_neg (by simp)]
  exact (if_neg (Nat.not_lt.2 fits)).trans (if_pos last)

/-- The state in which a message takes effect: all but the port is as it was (R423, R426). -/
def heardMessage (s : State) (msg : Msg) : State := { s with mer := (returnUnits (nextSeq s) msg).mer }

theorem returnUnits_nextSeq (s : State) (msg : Msg) : returnUnits (nextSeq s) msg = heardMessage s msg := rfl

@[simp] theorem heardMessage_dict (s : State) (msg : Msg) : (heardMessage s msg).dict = s.dict := by simp only [heardMessage]
@[simp] theorem heardMessage_fw (s : State) (msg : Msg) : (heardMessage s msg).fw = s.fw := by simp only [heardMessage]
@[simp] theorem heardMessage_boot (s : State) (msg : Msg) : (heardMessage s msg).boot = s.boot := by simp only [heardMessage]
@[simp] theorem heardMessage_sec (s : State) (msg : Msg) : (heardMessage s msg).sec = s.sec := by simp only [heardMessage]

section
variable {s : State} {m : MsgHdr} {off : Word} {data : List Byte} {i : Image} (rom : inRecovery s = true)
  (last : data.length < 4096) (next : off.toNat = ((mfind s.dict.partial_ (odKey 0x6121 1)).getD []).length)
  (fits : (recoveryBytes s data).length ≤ 16777216)
  (image : imageAt s (fun o n => ((recoveryBytes s data).drop o).take n) (recoveryBytes s data).length 0 1 = some i)
include rom last next fits image

/-- The last piece of an image that passes restarts the module with it (R450, R500). -/
theorem writeEntry_heardMessage (msg : Msg) : writeEntry (heardMessage s msg) m 0x6121 1 off.toNat data [] =
    .resets (recovered (piecesDropped (heardMessage s msg)) i) 0 false := by
  have bytes : recoveryBytes (heardMessage s msg) data = recoveryBytes s data := by simp [recoveryBytes]
  rw [writeEntry_fwRecoveryImage last (by simpa using next) (by rwa [bytes]), bytes]
  exact domainEffect_fwRecoveryImage (by simpa [inRecovery] using rom) ((imageAt_congr (by simp) _ _ _ _).trans image)

theorem exec_fwRecoveryImage (heard : Heard s m) : ∃ t, t.fw = s.fw ∧ exec (.fwRecoveryImage m off data) s =
    .next (moduleReset (accepted (recovered t i) m (.write 0x6121 1 off.toNat data [])) 0 false) := by
  refine ⟨piecesDropped (heardMessage s (.write 0x6121 1 off.toNat data [])), by simp,
    (merTake_write heard 0x6121 1 off.toNat data []).trans ?_⟩
  rw [returnUnits_nextSeq, runWrite_resets (writeEntry_heardMessage rom last next fits image _)]

end

end Sys2Proof.Machine

/-! ## Proofs: the firmware statement -/

namespace Sys2Proof.Machine

/-- A word of FW_CONTROL that the port hears and its entry takes. -/
theorem exec_fwControl_done {s u : State} {m : MsgHdr} {v : Nat} (heard : Heard s m) (serves : inRecovery s = false)
    (fits : v < 2 ^ 64) (reserved : bits v 42 6 = 0) (region : bits v 58 2 < 3) (op : 1 ≤ bits v 60 4 ∧ bits v 60 4 ≤ 3)
    (done : writeFwControl (heardWord s) v = .done u) : writeWord m 0x6120 1 8 v [] s = .next (answered u m 0x6120 1) :=
  writeWord_done heard (by decide) (by decide)
    ((writeEntry_fwControl (s := heardWord s) serves fits reserved region op).trans done)

/-- A word of FW_CONTROL that the port hears and its entry refuses. -/
theorem exec_fwControl_refused {s u : State} {m : MsgHdr} {v st detail : Nat} (heard : Heard s m) (serves : inRecovery s = false)
    (fits : v < 2 ^ 64) (reserved : bits v 42 6 = 0) (region : bits v 58 2 < 3) (op : 1 ≤ bits v 60 4 ∧ bits v 60 4 ≤ 3)
    (refused : writeFwControl (heardWord s) v = .refused u st detail) :
    writeWord m 0x6120 1 8 v [] s = .next (refusedMsg u m (.write 0x6120 1 0 [] []) st detail) :=
  writeWord_refused heard (by decide) (by decide)
    ((writeEntry_fwControl (s := heardWord s) serves fits reserved region op).trans refused)

theorem writeFwControl_program {s : State} {v : Nat} (op : bits v 60 4 = 1) : writeFwControl s v = writeProgram s v := by
  rw [writeFwControl, op]; rfl

theorem writeFwControl_prefer {s : State} {n : Nat} (region : n < 3) :
    writeFwControl s (3 * 2 ^ 60 + n * 2 ^ 58) = writePrefer s n := by
  obtain ⟨-, ofRegion, op⟩ := bits_preferOther region
  rw [writeFwControl, op, ofRegion]; rfl

theorem toNat_preferOther {n : Nat} (region : n < 3) :
    (BitVec.ofNat 64 (3 * 2 ^ 60 + n * 2 ^ 58)).toNat = 3 * 2 ^ 60 + n * 2 ^ 58 := by
  rw [BitVec.toNat_ofNat, Nat.mod_eq_of_lt (by omega)]

/-- PREFER_OTHER that the port hears moves the preference to a valid slot, and is refused otherwise (R488). -/
theorem exec_fwPreferOther {s : State} {m : MsgHdr} {n : Nat} (heard : Heard s m) (serves : inRecovery s = false) (region : n < 3) :
    (slotState s n (1 - slotPref s n) = 1 →
      ∃ u, exec (.fwPreferOther m (BitVec.ofNat 64 (3 * 2 ^ 60 + n * 2 ^ 58))) s = .next (answered u m 0x6120 1) ∧
        slotPref u n = 1 - slotPref s n ∧ u.tiles = s.tiles ∧ u.mem = s.mem) ∧
    (slotState s n (1 - slotPref s n) ≠ 1 → exec (.fwPreferOther m (BitVec.ofNat 64 (3 * 2 ^ 60 + n * 2 ^ 58))) s =
      .next (refusedMsg (heardWord s) m (.write 0x6120 1 0 [] []) 8 0)) := by
  obtain ⟨reserved, ofRegion, op⟩ := bits_preferOther region
  change (_ → ∃ u, writeWord m 0x6120 1 8 _ [] s = _ ∧ _) ∧ (_ → writeWord m 0x6120 1 8 _ [] s = _)
  rw [toNat_preferOther region]
  refine ⟨fun valid => ?_, fun other => ?_⟩
  · obtain ⟨u, done, pref, tiles, mem⟩ := writePrefer_done (s := heardWord s) valid
    exact ⟨u, exec_fwControl_done heard serves (by omega) reserved (by omega) (by omega)
      ((writeFwControl_prefer region).trans done), pref, tiles, mem⟩
  · exact exec_fwControl_refused heard serves (by omega) reserved (by omega) (by omega)
      ((writeFwControl_prefer region).trans (writePrefer_refused (s := heardWord s) other))

theorem firmwareSlots : Claims.FirmwareSlots := by
  rintro s v m w n rfl heard
  refine ⟨fun serves program reserved region aligned inMemory some_ fits stage idle => ?_, exec_fwProgramComplete_written,
    fun programming l images _ => ⟨?_, ?_⟩, fun programming bad => ?_, fun serves stage trial => ?_, fun serves h => ?_,
    exec_fwPreferOther heard, fun data b off i rom last next bytes fits image => ?_⟩
  · have op : bits w.toNat 60 4 = 1 := by rw [bits, program]; rfl
    obtain ⟨u, done, facts⟩ := writeProgram_done (s := heardWord s) aligned inMemory some_ fits stage idle
    exact ⟨u, exec_fwControl_done heard serves w.isLt reserved region (by omega)
      ((writeFwControl_program op).trans done), facts⟩
  · obtain ⟨state, pref, boots⟩ := programmed_slot s s.fw.progRegion s.fw.progSlot l
    exact ⟨_, exec_fwProgramComplete_verified programming images, rfl, rfl, state, pref, boots, rfl, rfl⟩
  · exact ⟨_, exec_fwProgramComplete_failed programming images, rfl, rfl, rfl, rfl, rfl⟩
  · exact ⟨_, exec_fwProgramComplete_invalid true programming bad, rfl, rfl, rfl, rfl, rfl⟩
  · obtain ⟨u, done, facts⟩ := writeConfirm_done (s := heardWord s) stage trial
    exact ⟨u, exec_fwControl_done (v := 0x2000000000000000) heard serves (by decide) (by decide) (by decide) (by decide) done, facts⟩
  · exact exec_fwControl_refused (v := 0x2000000000000000) heard serves (by decide) (by decide) (by decide) (by decide)
      (writeConfirm_refused (s := heardWord s) h)
  · subst bytes
    obtain ⟨t, fw, run⟩ := exec_fwRecoveryImage rom last next fits image heard
    have kept : (accepted (recovered t i) m (.write 0x6121 1 off.toNat data [])).fw = (recovered t i).fw := respond_fw _ _
    have restarted := moduleReset_cold_fw (accepted (recovered t i) m (.write 0x6121 1 off.toNat data [])) false
    rw [kept] at restarted
    obtain ⟨state, pref, image⟩ := recovered_slot (s := t) (i := i) (by rw [restarted]; rfl) (by rw [restarted]; rfl)
      (by rw [restarted]; rfl)
    exact ⟨_, run, state, pref, image, by rw [restarted]; rfl, moduleReset_cold_boot _ false⟩

end Sys2Proof.Machine

/-! ## Proofs: known-answer measurements (R41, R497, R498, R501) -/

namespace Sys2Proof.Machine

/-- A measurement in progress gathers the conditions that are violated (R41). -/
theorem kaWatch_running {s : State} {w : Nat} (running : s.ka.running = some w) : kaWatch s =
    { s with ka := { s.ka with
      invalid := mset s.ka.invalid 0 w (mget s.ka.invalid 0 w ||| kaViolated s w)
      narrow := (narrowLinks s).foldl sadd s.ka.narrow } } := by
  simp only [kaWatch, running]

/-- The measurement that begins. -/
def kaBegun (s : State) (w : Nat) : State :=
  { s with ka :=
    { state := mset s.ka.state 0 w 1, invalid := mset s.ka.invalid 0 w 0, value := mset s.ka.value 0 w 0, running := some w } }

@[simp] theorem kaBegun_tiles (s : State) (w : Nat) : (kaBegun s w).tiles = s.tiles := by simp only [kaBegun]
@[simp] theorem kaBegun_mem (s : State) (w : Nat) : (kaBegun s w).mem = s.mem := by simp only [kaBegun]

/-- A measurement that begins has no figure, and the conditions that are violated at its start (R41, R497). -/
theorem kaWatch_kaBegun (s : State) (w : Nat) :
    (kaWatch (kaBegun s w)).ka.running = some w ∧ mget (kaWatch (kaBegun s w)).ka.state 0 w = 1 ∧
      mget (kaWatch (kaBegun s w)).ka.value 0 w = 0 ∧ mget (kaWatch (kaBegun s w)).ka.invalid 0 w = kaViolated s w := by
  have clear : mget (kaBegun s w).ka.invalid 0 w = 0 := mget_mset_self s.ka.invalid 0 0 w
  rw [kaWatch_running (s := kaBegun s w) (w := w) rfl, clear]
  refine ⟨rfl, mget_mset_self s.ka.state 0 1 w, mget_mset_self s.ka.value 0 0 w, ?_⟩
  exact (mget_mset_self (kaBegun s w).ka.invalid 0 _ w).trans BitVec.zero_or

/-- The word of START for a workload. -/
theorem bits_kaStart {w : Nat} (workload : w < 6) :
    bits (2 ^ 28 + w * 2 ^ 24) 0 24 = 0 ∧ bits (2 ^ 28 + w * 2 ^ 24) 24 4 = w ∧ bits (2 ^ 28 + w * 2 ^ 24) 28 4 = 1 := by
  decide +revert

theorem toNat_kaStart {w : Nat} (workload : w < 6) : (BitVec.ofNat 32 (2 ^ 28 + w * 2 ^ 24)).toNat = 2 ^ 28 + w * 2 ^ 24 := by
  rw [BitVec.toNat_ofNat, Nat.mod_eq_of_lt (by omega)]

/-- START at S9 with nothing live and nothing running begins the measurement (R497). -/
theorem writeKaMeasure_start {s : State} {w : Nat} (workload : w < 6) (stage : s.boot.stage = 9) (holds : s.boot.state.toNat ≤ 1)
    (noCtx : s.ctxs = []) (idle : s.ka.running = none) :
    writeKaMeasure s (2 ^ 28 + w * 2 ^ 24) = .done (kaWatch (kaBegun s w)) := by
  obtain ⟨-, ofWorkload, start⟩ := bits_kaStart workload
  rw [writeKaMeasure, if_pos start, if_neg (by simp [stage, noCtx, idle, Nat.not_lt.2 holds]), ofWorkload]
  rfl

theorem writeKaMeasure_refused {s : State} {w : Nat} (workload : w < 6)
    (h : s.boot.stage ≠ 9 ∨ s.ctxs ≠ [] ∨ s.ka.running ≠ none ∨ 1 < s.boot.state.toNat) :
    writeKaMeasure s (2 ^ 28 + w * 2 ^ 24) = .refused s 8 0 := by
  obtain ⟨-, -, start⟩ := bits_kaStart workload
  rw [writeKaMeasure, if_pos start, if_pos]
  rcases h with h | h | h | h
  · simp [h]
  · simp [h]
  · simp [Option.isSome_iff_ne_none.2 h]
  · simp [h]

/-- CANCEL ends the measurement with the bit of a cancel (R497, R498). -/
theorem writeKaMeasure_cancel {s : State} {w : Nat} (running : s.ka.running = some w) :
    writeKaMeasure s 0x20000000 = .done (kaEnd s w 0 64) := by
  rw [writeKaMeasure, if_neg (by decide), running]

theorem exec_kaWorkloadComplete {s : State} {w : Nat} (val : Word) (inv : BitVec 7) (links : List Nat)
    (running : s.ka.running = some w) :
    exec (.kaWorkloadComplete val inv links) s = .next (kaEnd (kaWatch s) w val (inv ||| kaLinks (kaWatch s) w links)) := by
  have watched : (kaWatch s).ka.running = some w := by rw [kaWatch_running running]; exact running
  change execKaWorkloadComplete val inv links s = _
  simp only [execKaWorkloadComplete, watched]

section
variable (s : State) (w : Nat) (val : Word) (inv : BitVec 7)

@[simp] theorem kaEnd_tiles : (kaEnd s w val inv).tiles = s.tiles := by simp only [kaEnd]
@[simp] theorem kaEnd_mem : (kaEnd s w val inv).mem = s.mem := by simp only [kaEnd]

/-- The conditions of a measurement that has ended. -/
theorem kaEnd_invalid : mget (kaEnd s w val inv).ka.invalid 0 w = mget s.ka.invalid 0 w ||| inv :=
  mget_mset_self s.ka.invalid 0 _ w

/-- A measurement is valid where no condition of INVALID was met (R41). -/
theorem kaEnd_state : mget (kaEnd s w val inv).ka.state 0 w = if mget s.ka.invalid 0 w ||| inv = 0 then 2 else 3 := by
  refine (mget_mset_self s.ka.state 0 _ w).trans ?_
  simp only [beq_iff_eq]

/-- The state says valid where the conditions show none. -/
theorem kaEnd_valid : mget (kaEnd s w val inv).ka.state 0 w = 2 ↔ mget (kaEnd s w val inv).ka.invalid 0 w = 0 := by
  rw [kaEnd_state, kaEnd_invalid]
  by_cases none_met : mget s.ka.invalid 0 w ||| inv = 0
  · rw [if_pos none_met]; exact iff_of_true rfl none_met
  · rw [if_neg none_met]; exact iff_of_false (by decide) none_met

/-- A measurement that is not valid has no figure (R41). -/
theorem kaEnd_value : mget (kaEnd s w val inv).ka.value 0 w = if mget s.ka.invalid 0 w ||| inv = 0 then val else 0 := by
  refine (mget_mset_self s.ka.value 0 _ w).trans ?_
  simp only [beq_iff_eq]

end

/-- A word of START for a workload that the port hears (R497). -/
theorem exec_kaMeasureStart {s : State} {m : MsgHdr} {w : Nat} (heard : Heard s m) (serves : inRecovery s = false)
    (workload : w < 6) :
    (s.boot.stage = 9 → s.boot.state.toNat ≤ 1 → s.ctxs = [] → s.ka.running = none →
      exec (.kaMeasureStart m (BitVec.ofNat 32 (2 ^ 28 + w * 2 ^ 24))) s =
        .next (answered (kaWatch (kaBegun (heardWord s) w)) m 0x6111 1)) ∧
    (s.boot.stage ≠ 9 ∨ s.ctxs ≠ [] ∨ s.ka.running ≠ none ∨ 1 < s.boot.state.toNat →
      exec (.kaMeasureStart m (BitVec.ofNat 32 (2 ^ 28 + w * 2 ^ 24))) s =
        .next (refusedMsg (heardWord s) m (.write 0x6111 1 0 [] []) 8 0)) := by
  obtain ⟨reserved, ofWorkload, start⟩ := bits_kaStart workload
  have taken : writeEntry (heardWord s) m 0x6111 1 0 (toLE 4 (2 ^ 28 + w * 2 ^ 24)) [] =
      writeKaMeasure (heardWord s) (2 ^ 28 + w * 2 ^ 24) :=
    writeEntry_kaMeasure serves (by omega) reserved (by omega) (by omega)
  change (_ → _ → _ → _ → writeWord m 0x6111 1 4 _ [] s = _) ∧ (_ → writeWord m 0x6111 1 4 _ [] s = _)
  rw [toNat_kaStart workload]
  exact ⟨fun stage holds noCtx idle => writeWord_done heard (by decide) (by decide)
      (taken.trans (writeKaMeasure_start (s := heardWord s) workload stage holds noCtx idle)),
    fun h => writeWord_refused heard (by decide) (by decide)
      (taken.trans (writeKaMeasure_refused (s := heardWord s) workload h))⟩

/-- A word of CANCEL that the port hears while a measurement runs (R497). -/
theorem exec_kaMeasureCancel {s : State} {m : MsgHdr} {w : Nat} (heard : Heard s m) (serves : inRecovery s = false)
    (running : s.ka.running = some w) :
    exec (.kaMeasureCancel m 0x20000000) s = .next (answered (kaEnd (heardWord s) w 0 64) m 0x6111 1) := by
  change writeWord m 0x6111 1 4 0x20000000 [] s = _
  exact writeWord_done heard (by decide) (by decide)
    ((writeEntry_kaMeasure (s := heardWord s) serves (by decide) (by decide) (by decide) (by decide)).trans
      (writeKaMeasure_cancel (s := heardWord s) running))

theorem knownAnswer : Claims.KnownAnswer := by
  rintro s v m w val inv links rfl
  refine ⟨fun heard serves workload => ?_, fun running => ⟨fun heard serves => ?_, ?_⟩⟩
  · obtain ⟨starts, refuses⟩ := exec_kaMeasureStart heard serves workload
    refine ⟨fun stage holds noCtx idle => ?_, refuses⟩
    obtain ⟨running, state, value, invalid⟩ := kaWatch_kaBegun (heardWord s) w
    exact ⟨_, starts stage holds noCtx idle, running, state, value, invalid, by simp, by simp⟩
  · have flagged : (mget s.ka.invalid 0 w ||| 64).getLsbD 6 = true := by simp
    have invalid : mget s.ka.invalid 0 w ||| 64 ≠ 0 := fun h => by rw [h] at flagged; simp at flagged
    exact ⟨_, exec_kaMeasureCancel heard serves running, rfl, (kaEnd_state (heardWord s) w 0 64).trans (if_neg invalid),
      (kaEnd_value (heardWord s) w 0 64).trans (if_neg invalid), by rw [kaEnd_invalid]; exact flagged, by simp, by simp⟩
  · have gathered : mget (kaWatch s).ka.invalid 0 w = mget s.ka.invalid 0 w ||| kaViolated s w := by
      rw [kaWatch_running running]; exact mget_mset_self s.ka.invalid 0 _ w
    refine ⟨_, exec_kaWorkloadComplete val inv links running, rfl, by rw [kaEnd_invalid, gathered], ?_, ?_,
      by simp, by simp⟩
    · exact kaEnd_valid (kaWatch s) w val _
    · rw [kaEnd_value, kaEnd_invalid]

/-- Settles O55: each word heard by the effect of its entry, a slot's state and preference by what the directory sets, and a
measurement's validity by the conditions gathered up to its end. -/
theorem firmwareAndKnownAnswer : Obligations.FirmwareAndKnownAnswer := ⟨firmwareSlots, knownAnswer⟩

end Sys2Proof.Machine

/-! ## Proofs: the register file (R44) -/

namespace Sys2Proof.Machine

/-- Bit `i` of the predicates after bit `j` is written. -/
theorem getLsbD_writeBit (v : BitVec 8) (i j : Nat) (b : Bool) (hj : j < 8) :
    (if b then v ||| (1#8 <<< j) else v &&& ~~~(1#8 <<< j)).getLsbD i = if i = j then b else v.getLsbD i := by
  have bit : (1#8 <<< j).getLsbD i = decide (i = j) := by
    rw [BitVec.getLsbD_shiftLeft, BitVec.getLsbD_one]
    by_cases h : i = j
    · simp [h, hj]
    · simp only [h, decide_false]; grind
  by_cases h : i = j
  · subst h; cases b <;> simp [hj]
  · cases b
    · simp only [Bool.false_eq_true, if_false, h, BitVec.getLsbD_and, BitVec.getLsbD_not, bit, decide_false]
      by_cases hi : i < 8
      · simp [hi]
      · simp [hi, BitVec.getLsbD_of_ge v i (by omega)]
    · simp [bit, h]

/-- A predicate holds what was written last; p0 reads as 1 (R44). -/
theorem Core.pred_setPred (k : Core) (p q : BitVec 3) (b : Bool) :
    (k.setPred p b).pred q = if q = p ∧ p ≠ 0 then b else k.pred q := by
  by_cases hp : p = 0#3
  · simp [Core.setPred, hp]
  by_cases hq : q = 0#3
  · simp [Core.pred, hq, Ne.symm hp]
  have same : q.toNat = p.toNat ↔ q = p := BitVec.toNat_inj
  have written : (k.setPred p b).p = if b then k.p ||| (1#8 <<< p.toNat) else k.p &&& ~~~(1#8 <<< p.toNat) := by
    have : (p == 0) = false := by simpa using hp
    simp only [Core.setPred, this, Bool.false_eq_true, if_false]
  simp only [Core.pred, written, getLsbD_writeBit _ _ _ _ (show p.toNat < 8 by omega), same]
  by_cases h : q = p <;> simp [hp, h]

/-- Settles O3: each kind of register by its own read-after-write lemma. -/
theorem registerFile : Obligations.RegisterFile :=
  ⟨fun k r q w => k.sreg_setS r q w, fun _ _ => ⟨rfl, rfl⟩, fun k p q b => k.pred_setPred p q b, fun _ _ => ⟨rfl, rfl⟩,
    fun k r q i => k.vreg_setV r q i⟩

end Sys2Proof.Machine

/-! ## Proofs: scalar arithmetic, immediates and compares (R50 to R52) -/

namespace Sys2Proof.Machine

section
variable {s : State} {h : Hdr}

/-- A register-register operation writes its value to the destination and moves on. -/
theorem salu_result {rd rs1 rs2 : BitVec 5} {v : Word} (f : Word → Word → Word) (hi : Issues s h) (hf : (coreAt s h.t).fits)
    (hv : f ((coreAt s h.t).sreg rs1) ((coreAt s h.t).sreg rs2) = v) :
    salu h rd rs1 rs2 f s = .next (s.modCore h.t fun k => (k.setS rd v).past) :=
  issue_fin_modCore false _ (fun k => k.setS rd v) hi (by rw [← hv]) (by simpa using hf)

/-- A register-immediate operation of an encoding it allows writes its value to the destination and moves on. -/
theorem salui_result {rd rs1 : BitVec 5} {imm : BitVec 11} {bad : Bool} {v : Word} (f : Word → Word → Word) (hi : Issues s h)
    (hf : (coreAt s h.t).fits) (ok : bad = false) (hv : f ((coreAt s h.t).sreg rs1) (imm.signExtend 32) = v) :
    salui h rd rs1 imm bad f s = .next (s.modCore h.t fun k => (k.setS rd v).past) := by
  subst ok
  exact issue_fin_modCore false _ (fun k => k.setS rd v) hi (by rw [← hv]) (by simpa using hf)

/-- A compare writes its predicate and moves on. -/
theorem scmp_result {pd : BitVec 3} {rs1 src2 : BitVec 5} {useImm : Bool} {b : Bool} (f : Word → Word → Bool) (hi : Issues s h)
    (hf : (coreAt s h.t).fits) (hb : f ((coreAt s h.t).sreg rs1) (cmpSrc (s.tile (ckey h.t)) src2 useImm) = b) :
    scmp h pd rs1 src2 useImm f s = .next (s.modCore h.t fun k => (k.setPred pd b).past) :=
  issue_fin_modCore false _ (fun k => k.setPred pd b) hi (by rw [← hb]) (by simpa using hf)

/-- An instruction that issues but whose encoding its row forbids raises ILLEGAL_INSTR (R52). -/
theorem issue_invalid (slotB : Bool) (body : Tile → Act) (hi : Issues s h) :
    issue h slotB true s body = .next (takeExc s h.t 1 (coreAt s h.t).pc.toNat slotB 0) := by
  obtain ⟨issues, untimed, -, -, known⟩ := hi
  simp [issue, issueAny, issues, untimed, known]

end

/-! ### The values, as integer arithmetic -/

theorem sub_eq_ofInt (a b : Word) : a - b = BitVec.ofInt 32 (a.toInt - b.toInt) := by
  rw [Int.sub_eq_add_neg, BitVec.ofInt_add, BitVec.ofInt_neg, BitVec.ofInt_toInt, BitVec.ofInt_toInt, BitVec.sub_eq_add_neg]

theorem shl_eq_ofNat (a : Word) (n : Nat) : a <<< n = BitVec.ofNat 32 (a.toNat * 2 ^ n) := by
  apply BitVec.eq_of_toNat_eq; simp [Nat.shiftLeft_eq]

theorem shr_eq_ofNat (a : Word) (n : Nat) : a >>> n = BitVec.ofNat 32 (a.toNat / 2 ^ n) := by
  apply BitVec.eq_of_toNat_eq
  rw [BitVec.toNat_ushiftRight, BitVec.toNat_ofNat, Nat.shiftRight_eq_div_pow,
    Nat.mod_eq_of_lt (Nat.lt_of_le_of_lt (Nat.div_le_self _ _) a.isLt)]

theorem sra_eq_ofInt (a : Word) (n : Nat) : a.sshiftRight n = BitVec.ofInt 32 (a.toInt / 2 ^ n) := by
  rw [BitVec.sshiftRight, Int.shiftRight_eq_div_pow]; rfl

theorem boolW_eq (p : Prop) [Decidable p] : boolW (decide p) = if p then 1#32 else 0#32 := by
  by_cases hp : p <;> simp [boolW, hp]

theorem min_eq_ofInt (a b : Word) : (if b.slt a then b else a) = BitVec.ofInt 32 (min a.toInt b.toInt) := by
  rw [BitVec.slt, min_def]
  by_cases hb : b.toInt < a.toInt
  · simp [hb, Int.not_le.2 hb]
  · simp [hb, Int.not_lt.1 hb]

theorem max_eq_ofInt (a b : Word) : (if a.slt b then b else a) = BitVec.ofInt 32 (max a.toInt b.toInt) := by
  rw [BitVec.slt, max_def]
  by_cases ha : a.toInt < b.toInt
  · simp [ha, Int.le_of_lt ha]
  · rcases eq_or_lt_of_le (Int.not_lt.1 ha) with e | l
    · simp [e]
    · simp [ha, Int.not_le.2 l]

theorem signExtend_eq_ofInt {w : Nat} (v : BitVec w) : v.signExtend 32 = BitVec.ofInt 32 v.toInt := rfl

theorem toInt_imm (imm : BitVec 11) : (imm.signExtend 32).toInt = imm.toInt :=
  BitVec.toInt_signExtend_of_le (by omega)

/-- The shift amount of an immediate is its low five bits, which sign extension keeps (R51). -/
theorem sh_imm {imm : BitVec 11} (small : imm.toNat < 32) : sh (imm.signExtend 32) = imm.toNat := by
  have : imm.signExtend 32 = imm.setWidth 32 := BitVec.signExtend_eq_setWidth_of_msb_false (by
    rw [BitVec.msb_eq_decide]; simp; omega)
  rw [sh, this, BitVec.toNat_setWidth]; omega

theorem shiftBad_iff (imm : BitVec 11) : shiftBad imm = decide (32 ≤ imm.toNat) := by
  have v : (imm.extractLsb' 5 6).toNat = imm.toNat / 32 := by
    rw [BitVec.extractLsb'_toNat, Nat.shiftRight_eq_div_pow]; omega
  have e : (imm.extractLsb' 5 6 = 0) ↔ imm.toNat / 32 = 0 := by rw [← v]; exact (BitVec.toNat_inj (y := 0#6)).symm
  rw [shiftBad, Bool.eq_iff_iff, bne_iff_ne, decide_eq_true_eq, ne_eq, e]
  omega

theorem lui_eq_ofNat (wide : BitVec 19) : wide.setWidth 32 <<< 13 = BitVec.ofNat 32 (wide.toNat * 2 ^ 13) := by
  rw [shl_eq_ofNat, BitVec.toNat_setWidth, Nat.mod_eq_of_lt (by omega)]

/-! ### The statement -/

theorem scalarRegisterResults : Claims.ScalarRegisterResults := by
  rintro s h rd rs1 rs2 a b hi hf rfl rfl
  simp only [List.forall_mem_cons, List.not_mem_nil, false_imp_iff, implies_true, and_true]
  have done f {v} := salu_result (rd := rd) (rs1 := rs1) (rs2 := rs2) (v := v) f hi hf
  exact ⟨done (· + ·) (by simp [BitVec.ofInt_add]), done (· - ·) (sub_eq_ofInt _ _), done (· &&& ·) (by simp),
    done (· ||| ·) (by simp), done (· ^^^ ·) (by simp), done (fun a b => a <<< sh b) (shl_eq_ofNat _ _),
    done (fun a b => a >>> sh b) (shr_eq_ofNat _ _), done (fun a b => a.sshiftRight (sh b)) (sra_eq_ofInt _ _),
    done (fun a b => boolW (a.slt b)) (boolW_eq _), done (fun a b => boolW (a.ult b)) (boolW_eq _),
    done (fun a b => if b.slt a then b else a) (min_eq_ofInt _ _),
    done (fun a b => if a.slt b then b else a) (max_eq_ofInt _ _), done (· * ·) (by simp [BitVec.ofInt_mul]),
    done mulHiU rfl, done mulHiS rfl⟩

theorem scalarImmediateResults : Claims.ScalarImmediateResults := by
  rintro s h rd rs1 imm wide a hi hf rfl
  simp only [List.forall_mem_cons, List.not_mem_nil, false_imp_iff, implies_true, and_true]
  have done f {bad v} := salui_result (rd := rd) (rs1 := rs1) (imm := imm) (bad := bad) (v := v) f hi hf
  refine ⟨⟨done (· + ·) rfl (by simp [BitVec.ofInt_add, signExtend_eq_ofInt]), done (· &&& ·) rfl rfl,
      done (· ||| ·) rfl rfl, done (· ^^^ ·) rfl rfl,
      done (fun a b => boolW (a.slt b)) rfl ((boolW_eq _).trans (by rw [toInt_imm])), ?_⟩, fun small => ?_, fun large => ?_⟩
  · exact issue_fin_modCore false _ (fun k => k.setS rd _) hi (by rw [← lui_eq_ofNat]) (by simpa using hf)
  · have ok : shiftBad imm = false := by rw [shiftBad_iff]; simpa using small
    exact ⟨done (fun a b => a <<< sh b) ok (by rw [sh_imm small, shl_eq_ofNat]),
      done (fun a b => a >>> sh b) ok (by rw [sh_imm small, shr_eq_ofNat]),
      done (fun a b => a.sshiftRight (sh b)) ok (by rw [sh_imm small, sra_eq_ofInt])⟩
  · have bad : shiftBad imm = true := by rw [shiftBad_iff]; simpa using large
    have illegal (f : Word → Word → Word) :
        salui h rd rs1 imm (shiftBad imm) f s = .next (takeExc s h.t 1 (coreAt s h.t).pc.toNat false 0) := by
      rw [bad]; exact issue_invalid false _ hi
    exact ⟨illegal fun a b => a <<< sh b, illegal fun a b => a >>> sh b, illegal fun a b => a.sshiftRight (sh b)⟩

theorem compareResults : Claims.CompareResults := by
  rintro s h pd rs1 src2 useImm a b hi hf rfl hb
  simp only [List.forall_mem_cons, List.not_mem_nil, false_imp_iff, implies_true, and_true]
  have src : cmpSrc (s.tile (ckey h.t)) src2 useImm = b := by rw [hb]; rfl
  have done f {v} (hv : f ((coreAt s h.t).sreg rs1) b = v) := scmp_result (pd := pd) (useImm := useImm) f hi hf (src ▸ hv)
  exact ⟨done (fun a b => a == b) rfl, done (fun a b => a != b) (by simp [bne, Bool.beq_eq_decide_eq]),
    done (fun a b => a.slt b) rfl, done (fun a b => !a.slt b) (by simp [BitVec.slt, ← decide_not]),
    done (fun a b => a.ult b) rfl, done (fun a b => !a.ult b) (by simp [BitVec.ult, ← decide_not])⟩

/-- Settles O2: every operation by the lemma of its class, its value as integer arithmetic. -/
theorem scalarResults : Obligations.ScalarResults := ⟨scalarRegisterResults, scalarImmediateResults, compareResults⟩

end Sys2Proof.Machine

/-! ## Proofs: branches and hardware loops (R56 to R59) -/

namespace Sys2Proof.Machine

/-! ### Taken branches -/

/-- The core after a taken branch to an index of the program region (R56, R59). -/
def Core.jumped (k : Core) (target : Nat) : Core :=
  { k with
    pc := BitVec.ofNat 13 target
    loops := (leaveLoops target k.loops k.c).1
    c := (leaveLoops target k.loops k.c).2
    wait := none
    issued := k.issued + 1 }

section
variable {s : State} {h : Hdr} {target : Int}

/-- A branch to an index of the program region answers the core there, for `call` with its link written (R56). -/
theorem issue_jump (dest : Tile → Int) (link : Bool) (hi : Issues s h) (at_ : dest (s.tile (ckey h.t)) = target)
    (low : 1024 ≤ target) (high : target ≤ 8191) :
    issue h false false s (fun t => jump s h.t t (dest t) link) = .next (s.modCore h.t fun k =>
      if link then (k.jumped target.toNat).setS 31 (BitVec.ofNat 32 ((coreAt s h.t).pc.toNat + 1))
      else k.jumped target.toNat) := by
  refine issue_go false hi ?_
  have inside : (decide (target < 1024) || decide (8191 < target)) = false := by simpa using ⟨low, high⟩
  simp only [jump, at_, inside]
  simp [State.modCore, State.modTile, Core.jumped]

/-- A branch to any other index takes PC_RANGE (R56). -/
theorem issue_jump_range (dest : Tile → Int) (link : Bool) (hi : Issues s h) (at_ : dest (s.tile (ckey h.t)) = target)
    (out : target < 1024 ∨ 8191 < target) : issue h false false s (fun t => jump s h.t t (dest t) link) =
      .next (takeExc s h.t 0x0A (coreAt s h.t).pc.toNat false 0) :=
  issue_exc false hi (by
    have : (decide (target < 1024) || decide (8191 < target)) = true := by simpa using out
    simp only [jump, at_, this, if_true])

end

theorem ofInt_eq_ofNat_toNat {v : Int} (pos : 0 ≤ v) : BitVec.ofInt 13 v = BitVec.ofNat 13 v.toNat := by
  obtain ⟨n, rfl⟩ := Int.eq_ofNat_of_zero_le pos
  simp

theorem branchTargets : Claims.BranchTargets := by
  rintro s h off rs k hi rfl noLoops
  simp only [List.forall_mem_cons, List.not_mem_nil, false_imp_iff, implies_true, and_true]
  have onCore (f g : Core → Core) (e : f (coreAt s h.t) = g (coreAt s h.t)) : s.modCore h.t f = s.modCore h.t g := by
    simp only [State.modCore, State.modTile]; rw [show f _ = g _ from e]
  have jumps (target : Int) (pos : 1024 ≤ target) : (coreAt s h.t).jumped target.toNat =
      { coreAt s h.t with pc := BitVec.ofInt 13 target, wait := none, issued := (coreAt s h.t).issued + 1 } := by
    rw [ofInt_eq_ofNat_toNat (by omega)]; simp only [Core.jumped, noLoops, leaveLoops]
  refine ⟨⟨fun ⟨low, high⟩ => (issue_jump (fun t => _ + off.toInt) false hi rfl low high).trans ?_,
      issue_jump_range (fun t => _ + off.toInt) false hi rfl⟩,
    ⟨fun ⟨low, high⟩ => (issue_jump (fun t => _ + off.toInt) true hi rfl low high).trans ?_,
      issue_jump_range (fun t => _ + off.toInt) true hi rfl⟩,
    ⟨fun ⟨low, high⟩ => (issue_jump (fun t => ((t.core.sreg rs).toNat % 8192 : Nat)) false hi rfl low high).trans ?_,
      issue_jump_range (fun t => ((t.core.sreg rs).toNat % 8192 : Nat)) false hi rfl⟩,
    ⟨fun ⟨low, high⟩ => (issue_jump (fun t => ((t.core.sreg 31).toNat % 8192 : Nat)) false hi rfl low high).trans ?_,
      issue_jump_range (fun t => ((t.core.sreg 31).toNat % 8192 : Nat)) false hi rfl⟩⟩
  · exact congrArg _ (onCore _ _ (jumps _ low))
  · exact congrArg _ (onCore _ _ (by simp only [if_true, jumps _ low]; rfl))
  · exact congrArg _ (onCore _ _ (jumps _ low))
  · exact congrArg _ (onCore _ _ (jumps _ low))

theorem exec_br {s : State} {h : Hdr} {off : BitVec 22} {target : Nat} (hi : Issues s h)
    (there : (target : Int) = ((coreAt s h.t).pc.toNat : Int) + off.toInt) (low : 1024 ≤ target) (high : target ≤ 8191) :
    exec (.br h off) s = .next (s.modCore h.t fun k => k.jumped target) :=
  issue_jump (fun t => (t.core.pc.toNat : Int) + off.toInt) false hi there.symm (by omega) (by omega)

theorem branchLeavesLoop : Claims.BranchLeavesLoop := by
  rintro s h off k f target hi rfl one there low high
  have answer := exec_br hi there low high
  have core : coreAt (s.modCore h.t fun k => k.jumped target) h.t = (coreAt s h.t).jumped target := by simp [coreAt]
  refine ⟨fun stays => ⟨_, answer, ?_⟩, fun leaves => ⟨_, answer, ?_⟩⟩
  · have keep : leaveLoops target [f] (coreAt s h.t).c = ([f], (coreAt s h.t).c) := by simp [leaveLoops, stays.1, stays.2]
    rw [core]; exact ⟨rfl, by simp [Core.jumped, one, keep], by simp [Core.jumped, one, keep]⟩
  · have ends : leaveLoops target [f] (coreAt s h.t).c = ([], mset (coreAt s h.t).c 0 f.ck.toNat 0) := by
      have out : ¬(f.first ≤ target ∧ target ≤ f.last) := by omega
      simp [leaveLoops, out]
    rw [core]
    refine ⟨rfl, by simp [Core.jumped, one, ends], by simp [Core.jumped, one, ends], fun j hj => ?_⟩
    simp [Core.jumped, one, ends, mget_mset, hj]

/-- Settles O4: every branch is one jump, and the loops it leaves are those whose bodies do not hold its target. -/
theorem branches : Obligations.Branches := ⟨branchTargets, branchLeavesLoop⟩

/-! ### The start of a loop -/

section
variable {s : State} {h : Hdr} {ck : BitVec 2} {immCount : Bool} {body : BitVec 10} {count : BitVec 11}

/-- The count that a `loop` names (R57). -/
def loopCount (k : Core) (immCount : Bool) (count : BitVec 11) : Word :=
  if immCount then BitVec.ofNat 32 count.toNat else k.sreg (BitVec.ofNat 5 count.toNat)

/-- The body of `loop` once its encoding is one the row allows (R57). -/
def loopAct (s : State) (h : Hdr) (ck : BitVec 2) (body : BitVec 10) (n : Word) (t : Tile) : Act :=
  if loopBad t ck (t.core.pc.toNat + body.toNat) then .exc 1 0
  else if n == 0 then
    .go (advanceAt (s.modCore h.t fun k => { k with c := mset k.c 0 ck.toNat 0 }) h.t (t.core.pc.toNat + body.toNat))
  else
    .fin (s.modCore h.t fun k => { k with
      c := mset k.c 0 ck.toNat n, loops := ⟨ck, t.core.pc.toNat + 1, t.core.pc.toNat + body.toNat⟩ :: k.loops })

theorem exec_loop (ok : body ≠ 0) (small : immCount = false → count.toNat < 32) :
    exec (.loop h ck immCount body count) s =
      issue h false false s fun t => loopAct s h ck body (loopCount t.core immCount count) t := by
  have wide : count.setWidth 32 = BitVec.ofNat 32 count.toNat := (BitVec.ofNat_toNat ..).symm
  have reg : count.extractLsb' 0 5 = BitVec.ofNat 5 count.toNat := by
    apply BitVec.eq_of_toNat_eq; simp
  have valid : (body == 0 || (!immCount && count.extractLsb' 5 6 != 0)) = false := by
    have : (body == 0) = false := by simpa using ok
    have tail := shiftBad_iff count
    cases immCount
    · rw [shiftBad] at tail; simp only [this, tail, Nat.not_le.2 (small rfl), Bool.false_or, Bool.not_false, decide_false, Bool.and_false]
    · simp only [this, Bool.not_true, Bool.false_and, Bool.or_false]
  change issue h false _ s _ = _
  rw [valid]
  simp only [loopAct, loopCount, wide, reg]
  rfl

/-- A `loop` whose encoding is allowed but whose place is not raises ILLEGAL_INSTR (R58). -/
theorem exec_loop_bad (hi : Issues s h) (ok : body ≠ 0) (small : immCount = false → count.toNat < 32)
    (bad : loopBad (s.tile (ckey h.t)) ck ((coreAt s h.t).pc.toNat + body.toNat) = true) :
    exec (.loop h ck immCount body count) s = .next (takeExc s h.t 1 (coreAt s h.t).pc.toNat false 0) := by
  rw [exec_loop ok small]
  exact issue_exc false hi (by rw [loopAct, if_pos bad])

/-- A `loop` with a count starts its loop, innermost, and goes on at the first instruction of the body (R57). -/
theorem exec_loop_starts (hi : Issues s h) (ok : body ≠ 0) (small : immCount = false → count.toNat < 32)
    (good : loopBad (s.tile (ckey h.t)) ck ((coreAt s h.t).pc.toNat + body.toNat) = false) {n : Word}
    (counts : n = loopCount (coreAt s h.t) immCount count) (some_ : n ≠ 0)
    (fits : (coreAt s h.t).pc.toNat + body.toNat ≤ 8191) :
    exec (.loop h ck immCount body count) s = .next (s.modCore h.t fun k =>
      { k with loops := ⟨ck, k.pc.toNat + 1, k.pc.toNat + body.toNat⟩ :: k.loops, c := mput k.c ck.toNat n, pc := k.pc + 1
               wait := none, issued := k.issued + 1 }) := by
  have pos : body.toNat ≠ 0 := fun e => ok (BitVec.eq_of_toNat_eq e)
  have count_ : mset (coreAt s h.t).c 0 ck.toNat n = mput (coreAt s h.t).c ck.toNat n := if_neg some_
  have nonzero : ¬((n == 0) = true) := by simpa using some_
  rw [exec_loop ok small, issue_fin (u := s.modCore h.t fun k => _) false hi (by rw [loopAct, ← counts, good, if_neg (by simp), if_neg nonzero]),
    advance_fits]
  · rw [State.modCore_modCore]
    simp only [State.modCore, State.modTile]
    simp [Core.past, advFrames, pos, ← count_, BitVec.ofNat_add]
  · have : (coreAt s h.t).pc.toNat + 1 < 8192 := by omega
    simpa [Core.fits, coreAt, advFrames, pos] using this

end

theorem loopBad_false {t : Tile} {ck : BitVec 2} {last : Nat} : loopBad t ck last = false ↔
    last ≤ 8191 ∧ (∀ f ∈ t.core.loops, f.ck ≠ ck) ∧ t.core.loops.length < 4 ∧ ∀ f ∈ t.core.loops.head?, last ≤ f.last := by
  cases e : t.core.loops with
  | nil => simp [loopBad, e]
  | cons f fs => simp [loopBad, e, and_assoc, Nat.lt_succ_iff]

theorem loopStart : Claims.LoopStart := by
  rintro s h ck immCount body count k n hi rfl ok small counts inside
  have good (none_ : (coreAt s h.t).loops = []) :
      loopBad (s.tile (ckey h.t)) ck ((coreAt s h.t).pc.toNat + body.toNat) = false := by
    rw [loopBad_false]
    refine ⟨by omega, ?_⟩
    rw [show (s.tile (ckey h.t)).core.loops = [] from none_]
    simp
  refine ⟨fun none_ some_ => ?_, fun none_ zero => ?_⟩
  · rw [exec_loop_starts hi ok small (good none_) counts some_ (by omega)]
    simp only [State.modCore, State.modTile]
    rw [show (s.tile (ckey h.t)).core.loops = [] from none_]
  · have count_ : mset (coreAt s h.t).c 0 ck.toNat 0 = mdel (coreAt s h.t).c ck.toNat := if_pos rfl
    rw [exec_loop ok small, issue_go false hi (by rw [loopAct, show loopCount _ immCount count = 0 from counts.symm.trans zero, good none_]; rfl)]
    have lt : (s.tile (ckey h.t)).core.pc.toNat + body.toNat + 1 < 8192 := by
      have : (coreAt s h.t).pc.toNat + body.toNat < 8191 := inside
      simp only [coreAt] at this; omega
    simp only [advanceAt, State.modCore, State.modTile, State.setTile_tile, if_true,
      show (s.tile (ckey h.t)).core.loops = [] from none_, advFrames, lt, State.setTile_setTile, ← count_, coreAt]

theorem loopEnd : Claims.LoopEnd := by
  rintro k f rest n loops ends rfl
  refine ⟨fun more => ?_, fun last outer => ?_⟩
  · have : advFrames k.loops k.c k.pc.toNat = (f :: rest, mput k.c f.ck.toNat (mget k.c 0 f.ck.toNat - 1), f.first) := by
      simp only [loops, advFrames, ends, more, if_true]
    rw [Core.past, this]
    exact ⟨rfl, rfl, mget_mput_self .., fun j hj => mget_mput_ne _ _ _ _ _ hj⟩
  · have tail (c : AMap Word) : advFrames rest c k.pc.toNat = (rest, c, k.pc.toNat + 1) := by
      cases rest with
      | nil => rfl
      | cons g gs => simp [advFrames, outer g (by simp)]
    have : advFrames k.loops k.c k.pc.toNat = (rest, mset k.c 0 f.ck.toNat 0, k.pc.toNat + 1) := by
      simp only [loops, advFrames, ends, Nat.not_lt.2 last, if_true, if_false, tail]
    rw [Core.past, this]
    exact ⟨by simp [BitVec.ofNat_add], rfl, mget_mset_self k.c 0 0 _,
      fun j hj => (mget_mset k.c 0 0 _ j).trans (if_neg hj)⟩

/-- Settles O5: the start by the answer of `loop` with no loop active, the end by what moving on makes of the innermost loop. -/
theorem loops : Obligations.Loops := ⟨loopStart, loopEnd⟩

/-- Settles O6: what R58 forbids is what the model's `loopBad` names. -/
theorem nestedLoops : Obligations.NestedLoops := by
  rintro s h ck immCount body count k n hi rfl ok small counts
  refine ⟨fun forbidden => ?_, fun own inner four fits some_ => ?_⟩
  · refine exec_loop_bad hi ok small (Bool.eq_true_of_not_eq_false fun good => ?_)
    obtain ⟨-, own, four, inner⟩ := loopBad_false.1 good
    rcases forbidden with ⟨f, hf, e⟩ | ⟨f, hf, past⟩ | deep
    · exact own f hf e
    · exact absurd (inner f hf) (Nat.not_le.2 past)
    · exact absurd four (Nat.not_lt.2 deep)
  · exact exec_loop_starts hi ok small (loopBad_false.2 ⟨fits, own, four, inner⟩) counts some_ fits

end Sys2Proof.Machine

/-! ## Proofs: bytes, byte masks and gather entries (R165 to R168) -/

namespace Sys2Proof.Machine

/-! ### Bytes of numbers and words -/

/-- A byte of a word, as a quotient. -/
theorem extractLsb'_byte {w : Nat} (x : BitVec w) (j : Nat) : x.extractLsb' (8 * j) 8 = BitVec.ofNat 8 (x.toNat / 256 ^ j) := by
  rw [BitVec.extractLsb', Nat.shiftRight_eq_div_pow, Nat.pow_mul]

theorem getLsbD_byte (x j k : Nat) (hk : k < 8) : (BitVec.ofNat 8 (x / 256 ^ j)).getLsbD k = x.testBit (8 * j + k) := by
  rw [BitVec.getLsbD_ofNat, show (256 : Nat) = 2 ^ 8 from rfl, ← Nat.pow_mul, Nat.testBit_div_two_pow, Nat.add_comm]
  simp [hk]

/-- Two bytes are one where their bits are. -/
theorem byte_ext {b c : Byte} (h : ∀ k < 8, b.getLsbD k = c.getLsbD k) : b = c := BitVec.eq_of_getLsbD_eq h

theorem getLsbD_byteMask {i n j : Nat} (hj : j < 64) : (byteMask i n).getLsbD j = decide (i ≤ j ∧ j < i + n) := by
  rw [byteMask, BitVec.getLsbD_ofNat, Nat.testBit_mul_two_pow, Nat.testBit_two_pow_sub_one]
  by_cases h : i ≤ j
  · simp [hj, h]; omega
  · simp [h]

/-- Of a sum of the bytes of a mask, each bit is that of its byte's place. -/
theorem testBit_maskSum (m : BitVec 64) (n j k : Nat) (hk : k < 8) :
    ((List.range n).foldl (fun a i => if m.getLsbD i then a + 255 * 256 ^ i else a) 0).testBit (8 * j + k) =
      (decide (j < n) && m.getLsbD j) := by
  have both : ∀ n : Nat, (List.range n).foldl (fun a i => if m.getLsbD i then a + 255 * 256 ^ i else a) 0 < 256 ^ n ∧
      ∀ j, ((List.range n).foldl (fun a i => if m.getLsbD i then a + 255 * 256 ^ i else a) 0).testBit (8 * j + k) =
        (decide (j < n) && m.getLsbD j) := by
    intro n
    induction n with
    | zero => simp
    | succ n ih =>
      obtain ⟨small, bit⟩ := ih
      rw [List.range_succ, List.foldl_append]
      generalize (List.range n).foldl _ 0 = below at small bit
      simp only [List.foldl_cons, List.foldl_nil]
      refine ⟨by split <;> simp only [Nat.pow_succ] <;> omega, fun j => ?_⟩
      have small' : below < 2 ^ (8 * n) := by rw [Nat.pow_mul]; exact small
      have high : below + 255 * 256 ^ n = 2 ^ (8 * n) * 255 + below := by
        rw [Nat.pow_mul, Nat.add_comm, Nat.mul_comm]
      have ones : (255 : Nat).testBit (8 * j + k - 8 * n) = decide (8 * j + k - 8 * n < 8) :=
        Nat.testBit_two_pow_sub_one 8 _
      by_cases hm : m.getLsbD n
      · rw [if_pos hm, high, Nat.testBit_two_pow_mul_add _ small', bit, ones]
        by_cases lt : j < n
        · simp [lt, show 8 * j + k < 8 * n by omega, show j < n + 1 by omega]
        · by_cases eq : j = n
          · subst eq; simp [hk, hm]
          · simp [show ¬8 * j + k < 8 * n by omega, show ¬j < n + 1 by omega]; omega
      · rw [if_neg hm, bit]
        by_cases eq : j = n
        · subst eq; simp [hm]
        · simp [show j < n + 1 ↔ j < n by omega]
  exact (both n).2 j

theorem getLsbD_bitMask (m : BitVec 64) {j k : Nat} (hj : j < 64) (hk : k < 8) :
    (bitMask m).getLsbD (8 * j + k) = m.getLsbD j := by
  rw [bitMask, BitVec.getLsbD_ofNat, testBit_maskSum m 64 j k hk]
  simp [hj, show 8 * j + k < 512 by omega]

/-- Bytes of a number set into place: at each byte, that byte of the number or nothing. -/
theorem getLsbD_placed {v i n j k : Nat} (hj : j < 64) (hk : k < 8) :
    (BitVec.ofNat 512 (v % 256 ^ n * 256 ^ i)).getLsbD (8 * j + k) =
      (decide (i ≤ j ∧ j < i + n) && v.testBit (8 * (j - i) + k)) := by
  rw [BitVec.getLsbD_ofNat, show (256 : Nat) = 2 ^ 8 from rfl, ← Nat.pow_mul, ← Nat.pow_mul, Nat.testBit_mul_two_pow,
    Nat.testBit_mod_two_pow]
  have at_ : 8 * j + k - 8 * i = 8 * (j - i) + k ∨ ¬8 * i ≤ 8 * j + k := by omega
  by_cases h : i ≤ j
  · rcases at_ with e | e
    · rw [e]
      simp [show 8 * j + k < 512 by omega, show 8 * i ≤ 8 * j + k by omega, h]
      by_cases l : j < i + n
      · simp [l, show 8 * (j - i) + k < 8 * n by omega]
      · simp [l, show ¬8 * (j - i) + k < 8 * n by omega]
    · omega
  · simp [h, show ¬8 * i ≤ 8 * j + k by omega]

/-! ### A store merged into its gather entry -/

/-- What a gather entry lays over the bytes of its line. -/
def Gather.over (g : Gather) (below : Nat → Byte) (j : Nat) : Byte :=
  if g.mask.getLsbD j then BitVec.ofNat 8 (g.data.toNat / 256 ^ j) else below j

/-- Bytes merged into a gather entry are laid over what it held (R166). -/
theorem Gather.over_put (g : Gather) (below : Nat → Byte) {i n v j : Nat} (hj : j < 64) :
    (g.put i n v).over below j = if i ≤ j ∧ j < i + n then BitVec.ofNat 8 (v / 256 ^ (j - i)) else g.over below j := by
  have mask : (g.put i n v).mask.getLsbD j = (g.mask.getLsbD j || decide (i ≤ j ∧ j < i + n)) := by
    simp only [Gather.put, BitVec.getLsbD_or, getLsbD_byteMask hj]
  have bit (k : Nat) (hk : k < 8) : (g.put i n v).data.getLsbD (8 * j + k) =
      if i ≤ j ∧ j < i + n then v.testBit (8 * (j - i) + k) else g.data.getLsbD (8 * j + k) := by
    simp only [Gather.put, BitVec.getLsbD_or, BitVec.getLsbD_and, BitVec.getLsbD_not, getLsbD_bitMask _ hj hk,
      getLsbD_byteMask hj, getLsbD_placed hj hk]
    by_cases h : i ≤ j ∧ j < i + n
    · simp [h]
    · simp [h, show 8 * j + k < 512 by omega]
  unfold Gather.over
  rw [mask]
  by_cases h : i ≤ j ∧ j < i + n
  · simp only [h, and_self, decide_true, Bool.or_true, if_true]
    refine byte_ext fun k hk => ?_
    rw [getLsbD_byte _ _ _ hk, getLsbD_byte _ _ _ hk, ← BitVec.getLsbD, bit k hk, if_pos h]
  · simp only [h, decide_false, Bool.or_false, if_false]
    refine if_congr Iff.rfl (byte_ext fun k hk => ?_) rfl
    rw [getLsbD_byte _ _ _ hk, getLsbD_byte _ _ _ hk, ← BitVec.getLsbD, bit k hk, if_neg h, BitVec.getLsbD]

/-- What the pending entry of a line, if it has one, lays over the bytes of the line. -/
def pendingOver (o : Option Gather) (below : Nat → Byte) (j : Nat) : Byte := o.elim (below j) fun g => g.over below j

theorem Bin.visible_eq (b : Bin) (p j : Nat) :
    b.visible p j = pendingOver (b.gatherOf p) (fun j => cellGet b.data (64 * p + j)) j := by
  unfold Bin.visible pendingOver
  cases b.gatherOf p <;> rfl

/-- An entry that holds nothing shows the bytes of its line. -/
theorem Gather.over_empty {g : Gather} (h : g.mask = 0) (below : Nat → Byte) (j : Nat) : g.over below j = below j := by
  simp [Gather.over, h]

/-- Entries of other lines, and those that hold nothing, are not the pending entry of a line. -/
theorem find_gather_append {l r : List Gather} {q : Nat} (h : ∀ g ∈ l, g.line = q → g.mask = 0) :
    ((l ++ r).find? fun g => g.line == q && g.mask != 0) = r.find? fun g => g.line == q && g.mask != 0 := by
  rw [List.find?_append, List.find?_eq_none.2 (by simpa using h)]; rfl

/-- The entries before the one a store is merged into: none of them is a pending one of its line, and the one is pending, or is
the last and holds nothing yet. -/
structure GatherAt (l : List Gather) (p : Nat) (pre : List Gather) (g : Gather) (post : List Gather) : Prop where
  eq : l = pre ++ g :: post
  before : ∀ e ∈ pre, e.line = p → e.mask = 0
  line : g.line = p
  pending : g.mask ≠ 0 ∨ post = []

theorem GatherAt.put {l pre post : List Gather} {p : Nat} {g : Gather} (h : GatherAt l p pre g post) (i n v : Nat) :
    putGather p i n v l = pre ++ g.put i n v :: post := by
  obtain ⟨rfl, before, line, pending⟩ := h
  induction pre with
  | nil =>
    have : (g.line == p && (g.mask != 0 || post.isEmpty)) = true := by simpa [line] using pending
    simp only [List.nil_append, putGather, this, if_true]
  | cons e pre ih =>
    have skip : (e.line == p && (e.mask != 0 || (pre ++ g :: post).isEmpty)) = false := by
      by_cases l : e.line = p
      · simp [before e (by simp) l]
      · simp [l]
    simp only [List.cons_append, putGather, skip, Bool.false_eq_true, if_false, ih fun x hx => before x (List.mem_cons_of_mem e hx)]

/-- At its line, what an entry holds is what an access sees over the bytes of the line. -/
theorem GatherAt.over {l pre post : List Gather} {p : Nat} {g : Gather} (h : GatherAt l p pre g post) (below : Nat → Byte)
    (j : Nat) : pendingOver (l.find? fun g => g.line == p && g.mask != 0) below j = g.over below j := by
  obtain ⟨rfl, before, line, pending⟩ := h
  rw [find_gather_append before, List.find?_cons]
  by_cases hm : g.mask = 0
  · simp [hm, pending.resolve_left (fun c => c hm), pendingOver, Gather.over_empty]
  · have : (g.line == p && g.mask != 0) = true := by simpa [line] using hm
    rw [this]; rfl

/-- The entry put in the place of one of the same line, where it is pending if that was. -/
theorem GatherAt.replace {l pre post : List Gather} {p : Nat} {g e : Gather} (h : GatherAt l p pre g post) (line : e.line = p)
    (grows : g.mask ≠ 0 → e.mask ≠ 0) : GatherAt (pre ++ e :: post) p pre e post :=
  ⟨rfl, h.before, line, h.pending.imp grows id⟩

theorem Gather.put_mask_ne_zero {g : Gather} (h : g.mask ≠ 0) (i n v : Nat) : (g.put i n v).mask ≠ 0 := fun c =>
  h (BitVec.or_eq_zero_iff.1 (show g.mask ||| byteMask i n = 0 from c)).1

/-- The bin with bytes merged into an entry of a line shows those bytes there and every other as before. -/
theorem Bin.visible_put {b : Bin} {pre post : List Gather} {p : Nat} {g : Gather} (h : GatherAt b.gather p pre g post)
    {i n v q j : Nat} (hj : j < 64) :
    ({ b with gather := putGather p i n v b.gather } : Bin).visible q j =
      if q = p ∧ i ≤ j ∧ j < i + n then BitVec.ofNat 8 (v / 256 ^ (j - i)) else b.visible q j := by
  have merged : GatherAt (pre ++ g.put i n v :: post) p pre (g.put i n v) post :=
    h.replace h.line fun hm => Gather.put_mask_ne_zero hm i n v
  rw [Bin.visible_eq, Bin.visible_eq, Bin.gatherOf, Bin.gatherOf, h.put]
  by_cases hq : q = p
  · subst hq
    rw [merged.over, h.over, g.over_put _ hj]
    simp only [true_and]
  · have other (e : Gather) (he : e.line = p) : (e.line == q && e.mask != 0) = false := by simp [he, Ne.symm hq]
    rw [h.eq, List.find?_append, List.find?_append, List.find?_cons, List.find?_cons, other _ h.line, other _ merged.line]
    simp only [hq, false_and, if_false]

/-- Allocation changes no visible byte, and leaves an entry of the line to merge into (R166). -/
theorem Bin.visible_alloc (b : Bin) (p q j : Nat) (hj : j < 64) : (b.alloc p).1.visible q j = b.visible q j := by
  have grown (b : Bin) : ({ b with gather := b.gather ++ [⟨p, 0, 0⟩] } : Bin).visible q j = b.visible q j := by
    simp [Bin.visible_eq, Bin.gatherOf, List.find?_append]
  have dropped (b : Bin) (g : Gather) (r : List Gather) (hb : b.gather = g :: r) (hm : g.mask = 0) :
      ({ b with gather := r } : Bin).visible q j = b.visible q j := by
    simp [Bin.visible_eq, Bin.gatherOf, hb, hm]
  unfold Bin.alloc
  split
  · rfl
  · rename_i hb; simpa [hb] using grown b
  · rename_i g r _ hb
    split
    · have evicted : ∃ e r', (if g.mask = 0 then b else b.writeBack g.line).gather = e :: r' ∧ e.mask = 0 := by
        split
        · exact ⟨g, r, hb, ‹_›⟩
        · exact ⟨g.clearAt g.line, r.map _, by rw [Bin.writeBack_gather, hb]; rfl, Gather.clearAt_mask_of_eq rfl⟩
      have same : (if g.mask = 0 then b else b.writeBack g.line).visible q j = b.visible q j := by
        split
        · rfl
        · exact Bin.visible_writeBack b _ q j hj
      obtain ⟨e, r', he, hm⟩ := evicted
      rw [← same, ← dropped _ e r' he hm, ← grown { (if g.mask = 0 then b else b.writeBack g.line) with gather := r' }]
      simp only [he, List.drop_one, List.tail_cons]
    · exact grown b

theorem Bin.gatherAt_alloc (b : Bin) (p : Nat) : ∃ pre g post, GatherAt (b.alloc p).1.gather p pre g post := by
  cases h : b.gatherOf p with
  | some g =>
    obtain ⟨hg, pre, post, eq, before⟩ := List.find?_eq_some_iff_append.1 h
    simp only [Bool.and_eq_true, beq_iff_eq, bne_iff_ne] at hg
    refine ⟨pre, g, post, ?_, fun e he hl => ?_, hg.1, Or.inl hg.2⟩
    · simp only [Bin.alloc, h]; exact eq
    · simpa [hl] using before e he
  | none =>
    have none_ := Bin.gatherOf_eq_none.1 h
    cases hb : b.gather with
    | nil => exact ⟨[], ⟨p, 0, 0⟩, [], by simp [Bin.alloc, h, hb], by simp, rfl, Or.inr rfl⟩
    | cons g r =>
      by_cases full : 8 ≤ (g :: r).length
      · refine ⟨_, ⟨p, 0, 0⟩, [], by simp only [Bin.alloc, h, hb, if_pos full]; rfl, fun e he hl => ?_, rfl, Or.inr rfl⟩
        have he := List.mem_of_mem_drop he
        split at he
        · exact none_ e he hl
        · rw [Bin.writeBack_gather] at he
          obtain ⟨e', he', rfl⟩ := List.mem_map.1 he
          have := none_ e' he' (by simpa using hl)
          unfold Gather.clearAt; split <;> simp [this]
      · exact ⟨b.gather, ⟨p, 0, 0⟩, [], by simp only [Bin.alloc, h, hb, if_neg full], none_, rfl, Or.inr rfl⟩

/-- A scalar store shows its bytes in its line and every other byte as before (R165, R166). -/
theorem Bin.visible_store (b : Bin) (p i n v q j : Nat) (hj : j < 64) : ((b.store p i n v).1).visible q j =
    if q = p ∧ i ≤ j ∧ j < i + n then BitVec.ofNat 8 (v / 256 ^ (j - i)) else b.visible q j := by
  obtain ⟨pre, g, post, at_⟩ := b.gatherAt_alloc p
  have merged := Bin.visible_put (i := i) (n := n) (v := v) (q := q) at_ hj
  rw [Bin.visible_alloc b p q j hj] at merged
  rw [← merged]
  unfold Bin.store
  dsimp only
  split
  · split
    · exact Bin.visible_writeBack _ p q j hj
    · rfl
  · rfl

end Sys2Proof.Machine

/-! ## Proofs: lines of a bin, their tags and their soundness (R157, R158, R160, R178) -/

namespace Sys2Proof.Machine

/-! ### Sets of numbers -/

theorem mem_sadd {l : List Nat} {k j : Nat} : j ∈ sadd l k ↔ j = k ∨ j ∈ l := by
  induction l with
  | nil => simp [sadd]
  | cons a t ih =>
    simp only [sadd]
    split
    · simp
    · split
      · subst_vars; simp
      · simp only [List.mem_cons, ih]; tauto

theorem mem_sdel {l : List Nat} {k j : Nat} : j ∈ sdel l k ↔ j ≠ k ∧ j ∈ l := by
  induction l with
  | nil => simp [sdel]
  | cons a t ih =>
    simp only [sdel]
    split
    · subst_vars; rw [ih, List.mem_cons]; tauto
    · rw [List.mem_cons, ih, List.mem_cons]
      constructor
      · rintro (rfl | h)
        · exact ⟨‹_›, Or.inl rfl⟩
        · exact ⟨h.1, Or.inr h.2⟩
      · rintro ⟨h, e | m⟩
        · exact Or.inl e
        · exact Or.inr ⟨h, m⟩

theorem contains_sset (l : List Nat) (k j : Nat) (b : Bool) :
    (sset l k b).contains j = if j = k then b else l.contains j := by
  rw [Bool.eq_iff_iff]
  by_cases h : j = k <;> cases b <;> simp [sset, mem_sadd, mem_sdel, h]

/-! ### Writes of a line -/

theorem Bin.tag_write (b : Bin) (p q data : Nat) (mask : BitVec 64) (poison : Bool) : (b.write p mask data poison).tag q =
    if q = p ∧ (mask = BitVec.allOnes 64 ∨ poison = true) then poison else b.tag q := by
  by_cases h : mask = BitVec.allOnes 64 ∨ poison = true
  · have : (mask == BitVec.allOnes 64 || poison) = true := by simpa using h
    simp only [Bin.tag, Bin.write, this, if_true, contains_sset, h, and_true]
  · have : (mask == BitVec.allOnes 64 || poison) = false := by simpa using h
    simp only [Bin.tag, Bin.write, this, Bool.false_eq_true, if_false, h, and_false]

/-- A sound line stays so under any write (R158, R178). -/
theorem Bin.lineOk_write {b : Bin} {q : Nat} (h : b.lineOk q = true) (p data : Nat) (mask : BitVec 64) (poison : Bool) :
    (b.write p mask data poison).lineOk q = true := by
  simp only [Bin.lineOk, Bool.and_eq_true, Bool.not_eq_true', beq_iff_eq, List.any_eq_false] at h ⊢
  refine ⟨fun a ha => h.1 a (List.mem_of_mem_filter ha), ?_⟩
  simp only [Bin.write]
  split
  · rw [contains_sset, contains_sset, h.2]
  · exact h.2

/-- A full-line write leaves its line sound (R158). -/
theorem Bin.lineOk_writeLine (b : Bin) (p data : Nat) (poison : Bool) : (b.writeLine p data poison).lineOk p = true := by
  simp only [Bin.lineOk, Bin.writeLine, Bin.write, Bool.and_eq_true, Bool.not_eq_true', beq_iff_eq, List.any_eq_false,
    beq_self_eq_true, Bool.true_or, if_true, contains_sset, and_true, List.mem_filter, and_imp]
  intro a _ clean line
  refine clean (64 * p + a % 64, BitVec.ofNat 8 (data / 256 ^ (a % 64))) (mem_maskBytes.2 ⟨a % 64, by omega, ?_, rfl⟩) (by omega)
  rw [BitVec.getLsbD_allOnes]; simp; omega

@[simp] theorem Bin.gatherOf_write (b : Bin) (p q data : Nat) (mask : BitVec 64) (poison : Bool) :
    (b.write p mask data poison).gatherOf q = b.gatherOf q := rfl

/-- A line written whole, its pending entry first, shows its new bytes, and every other line its old ones (R168, R178). -/
theorem Bin.visible_writeLine (b : Bin) (p q j data : Nat) (poison : Bool) (hj : j < 64) :
    ((b.writeBack p).writeLine p data poison).visible q j =
      if q = p then BitVec.ofNat 8 (data / 256 ^ j) else b.visible q j := by
  rw [← Bin.visible_writeBack b p q j hj, Bin.visible_eq, Bin.visible_eq, Bin.writeLine, Bin.gatherOf_write, Bin.gatherOf_writeBack]
  have written := (b.writeBack p).cellGet_write p q j data (BitVec.allOnes 64) poison hj
  simp only [BitVec.getLsbD_allOnes, hj, decide_true, and_true] at written
  by_cases h : q = p
  · subst h; simpa [pendingOver] using written
  · have same (i : Nat) (hi : i < 64) : cellGet ((b.writeBack p).write p (BitVec.allOnes 64) data poison).data (64 * q + i) =
        cellGet (b.writeBack p).data (64 * q + i) := by
      rw [Bin.cellGet_write _ _ _ _ _ _ _ hi, if_neg (fun c => h c.1)]
    rw [if_neg h, if_neg h]
    cases b.gatherOf q with
    | none => exact same j hj
    | some g => simp only [pendingOver, Option.elim, Gather.over, same j hj]

theorem Bin.tag_writeLine (b : Bin) (p q data : Nat) (poison : Bool) :
    (b.writeLine p data poison).tag q = if q = p then poison else b.tag q := by
  rw [Bin.writeLine, Bin.tag_write]; simp

theorem Bin.tag_writeBack_ne (b : Bin) {p q : Nat} (h : q ≠ p) : (b.writeBack p).tag q = b.tag q := by
  cases hg : b.gatherOf p with
  | none => rw [Bin.writeBack_of_none hg]
  | some g => rw [Bin.writeBack_of_some hg]; exact (b.tag_write p q g.data.toNat g.mask false).trans (if_neg fun c => h c.1)

/-- A sound line stays so when entries are written back. -/
theorem Bin.lineOk_writeBack {b : Bin} {q : Nat} (h : b.lineOk q = true) (p : Nat) : (b.writeBack p).lineOk q = true := by
  cases hg : b.gatherOf p with
  | none => rw [Bin.writeBack_of_none hg]; exact h
  | some g => rw [Bin.writeBack_of_some hg]; exact Bin.lineOk_write h p _ _ false

/-! ### The bytes of a line -/

theorem leNat_lt (l : List Byte) : leNat l < 256 ^ l.length := by
  induction l with
  | nil => simp [leNat]
  | cons b t ih => simp only [leNat, List.length_cons, Nat.pow_succ]; omega

theorem leNat_byte (l : List Byte) (j : Nat) : BitVec.ofNat 8 (leNat l / 256 ^ j) = l.getD j 0 := by
  induction l generalizing j with
  | nil => simp [leNat]
  | cons b t ih =>
    cases j with
    | zero => apply BitVec.eq_of_toNat_eq; simp only [leNat, BitVec.toNat_ofNat, List.getD_cons_zero, Nat.pow_zero]; omega
    | succ j =>
      rw [List.getD_cons_succ, ← ih, Nat.pow_succ', ← Nat.div_div_eq_div_mul]
      congr 2
      simp only [leNat]; omega

theorem cellRead_getD (m : List Host.Cell) (a : Nat) {n j : Nat} (h : j < n) : (cellRead m a n).getD j 0 = cellGet m (a + j) := by
  induction n generalizing a j with
  | zero => omega
  | succ n ih =>
    cases j with
    | zero => rfl
    | succ j => rw [cellRead, List.getD_cons_succ, ih _ (by omega)]; congr 1; omega

theorem Bin.lineNat_byte (b : Bin) (p : Nat) {j : Nat} (hj : j < 64) :
    BitVec.ofNat 8 (b.lineNat p / 256 ^ j) = cellGet b.data (64 * p + j) := by
  rw [Bin.lineNat, leNat_byte, cellRead_getD _ _ hj]

theorem Bin.lineNat_lt (b : Bin) (p : Nat) : b.lineNat p < 256 ^ 64 := by
  have := leNat_lt (cellRead b.data (64 * p) 64)
  rwa [cellRead_length] at this

/-- A line without a pending entry shows its stored bytes. -/
theorem Bin.visible_of_none {b : Bin} {p : Nat} (h : b.gatherOf p = none) (j : Nat) :
    b.visible p j = cellGet b.data (64 * p + j) := by
  rw [Bin.visible_eq, h]; rfl

/-! ### Handles and addresses -/

theorem firstUnmapped_eq_none {t : Tile} {l n : Nat} :
    firstUnmapped t l n = none ↔ ∀ i < n, (physLine t (l + i)).isSome = true := by
  simp only [firstUnmapped, List.findSome?_eq_none_iff, List.mem_range, ite_eq_right_iff, reduceCtorEq, imp_false,
    Option.isNone_iff_eq_none, Option.isSome_iff_ne_none]

theorem signed_toNat {w : Nat} (v : BitVec w) : signed w v.toNat = v.toInt := by
  simp only [signed, Nat.mod_eq_of_lt v.isLt, BitVec.toInt]
  split <;> simp

/-- The effective address as the rule gives it: base plus scaled signed offset, 32 bits (R65). -/
theorem effAddr_eq {w : Nat} (base : Word) (off : BitVec w) (n : Nat) :
    effAddr base w off.toNat n = (base + BitVec.ofInt 32 (off.toInt * n)).toNat := by rw [effAddr, signed_toNat]

section
variable {t : Tile} {a align n : Nat}

/-- An address in range, aligned, all of whose lines are mapped takes no exception. -/
theorem addrFault_none (range : a < 2 ^ 18) (aligned : a % align = 0)
    (mapped : ∀ i < n, (physLine t (a / 64 + i)).isSome = true) : addrFault t a align n = none := by
  rw [addrFault, if_neg (by omega), if_neg (by simp [aligned]), firstUnmapped_eq_none.2 mapped]

theorem addrFault_range (h : 2 ^ 18 ≤ a) : addrFault t a align n = some (.exc 3 (a % 2 ^ 29)) := if_pos h

theorem addrFault_align (range : a < 2 ^ 18) (h : a % align ≠ 0) : addrFault t a align n = some (.exc 2 a) := by
  rw [addrFault, if_neg (by omega), if_pos (by simpa using h)]

theorem addrFault_unmapped (range : a < 2 ^ 18) (aligned : a % align = 0) (h : physLine t (a / 64) = none) :
    addrFault t a align 1 = some (.exc 3 (64 * (a / 64))) := by
  have first : firstUnmapped t (a / 64) 1 = some (a / 64) := by simp [firstUnmapped, h]
  rw [addrFault, if_neg (by omega), if_neg (by simp [aligned]), first]
  simp only
  rw [Nat.mod_eq_of_lt (by omega)]

end

end Sys2Proof.Machine

/-! ## Proofs: scalar loads and stores (R50, R65, R166, R167) -/

namespace Sys2Proof.Machine

/-! ### Stores -/

section
variable {s : State} {h : Hdr} {r base : BitVec 5} {off : BitVec 11} {n a q : Nat}

/-- A scalar store to an aligned, mapped address merges its bytes and moves on (R166). -/
theorem scalarStore_done (hi : Issues s h) (hf : (coreAt s h.t).fits) (hu : Untraced s h.t)
    (addr : a = ((coreAt s h.t).sreg base + BitVec.ofInt 32 (off.toInt * n)).toNat) (range : a < 2 ^ 18) (aligned : a % n = 0)
    (mapped : physLine (s.tile (ckey h.t)) (a / 64) = some q) :
    scalarStore h r base off n s = .next (s.modTile (ckey h.t) fun t =>
      { t with core := t.core.past, bin := (t.bin.store q (a % 64) n (t.core.sreg r).toNat).1 }) := by
  have noFault : addrFault (s.tile (ckey h.t)) (effAddr ((coreAt s h.t).sreg base) 11 off.toNat n) n 1 = none := by
    rw [effAddr_eq, ← addr]
    exact addrFault_none range aligned fun i hi => by rw [show i = 0 by omega, Nat.add_zero, mapped]; rfl
  have at_ : effAddr ((coreAt s h.t).sreg base) 11 off.toNat n = a := by rw [effAddr_eq, addr]
  unfold scalarStore
  rw [issue_fin (u := s.modTile (ckey h.t) fun t => { t with bin := (t.bin.store q (a % 64) n (t.core.sreg r).toNat).1 }) false hi]
  · exact congrArg _ (advance_modTile hf)
  · dsimp only
    rw [noFault, at_, mapped]
    exact congrArg _ (traceWriteBacks_untraced (s := s.setTile _ _) hu _)

end

theorem storeResults : Claims.StoreResults := by
  rintro s h r base off t hi hf hu rfl
  have store (n a q : Nat) (addr : a = ((s.tile (ckey h.t)).core.sreg base + BitVec.ofInt 32 (off.toInt * n)).toNat)
      (range : a < 2 ^ 18) (aligned : a % n = 0) (mapped : physLine (s.tile (ckey h.t)) (a / 64) = some q) :
      ∃ u, scalarStore h r base off n s = .next u ∧ OnlyTile s u (ckey h.t) ∧
        u.tile (ckey h.t) = { s.tile (ckey h.t) with core := (s.tile (ckey h.t)).core.past, bin := (u.tile (ckey h.t)).bin } ∧
        (∀ l j, j < 64 → (u.tile (ckey h.t)).bin.visible l j =
          if l = q ∧ a % 64 ≤ j ∧ j < a % 64 + n then BitVec.ofNat 8 (((s.tile (ckey h.t)).core.sreg r).toNat / 256 ^ (j - a % 64))
          else (s.tile (ckey h.t)).bin.visible l j) := by
    refine ⟨_, scalarStore_done hi hf hu addr range aligned mapped, onlyTile_modTile .., ?_, fun l j hj => ?_⟩
    · rw [State.modTile_tile_self]
    · rw [State.modTile_tile_self]; exact Bin.visible_store _ q _ n _ l j hj
  simp only [List.forall_mem_cons, List.not_mem_nil, false_imp_iff, implies_true, and_true]
  exact ⟨store 4, store 2, store 1⟩

/-- Settles O7: the bytes by what a store makes of its gather entry, the rest by the answer of a store. -/
theorem stores : Obligations.Stores := ⟨fun b p i n v q j _ hj => b.visible_store p i n v q j hj, storeResults⟩

/-! ### Loads -/

/-- Each byte of a scalar access is the one that is visible there (R167). -/
theorem scalarBytes_byte (t : Tile) (q i n j : Nat) (hj : j < n) (inside : i + j < 64) :
    BitVec.ofNat 8 (scalarBytes t q i n / 256 ^ j) = t.bin.visible q (i + j) := by
  have stored : ∀ k < 8, (BitVec.ofNat 512 (t.bin.lineNat q)).getLsbD (8 * (i + j) + k) =
      (cellGet t.bin.data (64 * q + (i + j))).getLsbD k := fun k hk => by
    rw [← Bin.lineNat_byte _ _ inside, getLsbD_byte _ _ _ hk, BitVec.getLsbD_ofNat]
    simp [show 8 * (i + j) + k < 512 by omega]
  have cut (d : LineData) (k : Nat) (hk : k < 8) :
      (BitVec.ofNat 8 (d.toNat / 256 ^ i % 256 ^ n / 256 ^ j)).getLsbD k = d.getLsbD (8 * (i + j) + k) := by
    rw [getLsbD_byte _ _ _ hk, show (256 : Nat) = 2 ^ 8 from rfl, ← Nat.pow_mul, ← Nat.pow_mul, Nat.testBit_mod_two_pow,
      Nat.testBit_div_two_pow, BitVec.getLsbD]
    simp [show 8 * j + k < 8 * n by omega, show 8 * j + k + 8 * i = 8 * (i + j) + k by omega]
  rw [Bin.visible_eq]
  refine byte_ext fun k hk => ?_
  unfold scalarBytes
  dsimp only
  rw [cut _ _ hk]
  cases t.bin.gatherOf q with
  | none => exact stored k hk
  | some g =>
    simp only [BitVec.getLsbD_or, BitVec.getLsbD_and, BitVec.getLsbD_not, getLsbD_bitMask _ inside hk, stored k hk,
      show 8 * (i + j) + k < 512 by omega, decide_true, Bool.true_and, pendingOver, Option.elim, Gather.over]
    cases g.mask.getLsbD (i + j)
    · simp
    · simp only [Bool.not_true, Bool.and_false, Bool.false_or, Bool.and_true, if_true]
      rw [getLsbD_byte _ _ _ hk]; rfl

theorem scalarBytes_lt (t : Tile) (q i n : Nat) : scalarBytes t q i n < 256 ^ n := Nat.mod_lt _ (by positivity)

/-- The word a load of `n` bytes writes, sign- or zero-extended (R50). -/
def loadWord (n : Nat) (sext : Bool) (v : Nat) : Word := if sext then BitVec.ofInt 32 (signed (8 * n) v) else BitVec.ofNat 32 v

theorem loadWord_signed (n v : Nat) : loadWord n true v = (BitVec.ofNat (8 * n) v).signExtend 32 := by
  have : signed (8 * n) v = (BitVec.ofNat (8 * n) v).toInt := by
    rw [← signed_toNat, BitVec.toNat_ofNat]; simp [signed]
  rw [loadWord, if_pos rfl, this]; rfl

theorem loadWord_byte {n j v : Nat} (sext : Bool) (hj : j < n) (hn : n ≤ 4) :
    (loadWord n sext v).extractLsb' (8 * j) 8 = BitVec.ofNat 8 (v / 256 ^ j) := by
  refine byte_ext fun k hk => ?_
  rw [getLsbD_byte _ _ _ hk, BitVec.getLsbD_extractLsb']
  cases sext
  · rw [loadWord, if_neg (by decide), BitVec.getLsbD_ofNat]
    simp [hk, show 8 * j + k < 32 by omega]
  · rw [loadWord_signed, BitVec.getLsbD_signExtend, BitVec.getLsbD_ofNat]
    simp [hk, show 8 * j + k < 32 by omega, show 8 * j + k < 8 * n by omega]

/-- A sign-extended load of fewer than four bytes stays in the range of its width. -/
theorem loadWord_range {n : Nat} (v : Nat) (pos : 0 < n) (hn : n ≤ 4) :
    -(128 * 256 ^ (n - 1) : Int) ≤ (loadWord n true v).toInt ∧ (loadWord n true v).toInt < 128 * 256 ^ (n - 1) := by
  rw [loadWord_signed, BitVec.toInt_signExtend_of_le (by omega)]
  have half : (2 ^ (8 * n - 1) : Int) = 128 * 256 ^ (n - 1) := by
    obtain ⟨m, rfl⟩ : ∃ m, n = m + 1 := ⟨n - 1, by omega⟩
    rw [show 8 * (m + 1) - 1 = 7 + 8 * m by omega, pow_add, pow_mul]; norm_num
  rw [← half]
  exact ⟨BitVec.le_toInt _, BitVec.toInt_lt⟩

section
variable {s : State} {h : Hdr} {r base : BitVec 5} {off : BitVec 11} {n a q : Nat}

/-- A scalar load from a sound, untagged line writes the bytes an access sees there, and moves on (R167). -/
theorem scalarLoad_done (sext : Bool) (hi : Issues s h) (hf : (coreAt s h.t).fits) (hu : Untraced s h.t)
    (addr : a = ((coreAt s h.t).sreg base + BitVec.ofInt 32 (off.toInt * n)).toNat) (range : a < 2 ^ 18) (aligned : a % n = 0)
    (mapped : physLine (s.tile (ckey h.t)) (a / 64) = some q) (sound : (s.tile (ckey h.t)).bin.lineOk q = true)
    (clean : (s.tile (ckey h.t)).bin.tag q = false) :
    scalarLoad h r base off n sext s = .next (s.modCore h.t fun k =>
      (k.setS r (loadWord n sext (scalarBytes (s.tile (ckey h.t)) q (a % 64) n))).past) := by
  have at_ : effAddr ((coreAt s h.t).sreg base) 11 off.toNat n = a := by rw [effAddr_eq, addr]
  have noFault : addrFault (s.tile (ckey h.t)) a n 1 = none :=
    addrFault_none range aligned fun i hi => by rw [show i = 0 by omega, Nat.add_zero, mapped]; rfl
  refine issue_fin_modCore false _ (fun k => k.setS r _) hi ?_ (by simpa using hf)
  dsimp only
  rw [at_, noFault, mapped]
  simp only [Option.getD_some, sound, clean, Bool.not_true, Bool.false_eq_true, if_false, traceRecord_untraced hu]
  rfl

end

theorem loadResults : Claims.LoadResults := by
  rintro s h r base off t hi hf hu rfl
  have load (n : Nat) (sext : Bool) (pos : 0 < n) (small : n ≤ 4) (div : n ∣ 64) (a q : Nat)
      (addr : a = ((s.tile (ckey h.t)).core.sreg base + BitVec.ofInt 32 (off.toInt * n)).toNat) (range : a < 2 ^ 18)
      (aligned : a % n = 0) (mapped : physLine (s.tile (ckey h.t)) (a / 64) = some q)
      (sound : (s.tile (ckey h.t)).bin.lineOk q = true) (clean : (s.tile (ckey h.t)).bin.tag q = false) :
      ∃ w : Word, scalarLoad h r base off n sext s = .next (s.modCore h.t fun k => (k.setS r w).past) ∧
        (∀ j, j < n → w.extractLsb' (8 * j) 8 = (s.tile (ckey h.t)).bin.visible q (a % 64 + j)) ∧
        (sext = false → w.toNat < 256 ^ n) ∧
        (sext = true → -(128 * 256 ^ (n - 1) : Int) ≤ w.toInt ∧ w.toInt < 128 * 256 ^ (n - 1)) := by
    refine ⟨_, scalarLoad_done sext hi hf hu addr range aligned mapped sound clean, fun j hj => ?_, ?_, ?_⟩
    · have inside : a % 64 + n ≤ 64 := by
        obtain ⟨m, hm⟩ := div
        have : a % 64 % n = 0 := by rw [Nat.mod_mod_of_dvd _ ⟨m, hm⟩]; exact aligned
        obtain ⟨d, hd⟩ := Nat.dvd_of_mod_eq_zero this
        have : d < m := by
          have lt : n * d < n * m := by rw [← hd, ← hm]; exact Nat.mod_lt _ (by omega)
          exact Nat.lt_of_mul_lt_mul_left lt
        rw [hd, hm]; exact Nat.mul_le_mul_left n this
      rw [loadWord_byte sext hj small, scalarBytes_byte _ _ _ _ _ hj (by omega)]
    · rintro rfl
      exact Nat.lt_of_le_of_lt (by simpa [loadWord] using Nat.mod_le _ _) (scalarBytes_lt ..)
    · rintro rfl; exact loadWord_range _ pos small
  exact List.forall_mem_cons.2 ⟨load 4 false (by omega) (by omega) ⟨16, rfl⟩, List.forall_mem_cons.2
    ⟨load 2 false (by omega) (by omega) ⟨32, rfl⟩, List.forall_mem_cons.2 ⟨load 2 true (by omega) (by omega) ⟨32, rfl⟩,
      List.forall_mem_cons.2 ⟨load 1 false (by omega) (by omega) ⟨64, rfl⟩, List.forall_mem_cons.2
        ⟨load 1 true (by omega) (by omega) ⟨64, rfl⟩, List.forall_mem_nil _⟩⟩⟩⟩⟩

/-! ### Exceptions -/

section
variable {s : State} {h : Hdr} {r base : BitVec 5} {off : BitVec 11} {n a code detail : Nat}

/-- A bad address of a scalar load takes its exception. -/
theorem scalarLoad_fault (sext : Bool) (hi : Issues s h)
    (addr : a = ((coreAt s h.t).sreg base + BitVec.ofInt 32 (off.toInt * n)).toNat)
    (fault : addrFault (s.tile (ckey h.t)) a n 1 = some (.exc code detail)) :
    scalarLoad h r base off n sext s = .next (takeExc s h.t code (coreAt s h.t).pc.toNat false detail) := by
  refine issue_exc false hi ?_
  have at_ : effAddr ((coreAt s h.t).sreg base) 11 off.toNat n = a := by rw [effAddr_eq, addr]
  dsimp only
  rw [at_, fault]

/-- A bad address of a scalar store takes its exception. -/
theorem scalarStore_fault (hi : Issues s h)
    (addr : a = ((coreAt s h.t).sreg base + BitVec.ofInt 32 (off.toInt * n)).toNat)
    (fault : addrFault (s.tile (ckey h.t)) a n 1 = some (.exc code detail)) :
    scalarStore h r base off n s = .next (takeExc s h.t code (coreAt s h.t).pc.toNat false detail) := by
  refine issue_exc false hi ?_
  have at_ : effAddr ((coreAt s h.t).sreg base) 11 off.toNat n = a := by rw [effAddr_eq, addr]
  dsimp only
  rw [at_, fault]

/-- A load of a tagged line that is sound takes POISON_CONSUMED (R179). -/
theorem scalarLoad_poisoned (sext : Bool) {q : Nat} (hi : Issues s h)
    (addr : a = ((coreAt s h.t).sreg base + BitVec.ofInt 32 (off.toInt * n)).toNat) (range : a < 2 ^ 18) (aligned : a % n = 0)
    (mapped : physLine (s.tile (ckey h.t)) (a / 64) = some q) (sound : (s.tile (ckey h.t)).bin.lineOk q = true)
    (tagged : (s.tile (ckey h.t)).bin.tag q = true) :
    scalarLoad h r base off n sext s = .next (takeExc s h.t 8 (coreAt s h.t).pc.toNat false (64 * (a / 64))) := by
  have at_ : effAddr ((coreAt s h.t).sreg base) 11 off.toNat n = a := by rw [effAddr_eq, addr]
  have noFault : addrFault (s.tile (ckey h.t)) a n 1 = none :=
    addrFault_none range aligned fun i hi => by rw [show i = 0 by omega, Nat.add_zero, mapped]; rfl
  refine issue_exc false hi ?_
  dsimp only
  rw [at_, noFault, mapped]
  simp only [Option.getD_some, sound, tagged, Bool.not_true, Bool.false_eq_true, if_false, if_true]

end

theorem scalarAccessFaults : Claims.ScalarAccessFaults := by
  rintro s h r base off t hi - rfl
  have load (n : Nat) (sext : Bool) (a : Nat)
      (addr : a = ((s.tile (ckey h.t)).core.sreg base + BitVec.ofInt 32 (off.toInt * n)).toNat) :
      (2 ^ 18 ≤ a → scalarLoad h r base off n sext s =
        .next (takeExc s h.t 3 (s.tile (ckey h.t)).core.pc.toNat false (a % 2 ^ 29))) ∧
      (a < 2 ^ 18 → a % n ≠ 0 → scalarLoad h r base off n sext s =
        .next (takeExc s h.t 2 (s.tile (ckey h.t)).core.pc.toNat false a)) ∧
      (a < 2 ^ 18 → a % n = 0 → physLine (s.tile (ckey h.t)) (a / 64) = none → scalarLoad h r base off n sext s =
        .next (takeExc s h.t 3 (s.tile (ckey h.t)).core.pc.toNat false (64 * (a / 64)))) ∧
      (∀ q, true = true → a < 2 ^ 18 → a % n = 0 → physLine (s.tile (ckey h.t)) (a / 64) = some q →
        (s.tile (ckey h.t)).bin.lineOk q = true → (s.tile (ckey h.t)).bin.tag q = true → scalarLoad h r base off n sext s =
          .next (takeExc s h.t 8 (s.tile (ckey h.t)).core.pc.toNat false (64 * (a / 64)))) :=
    ⟨fun range => scalarLoad_fault sext hi addr (addrFault_range range),
      fun range misaligned => scalarLoad_fault sext hi addr (addrFault_align range misaligned),
      fun range aligned unmapped => scalarLoad_fault sext hi addr (addrFault_unmapped range aligned unmapped),
      fun q _ range aligned mapped sound tagged => scalarLoad_poisoned sext hi addr range aligned mapped sound tagged⟩
  have store (n a : Nat) (addr : a = ((s.tile (ckey h.t)).core.sreg base + BitVec.ofInt 32 (off.toInt * n)).toNat) :
      (2 ^ 18 ≤ a → scalarStore h r base off n s =
        .next (takeExc s h.t 3 (s.tile (ckey h.t)).core.pc.toNat false (a % 2 ^ 29))) ∧
      (a < 2 ^ 18 → a % n ≠ 0 → scalarStore h r base off n s =
        .next (takeExc s h.t 2 (s.tile (ckey h.t)).core.pc.toNat false a)) ∧
      (a < 2 ^ 18 → a % n = 0 → physLine (s.tile (ckey h.t)) (a / 64) = none → scalarStore h r base off n s =
        .next (takeExc s h.t 3 (s.tile (ckey h.t)).core.pc.toNat false (64 * (a / 64)))) ∧
      (∀ q, false = true → a < 2 ^ 18 → a % n = 0 → physLine (s.tile (ckey h.t)) (a / 64) = some q →
        (s.tile (ckey h.t)).bin.lineOk q = true → (s.tile (ckey h.t)).bin.tag q = true → scalarStore h r base off n s =
          .next (takeExc s h.t 8 (s.tile (ckey h.t)).core.pc.toNat false (64 * (a / 64)))) :=
    ⟨fun range => scalarStore_fault hi addr (addrFault_range range),
      fun range misaligned => scalarStore_fault hi addr (addrFault_align range misaligned),
      fun range aligned unmapped => scalarStore_fault hi addr (addrFault_unmapped range aligned unmapped),
      fun _ isLoad => absurd isLoad (by decide)⟩
  exact List.forall_mem_cons.2 ⟨load 4 false, List.forall_mem_cons.2 ⟨load 2 false, List.forall_mem_cons.2 ⟨load 2 true,
    List.forall_mem_cons.2 ⟨load 1 false, List.forall_mem_cons.2 ⟨load 1 true, List.forall_mem_cons.2 ⟨store 4,
      List.forall_mem_cons.2 ⟨store 2, List.forall_mem_cons.2 ⟨store 1, List.forall_mem_nil _⟩⟩⟩⟩⟩⟩⟩⟩

/-- Settles O8: the loaded bytes are the visible ones, and the exceptions are those of the address and of the tag. -/
theorem scalarLoads : Obligations.ScalarLoads := ⟨loadResults, scalarAccessFaults⟩

end Sys2Proof.Machine

/-! ## Proofs: gather entries of a span written back before an access (R168) -/

namespace Sys2Proof.Machine

/-- The bin after the pending entries of some lines from a logical line on were written back. -/
def flushedBin (t : Tile) (l : Nat) : Nat → Bin
  | 0 => t.bin
  | n + 1 =>
    match physLine t (l + n) with
    | some q => (flushedBin t l n).writeBack q
    | none => flushedBin t l n

/-- What holds of a bin and is kept by each write-back holds of it after a span is written back. -/
theorem flushedBin_induction {P : Bin → Prop} {t : Tile} (start : P t.bin) (step : ∀ b q, P b → P (b.writeBack q)) (l n : Nat) :
    P (flushedBin t l n) := by
  induction n with
  | zero => exact start
  | succ n ih =>
    simp only [flushedBin]
    split
    · exact step _ _ ih
    · exact ih

theorem visible_flushedBin (t : Tile) (l n q j : Nat) (hj : j < 64) : (flushedBin t l n).visible q j = t.bin.visible q j :=
  flushedBin_induction (P := fun b => b.visible q j = t.bin.visible q j) rfl
    (fun b p ih => (Bin.visible_writeBack b p q j hj).trans ih) l n

theorem lineOk_flushedBin {t : Tile} {q : Nat} (h : t.bin.lineOk q = true) (l n : Nat) : (flushedBin t l n).lineOk q = true :=
  flushedBin_induction (P := fun b => b.lineOk q = true) h (fun _ p ih => Bin.lineOk_writeBack ih p) l n

theorem gatherOf_writeBack_none {b : Bin} {q : Nat} (h : b.gatherOf q = none) (p : Nat) : (b.writeBack p).gatherOf q = none := by
  rw [Bin.gatherOf_writeBack, h, ite_self]

/-- No entry of a mapped line of the span is pending after the write-back. -/
theorem gatherOf_flushedBin {t : Tile} {l i n q : Nat} (hi : i < n) (mapped : physLine t (l + i) = some q) :
    (flushedBin t l n).gatherOf q = none := by
  induction n with
  | zero => omega
  | succ n ih =>
    simp only [flushedBin]
    rcases Nat.lt_succ_iff_lt_or_eq.1 hi with lt | rfl
    · split
      · exact gatherOf_writeBack_none (ih lt) _
      · exact ih lt
    · rw [mapped]; simp only [Bin.gatherOf_writeBack, if_true]

section
variable {s : State} {p : Coord}

theorem flushSpan_succ (s : State) (p : Coord) (l n : Nat) :
    flushSpan s p l (n + 1) = flushSpan (flushSpan s p l n) p (l + n) 1 := by
  simp only [flushSpan, List.range_succ, List.foldl_append, List.range_zero, List.foldl_nil, List.foldl_cons, Nat.add_zero]

/-- A line that is not mapped, or of which nothing is pending, needs no write-back. -/
theorem flushSpan_one_clean {l : Nat} (h : ∀ q ∈ physLine (s.tile (ckey p)) l, (s.tile (ckey p)).bin.gatherOf q = none) :
    flushSpan s p l 1 = s := by
  simp only [flushSpan, List.range_one, List.foldl_cons, List.foldl_nil, Nat.add_zero]
  split
  · rename_i q hq; simp [h q hq]
  · rfl

theorem flushSpan_one_pending {l q : Nat} (hu : Untraced s p) (mapped : physLine (s.tile (ckey p)) l = some q)
    (pending : (s.tile (ckey p)).bin.gatherOf q ≠ none) :
    flushSpan s p l 1 = s.modTile (ckey p) fun t => { t with bin := t.bin.writeBack q } := by
  simp only [flushSpan, List.range_one, List.foldl_cons, List.foldl_nil, Nat.add_zero, mapped,
    Option.isSome_iff_ne_none.2 pending, if_true]
  exact traceRecord_untraced (s := s.modTile _ _) hu _ _ _

/-- Without trace capture the write-back of a span changes the bin of its tile and nothing else (R168). -/
theorem flushSpan_spec (hu : Untraced s p) (l n : Nat) :
    (∀ u, (flushSpan s p l n).setTile (ckey p) u = s.setTile (ckey p) u) ∧
    (flushSpan s p l n).tile (ckey p) = { s.tile (ckey p) with bin := flushedBin (s.tile (ckey p)) l n } := by
  induction n with
  | zero => exact ⟨fun u => rfl, rfl⟩
  | succ n ih =>
    rw [flushSpan_succ]
    generalize flushSpan s p l n = f at ih
    obtain ⟨set, tile⟩ := ih
    have lines : physLine (f.tile (ckey p)) (l + n) = physLine (s.tile (ckey p)) (l + n) := by rw [tile]; rfl
    have ctxs : f.ctxs = s.ctxs := by simpa using congrArg State.ctxs (set {})
    have untraced : Untraced f p := fun c x hx => hu c x (by rw [← hx, ctxAt, ctxAt, ctxs])
    by_cases clean : ∀ q ∈ physLine (f.tile (ckey p)) (l + n), (f.tile (ckey p)).bin.gatherOf q = none
    · rw [flushSpan_one_clean clean]
      refine ⟨set, tile.trans ?_⟩
      rw [lines, tile] at clean
      simp only [flushedBin]
      split
      · rename_i q hq; rw [Bin.writeBack_of_none (clean q hq)]
      · rfl
    · push Not at clean
      obtain ⟨q, mapped, pending⟩ := clean
      rw [flushSpan_one_pending untraced mapped pending]
      rw [Option.mem_def, lines] at mapped
      refine ⟨fun u => (State.setTile_setTile ..).trans (set u), ?_⟩
      rw [State.modTile_tile_self, tile]
      simp only [flushedBin, mapped]

end

end Sys2Proof.Machine

/-! ## Proofs: vector loads and stores (R50, R65, R168, R178, R179) -/

namespace Sys2Proof.Machine

/-- A tile written and moved past its instruction, where its core stands in range. -/
theorem advance_setTile {s : State} {p : Coord} {t : Tile} (hf : t.core.fits) :
    advance (s.setTile (ckey p) t) p = s.setTile (ckey p) { t with core := t.core.past } := by
  have self : (s.setTile (ckey p) t).tile (ckey p) = t := by rw [State.setTile_tile, if_pos rfl]
  rw [advance_fits _ _ (by rwa [coreAt, self]), State.modCore, State.modTile, self, State.setTile_setTile]

/-- A byte of a part of a number above a power of 256. -/
theorem byte_mod {x i j : Nat} (h : j < i) : BitVec.ofNat 8 (x % 256 ^ i / 256 ^ j) = BitVec.ofNat 8 (x / 256 ^ j) := by
  refine byte_ext fun k hk => ?_
  rw [getLsbD_byte _ _ _ hk, getLsbD_byte _ _ _ hk, show (256 : Nat) = 2 ^ 8 from rfl, ← Nat.pow_mul, Nat.testBit_mod_two_pow]
  simp [show 8 * j + k < 8 * i by omega]

/-- A line's bytes make a number below this one. -/
theorem line_radix : (256 : Nat) ^ 64 = 2 ^ 512 := by rw [show (256 : Nat) = 2 ^ 8 from rfl, ← Nat.pow_mul]

section
variable {s : State} {h : Hdr} {v base : BitVec 5} {off : BitVec 12} {a q0 q1 : Nat}

/-- The address of a vector access whose two lines are mapped takes no exception. -/
theorem vectorAddr_ok {t : Tile} (addr : a = (t.core.sreg base + BitVec.ofInt 32 (off.toInt * 64)).toNat) (range : a < 2 ^ 18)
    (aligned : a % 64 = 0) (mapped0 : physLine t (a / 64) = some q0) (mapped1 : physLine t (a / 64 + 1) = some q1) :
    effAddr (t.core.sreg base) 12 off.toNat 64 = a ∧ addrFault t a 64 2 = none := by
  refine ⟨by rw [effAddr_eq, addr]; rfl, addrFault_none range aligned fun i hi => ?_⟩
  obtain rfl | rfl : i = 0 ∨ i = 1 := by omega
  · rw [Nat.add_zero, mapped0]; rfl
  · rw [mapped1]; rfl

/-! ### Stores -/

/-- The bin with two lines written whole, pending entries first (R168, R178). -/
def Bin.writeTwo (b : Bin) (q0 q1 : Nat) (i : Item) : Bin :=
  ((((b.writeBack q0).writeLine q0 (i.data.toNat % 2 ^ 512) i.tagLo).writeBack q1).writeLine q1 (i.data.toNat / 2 ^ 512) i.tagHi)

theorem Bin.visible_writeTwo (b : Bin) {q0 q1 : Nat} (i : Item) (distinct : q0 ≠ q1) (l j : Nat) (hj : j < 64) :
    (b.writeTwo q0 q1 i).visible l j =
      if l = q0 then i.data.extractLsb' (8 * j) 8 else if l = q1 then i.data.extractLsb' (512 + 8 * j) 8 else b.visible l j := by
  have low : i.data.extractLsb' (8 * j) 8 = BitVec.ofNat 8 (i.data.toNat % 2 ^ 512 / 256 ^ j) := by
    rw [extractLsb'_byte, ← byte_mod hj, line_radix]
  have high : i.data.extractLsb' (512 + 8 * j) 8 = BitVec.ofNat 8 (i.data.toNat / 2 ^ 512 / 256 ^ j) := by
    rw [show 512 + 8 * j = 8 * (64 + j) by omega, extractLsb'_byte, Nat.pow_add, Nat.div_div_eq_div_mul,
      line_radix]
  rw [low, high, Bin.writeTwo, Bin.visible_writeLine _ _ _ _ _ _ hj, Bin.visible_writeLine _ _ _ _ _ _ hj]
  by_cases h0 : l = q0
  · subst h0; simp [distinct]
  · simp [h0]

theorem Bin.tag_writeTwo (b : Bin) {q0 q1 : Nat} (i : Item) (distinct : q0 ≠ q1) :
    (b.writeTwo q0 q1 i).tag q0 = i.tagLo ∧ (b.writeTwo q0 q1 i).tag q1 = i.tagHi := by
  constructor
  · rw [Bin.writeTwo, Bin.tag_writeLine, if_neg distinct, Bin.tag_writeBack_ne _ distinct, Bin.tag_writeLine, if_pos rfl]
  · rw [Bin.writeTwo, Bin.tag_writeLine, if_pos rfl]

theorem writeLogLine_two {t : Tile} {l : Nat} (i : Item) (mapped0 : physLine t l = some q0) (mapped1 : physLine t (l + 1) = some q1) :
    writeLogLine (writeLogLine t l (i.data.toNat % 2 ^ 512) i.tagLo) (l + 1) (i.data.toNat / 2 ^ 512) i.tagHi =
      { t with bin := t.bin.writeTwo q0 q1 i } := by
  have first : writeLogLine t l (i.data.toNat % 2 ^ 512) i.tagLo =
      { t with bin := (t.bin.writeBack q0).writeLine q0 (i.data.toNat % 2 ^ 512) i.tagLo } := by
    simp only [writeLogLine, mapped0]
  have mapped1' (b : Bin) : physLine { t with bin := b } (l + 1) = some q1 := mapped1
  rw [first, writeLogLine, mapped1']
  rfl

theorem exec_vst {c : Nat} {x : Ctx} (hi : Issues s h) (hc : InCtx s h.t c x)
    (free : portsBlock s x.cdef (ckey h.t) true (portsOf [v]) [] = none)
    (ok : effAddr ((coreAt s h.t).sreg base) 12 off.toNat 64 = a ∧ addrFault (s.tile (ckey h.t)) a 64 2 = none) {p : State}
    (hp : p = popAll (flushSpan s h.t (a / 64) 2) x.cdef h.t (portsOf [v]))
    (mapped0 : physLine (p.tile (ckey h.t)) (a / 64) = some q0) (mapped1 : physLine (p.tile (ckey h.t)) (a / 64 + 1) = some q1) :
    exec (.vst h v base off) s = .next (advance (p.setTile (ckey h.t) { p.tile (ckey h.t) with
      bin := (p.tile (ckey h.t)).bin.writeTwo q0 q1 (srcItem (s.tile (ckey h.t)) v) }) h.t) := by
  refine issue_fin false hi ?_
  rw [withCtx_inCtx hc, free]
  dsimp only
  rw [ok.1, ok.2]
  dsimp only
  rw [← hp, State.modTile, writeLogLine_two _ mapped0 mapped1]

end

theorem vectorStores : Claims.VectorStores := by
  rintro s h v base off t c x a q0 q1 hi hu rfl hc addr range aligned mapped0 mapped1 distinct free p d hp rfl dmapped0 dmapped1
  have answer := exec_vst (v := v) hi hc free (vectorAddr_ok addr range aligned mapped0 mapped1) hp dmapped0 dmapped1
  refine ⟨_, answer, fun l j hj => Bin.visible_writeTwo _ _ distinct l j hj, (Bin.tag_writeTwo _ _ distinct).1,
    (Bin.tag_writeTwo _ _ distinct).2, fun register fits => ?_⟩
  obtain ⟨set, tile⟩ := flushSpan_spec hu (a / 64) 2
  have flushed : p = flushSpan s h.t (a / 64) 2 := by rw [hp]; simp [portsOf, register, popAll]
  refine ⟨fun l j hj => ?_, answer.trans (congrArg _ ?_)⟩
  · rw [flushed, tile]; exact visible_flushedBin _ _ _ _ _ hj
  · rw [flushed, set, tile]
    exact advance_setTile (by exact fits)

/-! ### Loads -/

theorem readLine_of_clean {t : Tile} {l q : Nat} (mapped : physLine t l = some q) (clean : t.bin.gatherOf q = none)
    (sound : t.bin.lineOk q = true) : readLine t l = (t, .ok (t.bin.lineNat q) (t.bin.tag q)) := by
  simp only [readLine, mapped, Bin.writeBack_of_none clean, sound, if_true]

/-- Two lines as one little-endian number. -/
def Bin.pairNat (b : Bin) (q0 q1 : Nat) : Nat := b.lineNat q0 + b.lineNat q1 * 2 ^ 512

theorem readLines_two {t : Tile} {l q0 q1 : Nat} (mapped0 : physLine t l = some q0) (mapped1 : physLine t (l + 1) = some q1)
    (clean0 : t.bin.gatherOf q0 = none) (clean1 : t.bin.gatherOf q1 = none) (sound0 : t.bin.lineOk q0 = true)
    (sound1 : t.bin.lineOk q1 = true) : readLines t l 2 =
      (t, .ok (t.bin.pairNat q0 q1) (t.bin.tag q0 || t.bin.tag q1)) := by
  simp [readLines, readLine_of_clean mapped0 clean0 sound0, readLine_of_clean mapped1 clean1 sound1, Bin.pairNat]

/-- The item of two lines, each half with the tag of its line (R179). -/
def lineItem (b : Bin) (q0 q1 : Nat) : Item :=
  { data := BitVec.ofNat 1024 (b.pairNat q0 q1), tagLo := b.tag q0, tagHi := b.tag q1 }

theorem lineItem_byte {b : Bin} {q0 q1 : Nat} (clean0 : b.gatherOf q0 = none) (clean1 : b.gatherOf q1 = none) {j : Nat}
    (hj : j < 64) : (lineItem b q0 q1).data.extractLsb' (8 * j) 8 = b.visible q0 j ∧
      (lineItem b q0 q1).data.extractLsb' (512 + 8 * j) 8 = b.visible q1 j := by
  have pair : b.pairNat q0 q1 = b.lineNat q0 + b.lineNat q1 * 256 ^ 64 := by rw [Bin.pairNat, line_radix]
  have small : b.pairNat q0 q1 < 2 ^ 1024 := by
    have l0 := b.lineNat_lt q0
    have l1 := b.lineNat_lt q1
    rw [pair, show (2 : Nat) ^ 1024 = 256 ^ 64 * 256 ^ 64 by
      rw [show (256 : Nat) = 2 ^ 8 from rfl, ← Nat.pow_mul, ← Nat.pow_add]]
    generalize (256 : Nat) ^ 64 = r at l0 l1
    nlinarith
  have split : (lineItem b q0 q1).data.toNat = b.lineNat q0 + b.lineNat q1 * 256 ^ 64 := by
    rw [lineItem, BitVec.toNat_ofNat, Nat.mod_eq_of_lt small, pair]
  rw [show 512 + 8 * j = 8 * (64 + j) by omega, extractLsb'_byte, extractLsb'_byte, split, Nat.pow_add, ← Nat.div_div_eq_div_mul,
    ← byte_mod hj, Nat.add_mul_mod_self_right, Nat.mod_eq_of_lt (b.lineNat_lt q0), Nat.add_mul_div_right _ _ (by positivity),
    Nat.div_eq_of_lt (b.lineNat_lt q0), Nat.zero_add, Bin.lineNat_byte _ _ hj, Bin.lineNat_byte _ _ hj,
    Bin.visible_of_none clean0, Bin.visible_of_none clean1]
  exact ⟨rfl, rfl⟩

theorem vectorLoads : Claims.VectorLoads := by
  rintro s h v base off t c x a q0 q1 hi hu rfl hc addr range aligned mapped0 mapped1 sound0 sound1 free f rfl
  obtain ⟨set, tile⟩ := flushSpan_spec hu (a / 64) 2
  obtain ⟨at_, noFault⟩ := vectorAddr_ok addr range aligned mapped0 mapped1
  have clean0 := gatherOf_flushedBin (l := a / 64) (i := 0) (n := 2) (by omega) mapped0
  have clean1 := gatherOf_flushedBin (l := a / 64) (i := 1) (n := 2) (by omega) mapped1
  have answer : exec (.vld h v base off) s = .next (advance (putVec (flushSpan s h.t (a / 64) 2) c x.cdef h.t v
      (lineItem (flushedBin (s.tile (ckey h.t)) (a / 64) 2) q0 q1)) h.t) := by
    refine issue_fin false hi ?_
    rw [withCtx_inCtx hc, free]
    dsimp only
    rw [at_, noFault]
    dsimp only
    rw [tile, readLines_two (t := { s.tile (ckey h.t) with bin := flushedBin (s.tile (ckey h.t)) (a / 64) 2 }) mapped0 mapped1 clean0 clean1 (lineOk_flushedBin sound0 _ _)
      (lineOk_flushedBin sound1 _ _)]
    have tags (l q : Nat) (mapped : physLine (s.tile (ckey h.t)) l = some q) :
        spanTag { s.tile (ckey h.t) with bin := flushedBin (s.tile (ckey h.t)) (a / 64) 2 } l =
          (flushedBin (s.tile (ckey h.t)) (a / 64) 2).tag q := by
      have : physLine { s.tile (ckey h.t) with bin := flushedBin (s.tile (ckey h.t)) (a / 64) 2 } l = some q := mapped
      simp only [spanTag, this]
    dsimp only
    rw [tags _ _ mapped0, tags _ _ mapped1, lineItem]
  refine ⟨_, answer, fun j hj => ?_, by rw [tile]; rfl, by rw [tile]; rfl, fun l j hj => ?_, fun register fits => ?_⟩
  · obtain ⟨low, high⟩ := lineItem_byte clean0 clean1 hj
    rw [low, high, visible_flushedBin _ _ _ _ _ hj, visible_flushedBin _ _ _ _ _ hj]
    exact ⟨rfl, rfl⟩
  · rw [tile]; exact visible_flushedBin _ _ _ _ _ hj
  · refine answer.trans (congrArg _ ?_)
    rw [putVec, if_neg (by simp [register]), State.modTile, set, tile]
    exact advance_setTile ((Core.setV_fits ..).2 fits)

/-- Settles O9: the stored lines by what two full-line writes show, the loaded item by the lines after their write-back. -/
theorem vectorAccessResults : Obligations.VectorAccessResults := ⟨vectorStores, vectorLoads⟩

end Sys2Proof.Machine

/-! ## Proofs: lanes, their flags, and the answer of a vector instruction (R44, R50, R54, R61, R67) -/

namespace Sys2Proof.Machine

/-! ### Lanes -/

/-- Lane `i` of a vector. -/
def lane (v : VecData) (i : Nat) : Word := v.extractLsb' (32 * i) 32

theorem lanes_eq (v : VecData) : lanes v = (List.range 32).map (lane v) := rfl

theorem testBit_ofLanes (l : List Word) (i k : Nat) (hk : k < 32) :
    (l.foldr (fun (w : Word) a => w.toNat + 2 ^ 32 * a) 0).testBit (32 * i + k) = (l.getD i 0).getLsbD k := by
  induction l generalizing i with
  | nil => simp
  | cons w l ih =>
    rw [List.foldr_cons, Nat.add_comm, Nat.testBit_two_pow_mul_add _ w.isLt]
    cases i with
    | zero => simp [hk, BitVec.getLsbD]
    | succ i =>
      rw [if_neg (by omega), show 32 * (i + 1) + k - 32 = 32 * i + k by omega, ih, List.getD_cons_succ]

/-- A vector built of lanes has them (R44). -/
theorem lane_ofLanes (l : List Word) {i : Nat} (hi : i < 32) : lane (ofLanes l) i = l.getD i 0 := by
  refine BitVec.eq_of_getLsbD_eq fun k hk => ?_
  rw [lane, BitVec.getLsbD_extractLsb', ofLanes, BitVec.getLsbD_ofNat, testBit_ofLanes _ _ _ hk]
  simp [hk, show 32 * i + k < 1024 by omega]

theorem lane_ofLanes_map (g : Nat → Word) {i : Nat} (hi : i < 32) : lane (ofLanes ((List.range 32).map g)) i = g i := by
  rw [lane_ofLanes _ hi, List.getD_eq_getElem _ _ (by simpa using hi)]; simp

/-- A bit of flags gathered by `or`. -/
theorem getLsbD_foldl_or {α : Type} (l : List α) (g : α → BitVec 5) (m : BitVec 5) (b : Nat) :
    (l.foldl (fun m q => m ||| g q) m).getLsbD b = true ↔ m.getLsbD b = true ∨ ∃ q ∈ l, (g q).getLsbD b = true := by
  induction l generalizing m with
  | nil => simp
  | cons q l ih => rw [List.foldl_cons, ih, BitVec.getLsbD_or]; simp [or_assoc]

/-- A flag of a list of lanes is raised where one of them raises it (R47). -/
theorem getLsbD_orFlags (l : List LaneRes) (b : Nat) : (orFlags l).getLsbD b = true ↔ ∃ q ∈ l, q.2.getLsbD b = true := by
  rw [orFlags, getLsbD_foldl_or]; simp

theorem orFlags_eq_zero {l : List LaneRes} (h : ∀ q ∈ l, q.2 = 0) : orFlags l = 0 := by
  refine BitVec.eq_of_getLsbD_eq fun b _ => ?_
  rw [show (0 : BitVec 5).getLsbD b = false from BitVec.getLsbD_zero, Bool.eq_false_iff, ne_eq, getLsbD_orFlags]
  rintro ⟨q, hq, raised⟩
  simp [h q hq] at raised

theorem laneMap_eq (f : Word → Word → Word → LaneRes) (a b d : VecData) :
    laneMap f a b d = (List.range 32).map fun i => f (lane a i) (lane b i) (lane d i) := by
  rw [laneMap, lanes_eq, lanes_eq, lanes_eq, List.zip_map', List.zip_map', List.map_map]; rfl

/-- What lane results by number make: each lane of the vector, and the flags that some lane raises. -/
theorem laneResults (g : Nat → LaneRes) :
    (∀ i, i < 32 → (ofLanes (((List.range 32).map g).map (·.1))).extractLsb' (32 * i) 32 = (g i).1) ∧
    (∀ n, n < 5 → ((orFlags ((List.range 32).map g)).getLsbD n = true ↔ ∃ i, i < 32 ∧ (g i).2.getLsbD n = true)) := by
  refine ⟨fun i hi => ?_, fun n _ => ?_⟩
  · rw [List.map_map]; exact lane_ofLanes_map _ hi
  · rw [getLsbD_orFlags]; simp

/-! ### The state after a vector instruction -/

theorem portsOf_eq_nil {fs : List (BitVec 5)} (h : ∀ f ∈ fs, isPort f = false) : portsOf fs = [] := by
  rw [portsOf, List.filter_eq_nil_iff.2 (by simpa using h), List.map_nil]

theorem popAll_registers {s : State} {d : CtxDef} {p : Coord} {fs : List (BitVec 5)} (h : ∀ f ∈ fs, isPort f = false) :
    popAll s d p (portsOf fs) = s := by rw [portsOf_eq_nil h]; rfl

theorem putVec_register {s : State} {c : Nat} {d : CtxDef} {p : Coord} {f : BitVec 5} {i : Item} (h : isPort f = false) :
    putVec s c d p f i = s.modCore p fun k => k.setV f.toNat i := by
  rw [putVec, if_neg (by simp [h])]; rfl

@[simp] theorem Core.addFlags_fits (k : Core) (fl : BitVec 5) : (k.addFlags fl).fits ↔ k.fits := Iff.rfl

theorem Core.addFlags_zero (k : Core) : k.addFlags 0 = k := by simp [Core.addFlags]

section
variable {s : State} {h : Hdr} {c : Nat} {x : Ctx} {vd : BitVec 5}

/-- A core changed and moved past its instruction, where it stands in range. -/
theorem advance_modCore {p : Coord} {f : Core → Core} (hf : (f (coreAt s p)).fits) :
    advance (s.modCore p f) p = s.modCore p fun k => (f k).past := by
  rw [advance_fits _ _ (by simpa [coreAt] using hf), State.modCore_modCore]

/-- With registers alone a vector instruction changes its destination, FP_FLAGS and the program counter (R61). -/
theorem afterVec_registers {srcs : List (BitVec 5)} {fl : BitVec 5} {i : Item} (dest : isPort vd = false)
    (sources : ∀ f ∈ srcs, isPort f = false) (fits : (coreAt s h.t).fits) : afterVec s h c x srcs vd fl i =
      s.modCore h.t fun k => ((k.addFlags fl).setV vd.toNat i).past := by
  rw [afterVec, popAll_registers sources, putVec_register dest, State.modCore_modCore]
  exact advance_modCore ((Core.setV_fits ..).2 ((Core.addFlags_fits ..).2 fits))

end

/-! ### Two sources -/

section
variable {s : State} {h : Hdr} {vd va vb : BitVec 5} {c : Nat} {x : Ctx}

/-- The operands that a VALU operation consumes (R67). -/
def VKind.consumed (k : VKind) (vd va vb : BitVec 5) : List (BitVec 5) := if k = .acc then k.srcs va vb ++ [vd] else k.srcs va vb

theorem valu_done {k : VKind} (f : Word → Word → Word → LaneRes) (hi : Issues s h) (hc : InCtx s h.t c x)
    (valid : k.invalid vd va vb = false)
    (free : portsBlock s x.cdef (ckey h.t) true (portsOf (k.srcs va vb)) (portsOf [vd]) = none)
    (clean : taggedSrc (s.tile (ckey h.t)) (k.consumed vd va vb) = none) {r : List LaneRes}
    (hr : laneMap f (srcItem (s.tile (ckey h.t)) va).data (if k = .one then 0 else (srcItem (s.tile (ckey h.t)) vb).data)
      (if k = .acc then (srcItem (s.tile (ckey h.t)) vd).data else 0) = r) :
    valu h vd va vb k f s =
      .next (afterVec s h c x (k.srcs va vb) vd (orFlags r) { data := ofLanes (r.map (·.1)) }) := by
  unfold valu
  rw [valid]
  refine issue_fin true hi ?_
  rw [withCtx_inCtx hc]
  dsimp only
  rw [free]
  dsimp only
  rw [show (if k = .acc then k.srcs va vb ++ [vd] else k.srcs va vb) = k.consumed vd va vb from rfl, clean]
  dsimp only
  rw [hr]

/-- A VALU operation that consumes a tagged operand takes POISON_CONSUMED (R67, R84). -/
theorem valu_poison {k : VKind} {g : BitVec 5} (f : Word → Word → Word → LaneRes) (hi : Issues s h) (hc : InCtx s h.t c x)
    (valid : k.invalid vd va vb = false)
    (free : portsBlock s x.cdef (ckey h.t) true (portsOf (k.srcs va vb)) (portsOf [vd]) = none)
    (tagged : taggedSrc (s.tile (ckey h.t)) (k.consumed vd va vb) = some g) :
    valu h vd va vb k f s = .next (vecPoison s h g) := by
  unfold valu
  rw [valid]
  refine (issue_exc (code := 8) (detail := srcDetail g) true hi ?_).trans rfl
  rw [withCtx_inCtx hc]
  dsimp only
  rw [free]
  dsimp only
  rw [show (if k = .acc then k.srcs va vb ++ [vd] else k.srcs va vb) = k.consumed vd va vb from rfl, tagged]

theorem VKind.invalid_two : VKind.two.invalid vd va vb = dupPort [vd, va, vb] := by
  simp [VKind.invalid, VKind.srcs]

theorem VKind.invalid_one (zero : vb = 0) : VKind.one.invalid vd va vb = dupPort [vd, va] := by
  simp [VKind.invalid, VKind.srcs, zero]

theorem dupPort_register (register : isPort vd = false) (fs : List (BitVec 5)) : dupPort (vd :: fs) = dupPort fs := by
  simp [dupPort, portsOf, register]

theorem VKind.invalid_acc (register : isPort vd = false) : VKind.acc.invalid vd va vb = dupPort [va, vb] := by
  simp [VKind.invalid, VKind.srcs, register, dupPort_register register]

end

theorem vectorTwoSources : Claims.VectorTwoSources := by
  rintro s h vd va vb c x t hi hc rfl distinct free clean
  have two (f : Word → Word → LaneRes) : ∃ (res : VecData) (fl : BitVec 5),
      (∀ i, i < 32 → res.extractLsb' (32 * i) 32 = (f ((srcItem (s.tile (ckey h.t)) va).data.extractLsb' (32 * i) 32)
        ((srcItem (s.tile (ckey h.t)) vb).data.extractLsb' (32 * i) 32)).1) ∧
      (∀ n, n < 5 → (fl.getLsbD n = true ↔ ∃ i, i < 32 ∧
        (f ((srcItem (s.tile (ckey h.t)) va).data.extractLsb' (32 * i) 32)
          ((srcItem (s.tile (ckey h.t)) vb).data.extractLsb' (32 * i) 32)).2.getLsbD n = true)) ∧
      valu h vd va vb .two (fun a b _ => f a b) s = .next (afterVec s h c x [va, vb] vd fl { data := res }) ∧
      (isPort vd = false → isPort va = false → isPort vb = false → (s.tile (ckey h.t)).core.fits →
        valu h vd va vb .two (fun a b _ => f a b) s =
          .next (s.modCore h.t fun k => ((k.addFlags fl).setV vd.toNat { data := res }).past)) := by
    obtain ⟨lane_, flag⟩ := laneResults fun i => f (lane (srcItem (s.tile (ckey h.t)) va).data i)
      (lane (srcItem (s.tile (ckey h.t)) vb).data i)
    have answer := valu_done (k := .two) (fun a b _ => f a b) hi hc (VKind.invalid_two.trans distinct) free clean (laneMap_eq ..)
    exact ⟨_, _, lane_, flag, answer, fun dest a b fits => answer.trans (congrArg _
      (afterVec_registers dest (by simp [VKind.srcs, a, b]) fits))⟩
  simp only [List.forall_mem_cons, List.not_mem_nil, false_imp_iff, implies_true, and_true]
  exact ⟨two f32Add, two f32Sub, two f32Mul, two fun a b => (f32Pick true a b, 0), two fun a b => (f32Pick false a b, 0),
    two fun a b => (if (ofF32 a).lt (ofF32 b) then BitVec.allOnes 32 else 0, cmpFlags true (ofF32 a) (ofF32 b)),
    two fun a b => (if (ofF32 a).eq (ofF32 b) then BitVec.allOnes 32 else 0, cmpFlags false (ofF32 a) (ofF32 b)),
    two fun a b => (a &&& b, 0), two fun a b => (a ||| b, 0), two fun a b => (a ^^^ b, 0), two fun a b => (a + b, 0),
    two fun a b => (a - b, 0)⟩

/-! ### Three sources -/

/-- The tags of halves that take lanes of va or of vb (R67). -/
theorem selTag_iff (d : VecData) (l : List Nat) (a b : Bool) :
    selTag (l.map (lane d)) a b = true ↔ ∃ n ∈ l, (if lane d n = 0 then b else a) = true := by
  rw [selTag, List.any_map, List.any_eq_true]
  refine exists_congr fun n => and_congr_right fun _ => ?_
  by_cases zero : lane d n = 0
  · simp [zero]
  · have : (lane d n != 0) = true := by simpa using zero
    simp only [Function.comp, this, if_true, zero, if_false]

/-- The result of `vsel` (R67). -/
def selItem (a b d : Item) : Item :=
  { data := ofLanes ((laneMap (fun a b d => (if d != 0 then a else b, 0)) a.data b.data d.data).map (·.1))
    tagLo := selTag ((lanes d.data).take 16) a.tagLo b.tagLo
    tagHi := selTag ((lanes d.data).drop 16) a.tagHi b.tagHi }

theorem selItem_lane (a b d : Item) {n : Nat} (hn : n < 32) : (selItem a b d).data.extractLsb' (32 * n) 32 =
    if d.data.extractLsb' (32 * n) 32 = 0 then b.data.extractLsb' (32 * n) 32 else a.data.extractLsb' (32 * n) 32 := by
  simp only [selItem]
  rw [laneMap_eq, (laneResults _).1 n hn]
  change (if (lane d.data n != 0) = true then lane a.data n else lane b.data n) =
    if lane d.data n = 0 then lane b.data n else lane a.data n
  by_cases zero : lane d.data n = 0
  · simp [zero]
  · have : (lane d.data n != 0) = true := by simpa using zero
    rw [if_pos this, if_neg zero]

theorem selItem_tagLo (a b d : Item) : (selItem a b d).tagLo = true ↔ ∃ n, n < 16 ∧
    (if d.data.extractLsb' (32 * n) 32 = 0 then b.tagLo else a.tagLo) = true := by
  have low : (lanes d.data).take 16 = (List.range 16).map (lane d.data) := rfl
  rw [selItem, low, selTag_iff]; simp only [List.mem_range]; rfl

theorem selItem_tagHi (a b d : Item) : (selItem a b d).tagHi = true ↔ ∃ n, 16 ≤ n ∧ n < 32 ∧
    (if d.data.extractLsb' (32 * n) 32 = 0 then b.tagHi else a.tagHi) = true := by
  have high : (lanes d.data).drop 16 = (List.range' 16 16).map (lane d.data) := rfl
  rw [selItem, high, selTag_iff]; simp only [List.mem_range'_1, and_assoc]; rfl

section
variable {s : State} {h : Hdr} {vd va vb : BitVec 5} {c : Nat} {x : Ctx}

theorem srcItem_register {t : Tile} {f : BitVec 5} (h : isPort f = false) : srcItem t f = t.core.vreg f.toNat := by
  simp [srcItem, h]

theorem exec_vsel (hi : Issues s h) (hc : InCtx s h.t c x) (register : isPort vd = false) (distinct : dupPort [va, vb] = false)
    (free : portsBlock s x.cdef (ckey h.t) true (portsOf [va, vb]) [] = none) : exec (.vsel h vd va vb) s =
      if (srcItem (s.tile (ckey h.t)) vd).tagged then .next (vecPoison s h vd)
      else .next (advance (putVec (popAll s x.cdef h.t (portsOf [va, vb])) c x.cdef h.t vd
        (selItem (srcItem (s.tile (ckey h.t)) va) (srcItem (s.tile (ckey h.t)) vb) (srcItem (s.tile (ckey h.t)) vd))) h.t) := by
  change issue h true (VKind.acc.invalid vd va vb) s _ = _
  rw [VKind.invalid_acc register, distinct]
  by_cases tagged : (srcItem (s.tile (ckey h.t)) vd).tagged = true
  · rw [if_pos tagged]
    refine (issue_exc (code := 8) (detail := srcDetail vd) true hi ?_).trans rfl
    rw [withCtx_inCtx hc, free]
    dsimp only
    rw [if_pos tagged]
  · rw [if_neg tagged]
    refine issue_fin true hi ?_
    rw [withCtx_inCtx hc, free]
    dsimp only
    rw [if_neg tagged]
    rfl

end

theorem taggedSrc_append_none {t : Tile} {fs : List (BitVec 5)} {f : BitVec 5} (h : taggedSrc t fs = none)
    (clean : (srcItem t f).tagged = false) : taggedSrc t (fs ++ [f]) = none := by
  rw [taggedSrc, List.find?_append, show fs.find? (fun f => (srcItem t f).tagged) = none from h]; simp [clean]

theorem vectorThreeSources : Claims.VectorThreeSources := by
  rintro s h vd va vb c x t d hi hc rfl register distinct free rfl clean
  have dest : srcItem (s.tile (ckey h.t)) vd = (s.tile (ckey h.t)).core.vreg vd.toNat := srcItem_register register
  have three (f : Word → Word → Word → LaneRes) (sources : taggedSrc (s.tile (ckey h.t)) [va, vb] = none) :
      ∃ (res : VecData) (fl : BitVec 5),
        (∀ i, i < 32 → res.extractLsb' (32 * i) 32 = (f ((srcItem (s.tile (ckey h.t)) va).data.extractLsb' (32 * i) 32)
          ((srcItem (s.tile (ckey h.t)) vb).data.extractLsb' (32 * i) 32)
          (((s.tile (ckey h.t)).core.vreg vd.toNat).data.extractLsb' (32 * i) 32)).1) ∧
        (∀ n, n < 5 → (fl.getLsbD n = true ↔ ∃ i, i < 32 ∧
          (f ((srcItem (s.tile (ckey h.t)) va).data.extractLsb' (32 * i) 32)
            ((srcItem (s.tile (ckey h.t)) vb).data.extractLsb' (32 * i) 32)
            (((s.tile (ckey h.t)).core.vreg vd.toNat).data.extractLsb' (32 * i) 32)).2.getLsbD n = true)) ∧
        valu h vd va vb .acc f s = .next (afterVec s h c x [va, vb] vd fl { data := res }) ∧
        (isPort va = false → isPort vb = false → (s.tile (ckey h.t)).core.fits → valu h vd va vb .acc f s =
          .next (s.modCore h.t fun k => ((k.addFlags fl).setV vd.toNat { data := res }).past)) := by
    obtain ⟨lane_, flag⟩ := laneResults fun i => f (lane (srcItem (s.tile (ckey h.t)) va).data i)
      (lane (srcItem (s.tile (ckey h.t)) vb).data i) (lane ((s.tile (ckey h.t)).core.vreg vd.toNat).data i)
    have answer := valu_done (k := .acc) f hi hc ((VKind.invalid_acc register).trans distinct)
      (by rw [portsOf_eq_nil (fs := [vd]) (by simpa using register)]; exact free)
      (taggedSrc_append_none sources (by rw [dest, clean])) (laneMap_eq ..)
    rw [if_neg (by decide), if_pos rfl, dest] at answer
    exact ⟨_, _, lane_, flag, answer, fun a b fits => answer.trans (congrArg _
      (afterVec_registers register (by simp [VKind.srcs, a, b]) fits))⟩
  refine ⟨?_, ?_⟩
  · simp only [List.forall_mem_cons, List.not_mem_nil, false_imp_iff, implies_true, and_true]
    exact ⟨three (f32Fma false), three (f32Fma true)⟩
  · have answer := exec_vsel hi hc register distinct free
    rw [dest, clean, if_neg (by decide)] at answer
    refine ⟨_, fun n hn => selItem_lane _ _ _ hn, selItem_tagLo _ _ _, selItem_tagHi _ _ _, answer, fun a b fits => ?_⟩
    refine answer.trans (congrArg _ ?_)
    rw [popAll_registers (by simp [a, b]), putVec_register register]
    exact advance_modCore ((Core.setV_fits ..).2 fits)

/-! ### One source -/

section
variable {s : State} {h : Hdr} {vd va : BitVec 5} {c : Nat} {x : Ctx}

theorem exec_vmov (hi : Issues s h) (hc : InCtx s h.t c x) (distinct : dupPort [vd, va] = false)
    (free : portsBlock s x.cdef (ckey h.t) true (portsOf [va]) (portsOf [vd]) = none) : exec (.vmov h vd va 0) s =
      .next (advance (putVec (popAll s x.cdef h.t (portsOf [va])) c x.cdef h.t vd (srcItem (s.tile (ckey h.t)) va)) h.t) := by
  change issue h true (VKind.one.invalid vd va 0) s _ = _
  rw [VKind.invalid_one rfl, distinct]
  refine issue_fin true hi ?_
  rw [withCtx_inCtx hc, free]

end

theorem vectorOneSource : Claims.VectorOneSource := by
  rintro s h vd va c x t hi hc rfl distinct free
  have one (f : Word → Word) (clean : (srcItem (s.tile (ckey h.t)) va).tagged = false) : ∃ res : VecData,
      (∀ i, i < 32 → res.extractLsb' (32 * i) 32 = f ((srcItem (s.tile (ckey h.t)) va).data.extractLsb' (32 * i) 32)) ∧
      valu h vd va 0 .one (noFlags fun a _ => f a) s = .next (afterVec s h c x [va] vd 0 { data := res }) ∧
      (isPort vd = false → isPort va = false → (s.tile (ckey h.t)).core.fits → valu h vd va 0 .one (noFlags fun a _ => f a) s =
        .next (s.modCore h.t fun k => (k.setV vd.toNat { data := res }).past)) := by
    obtain ⟨lane_, -⟩ := laneResults fun i => (f (lane (srcItem (s.tile (ckey h.t)) va).data i), 0)
    have answer := valu_done (k := .one) (noFlags fun a _ => f a) hi hc ((VKind.invalid_one rfl).trans distinct) free
      (by simp [VKind.consumed, VKind.srcs, taggedSrc, clean]) (laneMap_eq ..)
    rw [orFlags_eq_zero (by simp [noFlags])] at answer
    refine ⟨_, lane_, answer, fun dest a fits => answer.trans (congrArg _ ?_)⟩
    rw [afterVec_registers dest (by simp [VKind.srcs, a]) fits]
    simp only [Core.addFlags_zero]; rfl
  refine ⟨?_, exec_vmov hi hc distinct free, fun dest a fits => (exec_vmov hi hc distinct free).trans (congrArg _ ?_)⟩
  · simp only [List.forall_mem_cons, List.not_mem_nil, false_imp_iff, implies_true, and_true]
    exact ⟨one fun a => a &&& 0x7FFFFFFF#32, one fun a => a ^^^ 0x80000000#32⟩
  · rw [popAll_registers (by simp [a]), putVec_register dest, srcItem_register a]
    exact advance_modCore (f := fun k => k.setV vd.toNat ((s.tile (ckey h.t)).core.vreg va.toNat)) ((Core.setV_fits ..).2 fits)

/-! ### Poison -/

section
variable {s : State} {h : Hdr} {vd va : BitVec 5} {c : Nat} {x : Ctx}

/-- A VSFU instruction that consumes a tagged operand takes POISON_CONSUMED (R67, R84). -/
theorem vsfu_poison {bad : Bool} {f : Nat → Ctx → Core → VecData → VecData × BitVec 5}
    {after : Nat → Ctx → Core → VecData → State → State} (hi : Issues s h) (hc : InCtx s h.t c x) (valid : bad = false)
    (distinct : dupPort [vd, va] = false) (free : portsBlock s x.cdef (ckey h.t) true (portsOf [va]) (portsOf [vd]) = none)
    (tagged : (srcItem (s.tile (ckey h.t)) va).tagged = true) : vsfu h vd va bad f after s = .next (vecPoison s h va) := by
  unfold vsfu
  rw [valid, distinct]
  refine (issue_exc (code := 8) (detail := srcDetail va) true hi ?_).trans rfl
  rw [withCtx_inCtx hc]
  dsimp only
  rw [free]
  dsimp only
  rw [if_pos tagged]

end

theorem taggedSrc_one {t : Tile} {f g : BitVec 5} (h : taggedSrc t [f] = some g) : g = f ∧ (srcItem t f).tagged = true := by
  have := List.mem_of_find?_eq_some h
  simp only [List.mem_singleton] at this
  exact ⟨this, this ▸ by simpa using List.find?_some h⟩

/-- Of a pair without a source format, `vcvtsr` takes what narrows (R139). -/
theorem cvtOf_narrow {dfmt : BitVec 4} (narrows : (narrowFmt dfmt).isSome = true) : ∃ f, cvtOf dfmt 0 = some (.narrow f) := by
  obtain ⟨f, hf⟩ := Option.isSome_iff_exists.1 narrows
  refine ⟨f, ?_⟩
  have notInt : dfmt ≠ 7#4 := by rintro rfl; exact absurd narrows (by decide)
  simp [cvtOf, notInt, hf]

theorem vectorPoison : Claims.VectorPoison := by
  rintro s h vd va vb c x t dfmt sfmt hi hc rfl
  have two f (g : BitVec 5) (distinct : dupPort [vd, va, vb] = false)
      (free : portsBlock s x.cdef (ckey h.t) true (portsOf [va, vb]) (portsOf [vd]) = none)
      (tagged : taggedSrc (s.tile (ckey h.t)) [va, vb] = some g) : valu h vd va vb .two f s = .next (vecPoison s h g) :=
    valu_poison f hi hc (VKind.invalid_two.trans distinct) free tagged
  have one f (g : BitVec 5) (distinct : dupPort [vd, va] = false)
      (free : portsBlock s x.cdef (ckey h.t) true (portsOf [va]) (portsOf [vd]) = none)
      (tagged : taggedSrc (s.tile (ckey h.t)) [va] = some g) : valu h vd va 0 .one f s = .next (vecPoison s h g) :=
    valu_poison f hi hc ((VKind.invalid_one rfl).trans distinct) free tagged
  have special f (g : BitVec 5) (distinct : dupPort [vd, va] = false)
      (free : portsBlock s x.cdef (ckey h.t) true (portsOf [va]) (portsOf [vd]) = none)
      (tagged : taggedSrc (s.tile (ckey h.t)) [va] = some g) : sfu h vd va 0 0 f s = .next (vecPoison s h g) := by
    obtain ⟨rfl, tagged⟩ := taggedSrc_one tagged
    exact vsfu_poison hi hc rfl distinct free tagged
  have conv (sr : Bool) {cv : Cvt} (listed : cvtOf dfmt sfmt = some cv) (narrows : sr = true → ∃ f, cv = .narrow f)
      (g : BitVec 5) (distinct : dupPort [vd, va] = false)
      (free : portsBlock s x.cdef (ckey h.t) true (portsOf [va]) (portsOf [vd]) = none)
      (tagged : taggedSrc (s.tile (ckey h.t)) [va] = some g) : vconv sr h vd va dfmt sfmt s = .next (vecPoison s h g) := by
    obtain ⟨rfl, tagged⟩ := taggedSrc_one tagged
    unfold vconv
    rw [listed]
    refine vsfu_poison hi hc ?_ distinct free tagged
    cases sr with
    | false => rfl
    | true => obtain ⟨f, rfl⟩ := narrows rfl; rfl
  rintro r hr
  simp only [List.append_assoc, List.mem_append] at hr
  rcases hr with hr | hr | hr | hr
  · revert r
    simp only [List.forall_mem_cons, List.not_mem_nil, false_imp_iff, implies_true, and_true]
    exact ⟨two fun a b _ => f32Add a b, two fun a b _ => f32Sub a b, two fun a b _ => f32Mul a b, two (noFlags (f32Pick true)),
      two (noFlags (f32Pick false)), two (laneCmp true), two (laneCmp false), two (noFlags (· &&& ·)), two (noFlags (· ||| ·)),
      two (noFlags (· ^^^ ·)), two (noFlags (· + ·)), two (noFlags (· - ·)), one (noFlags fun a _ => a &&& 0x7FFFFFFF#32),
      one (noFlags fun a _ => a ^^^ 0x80000000#32), special (sfuLanes f32Exp), special (sfuLanes f32Log),
      special (sfuLanes f32Rsqrt), special (sfuLanes f32Rcp), special (redAll f32Add),
      special (redAll fun a b => (f32Pick true a b, 0)), special (redAll fun a b => (f32Pick false a b, 0))⟩
  · split at hr
    · simp at hr
    · rename_i register
      have register : isPort vd = false := by simpa using register
      have noDest : portsOf [vd] = [] := portsOf_eq_nil (by simpa using register)
      have acc f (g : BitVec 5) (distinct : dupPort [vd, va, vb] = false)
          (free : portsBlock s x.cdef (ckey h.t) true (portsOf [va, vb]) (portsOf [vd]) = none)
          (tagged : taggedSrc (s.tile (ckey h.t)) [va, vb, vd] = some g) : valu h vd va vb .acc f s = .next (vecPoison s h g) :=
        valu_poison f hi hc ((VKind.invalid_acc register).trans ((dupPort_register register _).symm.trans distinct)) free tagged
      revert r
      simp only [List.forall_mem_cons, List.not_mem_nil, false_imp_iff, implies_true, and_true]
      refine ⟨acc fun a b d => f32Fma false a b d, acc fun a b d => f32Fma true a b d, fun g distinct free tagged => ?_⟩
      obtain ⟨rfl, tagged⟩ := taggedSrc_one tagged
      rw [exec_vsel hi hc register ((dupPort_register register _).symm.trans distinct) (by rw [← noDest]; exact free), if_pos tagged]
  · split at hr
    · rename_i listed
      obtain ⟨cv, listed⟩ := Option.isSome_iff_exists.1 listed
      obtain rfl := List.mem_singleton.1 hr
      exact conv false listed (by simp)
    · simp at hr
  · split at hr
    · rename_i narrows
      simp only [Bool.and_eq_true, beq_iff_eq] at narrows
      obtain ⟨narrows, rfl⟩ := narrows
      obtain ⟨f, listed⟩ := cvtOf_narrow narrows
      obtain rfl := List.mem_singleton.1 hr
      exact conv true listed fun _ => ⟨f, rfl⟩
    · simp at hr

/-- Settles O10: each class of vector instructions by the answer of its operation, lane by lane. -/
theorem vectorResults : Obligations.VectorResults :=
  ⟨vectorTwoSources, vectorThreeSources, vectorOneSource, vectorPoison⟩

end Sys2Proof.Machine

/-! ## Proofs: special functions, reductions and conversions (R63, R64, R138 to R141, R144) -/

namespace Sys2Proof.Machine

section
variable {s : State} {h : Hdr} {vd va : BitVec 5} {c : Nat} {x : Ctx}

theorem vsfu_illegal {bad : Bool} {f : Nat → Ctx → Core → VecData → VecData × BitVec 5}
    {after : Nat → Ctx → Core → VecData → State → State} (hi : Issues s h) (invalid : bad = true) :
    vsfu h vd va bad f after s = .next (takeExc s h.t 1 (coreAt s h.t).pc.toNat true 0) := by
  unfold vsfu
  rw [invalid, Bool.true_or]
  exact issue_invalid true _ hi

theorem vsfu_done {bad : Bool} (f : Nat → Ctx → Core → VecData → VecData × BitVec 5)
    (after : Nat → Ctx → Core → VecData → State → State) (hi : Issues s h) (hc : InCtx s h.t c x) (valid : bad = false)
    (distinct : dupPort [vd, va] = false) (free : portsBlock s x.cdef (ckey h.t) true (portsOf [va]) (portsOf [vd]) = none)
    (clean : (srcItem (s.tile (ckey h.t)) va).tagged = false) {k : Core} (hk : k = coreAt s h.t) {a : VecData}
    (ha : a = (srcItem (s.tile (ckey h.t)) va).data) : vsfu h vd va bad f after s =
      .next (advance (putVec (after c x k a
        ((popAll s x.cdef h.t (portsOf [va])).modCore h.t fun q => q.addFlags (f c x k a).2)) c x.cdef h.t vd
          { data := (f c x k a).1 }) h.t) := by
  subst hk ha
  unfold vsfu
  rw [valid, distinct]
  refine issue_fin true hi ?_
  rw [withCtx_inCtx hc]
  dsimp only
  rw [free]
  dsimp only
  rw [clean, if_neg (by decide)]

theorem sfu_done (f : VecData → VecData × BitVec 5) (hi : Issues s h) (hc : InCtx s h.t c x) (distinct : dupPort [vd, va] = false)
    (free : portsBlock s x.cdef (ckey h.t) true (portsOf [va]) (portsOf [vd]) = none)
    (clean : (srcItem (s.tile (ckey h.t)) va).tagged = false) : sfu h vd va 0 0 f s =
      .next (afterVec s h c x [va] vd (f (srcItem (s.tile (ckey h.t)) va).data).2
        { data := (f (srcItem (s.tile (ckey h.t)) va).data).1 }) :=
  vsfu_done (fun _ _ _ a => f a) (fun _ _ _ _ s => s) hi hc rfl distinct free clean rfl rfl

end

/-! ### The tree of a reduction -/

section
variable (f : Word → Word → LaneRes)

/-- The lanes of a level of the tree (R64). -/
def redLevel (l : List Word) : Nat → List Word
  | 0 => l
  | n + 1 => (pairUp f (redLevel l n)).map (·.1)

theorem pairUp_spec (l : List Word) (m : Nat) (len : l.length = 2 * m) :
    pairUp f l = (List.range m).map fun i => f (l.getD (2 * i) 0) (l.getD (2 * i + 1) 0) := by
  induction m generalizing l with
  | zero => rw [List.length_eq_zero_iff.1 len]; rfl
  | succ m ih =>
    match l, len with
    | a :: b :: l, len =>
      rw [pairUp, ih l (by simp at len; omega), List.range_succ_eq_map, List.map_cons, List.map_map]
      rfl

theorem redLevel_length {l : List Word} {n : Nat} (len : l.length = 32) (hn : n ≤ 5) : (redLevel f l n).length = 2 ^ (5 - n) := by
  induction n with
  | zero => exact len
  | succ n ih =>
    have below := ih (by omega)
    have half : 2 ^ (5 - n) = 2 * 2 ^ (5 - (n + 1)) := by rw [← Nat.pow_succ']; congr 1; omega
    rw [redLevel, pairUp_spec f _ _ (below.trans half)]; simp

theorem pairUp_redLevel {l : List Word} {n : Nat} (len : l.length = 32) (hn : n < 5) : pairUp f (redLevel f l n) =
    (List.range (2 ^ (4 - n))).map fun i => f ((redLevel f l n).getD (2 * i) 0) ((redLevel f l n).getD (2 * i + 1) 0) := by
  refine pairUp_spec f _ _ ((redLevel_length f len (by omega)).trans ?_)
  rw [← Nat.pow_succ']; congr 1; omega

theorem redLevel_getD {l : List Word} {n i : Nat} (len : l.length = 32) (hn : n < 5) (hi : i < 2 ^ (4 - n)) :
    (redLevel f l (n + 1)).getD i 0 =
      (f ((redLevel f l n).getD (2 * i) 0) ((redLevel f l n).getD (2 * i + 1) 0)).1 := by
  rw [redLevel, pairUp_redLevel f len hn, List.map_map, List.getD_eq_getElem _ _ (by simpa using hi)]; simp

/-- The flags of the first levels of the tree, over flags already gathered. -/
def redFlags (l : List Word) (fl : BitVec 5) : Nat → BitVec 5
  | 0 => fl
  | n + 1 => redFlags l fl n ||| orFlags (pairUp f (redLevel f l n))

/-- The tree from a level on gives the lane at its root and every flag of its levels (R64). -/
theorem redTree_level (l : List Word) (fl : BitVec 5) {n m : Nat} (hn : n + m = 5) :
    redTree f m (redLevel f l n) (redFlags f l fl n) = ((redLevel f l 5).headD 0, redFlags f l fl 5) := by
  induction m generalizing n with
  | zero => obtain rfl : n = 5 := by omega
            rfl
  | succ m ih => exact ih (n := n + 1) (by omega)

theorem getLsbD_redFlags {l : List Word} (len : l.length = 32) {n : Nat} (hn : n ≤ 5) (b : Nat) :
    (redFlags f l 0 n).getLsbD b = true ↔ ∃ m i, m < n ∧ i < 2 ^ (4 - m) ∧
      (f ((redLevel f l m).getD (2 * i) 0) ((redLevel f l m).getD (2 * i + 1) 0)).2.getLsbD b = true := by
  induction n with
  | zero => simp [redFlags]
  | succ n ih =>
    rw [redFlags, BitVec.getLsbD_or, Bool.or_eq_true, ih (by omega), pairUp_redLevel f len (by omega), getLsbD_orFlags]
    simp only [List.mem_map, List.mem_range, Nat.lt_succ_iff_lt_or_eq]
    constructor
    · rintro (⟨m, i, lt, hi, raised⟩ | ⟨q, ⟨i, hi, rfl⟩, raised⟩)
      · exact ⟨m, i, Or.inl lt, hi, raised⟩
      · exact ⟨n, i, Or.inr rfl, hi, raised⟩
    · rintro ⟨m, i, lt | rfl, hi, raised⟩
      · exact Or.inl ⟨m, i, lt, hi, raised⟩
      · exact Or.inr ⟨_, ⟨i, hi, rfl⟩, raised⟩

/-- A reduction of 32 lanes: its root in every lane, and the flags of every node (R64). -/
theorem redAll_eq (a : VecData) : redAll f a =
    (ofLanes ((List.range 32).map fun _ => (redLevel f (lanes a) 5).getD 0 0), redFlags f (lanes a) 0 5) := by
  have root : redTree f 5 (lanes a) 0 = ((redLevel f (lanes a) 5).headD 0, redFlags f (lanes a) 0 5) :=
    redTree_level f (lanes a) 0 (n := 0) rfl
  have head (l : List Word) : l.headD 0 = l.getD 0 0 := by cases l <;> rfl
  rw [redAll, root, head, List.map_const', List.length_range]

end

theorem specialFunctions : Claims.SpecialFunctions := by
  rintro s h vd va c x t a hi hc rfl distinct free rfl clean
  have registers {fl : BitVec 5} {i : Item} (dest : isPort vd = false) (src : isPort va = false)
      (fits : (s.tile (ckey h.t)).core.fits) : afterVec s h c x [va] vd fl i =
        s.modCore h.t fun k => ((k.addFlags fl).setV vd.toNat i).past := afterVec_registers dest (by simpa using src) fits
  generalize ha : (srcItem (s.tile (ckey h.t)) va).data = a
  have lanewise (f : Word → LaneRes) : ∃ (res : VecData) (fl : BitVec 5),
      (∀ i, i < 32 → res.extractLsb' (32 * i) 32 = (f (a.extractLsb' (32 * i) 32)).1) ∧
      (∀ n, n < 5 → (fl.getLsbD n = true ↔ ∃ i, i < 32 ∧ (f (a.extractLsb' (32 * i) 32)).2.getLsbD n = true)) ∧
      sfu h vd va 0 0 (sfuLanes f) s = .next (afterVec s h c x [va] vd fl { data := res }) ∧
      (isPort vd = false → isPort va = false → (s.tile (ckey h.t)).core.fits → sfu h vd va 0 0 (sfuLanes f) s =
        .next (s.modCore h.t fun k => ((k.addFlags fl).setV vd.toNat { data := res }).past)) := by
    obtain ⟨lane_, flag⟩ := laneResults fun i => f (lane a i)
    have answer := sfu_done (sfuLanes f) hi hc distinct free clean
    have lanes_ : sfuLanes f a = (ofLanes (((List.range 32).map fun i => f (lane a i)).map (·.1)),
        orFlags ((List.range 32).map fun i => f (lane a i))) := by rw [sfuLanes, lanes_eq, List.map_map]; rfl
    rw [ha, lanes_] at answer
    exact ⟨_, _, lane_, flag, answer, fun dest src fits => answer.trans (congrArg _ (registers dest src fits))⟩
  have reduction (f : Word → Word → LaneRes) : ∃ (tree : Nat → Nat → Word) (res : VecData) (fl : BitVec 5),
      (∀ i, i < 32 → tree 0 i = a.extractLsb' (32 * i) 32) ∧
      (∀ n i, n < 5 → i < 2 ^ (4 - n) → tree (n + 1) i = (f (tree n (2 * i)) (tree n (2 * i + 1))).1) ∧
      (∀ i, i < 32 → res.extractLsb' (32 * i) 32 = tree 5 0) ∧
      (∀ b, b < 5 → (fl.getLsbD b = true ↔ ∃ n i, n < 5 ∧ i < 2 ^ (4 - n) ∧
        (f (tree n (2 * i)) (tree n (2 * i + 1))).2.getLsbD b = true)) ∧
      sfu h vd va 0 0 (redAll f) s = .next (afterVec s h c x [va] vd fl { data := res }) ∧
      (isPort vd = false → isPort va = false → (s.tile (ckey h.t)).core.fits → sfu h vd va 0 0 (redAll f) s =
        .next (s.modCore h.t fun k => ((k.addFlags fl).setV vd.toNat { data := res }).past)) := by
    have len : (lanes a).length = 32 := by simp [lanes_eq]
    have answer := sfu_done (redAll f) hi hc distinct free clean
    rw [ha, redAll_eq] at answer
    refine ⟨fun n i => (redLevel f (lanes a) n).getD i 0, _, _, fun i hi => ?_, fun n i hn hi => redLevel_getD f len hn hi,
      fun i hi => lane_ofLanes_map (fun _ => _) hi, fun b _ => getLsbD_redFlags f len (by omega) b, answer,
      fun dest src fits => answer.trans (congrArg _ (registers dest src fits))⟩
    change (lanes a).getD i 0 = _
    rw [lanes_eq, List.getD_eq_getElem _ _ (by simpa using hi)]; simp [lane]
  simp only [List.forall_mem_cons, List.not_mem_nil, false_imp_iff, implies_true, and_true]
  exact ⟨⟨lanewise f32Exp, lanewise f32Log, lanewise f32Rsqrt, lanewise f32Rcp⟩, reduction f32Add,
    reduction fun a b => (f32Pick true a b, 0), reduction fun a b => (f32Pick false a b, 0)⟩

/-! ### Packed codes -/

theorem testBit_leNat (l : List Byte) (j k : Nat) (hk : k < 8) : (leNat l).testBit (8 * j + k) = (l.getD j 0).getLsbD k := by
  rw [← leNat_byte, getLsbD_byte _ _ _ hk]

theorem testBit_packed (w : Nat) (codes : List Nat) (n k : Nat) (hk : k < w) :
    (codes.foldr (fun c a => c % 2 ^ w + 2 ^ w * a) 0).testBit (w * n + k) = (codes.getD n 0).testBit k := by
  induction codes generalizing n with
  | nil => simp
  | cons c l ih =>
    rw [List.foldr_cons, Nat.add_comm, Nat.testBit_two_pow_mul_add _ (Nat.mod_lt _ (by positivity))]
    cases n with
    | zero => simp [hk]
    | succ n =>
      rw [if_neg (by rw [Nat.mul_succ]; omega), show w * (n + 1) + k - w = w * n + k by rw [Nat.mul_succ]; omega, ih,
        List.getD_cons_succ]

/-- Codes of at most 16 bits packed densely are read back at their places (R141). -/
theorem bits_packRepeat {w : Nat} (codes : List Nat) (hw : w ≤ 16) {n : Nat} (hn : n < 32) :
    bits (packRepeat w codes).toNat (w * n) w = codes.getD n 0 % 2 ^ w := by
  refine Nat.eq_of_testBit_eq fun k => ?_
  rw [bits, Nat.testBit_mod_two_pow, Nat.testBit_div_two_pow, Nat.testBit_mod_two_pow]
  by_cases hk : k < w
  · have at_ : w * n + k < 32 * w := by nlinarith
    have byte : (w * n + k) / 8 < 4 * w := by omega
    have big : w * n + k < 1024 := by omega
    simp only [hk, decide_true, Bool.true_and]
    rw [Nat.add_comm k, ← testBit_packed w codes n k hk]
    generalize w * n + k = j at at_ byte big
    rw [packRepeat, BitVec.toNat_ofNat, Nat.testBit_mod_two_pow]
    simp only [big, decide_true, Bool.true_and]
    rw [show j = 8 * (j / 8) + j % 8 by omega, testBit_leNat _ _ _ (by omega),
      List.getD_eq_getElem _ _ (by simp; omega), List.getElem_map, List.getElem_range,
      Nat.mod_eq_of_lt byte, getLsbD_byte _ _ _ (by omega)]
  · simp [hk]

theorem convert32_narrow_code (sr : Bool) (x : Ctx) (k : Core) (f : Fmt) (a : VecData) (hw : f.width ≤ 16) {n : Nat} (hn : n < 32) :
    bits (convert32 sr x k (.narrow f) a).1.toNat (f.width * n) f.width =
      (f.convert (e5m2Inf x) (laneMode sr x k n) (ofF32 (a.extractLsb' (32 * n) 32))).code % 2 ^ f.width := by
  simp only [convert32]
  rw [bits_packRepeat _ hw hn, List.getD_eq_getElem _ _ (by simpa [narrowLanes, lanes_eq] using hn)]
  simp [narrowLanes, lanes_eq, lane]

/-! ### Conversions -/

/-- What a count at a tile leaves alone: its core, memory and every other tile (R138, R405). -/
theorem tallyAdd_leaves (s : State) (c key : Nat) (e : TallyEnt) : ((tallyAdd s c key e).tile key).core = (s.tile key).core ∧
    (tallyAdd s c key e).mem = s.mem ∧ ∀ j, j ≠ key → (tallyAdd s c key e).tile j = s.tile j := by
  have evict : ((evictFirst s c key).tile key).core = (s.tile key).core ∧ (evictFirst s c key).mem = s.mem ∧
      ∀ j, j ≠ key → (evictFirst s c key).tile j = s.tile j := by
    unfold evictFirst
    split
    · exact ⟨rfl, rfl, fun _ _ => rfl⟩
    · refine ⟨?_, State.modTally_mem .., fun j hj => ?_⟩
      · rw [State.tile_congr (State.modTally_tiles ..), State.modTile_tile_self]
      · rw [State.tile_congr (State.modTally_tiles ..), State.modTile_tile_ne _ _ hj]
  obtain ⟨core, mem, other⟩ := evict
  unfold tallyAdd
  dsimp only
  split
  · exact ⟨by rw [State.modTile_tile_self]; exact core, mem, fun j hj => (State.modTile_tile_ne _ _ hj).trans (other j hj)⟩
  · exact ⟨by rw [State.modTile_tile_self], rfl, fun j hj => State.modTile_tile_ne _ _ hj⟩

/-- What a conversion does after its result: ELEMENT_BASE and the counters (R46, R138). -/
def convAfter (sr : Bool) (cv : Cvt) (h : Hdr) (c : Nat) (x : Ctx) (k : Core) (a : VecData) (s : State) : State :=
  let s := if sr then s.modCore h.t fun q => { q with elementBase := k.elementBase + 32 } else s
  match convert32Count sr x k cv a with
  | some e => tallyAdd s c (ckey h.t) e
  | none => s

theorem convAfter_leaves (sr : Bool) (cv : Cvt) (h : Hdr) (c : Nat) (x : Ctx) (k : Core) (a : VecData) (s : State) :
    coreAt (convAfter sr cv h c x k a s) h.t =
      { coreAt s h.t with elementBase := if sr then k.elementBase + 32 else (coreAt s h.t).elementBase } ∧
    (convAfter sr cv h c x k a s).mem = s.mem ∧ ∀ j, j ≠ ckey h.t → (convAfter sr cv h c x k a s).tile j = s.tile j := by
  have based : coreAt (if sr then s.modCore h.t fun q => { q with elementBase := k.elementBase + 32 } else s) h.t =
        { coreAt s h.t with elementBase := if sr then k.elementBase + 32 else (coreAt s h.t).elementBase } ∧
      (if sr then s.modCore h.t fun q => { q with elementBase := k.elementBase + 32 } else s).mem = s.mem ∧
      ∀ j, j ≠ ckey h.t →
        (if sr then s.modCore h.t fun q => { q with elementBase := k.elementBase + 32 } else s).tile j = s.tile j := by
    cases sr
    · exact ⟨rfl, rfl, fun _ _ => rfl⟩
    · exact ⟨by simp [coreAt], rfl, fun j hj => by simp [hj]⟩
  unfold convAfter
  dsimp only
  split
  · obtain ⟨core, mem, other⟩ := tallyAdd_leaves
      (if sr then s.modCore h.t fun q => { q with elementBase := k.elementBase + 32 } else s) c (ckey h.t) ‹_›
    exact ⟨core.trans based.1, mem.trans based.2.1, fun j hj => (other j hj).trans (based.2.2 j hj)⟩
  · exact based

section
variable {s : State} {h : Hdr} {vd va : BitVec 5} {dfmt sfmt : BitVec 4} {c : Nat} {x : Ctx} {sr : Bool}

/-- A pair that R139 does not list, or `vcvtsr` of one that does not narrow, is illegal. -/
theorem vconv_illegal (hi : Issues s h) (bad : cvtOf dfmt sfmt = none ∨ (sr = true ∧ ∀ f, cvtOf dfmt sfmt ≠ some (.narrow f))) :
    vconv sr h vd va dfmt sfmt s = .next (takeExc s h.t 1 (coreAt s h.t).pc.toNat true 0) := by
  unfold vconv
  cases listed : cvtOf dfmt sfmt with
  | none => exact issue_invalid true _ hi
  | some cv =>
    obtain ⟨rfl, wide⟩ := bad.resolve_left (by simp [listed])
    refine vsfu_illegal hi ?_
    cases cv with
    | narrow f => exact absurd listed (wide f)
    | _ => rfl

theorem vconv_done {cv : Cvt} (hi : Issues s h) (hc : InCtx s h.t c x) (listed : cvtOf dfmt sfmt = some cv)
    (narrows : sr = true → ∃ f, cv = .narrow f) (distinct : dupPort [vd, va] = false)
    (free : portsBlock s x.cdef (ckey h.t) true (portsOf [va]) (portsOf [vd]) = none)
    (clean : (srcItem (s.tile (ckey h.t)) va).tagged = false) {k : Core} (hk : k = coreAt s h.t) {a : VecData}
    (ha : a = (srcItem (s.tile (ckey h.t)) va).data) : vconv sr h vd va dfmt sfmt s =
      .next (advance (putVec (convAfter sr cv h c x k a ((popAll s x.cdef h.t (portsOf [va])).modCore h.t fun q =>
        q.addFlags (convert32 sr x k cv a).2)) c x.cdef h.t vd { data := (convert32 sr x k cv a).1 }) h.t) := by
  unfold vconv
  rw [listed]
  refine vsfu_done (fun _ x k a => convert32 sr x k cv a) (fun n x k a s => convAfter sr cv h n x k a s) hi hc ?_ distinct free
    clean hk ha
  cases sr with
  | false => rfl
  | true => obtain ⟨f, rfl⟩ := narrows rfl; rfl

end

theorem conversionResults : Claims.ConversionResults := by
  rintro s h vd va dfmt sfmt c x k sr i a hi hc rfl hop rfl
  have op : exec i s = vconv sr h vd va dfmt sfmt s := by rw [hop]; cases sr <;> rfl
  refine ⟨fun bad => op.trans (vconv_illegal hi bad), fun distinct free clean cv listed narrows => ?_⟩
  refine ⟨_, _, op.trans (vconv_done hi hc listed narrows distinct free clean rfl rfl), rfl, ?_, fun dest src fits => ?_⟩
  · rintro f rfl small n hn; exact convert32_narrow_code sr x _ f _ small hn
  · rw [popAll_registers (by simpa using src), putVec_register dest]
    generalize convert32 sr x (coreAt s h.t) cv (srcItem (s.tile (ckey h.t)) va).data = r
    obtain ⟨core, mem, other⟩ := convAfter_leaves sr cv h c x (coreAt s h.t) (srcItem (s.tile (ckey h.t)) va).data
      (s.modCore h.t fun q => q.addFlags r.2)
    generalize convAfter sr cv h c x (coreAt s h.t) (srcItem (s.tile (ckey h.t)) va).data
      (s.modCore h.t fun q => q.addFlags r.2) = u at core mem other
    have flagged : coreAt (s.modCore h.t fun q => q.addFlags r.2) h.t = (coreAt s h.t).addFlags r.2 := by simp [coreAt]
    rw [flagged] at core
    rw [advance_modCore (f := fun k => k.setV vd.toNat { data := r.1 }) ((Core.setV_fits ..).2 (by rw [core]; exact fits))]
    refine ⟨?_, mem, fun j hj => ?_⟩
    · have self : coreAt (u.modCore h.t fun k => (k.setV vd.toNat { data := r.1 }).past) h.t =
          ((coreAt u h.t).setV vd.toNat { data := r.1 }).past := by simp [coreAt]
      rw [self, core]; rfl
    · rw [State.modCore_eq_modTile, State.modTile_tile_ne _ _ hj, other j hj, State.modCore_eq_modTile,
        State.modTile_tile_ne _ _ hj]

/-- Settles O11: special functions lane by lane, reductions by the levels of their tree, conversions by the codes they pack. -/
theorem specialAndConversions : Obligations.SpecialAndConversions := ⟨specialFunctions, conversionResults⟩

end Sys2Proof.Machine

/-! ## Proofs: encodings, guards and exceptions (R48, R49, R52, R77, R83, R84) -/

namespace Sys2Proof.Machine

section
variable {s : State} {h : Hdr}

/-- The outcome is the issue of an instruction of that slot, whose encoding is forbidden where `bad` is. -/
def IssuedBy (s : State) (h : Hdr) (slotB bad : Bool) (o : Out) : Prop := ∃ body, o = issue h slotB bad s body

/-- The outcome is such an issue of a timed wait. -/
def WaitIssuedBy (s : State) (h : Hdr) (slotB bad : Bool) (o : Out) : Prop := ∃ body, o = issueAny h slotB bad s body

theorem IssuedBy.of_bad_eq {slotB bad other : Bool} {o : Out} (e : bad = other) (i : IssuedBy s h slotB bad o) :
    IssuedBy s h slotB other o := e ▸ i

theorem IssuedBy.timed {slotB bad : Bool} {o : Out} (i : IssuedBy s h slotB bad o) (waits : (coreAt s h.t).timed ≠ none) :
    o = .next s := by
  obtain ⟨body, rfl⟩ := i
  exact if_pos (Option.isSome_iff_ne_none.2 waits)

theorem IssuedBy.untimed {slotB bad : Bool} {o : Out} (i : IssuedBy s h slotB bad o) (free : (coreAt s h.t).timed = none) :
    WaitIssuedBy s h slotB bad o := by
  obtain ⟨body, rfl⟩ := i
  exact ⟨body, if_neg (by rw [show (s.tile (ckey h.t)).core.timed = none from free]; decide)⟩

/-- A tile that may not issue does nothing. -/
theorem WaitIssuedBy.stopped {slotB bad : Bool} {o : Out} (i : WaitIssuedBy s h slotB bad o) (no : canIssue s h.t = false) :
    o = .next s := by
  obtain ⟨body, rfl⟩ := i
  simp [issueAny, no]

theorem IssuedBy.stopped {slotB bad : Bool} {o : Out} (i : IssuedBy s h slotB bad o) (no : canIssue s h.t = false) :
    o = .next s := by
  by_cases free : (coreAt s h.t).timed = none
  · exact (i.untimed free).stopped no
  · exact i.timed free

/-- What an issue does before its body: reserved words, unused bits, forbidden encodings and the guard (R48, R49, R52). -/
def EncodingRules (s : State) (h : Hdr) (slotB bad : Bool) (o : Out) : Prop :=
  (∀ w, (coreAt s h.t).reservedWord = some w →
    o = .next (takeExc { s with draws := s.draws + 1 } h.t 1 (coreAt s h.t).pc.toNat (wordSlot w s.draws) 0)) ∧
  ((coreAt s h.t).reservedWord = none →
    (h.unused ≠ 0 ∨ bad = true → o = .next (takeExc s h.t 1 (coreAt s h.t).pc.toNat slotB 0)) ∧
    (h.unused = 0 → bad = false → (coreAt s h.t).guard h = false → (coreAt s h.t).fits →
      o = .next (s.modCore h.t Core.past)))

theorem WaitIssuedBy.encodingRules {slotB bad : Bool} {o : Out} (i : WaitIssuedBy s h slotB bad o)
    (can : canIssue s h.t = true) : EncodingRules s h slotB bad o := by
  obtain ⟨body, rfl⟩ := i
  refine ⟨fun w reserved => ?_, fun known => ⟨fun wrong => ?_, fun unused good guard fits => ?_⟩⟩
  · simp [issueAny, can, reserved, State.draw]
  · have wrong : (h.unused != 0 || bad) = true := by simpa using wrong
    simp only [issueAny, can, if_true, known, wrong]
  · simp [issueAny, can, known, unused, good, guard, advance_fits s h.t fits]

end

/-- A vector conversion of a pair of formats is forbidden where the pair is none of R139, or names a port twice. -/
theorem vconv_issuedBy (sr : Bool) (s : State) (h : Hdr) (vd va : BitVec 5) (df sf : BitVec 4) :
    IssuedBy s h true ((cvtOf df sf).all (fun c => sr && !(match c with | .narrow _ => true | _ => false)) || dupPort [vd, va])
      (vconv sr h vd va df sf s) := by
  unfold vconv
  cases cvtOf df sf with
  | none => exact ⟨_, rfl⟩
  | some c => exact ⟨_, rfl⟩

theorem cvt_forbidden (df sf : BitVec 4) :
    (cvtOf df sf).all (fun c => false && !(match c with | .narrow _ => true | _ => false)) = (cvtOf df sf).isNone := by
  cases cvtOf df sf <;> rfl

/-- The stochastic conversions are the narrowing ones alone (R139). -/
theorem cvtsr_forbidden (df sf : BitVec 4) :
    (cvtOf df sf).all (fun c => true && !(match c with | .narrow _ => true | _ => false)) =
      (sf != 0 || (narrowFmt df).isNone) := by
  revert df sf; decide

theorem guardAndEncoding : Claims.GuardAndEncoding := by
  rintro s h a b d imm vo br wide pd pe f g z ck body df sf port k base waits rfl single baseIs waitsAre
  have two {o} (i : IssuedBy s h true (VKind.two.invalid a b d) o) := i.of_bad_eq VKind.invalid_two
  have acc {o} (i : IssuedBy s h true (VKind.acc.invalid a b d) o) :=
    i.of_bad_eq (other := isPort a || dupPort [a, b, d]) (by simp [VKind.invalid, VKind.srcs, Bool.or_comm])
  have one {o} (i : IssuedBy s h true (VKind.one.invalid a b d) o) :=
    i.of_bad_eq (other := dupPort [a, b] || d != 0) (by simp [VKind.invalid, VKind.srcs])
  have cvt := (vconv_issuedBy false s h a b df sf).of_bad_eq (by rw [cvt_forbidden])
  have cvtsr := (vconv_issuedBy true s h a b df sf).of_bad_eq (by rw [cvtsr_forbidden])
  have shift (op) : IssuedBy s h false (decide (32 ≤ imm.toNat)) (salui h a b imm (shiftBad imm) op s) :=
    IssuedBy.of_bad_eq (shiftBad_iff imm) ⟨_, rfl⟩
  have loop : IssuedBy s h false (body == 0 || (!f && decide (32 ≤ imm.toNat))) (execLoop h ck f body imm s) :=
    IssuedBy.of_bad_eq (by rw [← shiftBad_iff]; rfl) ⟨_, rfl⟩
  have stepend : IssuedBy s h false false (execStepend h s) := ⟨_, if_neg (by rw [single]; decide)⟩
  have byIssue : ∀ i ∈ base, IssuedBy s h i.2.1 i.2.2 (exec i.1 s) := by
    rw [baseIs]
    simp only [List.forall_mem_cons, List.not_mem_nil, false_imp_iff, implies_true, and_true]
    exact ⟨
      -- arithmetic, immediates, compares
      ⟨_, rfl⟩, ⟨_, rfl⟩, ⟨_, rfl⟩, ⟨_, rfl⟩, ⟨_, rfl⟩, ⟨_, rfl⟩, ⟨_, rfl⟩, ⟨_, rfl⟩, ⟨_, rfl⟩, ⟨_, rfl⟩, ⟨_, rfl⟩,
      ⟨_, rfl⟩, ⟨_, rfl⟩, ⟨_, rfl⟩, ⟨_, rfl⟩, ⟨_, rfl⟩, ⟨_, rfl⟩, ⟨_, rfl⟩, ⟨_, rfl⟩, ⟨_, rfl⟩,
      shift fun a b => a <<< sh b, shift fun a b => a >>> sh b, shift fun a b => a.sshiftRight (sh b), ⟨_, rfl⟩, ⟨_, rfl⟩,
      ⟨_, rfl⟩, ⟨_, rfl⟩, ⟨_, rfl⟩, ⟨_, rfl⟩, ⟨_, rfl⟩,
      -- branches, loops, accesses
      ⟨_, rfl⟩, ⟨_, rfl⟩, ⟨_, rfl⟩, ⟨_, rfl⟩, loop, ⟨_, rfl⟩, ⟨_, rfl⟩, ⟨_, rfl⟩, ⟨_, rfl⟩, ⟨_, rfl⟩, ⟨_, rfl⟩, ⟨_, rfl⟩,
      ⟨_, rfl⟩, ⟨_, rfl⟩, ⟨_, rfl⟩,
      -- vectors, special functions, conversions
      two ⟨_, rfl⟩, two ⟨_, rfl⟩, two ⟨_, rfl⟩, two ⟨_, rfl⟩, two ⟨_, rfl⟩, two ⟨_, rfl⟩, two ⟨_, rfl⟩, two ⟨_, rfl⟩,
      two ⟨_, rfl⟩, two ⟨_, rfl⟩, two ⟨_, rfl⟩, two ⟨_, rfl⟩, acc ⟨_, rfl⟩, acc ⟨_, rfl⟩, acc ⟨_, rfl⟩, one ⟨_, rfl⟩,
      one ⟨_, rfl⟩, one ⟨_, rfl⟩, ⟨_, rfl⟩, ⟨_, rfl⟩, ⟨_, rfl⟩, ⟨_, rfl⟩, ⟨_, rfl⟩, ⟨_, rfl⟩, ⟨_, rfl⟩, cvt, cvtsr,
      -- queues, matrix, transfers and messages, control
      ⟨_, rfl⟩, ⟨_, rfl⟩, ⟨_, rfl⟩, ⟨_, rfl⟩, ⟨_, rfl⟩, ⟨_, rfl⟩, ⟨_, rfl⟩, ⟨_, rfl⟩, ⟨_, rfl⟩, ⟨_, rfl⟩, ⟨_, rfl⟩,
      ⟨_, rfl⟩, ⟨_, rfl⟩, ⟨_, rfl⟩, ⟨_, rfl⟩, ⟨_, rfl⟩, ⟨_, rfl⟩, ⟨_, rfl⟩, ⟨_, rfl⟩, ⟨_, rfl⟩, ⟨_, rfl⟩, ⟨_, rfl⟩,
      ⟨_, rfl⟩, ⟨_, rfl⟩, stepend, ⟨_, rfl⟩⟩
  have qwait : WaitIssuedBy s h false (decide (8 ≤ a.toNat) || !isPort b) (execQwait h a b d s) := ⟨_, rfl⟩
  have dwaitt : WaitIssuedBy s h false false (execDwaitt h pd pe a b s) := ⟨_, rfl⟩
  have mwait : WaitIssuedBy s h false false (execMwait h pd a b s) := ⟨_, rfl⟩
  have byWait : ∀ i ∈ waits, WaitIssuedBy s h i.2.1 i.2.2 (exec i.1 s) := by
    rw [waitsAre]
    simp only [List.forall_mem_cons, List.not_mem_nil, false_imp_iff, implies_true, and_true]
    exact ⟨qwait, dwaitt, mwait⟩
  refine ⟨fun no => ?_, fun _ timed i hi => (byIssue i hi).timed timed, fun can free => ?_⟩
  · exact List.forall_mem_append.2 ⟨fun i hi => (byIssue i hi).stopped no, fun i hi => (byWait i hi).stopped no⟩
  · exact List.forall_mem_append.2 ⟨fun i hi => ((byIssue i hi).untimed free).encodingRules can,
      fun i hi => (byWait i hi).encodingRules can⟩

theorem pcRange : Claims.PcRange := by
  intro s h c x hi hc last noLoops
  have past : ¬(coreAt s h.t).fits := by simp [Core.fits, last, noLoops, advFrames]
  exact ⟨_, (issue_fin false hi rfl).trans (by rw [advance_range s h.t past]; rfl)⟩

/-! ### An exception taken -/

/-- A context that stops begins its reset: its epoch advances, and the record tells the cause (R367, R368, R393). -/
theorem beginReset_ctx {s : State} {c cause : Nat} {x : Ctx} (z : Ctx) (target : Option DWord) (remap : List Nat)
    (hx : s.ctx c = some x) : ∃ y, (beginReset s c z cause target remap).ctx c = some y ∧ y.rec_.state = 2 ∧
      y.rec_.cause = BitVec.ofNat 5 cause ∧ y.rec_.total = satAdd x.rec_.total 1 65535 ∧
      y.rec_.recovering = recoveryCause cause ∧ y.rec_.remap = remap ∧ y.cdef = x.cdef := by
  have faulted (kind : Nat) (d : DWord) : ∃ t, (addFault s c kind d).ctx c = some { x with tally := t } := by
    simp only [addFault, State.modCtx_ctx, if_true, hx, Option.map_some]
    exact ⟨_, rfl⟩
  have same (v : State) : (clearPauseEntry (advanceEpoch v c) c).ctx c = v.ctx c := rfl
  simp only [beginReset, State.modCtx_ctx, if_true, same]
  obtain ⟨t, ht⟩ := faulted cause _
  rw [ht]
  exact ⟨_, rfl, rfl, rfl, rfl, rfl, rfl, rfl⟩

@[simp] theorem beginReset_events (s : State) (c : Nat) (x : Ctx) (cause : Nat) (target : Option DWord) (remap : List Nat) :
    (beginReset s c x cause target remap).events = s.events := by simp [beginReset, clearPauseEntry, advanceEpoch, rwPut]

theorem epochOf_beginReset (s : State) (c : Nat) (x : Ctx) (cause : Nat) (target : Option DWord) (remap : List Nat) :
    epochOf (beginReset s c x cause target remap) c = epochOf s c + 1 := by
  simp [beginReset, epochOf, clearPauseEntry, advanceEpoch, rwPut]

/-- A running context that is not being admitted stops by a reset (R367). -/
theorem stopCtx_running {s : State} {c : Nat} {x : Ctx} (cause : Nat) (target : Option DWord) (remap : List Nat)
    (hx : s.ctx c = some x) (running : x.rec_.state = 1) (settled : admitting s c = false) :
    stopCtx s c cause target remap = beginReset s c x cause target remap := by
  simp [stopCtx, hx, settled, stopState, running]

/-- A tile stopped by an exception, before its context is stopped: the first exception of the step is recorded and reported. -/
def excNoted (s : State) (p : Coord) (c : Nat) (x : Ctx) (w : DWord) : State :=
  let s := s.modTile (ckey p) fun t => { t with core := { t.core with run := .excepted, wait := none, timed := none } }
  if x.run.excSeen then s
  else raise ({ s with excRec := mput s.excRec c w }.modRun c fun r => { r with excSeen := true }) .tileException [c]

section
variable {s : State} {p : Coord} {c : Nat} {x : Ctx}

theorem takeExc_eq (code pc detail : Nat) (slotB : Bool) (hc : InCtx s p c x) :
    takeExc s p code pc slotB detail = stopCtx (excNoted s p c x (excWord code x.cdef p pc slotB detail)) c
      (if code == 8 then 5 else if code == 9 then 7 else 4) none (if code == 9 then [ckey p] else []) := by
  simp only [takeExc, show ctxAt s p = some (c, x) from hc, excNoted]

theorem excNoted_ctx (w : DWord) (hx : s.ctx c = some x) :
    (excNoted s p c x w).ctx c = some { x with run := { x.run with excSeen := true } } := by
  have kept : (s.modTile (ckey p) fun t => { t with core := { t.core with run := .excepted, wait := none, timed := none } }).ctx c
      = some x := hx
  unfold excNoted
  cases seen : x.run.excSeen with
  | true =>
    have same : { x.run with excSeen := true } = x.run := by rw [← seen]
    rw [same]; exact kept
  | false =>
    change (State.modRun _ c _).ctx c = _
    simp only [State.modRun, State.modCtx_ctx, if_true]
    exact congrArg _ kept

theorem excNoted_tile (w : DWord) (j : Nat) : (excNoted s p c x w).tile j = (s.modTile (ckey p) fun t =>
    { t with core := { t.core with run := .excepted, wait := none, timed := none } }).tile j := by
  unfold excNoted
  split
  · rfl
  · simp [State.tile]

theorem excNoted_run (w : DWord) : ((excNoted s p c x w).tile (ckey p)).core.run = .excepted := by
  rw [excNoted_tile, State.modTile_tile_self]

theorem admitting_excNoted (w : DWord) (j : Nat) : admitting (excNoted s p c x w) j = admitting s j := by
  unfold excNoted; split <;> simp [admitting]

theorem epochOf_excNoted (w : DWord) (j : Nat) : epochOf (excNoted s p c x w) j = epochOf s j := by
  unfold excNoted; split <;> simp [epochOf]

theorem exceptionTaken : Claims.ExceptionTaken := by
  intro s p code pc detail c slotB x hc hx running settled
  let w := excWord code x.cdef p pc slotB detail
  let cause := if code == 8 then 5 else if code == 9 then 7 else 4
  have taken : takeExc s p code pc slotB detail = beginReset (excNoted s p c x w) c
      { x with run := { x.run with excSeen := true } } cause none (if code == 9 then [ckey p] else []) := by
    rw [takeExc_eq code pc detail slotB hc]
    exact stopCtx_running _ none _ (excNoted_ctx w hx) running ((admitting_excNoted w c).trans settled)
  obtain ⟨y, hy, state, causeIs, total, recovering, remap, cdef⟩ :=
    beginReset_ctx { x with run := { x.run with excSeen := true } } none (if code == 9 then [ckey p] else []) (cause := cause)
      (excNoted_ctx (p := p) w hx)
  refine ⟨⟨y, taken ▸ hy, state, causeIs.trans ?_, total, ?_, ?_, cdef⟩, ?_, ?_, ?_, ?_, takeExc_mem _ _ _ _ _ _,
    fun j hj => takeExc_tile_other _ _ _ _ _ _ j hj⟩
  · dsimp only [cause]; split <;> (try split) <;> simp_all
  · rw [recovering]; dsimp only [cause]; split <;> (try split) <;> simp_all [recoveryCause]
  · rw [remap]; simp
  · simp only [coreAt, taken, State.tile, beginReset_tiles]
    exact excNoted_run (x := x) w
  · rw [taken, epochOf_beginReset, epochOf_excNoted]
  · intro fresh
    rw [taken, beginReset_excRec, beginReset_events]
    simp [excNoted, fresh, w, raise, now]
  · intro seen
    rw [taken, beginReset_excRec]
    simp [excNoted, seen]

end

/-- Settles O17: every instruction issues through one function, and an exception of a running context is one reset. -/
theorem guardsAndExceptions : Obligations.GuardsAndExceptions := ⟨guardAndEncoding, pcRange, exceptionTaken⟩

end Sys2Proof.Machine

/-! ## Proofs: timed waits (R77, R78) -/

namespace Sys2Proof.Machine

section
variable {s : State} {h : Hdr}

/-- A timed wait whose condition holds ends with its predicate 1. -/
theorem wait_met {bad : Bool} {body : Tile → Act} {on : WaitOn} {pd : BitVec 3} {limit : Word} (hi : Issues s h)
    (fits : (coreAt s h.t).fits) (good : bad = false)
    (waits : body (s.tile (ckey h.t)) = timedWait h s (s.tile (ckey h.t)) on true pd limit) :
    issueAny h false bad s body = .next (s.modCore h.t fun k => { k.setPred pd true with timed := none }.past) := by
  obtain ⟨can, -, unused, guard, known⟩ := hi
  rw [good, issueAny_eq false body can unused guard known, waits]
  exact congrArg Host.Outcome.next (advance_modCore (f := fun k => { k.setPred pd true with timed := none })
    ((Core.setPred_fits (coreAt s h.t) pd true).2 fits))

/-- One whose condition does not hold stands with its limit. -/
theorem wait_stands {bad : Bool} {body : Tile → Act} {on : WaitOn} {pd : BitVec 3} {limit : Word} (hi : Issues s h)
    (good : bad = false) (waits : body (s.tile (ckey h.t)) = timedWait h s (s.tile (ckey h.t)) on false pd limit) :
    issueAny h false bad s body = .next (s.modCore h.t fun k => { k with timed := some ⟨on, pd, limit⟩ }) := by
  obtain ⟨can, free, unused, guard, known⟩ := hi
  rw [good, issueAny_eq false body can unused guard known, waits]
  simp only [timedWait, Bool.false_eq_true, if_false, State.modCore, State.modTile]
  rw [show (s.tile (ckey h.t)).core.timed = none from free]

end

theorem wantedSender_eq (w : Word) :
    wantedSender w = if w = 0xFFFFFFFF#32 then none else some (w.toNat % 2 ^ 14) := by
  simp [wantedSender, codeOf, bits]

theorem mailIndex_isSome (t : Tile) (o : Option Nat) :
    (mailIndex t o).isSome = t.dma.mailbox.any fun m => o.all fun n => m.sender == n := by
  rw [mailIndex, List.findIdx?_isSome]
  cases o <;> rfl

/-- A message is there that comes of the sender named, or of any. -/
theorem mailIndex_of_wanted {t : Tile} {o : Option Nat} (there : ∃ m ∈ t.dma.mailbox, ∀ n ∈ o, m.sender = n) :
    (mailIndex t o).isSome = true := by
  rw [mailIndex_isSome, List.any_eq_true]
  obtain ⟨m, hm, wanted⟩ := there
  exact ⟨m, hm, by cases o <;> simp_all⟩

theorem mailIndex_of_unwanted {t : Tile} {o : Option Nat} (others : ∀ m ∈ t.dma.mailbox, ∃ n ∈ o, m.sender ≠ n) :
    (mailIndex t o).isSome = false := by
  rw [mailIndex_isSome, List.any_eq_false]
  intro m hm
  obtain ⟨n, hn, other⟩ := others m hm
  simp [Option.mem_def.1 hn, other]

/-- The outcomes of `qwait` at a bound input, in the order in which it tests them (R55, R100). -/
def qwaitBody (s : State) (h : Hdr) (a b c : BitVec 5) (t : Tile) : Act :=
  if !portBound t (portOf b) || chOut (t.chan (portOf b)) then .exc 4 (portOf b)
  else if portHeld t (portOf b) then .stall (.portHeld (portOf b))
  else timedWait h s t (.queueIn (portOf b)) (hasItem t (portOf b)) (a.setWidth 3) (t.core.sreg c)

/-- `qwait` of a port that its encoding allows. -/
theorem qwait_eq {s : State} {h : Hdr} {c : Nat} {x : Ctx} {qa qb rs : BitVec 5} (hc : InCtx s h.t c x) (small : qa.toNat < 8)
    (port : isPort qb = true) : exec (.qwait h qa qb rs) s = issueAny h false false s (qwaitBody s h qa qb rs) := by
  have good : (decide (8 ≤ qa.toNat) || !isPort qb) = false := by simp [port, small]
  change execQwait h qa qb rs s = _
  rw [execQwait, good]
  exact congrArg (issueAny h false false s) (funext fun t => withCtx_inCtx hc _)

theorem dwaitt_eq (s : State) (h : Hdr) (k pd : BitVec 3) (rs rt : BitVec 5) : exec (.dwaitt h k pd rs rt) s =
    issueAny h false false s fun t => timedWait h s t (.dmaCount k (t.core.sreg rs)) (countReached (t.core.kreg k) (t.core.sreg rs))
      pd (t.core.sreg rt) := by
  change execDwaitt h k pd rs rt s = _
  rfl

theorem mwait_eq (s : State) (h : Hdr) (pd : BitVec 3) (rs rt : BitVec 5) : exec (.mwait h pd rs rt) s =
    issueAny h false false s fun t => timedWait h s t (.mail (wantedSender (t.core.sreg rs)))
      (mailIndex t (wantedSender (t.core.sreg rs))).isSome pd (t.core.sreg rt) := by
  change execMwait h pd rs rt s = _
  rfl

theorem timedWaitResults : Claims.TimedWaits := by
  rintro s h qa qb rs rt kc pd c x t w o hi fits hc rfl rfl rfl
  obtain ⟨can, free, unused, guard, known⟩ := hi
  have hi : Issues s h := ⟨can, free, unused, guard, known⟩
  rw [dwaitt_eq, mwait_eq, ← wantedSender_eq]
  refine ⟨fun small port => ?_, fun small port wrong => ?_, fun met => wait_met hi fits rfl (by rw [← met]; rfl),
    fun unmet => wait_stands hi rfl (by rw [← unmet]; rfl),
    fun there => wait_met hi fits rfl (congrArg (timedWait h s _ _ · _ _) (mailIndex_of_wanted there)),
    fun others => wait_stands hi rfl (congrArg (timedWait h s _ _ · _ _) (mailIndex_of_unwanted others))⟩
  · intro bound input
    rw [qwait_eq hc small port]
    refine ⟨fun held => ?_, fun unheld => ?_⟩
    · rw [issueAny_eq false _ can unused guard known]
      simp [qwaitBody, bound, input, held]
    have waits : qwaitBody s h qa qb rs (s.tile (ckey h.t)) = timedWait h s (s.tile (ckey h.t)) (.queueIn (portOf qb))
        (hasItem (s.tile (ckey h.t)) (portOf qb)) (BitVec.ofNat 3 qa.toNat) ((s.tile (ckey h.t)).core.sreg rs) := by
      simp only [qwaitBody, bound, input, unheld, BitVec.ofNat_toNat, Bool.not_true, Bool.or_self, Bool.false_eq_true, if_false]
    refine ⟨fun item => ?_, fun empty => ?_⟩
    · exact wait_met hi fits rfl (waits.trans (congrArg (timedWait h s _ _ · _ _) (by simp [hasItem, item])))
    · exact wait_stands hi rfl (waits.trans (congrArg (timedWait h s _ _ · _ _) (by simp [hasItem, empty])))
  · rw [qwait_eq hc small port, issueAny_eq false _ can unused guard known]
    have bad : (!portBound (s.tile (ckey h.t)) (portOf qb) || chOut ((s.tile (ckey h.t)).chan (portOf qb))) = true := by
      simpa using wrong
    simp [qwaitBody, bad]

/-- What a timed wait awaits, as R77 says it. -/
theorem Tile.awaited_eq (t : Tile) (on : WaitOn) : t.awaited on = (match on with
    | .queueIn ch => !(t.cst ch).store.isEmpty
    | .dmaCount k target => countReached (mget t.core.k 0 k.toNat) target
    | .mail (some n) => t.dma.mailbox.any fun m => m.sender == n
    | .mail none => !t.dma.mailbox.isEmpty
    | _ => false) := by
  cases on with
  | mail o =>
    refine (mailIndex_isSome t o).trans ?_
    cases o with
    | some n => rfl
    | none => cases t.dma.mailbox <;> simp
  | _ => rfl

/-- A late acceptance counted, in the step's record and in the context's (R78, R399). -/
def lateCounted (s : State) (c : Nat) : State :=
  (s.modTally c fun y => { y with late := y.late + 1 }).modRec c fun r => { r with late := satAdd r.late 1 16383 }

theorem lateCounted_tiles (s : State) (c : Nat) : (lateCounted s c).tiles = s.tiles := by simp [lateCounted]

theorem lateCounted_mem (s : State) (c : Nat) : (lateCounted s c).mem = s.mem := by simp [lateCounted]

theorem lateCounted_ctx {s : State} {c : Nat} {x : Ctx} (hx : s.ctx c = some x) : (lateCounted s c).ctx c =
    some { x with tally := { x.tally with late := x.tally.late + 1 }, rec_ := { x.rec_ with late := satAdd x.rec_.late 1 16383 } } := by
  simp only [lateCounted, State.modRec, State.modTally, State.modCtx_ctx, if_true, hx, Option.map_some]

/-- A timed wait ended, its predicate saying whether what it awaited is there. -/
def waitEnded (s : State) (p : Coord) (pd : BitVec 3) (there : Bool) : State :=
  s.modCore p fun k => { k.setPred pd there with timed := none }

theorem coreAt_waitEnded (s : State) (p : Coord) (pd : BitVec 3) (there : Bool) :
    coreAt (waitEnded s p pd there) p = { (coreAt s p).setPred pd there with timed := none } := by simp [coreAt, waitEnded]

/-- The outcome of an expiry, by what is there. -/
theorem exec_timedWaitExpiry {s : State} {p : Coord} {w : TimedWait} {c : Nat} {x : Ctx} {there : Bool}
    (can : canIssue s p = true) (waits : (coreAt s p).timed = some w) (hc : InCtx s p c x)
    (met : (s.tile (ckey p)).awaited w.on = there) : exec (.timedWaitExpiry p) s =
      .next (advance (if there then lateCounted (waitEnded s p w.pd there) c else waitEnded s p w.pd there) p) := by
  change execTimedWaitExpiry p s = _
  have at_ : ctxAt (waitEnded s p w.pd there) p = some (c, x) := hc
  simp only [waitEnded] at at_
  simp only [execTimedWaitExpiry, show (s.tile (ckey p)).core.timed = some w from waits, can, if_true, met, at_]
  rfl

theorem timedWaitExpires : Claims.TimedWaitExpires := by
  rintro s p w c x there can waits fits hc hx thereIs
  rw [exec_timedWaitExpiry can waits hc ((Tile.awaited_eq _ _).trans thereIs.symm)]
  have past (u : State) (tiles : u.tiles = (waitEnded s p w.pd there).tiles) : advance u p = u.modCore p Core.past :=
    advance_fits u p (by
      rw [show coreAt u p = coreAt (waitEnded s p w.pd there) p by simp only [coreAt, State.tile, tiles], coreAt_waitEnded]
      exact (Core.setPred_fits (coreAt s p) w.pd there).2 fits)
  constructor
  · rintro rfl
    exact congrArg Host.Outcome.next ((past _ rfl).trans (State.modCore_modCore ..))
  · rintro rfl
    simp only [if_true]
    rw [past _ (lateCounted_tiles _ c)]
    have tile (j : Nat) : (lateCounted (waitEnded s p w.pd true) c).tile j = (waitEnded s p w.pd true).tile j :=
      State.tile_congr (lateCounted_tiles _ c) j
    refine ⟨_, rfl, ?_, ⟨_, lateCounted_ctx hx, rfl, rfl, rfl, rfl⟩, lateCounted_mem _ c, fun j hj => ?_⟩
    · rw [← coreAt_waitEnded s p w.pd true]
      simp only [coreAt, State.modCore, State.modTile_tile_self, tile]
    · rw [State.modCore, State.modTile_tile_ne _ _ hj, tile, waitEnded, State.modCore, State.modTile_tile_ne _ _ hj]

/-- Settles O15: a timed wait ends, stands or is refused by what it awaits, and its expiry sees what came in its cycle. -/
theorem timedWaits : Obligations.TimedWaits := ⟨timedWaitResults, timedWaitExpires⟩

end Sys2Proof.Machine

/-! ## Proofs: what leaves at a tile port, and what it leaves alone (R190, R208, R211, R255) -/

namespace Sys2Proof.Machine

/-- A tile whose port let something go: its credits owed, its staged lines and records, the spill engine's progress and the state
of its report may differ, and of its channels no more than what the spill engine has sent. -/
structure PumpedTile (t u : Tile) : Prop where
  rest : ∃ chst owed spill unreport reported staging trace, u = { t with
    chst := chst, owed := owed, spill := spill, unreport := unreport, reported := reported
    bin := { t.bin with staging := staging, trace := trace } }
  cst : ∀ ch, ∃ n, u.cst ch = { t.cst ch with memSent := n }

/-- A state in which one tile's port let something go: that tile, and flits with new numbers. -/
structure Pumped (k : Nat) (s u : State) : Prop where
  frame : ∃ tiles flits next stamp, u =
    { s with tiles := tiles, mesh := { s.mesh with flits := flits, nextFlit := next, nextStamp := stamp } }
  other : ∀ j, j ≠ k → u.tile j = s.tile j
  tile : PumpedTile (s.tile k) (u.tile k)
  flits : ∀ n, n < s.mesh.nextFlit → mfind u.mesh.flits n = mfind s.mesh.flits n
  next : s.mesh.nextFlit ≤ u.mesh.nextFlit

theorem PumpedTile.refl (t : Tile) : PumpedTile t t := ⟨⟨_, _, _, _, _, _, _, rfl⟩, fun _ => ⟨_, rfl⟩⟩

theorem PumpedTile.trans {t u v : Tile} (a : PumpedTile t u) (b : PumpedTile u v) : PumpedTile t v := by
  refine ⟨?_, fun ch => ?_⟩
  · obtain ⟨_, _, _, _, _, _, _, rfl⟩ := a.rest
    obtain ⟨_, _, _, _, _, _, _, rfl⟩ := b.rest
    exact ⟨_, _, _, _, _, _, _, rfl⟩
  · obtain ⟨_, ha⟩ := a.cst ch
    obtain ⟨n, hb⟩ := b.cst ch
    exact ⟨n, by rw [hb, ha]⟩

/-- A tile that differs in none of its channels. -/
theorem PumpedTile.of_rest {t : Tile} {owed spill unreport reported staging trace} : PumpedTile t { t with
    owed := owed, spill := spill, unreport := unreport, reported := reported
    bin := { t.bin with staging := staging, trace := trace } } := ⟨⟨_, _, _, _, _, _, _, rfl⟩, fun _ => ⟨_, rfl⟩⟩

section
variable {t u : Tile} (h : PumpedTile t u)
include h

theorem PumpedTile.core : u.core = t.core := by obtain ⟨_, _, _, _, _, _, _, rfl⟩ := h.rest; rfl
theorem PumpedTile.dma : u.dma = t.dma := by obtain ⟨_, _, _, _, _, _, _, rfl⟩ := h.rest; rfl
theorem PumpedTile.handles : u.handles = t.handles := by obtain ⟨_, _, _, _, _, _, _, rfl⟩ := h.rest; rfl
theorem PumpedTile.chans : u.chans = t.chans := by obtain ⟨_, _, _, _, _, _, _, rfl⟩ := h.rest; rfl
theorem PumpedTile.mx : u.mx = t.mx := by obtain ⟨_, _, _, _, _, _, _, rfl⟩ := h.rest; rfl
theorem PumpedTile.steer : u.steer = t.steer := by obtain ⟨_, _, _, _, _, _, _, rfl⟩ := h.rest; rfl
theorem PumpedTile.chan (ch : Nat) : u.chan ch = t.chan ch := by rw [Tile.chan, h.chans]; rfl

end

theorem Pumped.refl (k : Nat) (s : State) : Pumped k s s :=
  ⟨⟨_, _, _, _, rfl⟩, fun _ _ => rfl, .refl _, fun _ _ => rfl, Nat.le_refl _⟩

theorem Pumped.trans {k : Nat} {s u v : State} (a : Pumped k s u) (b : Pumped k u v) : Pumped k s v := by
  refine ⟨?_, fun j hj => (b.other j hj).trans (a.other j hj), a.tile.trans b.tile,
    fun n hn => (b.flits n (Nat.lt_of_lt_of_le hn a.next)).trans (a.flits n hn), Nat.le_trans a.next b.next⟩
  obtain ⟨_, _, _, _, rfl⟩ := a.frame
  obtain ⟨_, _, _, _, rfl⟩ := b.frame
  exact ⟨_, _, _, _, rfl⟩

theorem Pumped.foldl {k : Nat} {α : Type} (f : State → α → State) (step : ∀ s a, Pumped k s (f s a)) (l : List α) (s : State) :
    Pumped k s (l.foldl f s) := by
  induction l generalizing s with
  | nil => exact .refl k s
  | cons a r ih => exact (step s a).trans (ih _)

theorem Pumped.of_modTile {k : Nat} {f : Tile → Tile} (s : State) (h : PumpedTile (s.tile k) (f (s.tile k))) :
    Pumped k s (s.modTile k f) :=
  ⟨⟨_, _, _, _, rfl⟩, fun _ hj => s.modTile_tile_ne f hj, by rwa [State.modTile_tile_self], fun _ _ => rfl, Nat.le_refl _⟩

/-- A flit sent has a number of its own. -/
theorem Pumped.of_addFlit (k : Nat) (s : State) (f : Flit) : Pumped k s (s.addFlit f) :=
  ⟨⟨_, _, _, _, rfl⟩, fun _ _ => rfl, .refl _, fun _ hn => (mfind_mput ..).trans (if_neg (Nat.ne_of_lt hn)), Nat.le_succ _⟩

theorem Pumped.of_send (k : Nat) (s : State) (f : Flit) : Pumped k s (s.send f) := .of_addFlit k s _

theorem Pumped.of_ite {k : Nat} {s u : State} (c : Prop) [Decidable c] (h : Pumped k s u) : Pumped k s (if c then u else s) := by
  split
  · exact h
  · exact .refl k s

/-! ### The spill engine (R211) -/

/-- A channel of a tile after one was written. -/
theorem Tile.setCst_cst (t : Tile) (ch j : Nat) (c : ChanSt) : (t.setCst ch c).cst j = if j = ch then c else t.cst j :=
  mget_mput ..

theorem beginSpill_pumped (c : Nat) (t : Tile) (p : Coord) (x : SpillTxn) : PumpedTile t (beginSpill c t p x) := by
  unfold beginSpill
  extract_lets tag st f written
  have sent : PumpedTile t written := by
    unfold written
    split
    · refine ⟨⟨_, _, _, _, _, _, _, rfl⟩, fun ch => ?_⟩
      rw [Tile.setCst_cst]
      split
      · subst ch; exact ⟨_, rfl⟩
      · exact ⟨_, rfl⟩
    · exact .refl t
  exact sent.trans .of_rest

theorem spillStep_pumped (c : Nat) (d : CtxDef) (p : Coord) (t : Tile) (ch : Nat) : PumpedTile t (spillStep c d p t ch) := by
  unfold spillStep
  split
  · exact .refl t
  · split
    · exact beginSpill_pumped ..
    · split
      · exact beginSpill_pumped ..
      · exact .refl t

theorem spillSteps_pumped (c : Nat) (d : CtxDef) (p : Coord) (l : List Nat) (t : Tile) :
    PumpedTile t (l.foldl (spillStep c d p) t) := by
  induction l generalizing t with
  | nil => exact .refl t
  | cons ch r ih => exact (spillStep_pumped c d p t ch).trans (ih _)

/-! ### The port (R190, R208, R255) -/

/-- What leaves a tile where there is room, its own record of it changed. -/
theorem Pumped.ite_send {s : State} {k : Nat} {f : Tile → Tile} (h : PumpedTile (s.tile k) (f (s.tile k))) (e : Flit) (room : Prop)
    [Decidable room] : Pumped k s (if room then (s.modTile k f).send e else s) :=
  .of_ite room ((Pumped.of_modTile s h).trans (.of_send k _ e))

/-- The spill engine's part of what leaves a port. -/
def portSpills (c : Nat) (d : CtxDef) (p : Coord) (s : State) : State :=
  if (s.tile (ckey p)).chst.any fun e => e.2.spilling then
    s.modTile (ckey p) fun t => ((List.range 32) ++ (List.range 32)).foldl (spillStep c d p) t
  else s

/-- The credits of a tile that leave its port. -/
def portCredits (c : Nat) (p : Coord) (s : State) : State :=
  (s.tile (ckey p)).owed.foldl (fun s e =>
    let f := owedFlit c p e.1 e.2
    if 0 < portRoom s p f.cls then (s.modTile (ckey p) fun t => { t with owed := mdel t.owed e.1 }).send f else s) s

/-- The staged lines, trace records and unblocked report that leave the port behind them. -/
def portRest (c : Nat) (p : Coord) (s : State) : State :=
  let k := ckey p
  let s := (s.tile k).bin.staging.foldl (fun s f =>
    if 0 < portRoom s p f.cls then
      (s.modTile k fun t => { t with bin := { t.bin with staging := t.bin.staging.erase f } }).send f
    else s) s
  let s := (s.tile k).bin.trace.foldl (fun s r =>
    if 0 < portRoom s p .request then
      (s.modTile k fun t => { t with bin := { t.bin with trace := t.bin.trace.drop 1 } }).send (traceFlit c p r)
    else s) s
  if (s.tile k).unreport && 0 < portRoom s p .management then
    (reportFlits c p []).foldl State.send (s.modTile k fun t => { t with unreport := false })
  else s

theorem pumpPort_eq {s : State} {p : Coord} {c : Nat} {x : Ctx} (hc : InCtx s p c x) :
    pumpPort s p = portRest c p (portCredits c p (portSpills c x.cdef p s)) := by
  simp only [pumpPort, show ctxAt s p = some (c, x) from hc]
  rfl

theorem portSpills_pumped (c : Nat) (d : CtxDef) (p : Coord) (s : State) : Pumped (ckey p) s (portSpills c d p s) :=
  .of_ite _ (.of_modTile s (spillSteps_pumped c d p _ _))

theorem portCredits_pumped (c : Nat) (p : Coord) (s : State) : Pumped (ckey p) s (portCredits c p s) :=
  .foldl _ (fun _ _ => .ite_send .of_rest _ _) _ _

theorem portRest_pumped (c : Nat) (p : Coord) (s : State) : Pumped (ckey p) s (portRest c p s) := by
  unfold portRest
  extract_lets k staged traced
  have hstaged : Pumped k s staged := .foldl _ (fun s e => .ite_send .of_rest _ _) _ _
  have htraced : Pumped k staged traced := .foldl _ (fun s e => .ite_send .of_rest _ _) _ _
  clear_value staged traced
  exact (hstaged.trans htraced).trans (.of_ite _ ((Pumped.of_modTile _ .of_rest).trans (.foldl _ (Pumped.of_send k) _ _)))

theorem pumpPort_pumped (s : State) (p : Coord) : Pumped (ckey p) s (pumpPort s p) := by
  cases hc : ctxAt s p with
  | none => simp only [pumpPort, hc]; exact .refl _ s
  | some cx =>
    rw [pumpPort_eq (c := cx.1) (x := cx.2) hc]
    exact ((portSpills_pumped ..).trans (portCredits_pumped ..)).trans (portRest_pumped ..)

/-- The one credit owed leaves at once where the spill engine rests and the port has room (R190). -/
theorem pumpPort_credit {s : State} {p : Coord} {c key n : Nat} {x : Ctx} (hc : InCtx s p c x)
    (owed : (s.tile (ckey p)).owed = [(key, n)]) (rests : ∀ e ∈ (s.tile (ckey p)).chst, e.2.spilling = false)
    (room : 0 < portRoom s p (owedFlit c p key n).cls) : ∃ loc stamp,
      mfind (pumpPort s p).mesh.flits s.mesh.nextFlit = some { owedFlit c p key n with loc := loc, stamp := stamp } := by
  have spilled : portSpills c x.cdef p s = s := if_neg (by simpa using rests)
  have credited : portCredits c p s =
      (s.modTile (ckey p) fun t => { t with owed := mdel t.owed key }).send (owedFlit c p key n) := by
    simp only [portCredits, owed, List.foldl_cons, List.foldl_nil, room, if_true]
  rw [pumpPort_eq hc, spilled, credited, (portRest_pumped c p _).flits _ (Nat.lt_succ_self s.mesh.nextFlit)]
  exact ⟨_, _, mfind_mput_self ..⟩

theorem oweCredit_pumped (s : State) (p : Coord) (key n : Nat) : Pumped (ckey p) s (oweCredit s p key n) := .of_modTile s .of_rest

theorem unblock_pumped (s : State) (p : Coord) : Pumped (ckey p) s (unblock s p) := by
  unfold unblock
  extract_lets k
  split
  · exact (Pumped.of_modTile s .of_rest).trans (pumpPort_pumped _ p)
  · exact .refl k s

theorem sendCredits_pumped (s : State) (d : CtxDef) (p : Coord) (ch n : Nat) : Pumped (ckey p) s (sendCredits s d p ch n) := by
  unfold sendCredits
  extract_lets e
  split
  · exact oweCredit_pumped ..
  · split
    · exact .refl ..
    · split
      · exact oweCredit_pumped ..
      · refine .foldl _ (fun s q => .foldl _ (fun s oc => ?_) _ _) _ _
        exact .of_ite _ (oweCredit_pumped ..)
  · exact .refl ..

section
variable {k : Nat} {s u : State} (h : Pumped k s u)
include h

theorem Pumped.mem : u.mem = s.mem := by obtain ⟨_, _, _, _, rfl⟩ := h.frame; rfl
theorem Pumped.ctxs : u.ctxs = s.ctxs := by obtain ⟨_, _, _, _, rfl⟩ := h.frame; rfl
theorem Pumped.hall : u.hall = s.hall := by obtain ⟨_, _, _, _, rfl⟩ := h.frame; rfl
theorem Pumped.clk : u.clk = s.clk := by obtain ⟨_, _, _, _, rfl⟩ := h.frame; rfl
theorem Pumped.reduce : u.mesh.reduce = s.mesh.reduce := by obtain ⟨_, _, _, _, rfl⟩ := h.frame; rfl

/-- The line a handle maps stays. -/
theorem Pumped.physLine (l : Nat) : physLine (u.tile k) l = physLine (s.tile k) l := by
  rw [Machine.physLine, h.tile.handles]; rfl

end

end Sys2Proof.Machine

/-! ## Proofs: the bytes of a span and the write-back of one line (R168) -/

namespace Sys2Proof.Machine

theorem leNat_drop (l : List Byte) (i : Nat) : leNat (l.drop i) = leNat l / 256 ^ i := by
  induction l generalizing i with
  | nil => simp [leNat]
  | cons b t ih =>
    cases i with
    | zero => simp
    | succ i =>
      rw [List.drop_succ_cons, ih, leNat, Nat.pow_succ', ← Nat.div_div_eq_div_mul]
      congr 1
      omega

theorem leNat_take (l : List Byte) (i : Nat) : leNat (l.take i) = leNat l % 256 ^ i := by
  induction l generalizing i with
  | nil => simp [leNat]
  | cons b t ih =>
    cases i with
    | zero => simp [leNat, Nat.mod_one]
    | succ i => rw [List.take_succ_cons, leNat, ih, leNat, Nat.pow_succ', Nat.mod_mul,
      show (b.toNat + 256 * leNat t) / 256 = leNat t by omega]; omega

theorem cellRead_drop (m : List Host.Cell) (a n i : Nat) : (cellRead m a n).drop i = cellRead m (a + i) (n - i) := by
  induction i generalizing a n with
  | zero => rfl
  | succ i ih =>
    cases n with
    | zero => simp [cellRead]
    | succ n => rw [cellRead, List.drop_succ_cons, ih, Nat.add_sub_add_right]; congr 1; omega

theorem cellRead_take (m : List Host.Cell) (a n i : Nat) : (cellRead m a n).take i = cellRead m a (min i n) := by
  induction i generalizing a n with
  | zero => simp [cellRead]
  | succ i ih =>
    cases n with
    | zero => simp [cellRead]
    | succ n => rw [cellRead, List.take_succ_cons, ih, Nat.succ_min_succ, cellRead]

/-- Bytes within a span, as part of the number of the span. -/
theorem bits_cellRead (m : List Host.Cell) (a : Nat) {i k n : Nat} (h : i + k ≤ n) :
    bits (leNat (cellRead m a n)) (8 * i) (8 * k) = leNat (cellRead m (a + i) k) := by
  rw [bits, Nat.pow_mul, Nat.pow_mul, show 2 ^ 8 = 256 from rfl, ← leNat_drop, cellRead_drop, ← leNat_take, cellRead_take,
    Nat.min_eq_left (by omega)]

section
variable (s : State) (p : Coord)

/-- A trace record leaves the tile as it was but for its port. -/
theorem traceRecord_tile (op a n : Nat) : PumpedTile (s.tile (ckey p)) ((traceRecord s p op a n).tile (ckey p)) := by
  unfold traceRecord
  split
  · exact .refl _
  · split
    · split
      · exact .refl _
      · extract_lets k w size r s1
        have recorded : PumpedTile (s.tile (ckey p)) (s1.tile (ckey p)) := (Pumped.of_modTile s .of_rest).tile
        refine (recorded.trans ?_).trans (pumpPort_pumped _ p).tile
        rw [State.tile_congr (State.modRun_tiles ..)]
        exact .refl _
    · exact .refl _

/-- A line with a pending entry, written back and traced. -/
theorem flushSpan_one_tile {l q : Nat} (mapped : physLine (s.tile (ckey p)) l = some q) :
    PumpedTile { s.tile (ckey p) with bin := (s.tile (ckey p)).bin.writeBack q } ((flushSpan s p l 1).tile (ckey p)) := by
  simp only [flushSpan, List.range_one, List.foldl_cons, List.foldl_nil, Nat.add_zero, mapped]
  split
  · exact .trans (by rw [State.modTile_tile_self]; exact .refl _) (traceRecord_tile ..)
  · rename_i clean
    rw [Bin.writeBack_of_none (by simpa using clean)]
    exact .refl _

end

/-- What a port pump leaves of the bin: its lines and its gather entries. -/
theorem PumpedTile.gatherOf {t u : Tile} (h : PumpedTile t u) (q : Nat) : u.bin.gatherOf q = t.bin.gatherOf q := by
  obtain ⟨_, _, _, _, _, _, _, rfl⟩ := h.rest; rfl

end Sys2Proof.Machine

/-! ## Proofs: the DMA's descriptors and counters (R68 to R70, R73) -/

namespace Sys2Proof.Machine

theorem setK_zero (k : Core) (n : BitVec 3) : k.setK n 0 = { k with k := mdel k.k n.toNat } := by simp [Core.setK, mset]

/-- A count is reached unless the target lies 1 to 32,767 ahead (R73). -/
theorem countReached_iff (k : BitVec 16) (target : Word) : countReached k target = true ↔
    (target.toNat + 65536 - k.toNat) % 65536 = 0 ∨ 32767 < (target.toNat + 65536 - k.toNat) % 65536 := by
  simp only [countReached, Bool.or_eq_true, beq_iff_eq, decide_eq_true_eq]; omega

section
variable {s : State} {h : Hdr} {c : Nat} {x : Ctx}

theorem issue_stall {body : Tile → Act} {w : WaitOn} (slotB : Bool) (hi : Issues s h)
    (hb : body (s.tile (ckey h.t)) = .stall w) :
    issue h slotB false s body = .next (s.modCore h.t fun k => { k with wait := some w }) := by
  rw [issue_eq slotB body hi, hb]

/-- What becomes of an instruction of slot A that issues, by its body. -/
def Act.outcome (s : State) (h : Hdr) : Act → Out
  | .fin t => .next (advance t h.t)
  | .go t => .next t
  | .stall w => .next (s.modCore h.t fun k => { k with wait := some w })
  | .exc code detail => .next (takeExc s h.t code (coreAt s h.t).pc.toNat false detail)

/-- What `dma` does with a descriptor that it has read (R68 to R70). -/
def dmaTake (s : State) (h : Hdr) (x : Ctx) (t : Tile) (n a : Nat) : Act :=
  let d := descOf n a t.core.tensorId t.core.pc
  if !descOk n d then .exc 6 a
  else if !reachable s x.cdef d then .exc 5 a
  else
    match descUnmapped t d with
    | some l => .exc 3 (64 * l)
    | none => .fin (s.setTile (ckey h.t) { t with dma := { t.dma with descs := mput t.dma.descs (nextFree t.dma.descs) d } })

/-- `dma` at a mapped, sound, untagged place while a descriptor is free. -/
theorem exec_dma {rs : BitVec 5} {a q : Nat} {f : State} {u : Tile} {n : Nat} {act : Act} (hi : Issues s h) (hc : InCtx s h.t c x)
    (addr : a = ((coreAt s h.t).sreg rs).toNat) (ok : addrFault (s.tile (ckey h.t)) a 32 1 = none)
    (free : (s.tile (ckey h.t)).dma.descs.length < 4) (hf : f = flushSpan s h.t (a / 64) 1) (hu : u = f.tile (ckey h.t))
    (mapped : physLine u (a / 64) = some q) (clean : u.bin.gatherOf q = none) (sound : u.bin.lineOk q = true)
    (untagged : u.bin.tag q = false) (hn : n = bits (u.bin.lineNat q) (8 * (a % 64)) 256) (take : dmaTake f h x u n a = act) :
    exec (.dma h rs) s = act.outcome s h := by
  refine (issue_eq (s := s) false _ hi).trans (congrArg (Act.outcome s h) ?_)
  rw [withCtx_inCtx hc, ← take, hn]
  simp only [← addr, ok]
  rw [if_neg (by omega), ← hf, ← hu, readLine_of_clean mapped clean sound, untagged]
  rfl

end

theorem dmaIssue : Claims.DmaIssue := by
  rintro s h rs kc c x t a q w hi hc rfl rfl
  refine ⟨fun addr range aligned mapped => ?_, fun fits => ?_, fun ahead => ?_, fun fits reached => ?_⟩
  · have ok : addrFault (s.tile (ckey h.t)) a 32 1 = none := addrFault_none range aligned fun i hi => by
      rw [show i = 0 by omega, Nat.add_zero, mapped]; rfl
    refine ⟨fun full => ?_, fun free f u n d hf hu sound untagged hn hd => ?_⟩
    · refine issue_stall false hi ?_
      rw [withCtx_inCtx hc]
      simp only [← addr, ok]
      rw [if_pos full]
    have flushed : PumpedTile { s.tile (ckey h.t) with bin := (s.tile (ckey h.t)).bin.writeBack q } u := by
      rw [hu, hf]; exact flushSpan_one_tile s h.t mapped
    have answer := fun act => exec_dma (act := act) (x := x) (rs := rs) (n := n) hi hc addr ok free hf hu
      (by rw [physLine, flushed.handles]; exact mapped)
      (by rw [flushed.gatherOf]; exact (Bin.gatherOf_writeBack ..).trans (if_pos rfl)) sound untagged
      (by rw [hn, Bin.lineNat]; exact (bits_cellRead _ _ (k := 32) (by omega)).symm)
    have desc : descOf n a u.core.tensorId u.core.pc = d := by rw [hd, flushed.core]
    simp only [dmaTake, desc] at answer
    refine ⟨fun clean => ?_, fun good near bound => ?_, fun bad => ?_, fun good far => ?_⟩
    · rw [hf]; exact flushSpan_one_clean fun q' hq' => by rwa [Option.some.inj (mapped.symm.trans hq')] at clean
    · exact answer (.fin _) (by simp [good, near, bound])
    · exact answer (.exc 6 a) (by simp [bad])
    · exact answer (.exc 5 a) (by simp [good, far])
  · exact issue_fin_modCore false _ (fun k => k.setK kc 0) hi rfl fits |>.trans (by simp only [setK_zero])
  · have unreached : countReached (mget (s.tile (ckey h.t)).core.k 0 kc.toNat) ((s.tile (ckey h.t)).core.sreg rs) = false := by
      rw [Bool.eq_false_iff, ne_eq, countReached_iff]; omega
    exact issue_stall false hi (if_neg (by rw [Bool.not_eq_true]; exact unreached))
  · have there : countReached (mget (s.tile (ckey h.t)).core.k 0 kc.toNat) ((s.tile (ckey h.t)).core.sreg rs) = true :=
      (countReached_iff ..).2 reached
    exact (issue_fin false hi (if_pos there)).trans (congrArg _ (advance_fits s h.t fits))

end Sys2Proof.Machine

/-! ## Proofs: messages between tiles (R74 to R76, R255) -/

namespace Sys2Proof.Machine

theorem codeTile_eq (d : CtxDef) (w : Word) : codeTile d w = ⟨d.x0 + w.toNat % 128, d.y0 + w.toNat / 128 % 128⟩ := by
  simp [codeTile, bits]

theorem codeTile_ofNat (d : CtxDef) (n : Nat) : codeTile d (BitVec.ofNat 32 n) = ⟨d.x0 + n % 128, d.y0 + n / 128 % 128⟩ := by
  rw [codeTile_eq, BitVec.toNat_ofNat, Nat.mod_mod_of_dvd _ (by decide)]
  congr 2
  omega

/-- The message that a receiver of a sender, or of any, takes is the oldest of them. -/
theorem mailIndex_eq {t : Tile} {w : Word} {m : Mail} {i : Nat} (there : t.dma.mailbox[i]? = some m)
    (oldest : w = 0xFFFFFFFF#32 ∧ i = 0 ∨ w ≠ 0xFFFFFFFF#32 ∧ m.sender = w.toNat % 2 ^ 14 ∧
      ∀ j n, j < i → t.dma.mailbox[j]? = some n → n.sender ≠ w.toNat % 2 ^ 14) :
    mailIndex t (wantedSender w) = some i := by
  obtain ⟨inside, rfl⟩ := List.getElem?_eq_some_iff.1 there
  rw [mailIndex, List.findIdx?_eq_some_iff_getElem, wantedSender_eq]
  refine ⟨inside, ?_⟩
  rcases oldest with ⟨any, rfl⟩ | ⟨named, sender, older⟩
  · simp [any]
  · rw [if_neg named]
    exact ⟨by simpa using sender, fun j hj => by simpa using older j _ hj (List.getElem?_eq_getElem (by omega))⟩

/-- The state once a message is received: it leaves the mailbox, and its credit goes to its sender (R74, R76). -/
def mailTaken (s : State) (d : CtxDef) (p : Coord) (i sender : Nat) : State :=
  pumpPort (oweCredit (s.modTile (ckey p) fun t => { t with dma := { t.dma with mailbox := t.dma.mailbox.eraseIdx i } }) p
    (4 * (32 * ckey (codeTile d (BitVec.ofNat 32 sender))) + 2) 1) p

section
variable {s : State} {h : Hdr} {c : Nat} {x : Ctx} {v rs : BitVec 5}

theorem exec_mrecv {m : Mail} {i : Nat} (hi : Issues s h) (hc : InCtx s h.t c x)
    (free : portsBlock s x.cdef (ckey h.t) true [] (portsOf [v]) = none) (there : (s.tile (ckey h.t)).dma.mailbox[i]? = some m)
    (oldest : mailIndex (s.tile (ckey h.t)) (wantedSender ((coreAt s h.t).sreg rs)) = some i) :
    exec (.mrecv h v rs) s = .next (advance (putVec (mailTaken s x.cdef h.t i m.sender) c x.cdef h.t v m.data) h.t) := by
  refine issue_fin false hi ?_
  rw [withCtx_inCtx hc, free]
  simp only [oldest]
  rw [List.getD_eq_getElem?_getD, there]
  rfl

theorem exec_mrecv_none (hi : Issues s h) (hc : InCtx s h.t c x)
    (free : portsBlock s x.cdef (ckey h.t) true [] (portsOf [v]) = none) {o : Option Nat}
    (ho : wantedSender ((coreAt s h.t).sreg rs) = o) (none_ : mailIndex (s.tile (ckey h.t)) o = none) :
    exec (.mrecv h v rs) s = .next (s.modCore h.t fun k => { k with wait := some (.mail o) }) := by
  refine issue_stall false hi ?_
  rw [withCtx_inCtx hc, free]
  simp only [ho, none_]

/-- What `msend` does once its port allows it (R74, R255). -/
def msendAct (s : State) (h : Hdr) (c : Nat) (x : Ctx) (v : BitVec 5) (w : Word) : Act :=
  let q := codeTile x.cdef w
  if !x.cdef.has q || !(s.tile (ckey q)).dma.senders.contains (x.cdef.relCode h.t) then .exc 7 (codeOf w)
  else if (s.tile (ckey h.t)).dma.msgOut.contains (ckey q) then .stall (.msgDest (ckey q))
  else if portRoom s h.t .request = 0 then .stall .meshPort
  else .fin (((popAll s x.cdef h.t (portsOf [v])).modTile (ckey h.t) fun t =>
      { t with dma := { t.dma with msgOut := sadd t.dma.msgOut (ckey q) } }).send
        { cls := .request, ctx := BitVec.ofNat 4 c, op := 6, dst := q, src := h.t, item := srcItem (s.tile (ckey h.t)) v })

theorem exec_msend {act : Act} (hi : Issues s h) (hc : InCtx s h.t c x)
    (free : portsBlock s x.cdef (ckey h.t) true (portsOf [v]) [] = none)
    (send : msendAct s h c x v ((s.tile (ckey h.t)).core.sreg rs) = act) : exec (.msend h v rs) s = act.outcome s h := by
  refine (issue_eq (s := s) false _ hi).trans (congrArg (Act.outcome s h) ?_)
  rw [withCtx_inCtx hc, free, ← send]
  rfl

/-- The credit of a received message goes to the tile its sender's code names. -/
theorem owedFlit_mail (c : Nat) (p : Coord) (k n : Nat) : owedFlit c p (4 * (32 * k) + 2) n =
    { cls := .reply, ctx := BitVec.ofNat 4 c, op := 1, dst := keyXY k, src := p } := by
  have code : (4 * (32 * k) + 2) % 4 = 2 := by omega
  have place : (4 * (32 * k) + 2) / 128 = k := by omega
  simp only [owedFlit, code, place]

/-- What receiving a message leaves alone, and the credit that it sends. -/
theorem mailTaken_pumped (s : State) (d : CtxDef) (p : Coord) (i sender : Nat) :
    Pumped (ckey p) (s.modTile (ckey p) fun t => { t with dma := { t.dma with mailbox := t.dma.mailbox.eraseIdx i } })
      (mailTaken s d p i sender) := (oweCredit_pumped ..).trans (pumpPort_pumped ..)

theorem mailTaken_credit (hc : InCtx s h.t c x) {i sender : Nat} (owed : (s.tile (ckey h.t)).owed = [])
    (room : 0 < portRoom s h.t .reply) (rests : ∀ e ∈ (s.tile (ckey h.t)).chst, e.2.spilling = false) :
    ∃ n f, mfind (mailTaken s x.cdef h.t i sender).mesh.flits n = some f ∧ f.cls = .reply ∧ f.op = 1 ∧ f.src = h.t ∧
      f.dst = keyXY (ckey (codeTile x.cdef (BitVec.ofNat 32 sender))) := by
  obtain ⟨loc, stamp, sent⟩ := pumpPort_credit (key := 4 * (32 * ckey (codeTile x.cdef (BitVec.ofNat 32 sender))) + 2) (n := 1)
    (s := oweCredit (s.modTile (ckey h.t) fun t => { t with dma := { t.dma with mailbox := t.dma.mailbox.eraseIdx i } }) h.t
      (4 * (32 * ckey (codeTile x.cdef (BitVec.ofNat 32 sender))) + 2) 1)
    (p := h.t) (c := c) (x := x) hc (by simp [oweCredit, owed, mmod, mput, mget]) (by simpa [oweCredit] using rests)
    (by rw [owedFlit_mail]; exact room)
  rw [owedFlit_mail] at sent
  exact ⟨_, _, sent, rfl, rfl, rfl, rfl⟩

end

theorem tileMessages : Claims.TileMessages := by
  rintro s h v rs c x t w dst hi hc rfl rfl hdst
  rw [← codeTile_eq] at hdst
  subst hdst
  refine ⟨fun free => ⟨fun inside declared => ⟨fun fresh room => ?_, fun busy => ?_⟩, fun undeclared => ?_⟩,
    fun free => ⟨fun m i there oldest => ⟨mailTaken s x.cdef h.t i m.sender, exec_mrecv hi hc free there (mailIndex_eq there oldest), ?_⟩,
      fun any empty => ?_, fun named others => ?_⟩⟩
  · exact exec_msend (act := .fin _) hi hc free (by
      simp only [msendAct, inside, declared, fresh, Nat.ne_of_gt room, Bool.not_true, Bool.or_self, Bool.false_eq_true, if_false])
  · exact exec_msend (act := .stall _) hi hc free (by
      simp only [msendAct, inside, declared, busy, Bool.not_true, Bool.or_self, Bool.false_eq_true, if_false, if_true])
  · exact exec_msend (act := .exc 7 _) hi hc free (by
      have away : (!x.cdef.has (codeTile x.cdef ((s.tile (ckey h.t)).core.sreg rs)) || !(s.tile (ckey (codeTile x.cdef
          ((s.tile (ckey h.t)).core.sreg rs)))).dma.senders.contains (x.cdef.relCode h.t)) = true := by
        rw [Bool.or_eq_true, Bool.not_eq_true', Bool.not_eq_true']; exact undeclared
      simp only [msendAct, away, if_true, codeOf, bits, Nat.pow_zero, Nat.div_one])
  · have pumped := mailTaken_pumped s x.cdef h.t i m.sender
    refine ⟨?_, ?_, pumped.mem, pumped.ctxs, fun j hj => (pumped.other j hj).trans (s.modTile_tile_ne _ hj),
      fun owed room rests => ?_⟩
    · rw [pumped.tile.dma, State.modTile_tile_self]
    · rw [pumped.tile.core, State.modTile_tile_self]
    · rw [← codeTile_ofNat]; exact mailTaken_credit hc owed room rests
  · refine exec_mrecv_none hi hc free (by rw [wantedSender_eq, if_pos any]) ?_
    rw [mailIndex, empty]; rfl
  · refine exec_mrecv_none hi hc free (by rw [wantedSender_eq, if_neg named]) ?_
    rw [← Option.not_isSome_iff_eq_none, Bool.not_eq_true]
    exact mailIndex_of_unwanted fun m hm => ⟨_, rfl, others m hm⟩

/-- Settles O14: descriptors and counters, and messages one at a time. -/
theorem dmaAndMessages : Obligations.DmaAndMessages := ⟨dmaIssue, tileMessages⟩

end Sys2Proof.Machine

/-! ## Proofs: moves between queues and registers (R52 to R55, R64, R67) -/

namespace Sys2Proof.Machine

section
variable {s : State} {h : Hdr} {c : Nat} {x : Ctx} {a b : BitVec 5}

theorem portsOf_port (port : isPort b = true) : portsOf [b] = [portOf b] := by simp [portsOf, port]

theorem portsOf_register (register : isPort b = false) : portsOf [b] = [] := by simp [portsOf, register]

/-- A source port named against its binding raises QUEUE_BINDING (R53). -/
theorem portsBlock_source {wide : Bool} {ch : Nat} {l outs : List Nat} {d : CtxDef} {k : Nat}
    (bad : portOk (s.tile k) ch false wide = false) : portsBlock s d k wide (ch :: l) outs = some (.exc 4 ch) := by
  simp [portsBlock, bad]

/-- A destination port named against its binding raises QUEUE_BINDING (R53). -/
theorem portsBlock_dest {wide : Bool} {ch : Nat} {l : List Nat} {d : CtxDef} {k : Nat}
    (bad : portOk (s.tile k) ch true wide = false) : portsBlock s d k wide [] (ch :: l) = some (.exc 4 ch) := by
  simp [portsBlock, bad]

/-- A port is against its binding where it is not bound, of the other direction or of the other width. -/
theorem portOk_false {t : Tile} {ch : Nat} {out wide : Bool}
    (bad : chUsed (t.chan ch) = false ∨ chOut (t.chan ch) = !out ∨ chWide (t.chan ch) = !wide) : portOk t ch out wide = false := by
  rcases bad with bad | bad | bad <;> simp [portOk, bad]

/-- An encoding of a queue instruction that names a port and leaves its third field zero is allowed (R52). -/
theorem queue_encoding (port : isPort b = true) : (!isPort b || ((0 : BitVec 5) != 0)) = false := by simp [port]

theorem exec_qrecv_blocked {act : Act} (hi : Issues s h) (hc : InCtx s h.t c x) (port : isPort b = true)
    (block : portsBlock s x.cdef (ckey h.t) false [portOf b] [] = some act) : exec (.qrecv h a b 0) s = act.outcome s h := by
  change execQrecv h a b 0 s = _
  rw [execQrecv, queue_encoding port]
  refine (issue_eq (s := s) false _ hi).trans (congrArg (Act.outcome s h) ?_)
  rw [withCtx_inCtx hc, block]

theorem exec_qrecv (hi : Issues s h) (hc : InCtx s h.t c x) (port : isPort b = true)
    (free : portsBlock s x.cdef (ckey h.t) false [portOf b] [] = none) : exec (.qrecv h a b 0) s =
      (if (headItem (s.tile (ckey h.t)) (portOf b)).tagged then Act.exc 8 (srcDetail b)
        else .fin ((popItem s x.cdef h.t (portOf b)).modCore h.t fun k =>
          k.setS a (headItem (s.tile (ckey h.t)) (portOf b)).toWord)).outcome s h := by
  change execQrecv h a b 0 s = _
  rw [execQrecv, queue_encoding port]
  refine (issue_eq (s := s) false _ hi).trans (congrArg (Act.outcome s h) ?_)
  rw [withCtx_inCtx hc, free]

theorem exec_qsend_blocked {act : Act} (hi : Issues s h) (hc : InCtx s h.t c x) (port : isPort a = true)
    (block : portsBlock s x.cdef (ckey h.t) false [] [portOf a] = some act) : exec (.qsend h a b 0) s = act.outcome s h := by
  change execQsend h a b 0 s = _
  rw [execQsend, queue_encoding port]
  refine (issue_eq (s := s) false _ hi).trans (congrArg (Act.outcome s h) ?_)
  rw [withCtx_inCtx hc, block]

theorem exec_qsend (hi : Issues s h) (hc : InCtx s h.t c x) (port : isPort a = true)
    (free : portsBlock s x.cdef (ckey h.t) false [] [portOf a] = none) : exec (.qsend h a b 0) s =
      .next (advance (pushItem s c x.cdef h.t (portOf a) (Item.word ((s.tile (ckey h.t)).core.sreg b) false)) h.t) := by
  change execQsend h a b 0 s = _
  rw [execQsend, queue_encoding port]
  refine issue_fin false hi ?_
  rw [withCtx_inCtx hc, free]

theorem exec_vmov_blocked {act : Act} (hi : Issues s h) (hc : InCtx s h.t c x) (distinct : dupPort [a, b] = false)
    (block : portsBlock s x.cdef (ckey h.t) true (portsOf [b]) (portsOf [a]) = some act) :
    exec (.vmov h a b 0) s = issue h true false s fun _ => act := by
  change issue h true (VKind.one.invalid a b 0) s _ = _
  rw [VKind.invalid_one rfl, distinct]
  rw [issue_eq true _ hi, issue_eq true _ hi, withCtx_inCtx hc, block]

theorem exec_qcount (hi : Issues s h) (hc : InCtx s h.t c x) (port : isPort b = true)
    (bound : portBound (s.tile (ckey h.t)) (portOf b) = true) (free : portHeld (s.tile (ckey h.t)) (portOf b) = false)
    (fits : (coreAt s h.t).fits) : exec (.qcount h a b 0) s = .next (s.modCore h.t fun k => (k.setS a (BitVec.ofNat 32
      (if chOut ((s.tile (ckey h.t)).chan (portOf b)) then chanCredit s x.cdef (ckey h.t) (portOf b)
        else ((s.tile (ckey h.t)).cst (portOf b)).store.length + ((s.tile (ckey h.t)).cst (portOf b)).binSeg.length
          + ((s.tile (ckey h.t)).cst (portOf b)).memSeg.length))).past) := by
  change execQcount h a b 0 s = _
  rw [execQcount, queue_encoding port]
  refine issue_fin_modCore false _ (fun k => k.setS a _) hi ?_ (by simpa using fits)
  rw [withCtx_inCtx hc]
  simp only [bound, free, Bool.not_true, Bool.false_eq_true, if_false]

theorem exec_vbcast (hi : Issues s h) (hc : InCtx s h.t c x)
    (free : portsBlock s x.cdef (ckey h.t) true [] (portsOf [a]) = none) : exec (.vbcast h a b 0) s =
      .next (advance (putVec s c x.cdef h.t a { data := ofLanes (List.replicate 32 ((s.tile (ckey h.t)).core.sreg b)) }) h.t) := by
  refine issue_fin false hi ?_
  rw [withCtx_inCtx hc, free]

theorem exec_vext {n : BitVec 5} (hi : Issues s h) (hc : InCtx s h.t c x)
    (free : portsBlock s x.cdef (ckey h.t) true (portsOf [b]) [] = none) : exec (.vext h a b n) s =
      (if (srcItem (s.tile (ckey h.t)) b).laneTag n.toNat then Act.exc 8 (srcDetail b)
        else .fin ((popAll s x.cdef h.t (portsOf [b])).modCore h.t fun k =>
          k.setS a ((srcItem (s.tile (ckey h.t)) b).data.extractLsb' (32 * n.toNat) 32))).outcome s h := by
  refine (issue_eq (s := s) false _ hi).trans (congrArg (Act.outcome s h) ?_)
  rw [withCtx_inCtx hc, free]

theorem exec_vins {n : BitVec 5} (hi : Issues s h) (register : isPort a = false) (fits : (coreAt s h.t).fits) :
    exec (.vins h a b n) s = .next (s.modCore h.t fun k =>
      (k.setV a.toNat ((k.vreg a.toNat).setLane n.toNat ((s.tile (ckey h.t)).core.sreg b))).past) := by
  change execVins h a b n s = _
  rw [execVins, register]
  exact issue_fin_modCore false _ (fun k => k.setV a.toNat _) hi rfl ((Core.setV_fits ..).2 fits)

end

theorem queueMoves : Claims.QueueMoves := by
  rintro s h a b n c x t k hi hc rfl rfl
  refine ⟨fun port free => ⟨fun sound => ?_, fun tagged => ?_⟩, fun port free => ?_,
    fun port bound unheld fits => exec_qcount hi hc port bound unheld fits, fun free => ?_,
    fun free => ⟨fun sound => ?_, fun tagged => ?_⟩, fun register fits => ?_⟩
  · rw [exec_qrecv hi hc port free, sound]; rfl
  · rw [exec_qrecv hi hc port free, tagged, srcDetail, port]; rfl
  · exact exec_qsend hi hc port free
  · refine ⟨_, fun i hi => ?_, exec_vbcast hi hc free, fun register fits => ?_⟩
    · exact (lane_ofLanes _ hi).trans (by rw [List.getD_eq_getElem _ _ (by simpa using hi), List.getElem_replicate])
    · rw [exec_vbcast hi hc free, putVec_register register]
      exact congrArg _ (advance_modCore (f := fun k => k.setV a.toNat _) ((Core.setV_fits ..).2 fits))
  · have answer := exec_vext (a := a) (n := n) hi hc free
    simp only [sound, Bool.false_eq_true, if_false] at answer
    refine ⟨answer, fun register fits => answer.trans ?_⟩
    rw [popAll_registers (by simpa using register), srcItem_register register]
    exact congrArg _ (advance_modCore (f := fun k => k.setS a _) ((Core.setS_fits ..).2 fits))
  · have answer := exec_vext (a := a) (n := n) hi hc free
    simp only [tagged, if_true] at answer
    exact answer
  · refine ⟨_, fun i hi => ?_, exec_vins hi register fits⟩
    refine (lane_ofLanes _ hi).trans ?_
    have inside : i < ((lanes ((s.tile (ckey h.t)).core.vreg a.toNat).data).set n.toNat ((s.tile (ckey h.t)).core.sreg b)).length := by
      simpa [lanes] using hi
    rw [List.getD_eq_getElem _ _ inside, List.getElem_set]
    simp [lanes, eq_comm]

theorem queueBinding : Claims.QueueBinding := by
  rintro s h a b c x t hi hc rfl port e rfl
  refine ⟨fun bad => ?_, fun bad => ?_, fun bad register => ?_, fun bad register => ?_⟩
  · exact exec_qrecv_blocked hi hc port (portsBlock_source (portOk_false (by simpa using bad)))
  · exact exec_qsend_blocked hi hc port (portsBlock_dest (portOk_false (by simpa using bad)))
  · rw [exec_vmov_blocked hi hc (by rw [dupPort_register register]; simp [dupPort, portsOf_port port])
      (by rw [portsOf_port port]; exact portsBlock_source (portOk_false (by simpa using bad)))]
    exact issue_exc true hi rfl
  · rw [exec_vmov_blocked hi hc (by simp [dupPort, portsOf, port, register])
      (by rw [portsOf_port port, portsOf_register register]; exact portsBlock_dest (portOk_false (by simpa using bad)))]
    exact issue_exc true hi rfl

end Sys2Proof.Machine

/-! ## Proofs: items popped and pushed (R54, R190, R210, R251) -/

namespace Sys2Proof.Machine

/-- The items of a channel that stand in sequence: those of the queue store, of the bin segment and of the memory segment. -/
def ChanSt.items (c : ChanSt) : List Item × List Item × List Item := (c.store, c.binSeg, c.memSeg)

theorem PumpedTile.items {t u : Tile} (h : PumpedTile t u) (ch : Nat) : (u.cst ch).items = (t.cst ch).items := by
  obtain ⟨n, e⟩ := h.cst ch
  rw [e]; rfl

/-- The lines of a bin segment pass their check whatever leaves the port. -/
theorem PumpedTile.spillItemOk {t u : Tile} (h : PumpedTile t u) (e : DWord) (n : Nat) :
    spillItemOk u e n = spillItemOk t e n := by
  obtain ⟨_, _, _, _, _, _, _, rfl⟩ := h.rest; rfl

/-- Writing a channel with its own items leaves the items of every channel. -/
theorem items_setCst {t : Tile} {ch : Nat} {c : ChanSt} (same : c.items = (t.cst ch).items) (j : Nat) :
    ((t.setCst ch c).cst j).items = (t.cst j).items := by
  rw [Tile.setCst_cst]
  split
  · subst j; exact same
  · rfl

theorem grantCredits_spec (s : State) (d : CtxDef) (p : Coord) (ch : Nat) :
    (∀ j, (((grantCredits s d p ch).tile (ckey p)).cst j).items = ((s.tile (ckey p)).cst j).items) ∧
      (grantCredits s d p ch).mem = s.mem := by
  unfold grantCredits
  extract_lets t e st n granted st2 stay written
  have same (j : Nat) : ((written.tile (ckey p)).cst j).items = ((s.tile (ckey p)).cst j).items := by
    have first := items_setCst (t := t) (ch := ch) (c := { st with outstanding := st.outstanding + n }) rfl j
    have second := items_setCst (t := granted) (ch := ch) (c := { st2 with spilling := st2.spilling && stay }) rfl j
    rw [State.setTile_tile, if_pos rfl]
    exact second.trans first
  have credited : Pumped (ckey p) written (if n = 0 then written else sendCredits written d p ch n) := by
    split
    · exact .refl ..
    · exact sendCredits_pumped ..
  have pumped := credited.trans (pumpPort_pumped _ p)
  exact ⟨fun j => (pumped.tile.items j).trans (same j), pumped.mem⟩

/-- One item of the bin segment moves up where the store has a free slot and its line passes its check (R210). -/
theorem moveUp_one {s : State} {p : Coord} {ch : Nat} {t : Tile} (ht : t = s.tile (ckey p))
    (room : (t.cst ch).store.length < chCap (t.chan ch)) (sound : spillItemOk t (t.chan ch) (t.cst ch).binAt = true) :
    (((moveUp 1 s p ch).tile (ckey p)).cst ch).items =
        ((t.cst ch).store ++ (t.cst ch).binSeg.take 1, (t.cst ch).binSeg.drop 1, (t.cst ch).memSeg) ∧
      (∀ j, j ≠ ch → ((moveUp 1 s p ch).tile (ckey p)).cst j = t.cst j) ∧ (moveUp 1 s p ch).mem = s.mem := by
  subst ht
  cases hb : ((s.tile (ckey p)).cst ch).binSeg with
  | nil =>
    have stays : moveUp 1 s p ch = s := by simp only [moveUp, hb]
    rw [stays]
    simp [ChanSt.items, hb]
  | cons i l =>
    simp only [moveUp, hb, room, if_true, sound, State.setTile_tile]
    refine ⟨by simp [Tile.setCst_cst, ChanSt.items], fun j hj => by rw [Tile.setCst_cst, if_neg hj], rfl⟩

theorem itemPopped : Claims.ItemPopped := by
  rintro s d p ch t u rfl rfl item within sound
  have free := unblock_pumped s p
  generalize hv : unblock s p = v at free
  obtain ⟨sent, same⟩ := free.tile.cst ch
  let w := v.setTile (ckey p) ((v.tile (ckey p)).setCst ch { (v.tile (ckey p)).cst ch with
    store := ((v.tile (ckey p)).cst ch).store.drop 1 })
  have popped : popItem s d p ch = grantCredits (moveUp 1 w p ch) d p ch := by rw [popItem, hv]
  have here : w.tile (ckey p) = _ := (State.setTile_tile ..).trans (if_pos rfl)
  have cst (j : Nat) : (w.tile (ckey p)).cst j =
      if j = ch then { (v.tile (ckey p)).cst ch with store := ((v.tile (ckey p)).cst ch).store.drop 1 }
      else (v.tile (ckey p)).cst j := by rw [here, Tile.setCst_cst]
  have chan : (w.tile (ckey p)).chan ch = (s.tile (ckey p)).chan ch := by rw [here]; exact free.tile.chan ch
  obtain ⟨moved, others, mem⟩ := moveUp_one (s := w) (p := p) (ch := ch) rfl
    (by
      rw [cst ch, if_pos rfl, chan, same]
      have : 0 < ((s.tile (ckey p)).cst ch).store.length := List.length_pos_iff.2 item
      simp only [List.length_drop]; omega)
    (by
      rw [chan, cst ch, if_pos rfl, same, here]
      exact (free.tile.spillItemOk _ _).trans sound)
  obtain ⟨granted, grantedMem⟩ := grantCredits_spec (moveUp 1 w p ch) d p ch
  rw [popped]
  rw [cst ch, if_pos rfl, same] at moved
  have mine := (granted ch).trans moved
  simp only [ChanSt.items, Prod.mk.injEq] at mine
  obtain ⟨store, binSeg, memSeg⟩ := mine
  refine ⟨store, binSeg, memSeg, fun j hj => ?_, grantedMem.trans (mem.trans free.mem)⟩
  have other := (granted j).trans (by rw [others j hj, cst j, if_neg hj, free.tile.items j])
  simpa only [ChanSt.items, Prod.mk.injEq] using other

/-- The entry that a reduction channel feeds is one of the tables alone. -/
theorem feedsEntry_congr {s u : State} (h : u.mesh.reduce = s.mesh.reduce) (k ch : Nat) : feedsEntry u k ch = feedsEntry s k ch := by
  have entries : redEntry u = redEntry s := by funext k e; rw [redEntry, h]; rfl
  rw [feedsEntry, entries]; rfl

theorem countSpillItems_zero (s : State) (c : Nat) (p : Coord) : countSpillItems s c p 0 = s := if_pos rfl

theorem countSpillItems_mem (s : State) (c : Nat) (p : Coord) (m : Nat) : (countSpillItems s c p m).mem = s.mem := by
  unfold countSpillItems
  split
  · rfl
  · exact (pumpPort_pumped _ p).mem.trans (by simp)

/-- An item of a channel numbered and sent, one credit spent (R190). -/
def itemSent (s : State) (p : Coord) (ch : Nat) (f : Flit) : State :=
  let t := s.tile (ckey p)
  (s.setTile (ckey p) (t.setCst ch { t.cst ch with credits := (t.cst ch).credits - 1, seqOut := (t.cst ch).seqOut + 1 })).send f

theorem itemSent_cst (s : State) (p : Coord) (ch : Nat) (f : Flit) : ((itemSent s p ch f).tile (ckey p)).cst ch =
    { (s.tile (ckey p)).cst ch with
      credits := ((s.tile (ckey p)).cst ch).credits - 1, seqOut := ((s.tile (ckey p)).cst ch).seqOut + 1 } := by
  change ((State.setTile _ _ _).tile (ckey p)).cst ch = _
  rw [State.setTile_tile, if_pos rfl, Tile.setCst_cst, if_pos rfl]

theorem itemSent_flit (s : State) (p : Coord) (ch : Nat) (f : Flit) : ∃ n stamp,
    mfind (itemSent s p ch f).mesh.flits n = some { f with loc := .port f.src.x f.src.y, stamp := stamp } :=
  ⟨_, _, mfind_mput_self ..⟩

/-- The flit of an item pushed to a stream (R190, R226). -/
def streamFlit (c : Nat) (d : CtxDef) (p : Coord) (e : DWord) (seq : BitVec 16) (i : Item) : Flit :=
  { cls := .forward, ctx := BitVec.ofNat 4 c, op := 0, dst := ⟨d.x0 + chPeerX e, d.y0 + chPeerY e⟩, src := p
    chan := BitVec.ofNat 5 (chPeerCh e), seq := seq, item := i }

/-- The flit of a contribution to a reduction (R251). -/
def contributionFlit (c : Nat) (p : Coord) (en inp : Nat) (seq : BitVec 16) (i : Item) : Flit :=
  { cls := .collective, ctx := BitVec.ofNat 4 c, op := 7, dst := p, src := p, seq := seq
    tag := BitVec.ofNat 12 (en + 32 * inp), item := i }

section
variable {s : State} {c : Nat} {d : CtxDef} {p : Coord} {ch : Nat} {i : Item}

theorem pushItem_stream (kind : chKind ((s.tile (ckey p)).chan ch) = 0 ∨ chKind ((s.tile (ckey p)).chan ch) = 3) :
    pushItem s c d p ch i = itemSent (unblock s p) p ch (streamFlit c d p ((s.tile (ckey p)).chan ch)
      ((s.tile (ckey p)).cst ch).seqOut i) := by
  have free := unblock_pumped s p
  obtain ⟨n, same⟩ := free.tile.cst ch
  rw [← free.tile.chan] at kind ⊢
  rw [show ((s.tile (ckey p)).cst ch).seqOut = (((unblock s p).tile (ckey p)).cst ch).seqOut by rw [same]]
  rcases kind with kind | kind <;> simp only [pushItem, kind] <;> rfl

theorem pushItem_contribution {e inp : Nat} (kind : chKind ((s.tile (ckey p)).chan ch) = 1)
    (feeds : feedsEntry s (ckey p) ch = some (e, inp)) :
    pushItem s c d p ch i = itemSent (unblock s p) p ch (contributionFlit c p e inp ((s.tile (ckey p)).cst ch).seqOut i) := by
  have free := unblock_pumped s p
  obtain ⟨n, same⟩ := free.tile.cst ch
  rw [← free.tile.chan] at kind
  rw [show ((s.tile (ckey p)).cst ch).seqOut = (((unblock s p).tile (ckey p)).cst ch).seqOut by rw [same]]
  simp only [pushItem, kind, feedsEntry_congr free.reduce, feeds]
  rfl

theorem pushItem_local (kind : chKind ((s.tile (ckey p)).chan ch) = 2) :
    pushItem s c d p ch i = countSpillItems ((unblock s p).setTile (ckey p)
      (placeItem ((unblock s p).tile (ckey p)) (chPeerCh ((s.tile (ckey p)).chan ch)) i).1) c p
      (b2n (placeItem ((unblock s p).tile (ckey p)) (chPeerCh ((s.tile (ckey p)).chan ch)) i).2) := by
  have free := unblock_pumped s p
  rw [← free.tile.chan] at kind ⊢
  simp only [pushItem, kind]

/-- A channel that does not spill takes an item behind those of its store (R188, R210). -/
theorem placeItem_store {t : Tile} (stored : (t.cst ch).spilling = false) :
    placeItem t ch i = (t.setCst ch { t.cst ch with store := (t.cst ch).store ++ [i] }, false) := by
  simp [placeItem, stored]

theorem pushItem_mem : (pushItem s c d p ch i).mem = s.mem := by
  have free := (unblock_pumped s p).mem
  unfold pushItem
  extract_lets s1 k t e st
  split
  · exact (countSpillItems_mem ..).trans free
  · split <;> exact free
  · exact free

/-- A credit spent, and the flit that carries the item. -/
theorem itemSent_spec (f : Flit) (u : State) (hu : u = itemSent (unblock s p) p ch f) :
    ((u.tile (ckey p)).cst ch).credits = ((s.tile (ckey p)).cst ch).credits - 1 ∧
      ((u.tile (ckey p)).cst ch).seqOut = ((s.tile (ckey p)).cst ch).seqOut + 1 ∧
      ∃ n stamp, mfind u.mesh.flits n = some { f with loc := .port f.src.x f.src.y, stamp := stamp } := by
  obtain ⟨n, same⟩ := (unblock_pumped s p).tile.cst ch
  subst hu
  rw [itemSent_cst, same]
  exact ⟨rfl, rfl, itemSent_flit ..⟩

end

theorem itemPushed : Claims.ItemPushed := by
  rintro s c d p ch i t u rfl hu
  refine ⟨hu ▸ pushItem_mem, fun kind => ?_, fun e inp kind feeds => ?_, fun kind stored => ?_⟩
  · obtain ⟨credits, seqOut, n, stamp, sent⟩ := itemSent_spec _ u (hu.trans (pushItem_stream kind))
    exact ⟨credits, seqOut, n, _, sent, rfl, rfl, rfl, rfl, rfl, rfl, rfl, rfl, rfl⟩
  · obtain ⟨credits, seqOut, n, stamp, sent⟩ := itemSent_spec _ u (hu.trans (pushItem_contribution kind feeds))
    exact ⟨credits, seqOut, n, _, sent, rfl, rfl, rfl, rfl, rfl, rfl, rfl, rfl⟩
  · obtain ⟨n, same⟩ := (unblock_pumped s p).tile.cst (chPeerCh ((s.tile (ckey p)).chan ch))
    rw [hu, pushItem_local kind, placeItem_store (by rw [same]; exact stored)]
    rw [show b2n false = 0 from rfl, countSpillItems_zero, State.setTile_tile, if_pos rfl, Tile.setCst_cst, if_pos rfl, same]

/-- Settles O12: moves by what their ports allow, and pops and pushes by what leaves the tile port on the way. -/
theorem queues : Obligations.Queues := ⟨queueMoves, queueBinding, itemPopped, itemPushed⟩

end Sys2Proof.Machine

/-! ## Proofs: gather timeouts and the scrubber (R166, R168, R176) -/

namespace Sys2Proof.Machine

theorem State.modTile_congr {s : State} {k : Nat} {f g : Tile → Tile} (h : f (s.tile k) = g (s.tile k)) :
    s.modTile k f = s.modTile k g := by rw [State.modTile, State.modTile, h]

theorem exec_gatherWritebackTimeout {s : State} {p : Coord} {l : Nat} (hu : Untraced s p) (clocked : s.clk.tilesStopped = false)
    (pending : ((s.tile (ckey p)).bin.gatherOf l).isSome = true) : exec (.gatherWritebackTimeout p l) s =
      .next (s.modTile (ckey p) fun t => { t with bin := t.bin.writeBack l }) := by
  change execGatherWritebackTimeout p l s = _
  simp only [execGatherWritebackTimeout, pending, clocked, Bool.not_false, Bool.and_self, if_true]
  exact congrArg _ (traceWriteBacks_untraced (s := s.modTile _ _) hu [l])

/-- The scrubber's pointer set behind a line. -/
def scrubbed (s : State) (p : Coord) (l : Nat) : State :=
  s.modTile (ckey p) fun t => { t with bin := { t.bin with scrubPtr := (l + 1) % 4096 } }

/-- A failed line counted. -/
def scrubCounted (s : State) (p : Coord) (l : Nat) : State :=
  (scrubbed s p l).count (quarterOf s p) fun q => { q with scrub := satAdd q.scrub 1 65535 }

theorem scrubCounted_tile (s : State) (p : Coord) (l : Nat) : (scrubCounted s p l).tile (ckey p) =
    { s.tile (ckey p) with bin := { (s.tile (ckey p)).bin with scrubPtr := (l + 1) % 4096 } } := by
  change (scrubbed s p l).tile (ckey p) = _
  rw [scrubbed, State.modTile_tile_self]

theorem scrubCounted_count (s : State) (p : Coord) (l : Nat) : (mget (scrubCounted s p l).counts {} (quarterOf s p)).scrub =
    satAdd (mget s.counts {} (quarterOf s p)).scrub 1 65535 := by simp [scrubCounted, scrubbed, State.count, mmod]

/-- What the scrubber does with a line of which nothing is pending (R176). -/
theorem exec_binScrubRead {s : State} {p : Coord} {l : Nat} (clocked : s.clk.tilesStopped = false)
    (still : (s.tile (ckey p)).moveStage = 0) (interval : cfgField s 0x2250 1 0 16 ≠ 0) (open_ : (s.tile (ckey p)).bin.gated ≠ 0xFF)
    (line : l = scrubLine (s.tile (ckey p)).bin) (clean : (s.tile (ckey p)).bin.gatherOf l = none) :
    exec (.binScrubRead p) s =
      if (s.tile (ckey p)).bin.lineOk l then .next (scrubbed s p l)
      else if lineMapped (s.tile (ckey p)) l then
        .next (logicalHealth (scrubCounted s p l) (ckey p) .scrubFail)
      else .next ((scrubCounted s p l).modTile (ckey p) fun t => { t with bin := t.bin.zeroLine l }) := by
  change execBinScrubRead p s = _
  have go : (s.clk.tilesStopped || (s.tile (ckey p)).moveStage != 0 || decide (cfgField s 0x2250 1 0 16 = 0) ||
      (s.tile (ckey p)).bin.gated == 0xFF) = false := by simpa [clocked, still, interval] using open_
  have moved : (s.modTile (ckey p) fun t => { t with bin := { t.bin.writeBack l with scrubPtr := (l + 1) % 4096 } }) =
      scrubbed s p l := State.modTile_congr (by simp only [Bin.writeBack_of_none clean])
  have tile : (scrubbed s p l).tile (ckey p) =
      { s.tile (ckey p) with bin := { (s.tile (ckey p)).bin with scrubPtr := (l + 1) % 4096 } } := State.modTile_tile_self ..
  have mapped (q : Nat) (f : QCounts → QCounts) : lineMapped (((scrubbed s p l).count q f).tile (ckey p)) l =
      lineMapped (s.tile (ckey p)) l := by
    change lineMapped ((scrubbed s p l).tile (ckey p)) l = _
    rw [tile]; rfl
  simp only [execBinScrubRead, go, Bool.false_eq_true, if_false, ← line, clean, Option.isSome_none, moved, mapped]
  rw [tile]
  rfl

theorem binUpkeep : Claims.BinUpkeep := by
  rintro s p l t hu rfl clocked
  refine ⟨fun pending => ⟨_, exec_gatherWritebackTimeout hu clocked pending, onlyTile_modTile .., ?_, ?_, fun q j hj => ?_⟩,
    fun still interval open_ line clean => ?_⟩
  · rw [State.modTile_tile_self]
  · rw [State.modTile_tile_self]
    exact (Bin.gatherOf_writeBack ..).trans (if_pos rfl)
  · rw [State.modTile_tile_self]
    exact Bin.visible_writeBack _ _ _ _ hj
  have answer := exec_binScrubRead clocked still interval open_ line clean
  refine ⟨fun sound => by rw [answer, if_pos sound]; rfl, fun failed unmapped => ?_, fun failed mapped => ?_⟩
  · rw [answer, if_neg (by simp [failed]), if_neg (by simp [unmapped])]
    have zeroed (b : Bin) (none_ : b.gatherOf l = none) (q j : Nat) (hj : j < 64) :
        (b.zeroLine l).visible q j = if q = l then 0 else b.visible q j := by
      have := Bin.visible_writeLine b l q j 0 false hj
      rw [Bin.writeBack_of_none none_] at this
      simpa [Bin.zeroLine] using this
    have bin : (((scrubCounted s p l).modTile (ckey p) fun t => { t with bin := t.bin.zeroLine l }).tile (ckey p)).bin =
        ({ (s.tile (ckey p)).bin with scrubPtr := (l + 1) % 4096 } : Bin).zeroLine l := by
      rw [State.modTile_tile_self, scrubCounted_tile]
    refine ⟨_, rfl, fun j hj => ?_, fun q j hj other => ?_, ?_, rfl, scrubCounted_count s p l⟩
    · rw [bin]; exact (zeroed _ clean _ _ hj).trans (if_pos rfl)
    · rw [bin]; exact (zeroed _ clean _ _ hj).trans (if_neg other)
    · rw [bin]; exact Bin.lineOk_writeLine ..
  · rw [answer, if_neg (by simp [failed]), if_pos mapped]; rfl

end Sys2Proof.Machine

/-! ## Proofs: lines that arrive at a tile, and a port with little to send (R162, R169, R178, R255) -/

namespace Sys2Proof.Machine

/-- Two states agree off one tile. -/
def AgreeOff (k : Nat) (s w : State) : Prop := ∀ u, w.setTile k u = s.setTile k u

section
variable {k : Nat} {s w v : State}

theorem AgreeOff.refl (k : Nat) (s : State) : AgreeOff k s s := fun _ => rfl

theorem AgreeOff.trans (a : AgreeOff k s w) (b : AgreeOff k w v) : AgreeOff k s v := fun u => (b u).trans (a u)

theorem AgreeOff.of_modTile (s : State) (f : Tile → Tile) : AgreeOff k s (s.modTile k f) := fun _ => State.setTile_setTile ..

theorem AgreeOff.mem (h : AgreeOff k s w) : w.mem = s.mem := by simpa using congrArg State.mem (h {})
theorem AgreeOff.mesh (h : AgreeOff k s w) : w.mesh = s.mesh := by simpa using congrArg State.mesh (h {})
theorem AgreeOff.ctxs (h : AgreeOff k s w) : w.ctxs = s.ctxs := by simpa using congrArg State.ctxs (h {})
theorem AgreeOff.clk (h : AgreeOff k s w) : w.clk = s.clk := by simpa using congrArg State.clk (h {})

theorem AgreeOff.tile_ne (h : AgreeOff k s w) {j : Nat} (hj : j ≠ k) : w.tile j = s.tile j := by
  have := congrArg (State.tile · j) (h {})
  simpa only [State.setTile_tile, if_neg hj] using this

theorem AgreeOff.untraced {p : Coord} (h : AgreeOff k s w) (hu : Untraced s p) : Untraced w p := fun c x hx =>
  hu c x (by rw [← hx, ctxAt, ctxAt, h.ctxs])

end

/-- The tile with lines written from a bin address on, each after the write-back of its own (R168, R178). -/
def linesIn (addr : Nat) (es : List (Nat × Line)) (t : Tile) : Tile :=
  es.foldl (fun t e => writeLogLine { t with bin := flushedBin t (addr / 64 + e.1) 1 } (addr / 64 + e.1) e.2.data.toNat e.2.poison) t

/-- Without trace capture lines written change their tile alone (R169, R172). -/
theorem writeIn_spec {s : State} {p : Coord} (hu : Untraced s p) (op addr : Nat) (ls : List Line) :
    AgreeOff (ckey p) s (writeIn s p op addr ls) ∧
      (writeIn s p op addr ls).tile (ckey p) = linesIn addr ((List.range ls.length).zip ls) (s.tile (ckey p)) := by
  unfold writeIn linesIn
  generalize (List.range ls.length).zip ls = es
  induction es generalizing s with
  | nil => exact ⟨AgreeOff.refl (ckey p) s, rfl⟩
  | cons e r ih =>
    obtain ⟨set, tile⟩ := flushSpan_spec hu (addr / 64 + e.1) 1
    have flushed : AgreeOff (ckey p) s (flushSpan s p (addr / 64 + e.1) 1) := set
    have written := flushed.trans (AgreeOff.of_modTile _ fun t => writeLogLine t (addr / 64 + e.1) e.2.data.toNat e.2.poison)
    simp only [List.foldl_cons]
    rw [traceRecord_untraced (written.untraced hu)]
    obtain ⟨off, here⟩ := ih (written.untraced hu)
    refine ⟨written.trans off, ?_⟩
    rw [here, State.modTile_tile_self, tile]

/-- One line written into a mapped place. -/
theorem linesIn_one {t : Tile} {addr q : Nat} (ln : Line) (mapped : physLine t (addr / 64) = some q) :
    (linesIn addr ((List.range [ln].length).zip [ln]) t).bin =
      ((flushedBin t (addr / 64) 1).writeBack q).writeLine q ln.data.toNat ln.poison := by
  have mapped' : physLine { t with bin := flushedBin t (addr / 64) 1 } (addr / 64) = some q := mapped
  simp only [linesIn, List.length_singleton, List.range_one, List.zip_cons_cons, List.zip_nil_left, List.foldl_cons, List.foldl_nil,
    Nat.add_zero, writeLogLine, mapped']

theorem State.send_tile (s : State) (f : Flit) (j : Nat) : (s.send f).tile j = s.tile j := rfl

theorem portRest_clear {s : State} {p : Coord} (c : Nat) (staging : (s.tile (ckey p)).bin.staging = [])
    (trace : (s.tile (ckey p)).bin.trace = []) (told : (s.tile (ckey p)).unreport = false) : portRest c p s = s := by
  simp [portRest, staging, trace, told]

/-- Nothing leaves a port at which nothing waits. -/
theorem pumpPort_clear {s : State} {p : Coord} (clear : (s.tile (ckey p)).portClear) : pumpPort s p = s := by
  obtain ⟨owed, staging, trace, told, rests⟩ := clear
  cases hc : ctxAt s p with
  | none => simp only [pumpPort, hc]
  | some cx =>
    have spilled : portSpills cx.1 cx.2.cdef p s = s := if_neg (by simp [rests])
    have credited : portCredits cx.1 p s = s := by simp only [portCredits, owed, List.foldl_nil]
    rw [pumpPort_eq (c := cx.1) (x := cx.2) hc, spilled, credited, portRest_clear _ staging trace told]

/-- A state in which the one staged flit of a tile has left. -/
def stagedSent (s : State) (p : Coord) (g : Flit) : State :=
  (s.modTile (ckey p) fun t => { t with bin := { t.bin with staging := [] } }).send g

/-- The one staged flit of a tile leaves where its port has room (R169, R255). -/
theorem pumpPort_staged {s : State} {p : Coord} {g : Flit} {c : Nat} {x : Ctx} (hc : InCtx s p c x)
    (owed : (s.tile (ckey p)).owed = []) (staging : (s.tile (ckey p)).bin.staging = [g])
    (trace : (s.tile (ckey p)).bin.trace = []) (told : (s.tile (ckey p)).unreport = false)
    (rests : ((s.tile (ckey p)).chst.any fun e => e.2.spilling) = false) (room : 0 < portRoom s p g.cls) :
    pumpPort s p = stagedSent s p g := by
  have spilled : portSpills c x.cdef p s = s := if_neg (by simp [rests])
  have credited : portCredits c p s = s := by simp only [portCredits, owed, List.foldl_nil]
  have left : (s.modTile (ckey p) fun t => { t with bin := { t.bin with staging := t.bin.staging.erase g } }).send g =
      stagedSent s p g := by
    rw [stagedSent, State.modTile_congr (g := fun t => { t with bin := { t.bin with staging := [] } }) (by simp [staging])]
  have tile : (stagedSent s p g).tile (ckey p) =
      { s.tile (ckey p) with bin := { (s.tile (ckey p)).bin with staging := [] } } := by
    rw [stagedSent, State.send_tile, State.modTile_tile_self]
  rw [pumpPort_eq hc, spilled, credited, portRest]
  simp only [staging, List.foldl_cons, List.foldl_nil, room, if_true, left, tile, trace, told, Bool.false_and, Bool.false_eq_true,
    if_false]

end Sys2Proof.Machine

/-! ## Proofs: bin-space requests and messages that arrive (R74, R75, R162, R169, R179) -/

namespace Sys2Proof.Machine

section
variable {s : State} {f : Nat} {fl : Flit} {x : Ctx} {bad : Bool}

/-- A bin-space request of a live context at a tile that does not move. -/
theorem exec_binSpaceAccessArrive (arrived : s.arrived f = some fl) (alive : live s fl.ctx.toNat fl.dst = some x)
    (tile : fl.dst.y < 48) (still : (s.tile (ckey fl.dst)).moveStage = 0) (op : fl.op = 2 ∨ fl.op = 4)
    (hb : bad = (decide (2 ^ 18 < binAddrOf (gOff fl.addr.toNat) + fl.len) ||
      (firstUnmapped (s.tile (ckey fl.dst)) (binAddrOf (gOff fl.addr.toNat) / 64) (fl.len / 64)).isSome)) :
    exec (.binSpaceAccessArrive f) s = .next (if fl.op == 4 then binWriteFlit s f fl bad
      else if bad then (if 0 < portRoom s fl.dst .reply then (s.dropFlit f).send (binReplyFlit fl 0xD) else s)
      else pumpPort (stageRead f 40 s fl) fl.dst) := by
  change execBinSpaceAccessArrive f s = _
  have mesh : isGranary fl.dst = false := by
    simp only [isGranary, northRow, southRow, Bool.or_eq_false_iff, beq_eq_false_iff_ne]; omega
  have kind : (fl.op == 2 || fl.op == 4) = true := by simpa using op
  simp only [execBinSpaceAccessArrive, arrived, kind, mesh, Bool.not_false, Bool.and_self, if_true, alive, still, ← hb,
    bne_self_eq_false, Bool.false_eq_true, if_false]
  split
  · rfl
  · split <;> rfl

/-- The state once the lines of a flit of a bin-space write stand in the bin, or were refused. -/
def linesTaken (s : State) (f : Nat) (fl : Flit) (bad : Bool) : State :=
  if bad then s.dropFlit f
  else writeIn (s.dropFlit f) fl.dst 4 (binAddrOf (gOff fl.addr.toNat) + 128 * fl.seq.toNat) fl.lines

theorem binWriteFlit_eq {was : Nat × Bool} {n : Nat} (hwas : was = mget (s.tile (ckey fl.dst)).dma.inbound (0, false) (inboundKey fl))
    (hn : n = was.1 + fl.lines.length) (room : stageRoom (s.tile (ckey fl.dst)) fl.lines.length = true)
    (reply : 64 * n = fl.len → 0 < portRoom s fl.dst .reply) : binWriteFlit s f fl bad =
      if 64 * n = fl.len then
        ((linesTaken s f fl (bad || was.2)).modTile (ckey fl.dst) fun t =>
          { t with dma := { t.dma with inbound := mdel t.dma.inbound (inboundKey fl) } }).send
            (binReplyFlit fl (if bad || was.2 then 0xD else 5))
      else (linesTaken s f fl (bad || was.2)).modTile (ckey fl.dst) fun t =>
        { t with dma := { t.dma with inbound := mput t.dma.inbound (inboundKey fl) (n, bad || was.2) } } := by
  have go : (!stageRoom (s.tile (ckey fl.dst)) fl.lines.length || (decide (64 * n = fl.len) &&
      decide (portRoom s fl.dst .reply = 0))) = false := by
    by_cases last : 64 * n = fl.len
    · simp [room, Nat.ne_of_gt (reply last)]
    · simp [room, last]
  subst hn hwas
  exact if_neg (by rw [go]; decide)

/-- What the lines of a flit change, without trace capture. -/
theorem linesTaken_spec (hu : Untraced s fl.dst) : AgreeOff (ckey fl.dst) (s.dropFlit f) (linesTaken s f fl bad) ∧
    (linesTaken s f fl bad).tile (ckey fl.dst) = if bad then s.tile (ckey fl.dst)
      else linesIn (binAddrOf (gOff fl.addr.toNat) + 128 * fl.seq.toNat) ((List.range fl.lines.length).zip fl.lines)
        (s.tile (ckey fl.dst)) := by
  unfold linesTaken
  split
  · exact ⟨AgreeOff.refl (ckey fl.dst) (s.dropFlit f), rfl⟩
  · exact writeIn_spec (s := s.dropFlit f) hu ..

/-- The flit taken leaves the bin with its lines, and the answer of the last one (R169, R179). -/
theorem binWriteFlit_spec {was : Nat × Bool} {n : Nat} {u w : State} (hw : w = linesTaken s f fl (bad || was.2))
    (hu : u = if 64 * n = fl.len then
        (w.modTile (ckey fl.dst) fun t => { t with dma := { t.dma with inbound := mdel t.dma.inbound (inboundKey fl) } }).send
          (binReplyFlit fl (if bad || was.2 then 0xD else 5))
      else w.modTile (ckey fl.dst) fun t =>
        { t with dma := { t.dma with inbound := mput t.dma.inbound (inboundKey fl) (n, bad || was.2) } })
    (untraced : Untraced s fl.dst) : u.mem = s.mem ∧ (∀ j, j ≠ ckey fl.dst → u.tile j = s.tile j) ∧
      (u.tile (ckey fl.dst)).bin = (w.tile (ckey fl.dst)).bin ∧
      (64 * n = fl.len → ∃ g, mfind u.mesh.flits s.mesh.nextFlit = some g ∧ g.cls = .reply ∧ g.dst = fl.src ∧
        g.tag = fl.tag ∧ g.op = (if bad || was.2 then 0xD else 5)) ∧
      (64 * n ≠ fl.len → mfind (u.tile (ckey fl.dst)).dma.inbound (inboundKey fl) = some (n, bad || was.2) ∧
        u.mesh = (s.dropFlit f).mesh) := by
  have off : AgreeOff (ckey fl.dst) (s.dropFlit f) w := hw ▸ (linesTaken_spec untraced).1
  by_cases last : 64 * n = fl.len
  · rw [if_pos last] at hu
    subst hu
    refine ⟨off.mem, fun j hj => ?_, ?_, fun _ => ?_, fun other => absurd last other⟩
    · rw [State.send_tile, State.modTile_tile_ne _ _ hj, off.tile_ne hj]; rfl
    · rw [State.send_tile, State.modTile_tile_self]
    · rw [show s.mesh.nextFlit = w.mesh.nextFlit by rw [off.mesh]; rfl]
      exact ⟨_, mfind_mput_self .., rfl, rfl, rfl, rfl⟩
  · rw [if_neg last] at hu
    subst hu
    refine ⟨off.mem, fun j hj => ?_, ?_, fun same => absurd same last, fun _ => ⟨?_, off.mesh⟩⟩
    · rw [State.modTile_tile_ne _ _ hj, off.tile_ne hj]; rfl
    · rw [State.modTile_tile_self]
    · rw [State.modTile_tile_self]; exact mfind_mput_self ..

/-- A tile to which a context's traffic is live belongs to that context, which runs. -/
theorem live_inCtx {c : Nat} {p : Coord} (alive : live s c p = some x) : InCtx s p c x ∧ x.rec_.state = 1 := by
  unfold live at alive
  split at alive
  · rename_i n y hy
    split at alive
    · rename_i same
      obtain rfl : y = x := Option.some.inj alive
      simp only [Bool.and_eq_true, decide_eq_true_eq, beq_iff_eq] at same
      exact ⟨same.1 ▸ hy, same.2⟩
    · exact absurd alive (by simp)
  · exact absurd alive (by simp)

/-- Reading a line that leaves the tile as it is finds nothing pending there (R168). -/
theorem clean_of_readLine {t : Tile} {l q : Nat} (unchanged : (readLine t l).1 = t) (mapped : physLine t l = some q) :
    t.bin.gatherOf q = none := by
  have bin : t.bin.writeBack q = t.bin := by
    have := congrArg Tile.bin unchanged
    simp only [readLine, mapped] at this
    split at this <;> exact this
  rw [← bin, Bin.gatherOf_writeBack, if_pos rfl]

/-- The reply flit of a read of one line. -/
def lineReply (fl : Flit) (d : Nat) (tag : Bool) : Flit :=
  { binReplyFlit fl 3 with
    seq := BitVec.ofNat 16 fl.done, aux := BitVec.ofNat 16 (flitCount (fl.len / 64)), lines := [⟨BitVec.ofNat 512 d, tag⟩] }

theorem stageFlit_tile (s : State) (p : Coord) (g : Flit) : (stageFlit s p g).tile (ckey p) =
    { s.tile (ckey p) with bin := { (s.tile (ckey p)).bin with staging := (s.tile (ckey p)).bin.staging ++ [g] } } :=
  State.modTile_tile_self ..

theorem stageFlit_stagedSent_tile {s : State} {p : Coord} (empty : (s.tile (ckey p)).bin.staging = []) (g : Flit) (j : Nat) :
    (stagedSent (stageFlit s p g) p g).tile j = s.tile j := by
  rw [stagedSent, State.send_tile]
  by_cases hj : j = ckey p
  · subst hj
    rw [State.modTile_tile_self, stageFlit_tile, ← empty]
  · rw [State.modTile_tile_ne _ _ hj, stageFlit, State.modTile_tile_ne _ _ hj]

theorem stageRead_one {c : Nat} (hc : InCtx s fl.dst c x) (one : fl.len = 64) (fresh : fl.done = 0)
    (clear : (s.tile (ckey fl.dst)).portClear) (room : 0 < portRoom s fl.dst .reply)
    (unchanged : (readLine (s.tile (ckey fl.dst)) (binAddrOf (gOff fl.addr.toNat) / 64)).1 = s.tile (ckey fl.dst)) {d : Nat} {tag : Bool}
    (line : (readLine (s.tile (ckey fl.dst)) (binAddrOf (gOff fl.addr.toNat) / 64)).2 = .ok d tag) :
    pumpPort (stageRead f 40 s fl) fl.dst =
      (stagedSent (stageFlit s fl.dst (lineReply fl d tag)) fl.dst (lineReply fl d tag)).dropFlit f := by
  obtain ⟨owed, staging, trace, told, rests⟩ := id clear
  have clean : ∀ q ∈ physLine (s.tile (ckey fl.dst)) (binAddrOf (gOff fl.addr.toNat) / 64),
      (s.tile (ckey fl.dst)).bin.gatherOf q = none := fun q hq => clean_of_readLine unchanged hq
  have empty : stageRoom (s.tile (ckey fl.dst)) 1 = true := by simp [stageRoom, stagedLines, staging]
  have staged := stageFlit_tile s fl.dst (lineReply fl d tag)
  have sent : pumpPort (stageFlit s fl.dst (lineReply fl d tag)) fl.dst = stagedSent (stageFlit s fl.dst (lineReply fl d tag)) fl.dst
      (lineReply fl d tag) :=
    pumpPort_staged (c := c) (x := x) hc (by rw [staged]; exact owed) (by rw [staged, staging]; rfl) (by rw [staged]; exact trace)
      (by rw [staged]; exact told) (by rw [staged]; exact rests) room
  have second : stageRead f 39 (stageFlit s fl.dst (lineReply fl d tag)) { fl with done := fl.done + 1 } =
      (stagedSent (stageFlit s fl.dst (lineReply fl d tag)) fl.dst (lineReply fl d tag)).dropFlit f := by
    rw [stageRead]
    simp only [sent, one, fresh]
    rfl
  have first : stageRead f 40 s fl =
      stageRead f 39 (stageFlit s fl.dst (lineReply fl d tag)) { fl with done := fl.done + 1 } := by
    rw [stageRead]
    have few : min 2 (64 / 64 - 2 * 0) = 1 := rfl
    simp only [pumpPort_clear clear, one, fresh, few, empty, Nat.mul_zero, Nat.add_zero, flushSpan_one_clean clean]
    simp only [List.range_one, List.map_cons, List.map_nil, Nat.add_zero, line, List.filterMap_cons, List.filterMap_nil,
      List.length_singleton]
    rw [if_neg (by decide), if_neg (by decide), if_neg (by decide), lineReply, one, fresh]
  rw [first, second, pumpPort_clear]
  change ((stagedSent (stageFlit s fl.dst (lineReply fl d tag)) fl.dst (lineReply fl d tag)).tile (ckey fl.dst)).portClear
  rw [stageFlit_stagedSent_tile staging]
  exact clear

end

theorem exec_messageArrive {s : State} {f : Nat} {fl : Flit} {x : Ctx} (arrived : s.arrived f = some fl)
    (alive : live s fl.ctx.toNat fl.dst = some x) (op : fl.op = 6) : exec (.messageArrive f) s =
      .next ((s.dropFlit f).modTile (ckey fl.dst) fun t =>
        { t with dma := { t.dma with mailbox := t.dma.mailbox ++ [⟨x.cdef.relCode fl.src, fl.item⟩] } }) := by
  change execMessageArrive f s = _
  have alive' : live (s.dropFlit f) fl.ctx.toNat fl.dst = some x := alive
  simp only [execMessageArrive, arrived, op, beq_self_eq_true, if_true, alive']

theorem exec_messageCreditArrive {s : State} {f : Nat} {fl : Flit} {x : Ctx} (arrived : s.arrived f = some fl)
    (alive : live s fl.ctx.toNat fl.dst = some x) (op : fl.op = 1) (cls : fl.cls = .reply) : exec (.messageCreditArrive f) s =
      .next ((s.dropFlit f).modTile (ckey fl.dst) fun t =>
        { t with dma := { t.dma with msgOut := sdel t.dma.msgOut (ckey fl.src) } }) := by
  change execMessageCreditArrive f s = _
  have alive' : live (s.dropFlit f) fl.ctx.toNat fl.dst = some x := alive
  simp only [execMessageCreditArrive, arrived, op, cls, beq_self_eq_true, Bool.and_self, if_true, alive']

/-- A flit taken off the mesh is not there. -/
theorem dropFlit_self (s : State) (f : Nat) : mfind (s.dropFlit f).mesh.flits f = none :=
  (mfind_mdel ..).trans (if_pos rfl)

theorem binSpaceAndMail : Claims.BinSpaceAndMail := by
  rintro s f fl x t b n was bad arrived rfl alive tile
  obtain ⟨hc, -⟩ := live_inCtx alive
  refine ⟨fun still hb hwas hbad hn => ?_, fun op => ?_, fun op cls => ?_⟩
  · subst hb
    refine ⟨fun read refused room => ?_, fun read good one fresh clear room unchanged apart d tag line => ?_,
      fun write untraced room reply => ?_⟩
    · have answer := exec_binSpaceAccessArrive arrived alive tile still (.inl read) hbad
      rw [read, refused, if_neg (by decide), if_pos rfl, if_pos room] at answer
      exact ⟨_, _, answer, rfl, rfl, mfind_mput_self .., rfl, rfl, rfl, rfl⟩
    · have answer := exec_binSpaceAccessArrive arrived alive tile still (.inl read) hbad
      rw [read, good, if_neg (by decide), if_neg (by decide), stageRead_one hc one fresh clear room unchanged line] at answer
      exact ⟨_, _, answer, rfl, stageFlit_stagedSent_tile clear.2.1 _,
        (mfind_mdel ..).trans ((if_neg (Ne.symm apart)).trans (mfind_mput_self ..)), rfl, rfl, rfl, rfl, rfl⟩
    · have answer := exec_binSpaceAccessArrive arrived alive tile still (.inr write) hbad
      rw [write, if_pos (by decide), binWriteFlit_eq hwas hn room reply] at answer
      obtain ⟨mem, others, bin, last, notLast⟩ := binWriteFlit_spec (bad := bad) (was := was) (n := n) rfl rfl untraced
      have taken := (linesTaken_spec (f := f) (bad := bad || was.2) untraced).2
      refine ⟨_, answer, mem, others, fun refused => ?_, fun good ln q lines mapped => ?_, fun good => ?_, last, notLast⟩
      · rw [bin, taken, if_pos refused]
      · rw [bin, taken, if_neg (by simp [good]), lines, linesIn_one ln mapped]
        refine ⟨fun l j hj => ?_, (Bin.tag_writeLine ..).trans (if_pos rfl)⟩
        rw [Bin.visible_writeLine _ _ _ _ _ _ hj, visible_flushedBin _ _ _ _ _ hj, extractLsb'_byte]
      · rw [bin, taken, if_neg (by simp [good]), (writeIn_spec untraced ..).2]
  · exact ⟨_, exec_messageArrive arrived alive op, dropFlit_self s f, State.modTile_tile_self .., rfl⟩
  · exact ⟨_, exec_messageCreditArrive arrived alive op cls, dropFlit_self s f, State.modTile_tile_self .., rfl⟩

/-- Settles O19: upkeep that no access sees, and requests and messages that act at their tile alone. -/
theorem binUpkeepAndMail : Obligations.BinUpkeepAndMail := ⟨binUpkeep, binSpaceAndMail⟩

end Sys2Proof.Machine

/-! ## Proofs: the context at a tile when a context is changed (R32) -/

namespace Sys2Proof.Machine

section
variable {α : Type} {P : Nat × α → Bool}

/-- An entry found by a property that the first entry of its key has is that first entry. -/
theorem find_eq_mfind {m : AMap α} {c : Nat} {v x : α} (first : mfind m c = some v) (holds : P (c, v) = true)
    (found : m.find? P = some (c, x)) : x = v := by
  induction m with
  | nil => simp [mfind] at first
  | cons e r ih =>
    obtain ⟨a, w⟩ := e
    rw [mfind] at first
    rw [List.find?_cons] at found
    by_cases here : a = c
    · rw [if_pos here, Option.some.injEq] at first
      subst here first
      rw [holds] at found
      simpa using found.symm
    · rw [if_neg here] at first
      cases hp : P (a, w) with
      | true => rw [hp] at found; simp_all
      | false => rw [hp] at found; exact ih first found

/-- An entry found by a property that a change of its key's first entry keeps is found again, or in its changed form. -/
theorem find_mput {m : AMap α} {c : Nat} {v w x : α} (first : mfind m c = some v) (same : P (c, w) = P (c, v))
    (found : m.find? P = some (c, x)) :
    (mput m c w).find? P = some (c, x) ∨ (mput m c w).find? P = some (c, w) ∧ v = x := by
  induction m with
  | nil => simp [mfind] at first
  | cons e r ih =>
    obtain ⟨a, u⟩ := e
    rw [mput]
    split
    · rw [List.find?_cons, same]
      cases holds : P (c, v) with
      | true => exact .inr ⟨rfl, (find_eq_mfind first holds found).symm⟩
      | false => exact .inl found
    · split
      · rename_i _ here
        subst here
        rw [List.find?_cons, same]
        cases holds : P (c, v) with
        | true => exact .inr ⟨rfl, (find_eq_mfind first holds found).symm⟩
        | false =>
          obtain rfl : u = v := by simpa [mfind] using first
          rw [List.find?_cons, holds] at found
          exact .inl found
      · rename_i _ other
        rw [mfind, if_neg (Ne.symm other)] at first
        rw [List.find?_cons] at found ⊢
        cases hp : P (a, u) with
        | true => rw [hp] at found; exact .inl found
        | false => rw [hp] at found; exact ih first found

end

/-- The context of a tile, changed in what is not its rectangle, is still the tile's. -/
theorem inCtx_modCtx {s : State} {p : Coord} {c : Nat} {x : Ctx} (hc : InCtx s p c x) (f : Ctx → Ctx) (kept : ∀ y, (f y).cdef = y.cdef) :
    ∃ y, InCtx (s.modCtx c f) p c y ∧ (y = x ∨ y = f x) := by
  unfold State.modCtx
  split
  · rename_i z hz
    rcases find_mput (w := f z) hz (by simp [kept]) hc with same | ⟨changed, rfl⟩
    · exact ⟨x, same, .inl rfl⟩
    · exact ⟨f z, changed, .inr rfl⟩
  · exact ⟨x, hc, .inl rfl⟩

theorem inCtx_modRec {s : State} {p : Coord} {c : Nat} {x : Ctx} (hc : InCtx s p c x) (f : CtxRec → CtxRec) :
    ∃ y, InCtx (s.modRec c f) p c y ∧ y.run = x.run ∧ y.cdef = x.cdef := by
  obtain ⟨y, hy, rfl | rfl⟩ := inCtx_modCtx hc (fun x => { x with rec_ := f x.rec_ }) fun _ => rfl
  · exact ⟨_, hy, rfl, rfl⟩
  · exact ⟨_, hy, rfl, rfl⟩

end Sys2Proof.Machine

/-! ## Proofs: moves of a tile (R81, R90, R183, R333, R335, R370) -/

namespace Sys2Proof.Machine

section
variable {s : State} {p : Coord}

/-- The state once a hang window through a tile has ended, where a context holds the tile (R370). -/
def windowEnded (s : State) (p : Coord) : State :=
  match ctxAt s p with
  | some (c, _) => endWindow s c (ckey p)
  | none => s

theorem windowEnded_tiles : (windowEnded s p).tiles = s.tiles := by
  unfold windowEnded endWindow
  split
  · exact State.modRec_tiles ..
  · rfl

theorem windowEnded_mem : (windowEnded s p).mem = s.mem := by
  unfold windowEnded endWindow
  split
  · exact State.modRec_mem ..
  · rfl

theorem windowEnded_untraced (hu : Untraced s p) : Untraced (windowEnded s p) p := by
  unfold windowEnded
  split
  · rename_i c x hc
    obtain ⟨y, hy, run, -⟩ := inCtx_modRec (c := c) (x := x) hc fun r => { r with hang := r.hang.filter fun cyc => !cyc.contains (ckey p) }
    intro c' z hz
    obtain ⟨rfl, rfl⟩ : c = c' ∧ y = z := by simpa using hy.symm.trans hz
    have off := hu c x hc
    simpa only [traceOn, run] using off
  · exact hu

theorem windowEnded_ctx {c : Nat} {x : Ctx} (hc : InCtx s p c x) (hx : s.ctx c = some x) : (windowEnded s p).ctx c =
    some { x with rec_ := { x.rec_ with hang := x.rec_.hang.filter fun cyc => !cyc.contains (ckey p) } } := by
  rw [windowEnded, show ctxAt s p = some (c, x) from hc]
  simp only [endWindow, State.modRec, State.modCtx_ctx, if_true, hx, Option.map_some]

/-- A tile quiet at a fallow point, with its move ready, begins to be copied. -/
theorem exec_moveQuiesced {new : Nat} (ordered : (s.tile (ckey p)).moveTo = some new) (stage : (s.tile (ckey p)).moveStage = 0)
    (quiet : tileQuiet s p = true) (clocked : s.clk.tilesStopped = false)
    (at_ : ((s.tile (ckey p)).core.run = .moving ∧ targetOk s (ckey p) = true) ∨
      (atFallow (s.tile (ckey p)).core.run = true ∧ moveReady s (ckey p) = true)) : exec (.moveQuiesced p) s =
        .next ((flushGather (windowEnded s p) p).modTile (ckey p) fun t => { t with moveStage := 1 }) := by
  change execMoveQuiesced p s = _
  have stays : ((s.tile (ckey p)).core.run == .moving && decide ((s.tile (ckey p)).moveStage = 0) && !targetOk s (ckey p)) = false := by
    rcases at_ with ⟨-, free⟩ | ⟨fallow, -⟩
    · simp [free]
    · cases hr : (s.tile (ckey p)).core.run <;> simp_all [atFallow]
  have may : ((s.tile (ckey p)).core.run == .moving || (atFallow (s.tile (ckey p)).core.run && moveReady s (ckey p))) = true := by
    rcases at_ with ⟨moving, -⟩ | ⟨fallow, ready⟩
    · simp [moving]
    · simp [fallow, ready]
  rw [execMoveQuiesced]
  dsimp only
  rw [stays, if_neg Bool.false_ne_true, if_pos (by simp [ordered, stage, may, quiet, clocked])]
  rfl

theorem exec_moveQuiesced_lost (moving : (s.tile (ckey p)).core.run = .moving) (stage : (s.tile (ckey p)).moveStage = 0)
    (taken : targetOk s (ckey p) = false) : exec (.moveQuiesced p) s = .next (cancelMove s (ckey p)) := by
  change execMoveQuiesced p s = _
  simp only [execMoveQuiesced, moving, stage, taken, beq_self_eq_true, decide_true, Bool.not_false, Bool.and_self, if_true]

end

section
variable {s u : State} {k new old : Nat}

/-- A position in this fence state may hold work (R345). -/
def Fence.usable : Fence → Bool
  | .probation => false
  | .fenced => false
  | .factory => false
  | _ => true

theorem goodTile_eq (s : State) (q : Nat) : goodTile s q = (s.phys q).fence.usable := by
  unfold goodTile Fence.usable
  cases (s.phys q).fence <;> rfl

theorem goodTile_modPhys {q r : Nat} {f : Phys → Phys} (good : goodTile s q = true) (usable : ∀ h, h.fence.usable = true → (f h).fence.usable = true ) :
    goodTile (s.modPhys r f) q = true := by
  rw [goodTile_eq] at good ⊢
  unfold State.phys at good ⊢
  simp only [State.modPhys, mmod, mget_mput]
  split
  · subst_vars; exact usable _ good
  · exact good

/-- The tables after a logical tile is bound to another position: nothing but the gleaner's state changed, no other binding,
and every position that may hold work still may. -/
structure Rebound (s u : State) (k new : Nat) : Prop where
  rest : u = { s with gleaner := u.gleaner }
  bind : u.gleaner.bind = mput s.gleaner.bind k new
  trimmed : u.gleaner.trimmed = s.gleaner.trimmed
  window : u.gleaner.window = s.gleaner.window
  good : ∀ q, goodTile s q = true → goodTile u q = true

theorem Rebound.modPhys (b : Rebound s u k new) {r : Nat} {f : Phys → Phys}
    (usable : ∀ h, h.fence.usable = true → (f h).fence.usable = true) : Rebound s (u.modPhys r f) k new where
  rest := congrArg (fun v : State => v.modPhys r f) b.rest
  bind := b.bind
  trimmed := b.trimmed
  window := b.window
  good q h := goodTile_modPhys (b.good q h) usable

theorem Rebound.modRow (b : Rebound s u k new) {die row : Nat} {f : RowGap → RowGap} : Rebound s (u.modRow die row f) k new where
  rest := congrArg (fun v : State => v.modRow die row f) b.rest
  bind := b.bind
  trimmed := b.trimmed
  window := b.window
  good := b.good

theorem bindTile_rebound (s : State) (k new : Nat) : Rebound s (bindTile s k new) k new where
  rest := rfl
  bind := rfl
  trimmed := rfl
  window := rfl
  good _ h := goodTile_modPhys (s := { s with gleaner := { s.gleaner with bind := mput s.gleaner.bind k new } }) h fun _ _ => rfl

/-- A usable position left becomes the gap or a spare, and stays usable (R333, R352). -/
theorem leavePosition_rebound (good : goodTile s old = true) : Rebound s (leavePosition (bindTile s k new) old new) k new := by
  have bound := bindTile_rebound s k new
  have still : ∀ v, Rebound s v k new → goodTile v old = true := fun v b => b.good old good
  unfold leavePosition
  extract_lets die row
  split
  · rw [if_pos (still _ bound.modRow)]
    exact bound.modRow.modPhys fun _ _ => rfl
  · rw [if_pos (still _ bound)]
    refine bound.modPhys fun h _ => ?_
    cases h.marginal <;> rfl

/-- A gap that the move went into moves to the position left (R333). -/
theorem leavePosition_gap (good : goodTile s old = true) (gap : (s.row (physDie new) (physRow new)).gap = some (physPos new)) :
    ((leavePosition (bindTile s k new) old new).row (physDie new) (physRow new)).gap = some (physPos old) := by
  have bound := bindTile_rebound s k new
  have here : ((bindTile s k new).row (physDie new) (physRow new)).gap = some (physPos new) := gap
  unfold leavePosition
  dsimp only
  rw [if_pos (by simp only [here, beq_self_eq_true]), if_pos (bound.modRow.good old good)]
  simp only [State.row, State.modRow, State.modPhys, mmod, mget_mput_self]

/-- In a row of usable positions no logical tile is stranded. -/
theorem strandedTiles_nil {die row : Nat} (b : Rebound s u k new) (good : ∀ q, q ∈ spanTiles s die row → goodTile s q = true) :
    strandedTiles u die row = [] := by
  have same : spanTiles u die row = spanTiles s die row := by simp only [spanTiles, span, b.trimmed, b.window]
  have none_ : (spanTiles u die row).filter (fun p => !goodTile u p) = [] := by
    rw [same, List.filter_eq_nil_iff]
    intro q hq
    simp [b.good q (good q hq)]
  rw [strandedTiles, none_, List.filterMap_nil]

end

section
variable {s : State} {p : Coord}

/-- The hang windows of the context at a tile watched anew, where there is one (R370). -/
def rewatched (s : State) (p : Coord) : State :=
  match ctxAt s p with
  | some (c, _) => watchCycles s c
  | none => s

theorem watchCycles_cases (s : State) (c : Nat) : watchCycles s c = s ∨ ∃ f, watchCycles s c = s.modRec c f := by
  unfold watchCycles
  split
  · exact .inl rfl
  · split
    · exact .inr ⟨_, rfl⟩
    · exact .inl rfl

theorem rewatched_cases (s : State) (p : Coord) : rewatched s p = s ∨ ∃ c f, rewatched s p = s.modRec c f := by
  unfold rewatched
  split
  · rename_i c _ _
    rcases watchCycles_cases s c with same | ⟨f, changed⟩
    · exact .inl same
    · exact .inr ⟨c, f, changed⟩
  · exact .inl rfl

theorem rewatched_tiles : (rewatched s p).tiles = s.tiles := by
  rcases rewatched_cases s p with h | ⟨c, f, h⟩ <;> rw [h]
  exact State.modRec_tiles ..

theorem rewatched_mem : (rewatched s p).mem = s.mem := by
  rcases rewatched_cases s p with h | ⟨c, f, h⟩ <;> rw [h]
  exact State.modRec_mem ..

theorem rewatched_gleaner : (rewatched s p).gleaner = s.gleaner := by
  rcases rewatched_cases s p with h | ⟨c, f, h⟩ <;> rw [h]
  exact State.modRec_gleaner ..

theorem inCtx_rewatched {c : Nat} {x : Ctx} (hc : InCtx s p c x) : ∃ y, InCtx (rewatched s p) p c y ∧ y.run = x.run := by
  rw [rewatched, show ctxAt s p = some (c, x) from hc]
  rcases watchCycles_cases s c with same | ⟨f, changed⟩
  · exact ⟨x, by simpa only [same] using hc, rfl⟩
  · obtain ⟨y, hy, run, -⟩ := inCtx_modRec hc f
    exact ⟨y, by simpa only [changed] using hy, run⟩

theorem takeExc_bin (code pc detail : Nat) (slotB : Bool) :
    ((takeExc s p code pc slotB detail).tile (ckey p)).bin = (s.tile (ckey p)).bin := by
  unfold takeExc State.tile
  split
  · rfl
  · split <;> simp [State.modTile, State.setTile, State.tile]

theorem advance_bin : ((advance s p).tile (ckey p)).bin = (s.tile (ckey p)).bin := by
  unfold advance advanceAt
  dsimp only
  split
  · simp [State.tile, State.setTile]
  · rw [takeExc_bin]; rfl

/-- What goes on at the new position keeps memory, tables, other tiles and the bin (R81, R216). -/
theorem resumeTile_rest : (resumeTile s p).mem = s.mem ∧ (resumeTile s p).gleaner = s.gleaner ∧
    (∀ j, j ≠ ckey p → (resumeTile s p).tile j = s.tile j) ∧ ((resumeTile s p).tile (ckey p)).bin = (s.tile (ckey p)).bin := by
  unfold resumeTile
  extract_lets k
  split
  · refine ⟨advance_mem .., advance_gleaner .., fun j hj => ?_, ?_⟩
    · rw [advance_tile_other _ _ _ hj]; exact State.modTile_tile_ne _ _ hj
    · rw [advance_bin]; simp only [k, State.modTile_tile_self]
  · split
    · exact ⟨rfl, rfl, fun _ _ => rfl, rfl⟩
    · exact ⟨rfl, rfl, fun j hj => State.modTile_tile_ne _ _ hj, by simp only [k, State.modTile_tile_self]⟩
  · exact ⟨rfl, rfl, fun _ _ => rfl, rfl⟩

theorem resumeTile_moving {c : Nat} {x : Ctx} (moving : (s.tile (ckey p)).core.run = .moving) (hc : InCtx s p c x)
    (fits : (s.tile (ckey p)).core.fits) : (resumeTile s p).tile (ckey p) = { s.tile (ckey p) with
      core := { (s.tile (ckey p)).core.past with run := if x.run.holds then .held else .running } } := by
  simp only [resumeTile, moving, show ctxAt s p = some (c, x) from hc]
  rw [advance_modTile (by exact fits), State.modTile_tile_self]
  rfl

theorem resumeTile_held {c : Nat} {x : Ctx} (held : (s.tile (ckey p)).core.run = .held) (hc : InCtx s p c x) :
    (resumeTile s p).tile (ckey p) = { s.tile (ckey p) with
      core := { (s.tile (ckey p)).core with run := if x.run.holds then .held else .running } } := by
  simp only [resumeTile, held, show ctxAt s p = some (c, x) from hc]
  split
  · rw [← held]
  · rw [State.modTile_tile_self]

theorem resumeTile_other (moving : (s.tile (ckey p)).core.run ≠ .moving) (held : (s.tile (ckey p)).core.run ≠ .held) :
    resumeTile s p = s := by
  unfold resumeTile
  dsimp only
  split
  · contradiction
  · contradiction
  · rfl

end

section
variable {s : State} {p : Coord} {new old : Nat}

/-- The state once a tile resumes at its new position, before the tile goes on. -/
def switched (s : State) (p : Coord) (new old : Nat) : State :=
  rewatched (((leavePosition (bindTile s (ckey p) new) old new).modRow (physDie new) (physRow new) fun r =>
    { r with move := if r.move == some (ckey p) then none else r.move }).modTile (ckey p) fun t =>
      { t with moveStage := 0, moveTo := none, bin := { t.bin with scrubPtr := 0 } }) p

theorem switched_rebound (good : goodTile s old = true) : Rebound s { s with gleaner := (switched s p new old).gleaner } (ckey p) new := by
  have b := (leavePosition_rebound (s := s) (k := ckey p) (new := new) good).modRow (die := physDie new) (row := physRow new)
    (f := fun r => { r with move := if r.move == some (ckey p) then none else r.move })
  rw [switched, rewatched_gleaner]
  exact ⟨rfl, b.bind, b.trimmed, b.window, b.good⟩

theorem switched_gap (good : goodTile s old = true) (gap : (s.row (physDie new) (physRow new)).gap = some (physPos new)) :
    ((switched s p new old).row (physDie new) (physRow new)).gap = some (physPos old) := by
  have left_ := leavePosition_gap (k := ckey p) good gap
  unfold State.row at left_ ⊢
  rw [switched, rewatched_gleaner]
  simp only [State.modTile, State.setTile, State.modRow, mmod, mget_mput_self]
  exact left_

theorem switched_tile (good : goodTile s old = true) (j : Nat) : (switched s p new old).tile j = (s.modTile (ckey p) fun t =>
    { t with moveStage := 0, moveTo := none, bin := { t.bin with scrubPtr := 0 } }).tile j := by
  rw [switched, State.tile_congr rewatched_tiles]
  have rest := (leavePosition_rebound (s := s) (k := ckey p) (new := new) good).rest
  rw [rest]
  rfl

theorem switched_mem (good : goodTile s old = true) : (switched s p new old).mem = s.mem := by
  rw [switched, rewatched_mem]
  have rest := (leavePosition_rebound (s := s) (k := ckey p) (new := new) good).rest
  rw [rest]
  rfl

theorem switched_inCtx (good : goodTile s old = true) {c : Nat} {x : Ctx} (hc : InCtx s p c x) :
    ∃ y, InCtx (switched s p new old) p c y ∧ y.run = x.run := by
  have rest := (leavePosition_rebound (s := s) (k := ckey p) (new := new) good).rest
  refine inCtx_rewatched ?_
  rw [rest]
  exact hc

/-- A tile copied whole resumes at its new position in a row of usable positions (R81, R183, R333). -/
theorem exec_moveResume (ordered : (s.tile (ckey p)).moveTo = some new) (copied : (s.tile (ckey p)).moveStage = 2)
    (stood : physOf s (ckey p) = some old) (sound : damagedLines (s.tile (ckey p)).bin = []) (good : goodTile s old = true)
    (row : ∀ q, q ∈ spanTiles s (physDie new) (physRow new) → goodTile s q = true) :
    exec (.moveResume p) s = .next (resumeTile (switched s p new old) p) := by
  change execMoveResume p s = _
  obtain ⟨-, gleaner, -, bin⟩ := resumeTile_rest (s := switched s p new old) (p := p)
  have whole : damagedLines ((resumeTile (switched s p new old) p).tile (ckey p)).bin = [] := by
    rw [bin, switched_tile good, State.modTile_tile_self]
    exact sound
  have settled : strandedTiles (resumeTile (switched s p new old) p) (physDie new) (physRow new) = [] := by
    have b := strandedTiles_nil (switched_rebound (p := p) (new := new) good) row
    unfold strandedTiles spanTiles span goodTile logicalOf State.phys at b ⊢
    rw [gleaner]
    exact b
  have undamaged : copyDamage (resumeTile (switched s p new old) p) p = resumeTile (switched s p new old) p := by
    rw [copyDamage]
    dsimp only
    rw [whole, List.isEmpty_nil, if_pos rfl]
  have retried : retryRemaps (resumeTile (switched s p new old) p) (physDie new) (physRow new) = resumeTile (switched s p new old) p := by
    rw [retryRemaps, settled, List.foldl_nil]
  simp only [execMoveResume, ordered, copied, stood]
  change (.next (retryRemaps (copyDamage (resumeTile (switched s p new old) p) p) _ _) : Out) = _
  rw [undamaged, retried]

end

/-- Settles O20: the quiet tile flushes its gather entries; on resuming, the tables change only at the two positions. -/
theorem tileMoves : Obligations.TileMoves := by
  unfold Obligations.TileMoves
  intro s p t new old hu ht
  subst ht
  refine ⟨fun ordered stage quiet clocked at_ => ?_, exec_moveQuiesced_lost, fun stage => ?_,
    fun ordered copied stood sound good row => ?_⟩
  · have flushed := flushGather_untraced (windowEnded_untraced hu)
    refine ⟨_, exec_moveQuiesced ordered stage quiet clocked at_, ?_⟩
    rw [flushed, State.modTile_modTile]
    have tile : ∀ j, (windowEnded s p).tile j = s.tile j := State.tile_congr windowEnded_tiles
    refine ⟨fun j hj => ?_, windowEnded_mem, ?_, ?_, fun q j hj => ?_, fun c x hc hx => windowEnded_ctx hc hx⟩
    · rw [State.modTile_tile_ne _ _ hj, tile]
    · rw [State.modTile_tile_self, tile]
    · rw [State.modTile_tile_self, tile, List.all_eq_true]
      exact fun g hg => beq_iff_eq.mpr (Bin.writeBackAll_mask _ g hg)
    · rw [State.modTile_tile_self, tile]
      exact Bin.visible_writeBackAll _ q j hj
  · change execBinCopyComplete p s = _
    simp only [execBinCopyComplete, if_pos stage]
  · obtain ⟨mem, gleaner, others, -⟩ := resumeTile_rest (s := switched s p new old) (p := p)
    have bind : (switched s p new old).gleaner.bind = mput s.gleaner.bind (ckey p) new := (switched_rebound good).bind
    have here : (switched s p new old).tile (ckey p) =
        { s.tile (ckey p) with moveStage := 0, moveTo := none, bin := { (s.tile (ckey p)).bin with scrubPtr := 0 } } := by
      rw [switched_tile good, State.modTile_tile_self]
    refine ⟨_, exec_moveResume ordered copied stood sound good row, ?_, mem.trans (switched_mem good), fun gap => ?_,
      fun moving held => ?_, fun c x moving hc fits => ?_, fun c x held hc => ?_, fun j hj => ⟨?_, ?_⟩⟩
    · rw [physOf, gleaner, bind, mfind_mput_self]
    · have left_ := switched_gap (p := p) good gap
      unfold State.row at left_ ⊢
      rw [gleaner]
      exact left_
    · rw [resumeTile_other (by rw [here]; exact moving) (by rw [here]; exact held), here]
    · obtain ⟨y, hy, run⟩ := switched_inCtx (new := new) good hc
      rw [resumeTile_moving (by rw [here]; exact moving) hy (by rw [here]; exact fits), here, run]
    · obtain ⟨y, hy, run⟩ := switched_inCtx (new := new) good hc
      rw [resumeTile_held (by rw [here]; exact held) hy, here, run]
    · rw [others j hj, switched_tile good, State.modTile_tile_ne _ _ hj]
    · rw [physOf, gleaner, bind, mfind_mput, if_neg hj, physOf]

end Sys2Proof.Machine

/-! ## Proofs: the lines of an outbound transaction (R73, R169, R170)

What reading them changes, and that the DMA engine's own tables have no part in it. -/

namespace Sys2Proof.Machine

/-- What reading lines of a bin for an outbound transaction may change: the bin's gather entries and capture lane, and the
tallies of the tile and its context. -/
structure LinesRead (p : Coord) (c : Nat) (s w : State) : Prop where
  mem : w.mem = s.mem
  mesh : w.mesh = s.mesh
  others : ∀ j, j ≠ ckey p → w.tile j = s.tile j
  tile : w.tile (ckey p) = { s.tile (ckey p) with bin := (w.tile (ckey p)).bin, tally := (w.tile (ckey p)).tally }
  staging : (w.tile (ckey p)).bin.staging = (s.tile (ckey p)).bin.staging
  trace : (w.tile (ckey p)).bin.trace = (s.tile (ckey p)).bin.trace
  ctx : ∀ x, InCtx s p c x → ∃ y, InCtx w p c y ∧ y.run = x.run

section
variable {p : Coord} {s w v : State} {c : Nat} {x : Ctx}

theorem LinesRead.refl (p : Coord) (c : Nat) (s : State) : LinesRead p c s s :=
  ⟨rfl, rfl, fun _ _ => rfl, rfl, rfl, rfl, fun x h => ⟨x, h, rfl⟩⟩

theorem LinesRead.trans (a : LinesRead p c s w) (b : LinesRead p c w v) : LinesRead p c s v where
  mem := b.mem.trans a.mem
  mesh := b.mesh.trans a.mesh
  others j hj := (b.others j hj).trans (a.others j hj)
  tile := by rw [b.tile, a.tile]
  staging := b.staging.trans a.staging
  trace := b.trace.trans a.trace
  ctx x h := by
    obtain ⟨y, hy, run⟩ := a.ctx x h
    obtain ⟨z, hz, run'⟩ := b.ctx y hy
    exact ⟨z, hz, run'.trans run⟩

theorem LinesRead.of_modTile (s : State) {f : Tile → Tile} (tile : ∀ t, f t = { t with bin := (f t).bin, tally := (f t).tally })
    (staging : ∀ t, (f t).bin.staging = t.bin.staging) (trace : ∀ t, (f t).bin.trace = t.bin.trace) :
    LinesRead p c s (s.modTile (ckey p) f) where
  mem := rfl
  mesh := rfl
  others j hj := State.modTile_tile_ne _ _ hj
  tile := by rw [State.modTile_tile_self]; exact tile _
  staging := by rw [State.modTile_tile_self]; exact staging _
  trace := by rw [State.modTile_tile_self]; exact trace _
  ctx x h := ⟨x, h, rfl⟩

theorem LinesRead.of_modTally (s : State) (f : CtxTally → CtxTally) : LinesRead p c s (s.modTally c f) where
  mem := State.modTally_mem ..
  mesh := State.modTally_mesh ..
  others j _ := State.tile_congr (State.modTally_tiles ..) j
  tile := by rw [State.tile_congr (State.modTally_tiles ..)]
  staging := by rw [State.tile_congr (State.modTally_tiles ..)]
  trace := by rw [State.tile_congr (State.modTally_tiles ..)]
  ctx x h := by
    obtain ⟨y, hy, rfl | rfl⟩ := inCtx_modCtx h (fun x => { x with tally := f x.tally }) fun _ => rfl
    all_goals exact ⟨_, hy, rfl⟩

theorem tallyAdd_read (s : State) (e : TallyEnt) : LinesRead p c s (tallyAdd s c (ckey p) e) := by
  unfold tallyAdd
  extract_lets present evicted
  have room : LinesRead p c s evicted := by
    unfold evicted evictFirst
    split
    · split
      · exact .refl p c s
      · rename_i e rest _
        exact (LinesRead.of_modTile s (f := fun t => { t with tally := rest }) (fun _ => rfl) (fun _ => rfl) (fun _ => rfl)).trans
          (.of_modTally _ _)
    · exact .refl p c s
  clear_value evicted
  exact room.trans (.of_modTile _ (fun _ => rfl) (fun _ => rfl) (fun _ => rfl))

theorem digestLine_read (s : State) (l : CapLine) : LinesRead p c s (digestLine s c (ckey p) l) := by
  unfold digestLine
  split
  · exact .refl p c s
  · extract_lets h view id added f
    have counted : LinesRead p c s added := tallyAdd_read ..
    clear_value added
    split
    · exact counted.trans (.of_modTally _ _)
    · exact counted

theorem capturePush_read (s : State) (l : CapLine) : LinesRead p c s (capturePush s c (ckey p) l) := by
  unfold capturePush
  extract_lets hashed
  have room : LinesRead p c s hashed := by
    unfold hashed
    split
    · exact (digestLine_read s _).trans (.of_modTile _ (fun _ => rfl) (fun _ => rfl) (fun _ => rfl))
    · exact .refl p c s
  clear_value hashed
  exact room.trans (.of_modTile _ (fun _ => rfl) (fun _ => rfl) (fun _ => rfl))

theorem Bin.writeBack_staging (b : Bin) (q : Nat) : (b.writeBack q).staging = b.staging := by
  unfold Bin.writeBack
  split <;> rfl

theorem Bin.writeBack_trace (b : Bin) (q : Nat) : (b.writeBack q).trace = b.trace := by
  unfold Bin.writeBack
  split <;> rfl

theorem flushSpan_read (hu : Untraced s p) (l : Nat) : LinesRead p c s (flushSpan s p l 1) := by
  by_cases clean : ∀ q ∈ physLine (s.tile (ckey p)) l, (s.tile (ckey p)).bin.gatherOf q = none
  · rw [flushSpan_one_clean clean]; exact .refl p c s
  · push Not at clean
    obtain ⟨q, mapped, pending⟩ := clean
    rw [flushSpan_one_pending hu mapped pending]
    exact .of_modTile _ (fun _ => rfl) (fun _ => Bin.writeBack_staging ..) (fun _ => Bin.writeBack_trace ..)

theorem LinesRead.untraced (r : LinesRead p c s w) (hc : InCtx s p c x) (hu : Untraced s p) : Untraced w p := by
  obtain ⟨y, hy, run⟩ := r.ctx x hc
  intro n z hz
  obtain ⟨rfl, rfl⟩ : c = n ∧ y = z := by simpa using hy.symm.trans hz
  simpa only [traceOn, run] using hu c x hc

/-- Reading the lines changes no more than that, without trace capture. -/
theorem readOut_read (hc : InCtx s p c x) (hu : Untraced s p) (tensor : Word) (pos b a n : Nat) :
    LinesRead p c s (readOut s c x p tensor pos b a n).1 := by
  induction n with
  | zero => exact .refl p c s
  | succ n ih =>
    rw [readOut]
    split
    · rename_i w ls before
      rw [before] at ih
      have flushed := ih.trans (flushSpan_read (ih.untraced hc hu) ((b + 64 * n) / 64))
      extract_lets at_ v traced
      have left_ : LinesRead p c s v := flushed
      have same : traced = v := traceRecord_untraced (left_.untraced hc hu) ..
      clear_value traced v
      subst same
      split
      · split
        · exact left_
        · split
          · exact left_.trans (capturePush_read ..)
          · exact left_
      · exact left_
    · exact ih

end

section
variable {p : Coord} {s w v : State} {c : Nat} {x : Ctx}

/-- The state with the DMA engine's tables of a tile replaced. -/
def State.withDma (s : State) (p : Coord) (e : Dma) : State := s.modTile (ckey p) fun t => { t with dma := e }

theorem State.withDma_modTile {e : Dma} {f : Tile → Tile} (apart : ∀ t, f { t with dma := e } = { f t with dma := e }) :
    (s.withDma p e).modTile (ckey p) f = (s.modTile (ckey p) f).withDma p e := by
  simp only [State.withDma, State.modTile_modTile, apart]

theorem State.withDma_modTally {e : Dma} {f : CtxTally → CtxTally} :
    (s.withDma p e).modTally c f = (s.modTally c f).withDma p e := by
  simp only [State.modTally, State.modCtx, show (s.withDma p e).ctx c = s.ctx c from rfl]
  split <;> rfl

theorem State.withDma_tile (s : State) (p : Coord) (e : Dma) : (s.withDma p e).tile (ckey p) = { s.tile (ckey p) with dma := e } :=
  State.modTile_tile_self ..

theorem tallyAdd_withDma (e : Dma) (n : TallyEnt) :
    tallyAdd (s.withDma p e) c (ckey p) n = (tallyAdd s c (ckey p) n).withDma p e := by
  have evicted : evictFirst (s.withDma p e) c (ckey p) = (evictFirst s c (ckey p)).withDma p e := by
    simp only [evictFirst, State.withDma_tile]
    split
    · rfl
    · rw [State.withDma_modTile (fun _ => rfl), State.withDma_modTally]
  simp only [tallyAdd, State.withDma_tile, evicted]
  split
  · exact State.withDma_modTile fun _ => rfl
  · exact State.withDma_modTile fun _ => rfl

theorem digestLine_withDma (e : Dma) (l : CapLine) :
    digestLine (s.withDma p e) c (ckey p) l = (digestLine s c (ckey p) l).withDma p e := by
  simp only [digestLine, show (s.withDma p e).ctx c = s.ctx c from rfl]
  split
  · rfl
  · simp only [tallyAdd_withDma, State.withDma_modTally]
    split <;> rfl

theorem capturePush_withDma (e : Dma) (l : CapLine) :
    capturePush (s.withDma p e) c (ckey p) l = (capturePush s c (ckey p) l).withDma p e := by
  simp only [capturePush, State.withDma_tile, digestLine_withDma]
  split
  · rw [State.withDma_modTile (fun _ => rfl), State.withDma_modTile fun _ => rfl]
  · rw [State.withDma_modTile fun _ => rfl]

theorem flushSpan_withDma (hu : Untraced s p) (e : Dma) (l : Nat) :
    flushSpan (s.withDma p e) p l 1 = (flushSpan s p l 1).withDma p e := by
  have hu' : Untraced (s.withDma p e) p := hu
  have tile := s.withDma_tile p e
  by_cases clean : ∀ q ∈ physLine (s.tile (ckey p)) l, (s.tile (ckey p)).bin.gatherOf q = none
  · rw [flushSpan_one_clean clean, flushSpan_one_clean (by rw [tile]; exact clean)]
  · push Not at clean
    obtain ⟨q, mapped, pending⟩ := clean
    rw [flushSpan_one_pending hu mapped pending, flushSpan_one_pending hu' (by rw [tile]; exact mapped) (by rw [tile]; exact pending)]
    exact State.withDma_modTile fun _ => rfl

theorem readLine_withDma (t : Tile) (e : Dma) (l : Nat) : (readLine { t with dma := e } l).2 = (readLine t l).2 := by
  unfold readLine
  rw [show physLine { t with dma := e } l = physLine t l from rfl]
  split
  · rfl
  · dsimp only; split <;> rfl

/-- The lines are the same whatever the DMA engine's tables hold. -/
theorem readOut_withDma (hc : InCtx s p c x) (hu : Untraced s p) (e : Dma) (tensor : Word) (pos b a n : Nat) :
    readOut (s.withDma p e) c x p tensor pos b a n =
      ((readOut s c x p tensor pos b a n).1.withDma p e, (readOut s c x p tensor pos b a n).2) := by
  induction n with
  | zero => rfl
  | succ n ih =>
    have read := readOut_read hc hu tensor pos b a n
    rw [readOut, readOut, ih]
    generalize readOut s c x p tensor pos b a n = r at read
    obtain ⟨w, o⟩ := r
    cases o with
    | parity => rfl
    | poison l => rfl
    | lines ls =>
      have off := read.untraced hc hu
      have flushed := (read.trans (flushSpan_read off ((b + 64 * n) / 64))).untraced hc hu
      simp only [flushSpan_withDma off]
      generalize flushSpan w p ((b + 64 * n) / 64) 1 = v at flushed
      have same := readLine_withDma (v.tile (ckey p)) e ((b + 64 * n) / 64)
      rw [State.withDma_tile]
      generalize readLine { v.tile (ckey p) with dma := e } ((b + 64 * n) / 64) = r' at same
      generalize readLine (v.tile (ckey p)) ((b + 64 * n) / 64) = r at same
      obtain ⟨t', b'⟩ := r'
      obtain ⟨t, b0⟩ := r
      obtain rfl : b' = b0 := same
      cases b' with
      | unmapped => rfl
      | failed q => rfl
      | ok d tag =>
        have flushed' : Untraced (v.withDma p e) p := flushed
        dsimp only
        split
        · rfl
        · rw [traceRecord_untraced flushed, traceRecord_untraced flushed', capturePush_withDma]
          split <;> rfl

end

end Sys2Proof.Machine

/-! ## Proofs: DMA transactions and their replies (R69 to R71, R169, R255, R308, R323) -/

namespace Sys2Proof.Machine

section
variable {s : State} {p : Coord} {c n : Nat} {x : Ctx} {d : DmaDesc}

/-- The DMA engine's tables once the next transaction of a descriptor is under way, `sent` bytes of it on their way. -/
def issuedDma (e : Dma) (n : Nat) (d : DmaDesc) (sent : Nat) : Dma :=
  { e with
    txns := mput e.txns (nextFree e.txns) ⟨n, d.issued, d.nextLen, sent, 0⟩
    descs := mput e.descs n { d with issued := d.issued + d.nextLen } }

/-- The next transaction of a descriptor of which no write is open. -/
theorem exec_dmaTransactionIssue (hc : InCtx s p c x) (running : x.rec_.state = 1) (found : mfind (s.tile (ckey p)).dma.descs n = some d)
    (clocked : s.clk.tilesStopped = false) (left_ : d.issued < d.total) (few : (s.tile (ckey p)).dma.txns.length < 16)
    (closed : openWrite (s.tile (ckey p)) n = none) (room : 0 < portRoom s p .request) :
    exec (.dmaTransactionIssue p n) s =
      if d.toRemote then stageWrite c x p d (nextFree (s.tile (ckey p)).dma.txns) 40
        (s.withDma p (issuedDma (s.tile (ckey p)).dma n d 0))
      else .next ((s.withDma p (issuedDma (s.tile (ckey p)).dma n d d.nextLen)).send
        (dmaFlit (s.withDma p (issuedDma (s.tile (ckey p)).dma n d d.nextLen)) c x p d (nextFree (s.tile (ckey p)).dma.txns)
          d.issued d.nextLen)) := by
  change execDmaTransactionIssue p n s = _
  have started (sent : Nat) : ((putTxn s p (nextFree (s.tile (ckey p)).dma.txns)
      { desc := n, pos := d.issued, len := d.nextLen, sent := sent }).modTile (ckey p) fun t =>
        { t with dma := { t.dma with descs := mput t.dma.descs n { d with issued := d.issued + d.nextLen } } }) =
      s.withDma p (issuedDma (s.tile (ckey p)).dma n d sent) := by
    rw [putTxn, State.modTile_modTile]
    exact State.modTile_congr rfl
  have go : (x.rec_.state != 1 || s.clk.tilesStopped) = false := by simp [running, clocked]
  have may : (decide (d.issued < d.total) && decide ((s.tile (ckey p)).dma.txns.length < 16) &&
      (d.toRemote || decide (0 < portRoom s p .request))) = true := by simp [left_, few, room]
  simp only [execDmaTransactionIssue, show ctxAt s p = some (c, x) from hc, found, go, closed, may, Bool.false_eq_true, if_false,
    if_true]
  rw [started]
  split <;> rfl

/-- A flit of a write that reads its lines at the start of its transaction. -/
def writeFlit (s : State) (c : Nat) (x : Ctx) (p : Coord) (d : DmaDesc) (tag : Nat) (ls : List Line) : Flit :=
  { dmaFlit s c x p d tag d.issued d.nextLen with seq := 0, lines := ls }

/-- A state in which the tile's one write, whose lines are read, has left whole. -/
def writeSent (s s1 : State) (c : Nat) (x : Ctx) (p : Coord) (n : Nat) (d : DmaDesc) (ls : List Line) : State :=
  let e := (s.tile (ckey p)).dma
  let v := s1.withDma p (issuedDma e n d d.nextLen)
  let g := writeFlit v c x p d (nextFree e.txns) ls
  stagedSent (stageFlit v p g) p g

/-- The tables of a write with all of its lines on their way. -/
theorem putTxn_issued (s : State) (p : Coord) (e : Dma) (n : Nat) (d : DmaDesc) :
    putTxn (s.withDma p (issuedDma e n d 0)) p (nextFree e.txns) ⟨n, d.issued, d.nextLen, d.nextLen, 0⟩ =
      s.withDma p (issuedDma e n d d.nextLen) := by
  simp only [putTxn, State.withDma, State.modTile_modTile, issuedDma, mput_mput]

/-- A write of one or two lines leaves as one flit with the lines it read (R169). -/
theorem stageWrite_one {k : Nat} {s1 : State} {ls : List Line} (hc : InCtx s p c x) (hu : Untraced s p)
    (clear : (s.tile (ckey p)).portClear) (room : 0 < portRoom s p .request) (len : d.nextLen = 64 * k) (some_ : 0 < k) (one : k ≤ 2)
    (read : readOut s c x p d.tensor d.issued (d.place d.issued).2 (d.place d.issued).1 k = (s1, .lines ls)) :
    stageWrite c x p d (nextFree (s.tile (ckey p)).dma.txns) 40 (s.withDma p (issuedDma (s.tile (ckey p)).dma n d 0)) =
      .next (writeSent s s1 c x p n d ls) := by
  obtain ⟨owed, staging, trace, told, rests⟩ := id clear
  have kept := readOut_read hc hu d.tensor d.issued (d.place d.issued).2 (d.place d.issued).1 k
  rw [read] at kept
  obtain ⟨y, hy, -⟩ := kept.ctx x hc
  have again := readOut_withDma hc hu (issuedDma (s.tile (ckey p)).dma n d 0) d.tensor d.issued (d.place d.issued).2
    (d.place d.issued).1 k
  rw [read] at again
  have here := s.withDma_tile p (issuedDma (s.tile (ckey p)).dma n d 0)
  have quiet : pumpPort (s.withDma p (issuedDma (s.tile (ckey p)).dma n d 0)) p =
      s.withDma p (issuedDma (s.tile (ckey p)).dma n d 0) := pumpPort_clear (by rw [here]; exact clear)
  have known (sent : Nat) : mfind (issuedDma (s.tile (ckey p)).dma n d sent).txns (nextFree (s.tile (ckey p)).dma.txns) =
      some ⟨n, d.issued, d.nextLen, sent, 0⟩ := mfind_mput_self ..
  have issued : ((s1.withDma p (issuedDma (s.tile (ckey p)).dma n d d.nextLen)).tile (ckey p)) =
      { s1.tile (ckey p) with dma := issuedDma (s.tile (ckey p)).dma n d d.nextLen } := State.withDma_tile ..
  have room' : 0 < portRoom s1 p .request := by
    rw [portRoom, countFlits, kept.mesh]; exact room
  have hy' : InCtx (s1.withDma p (issuedDma (s.tile (ckey p)).dma n d d.nextLen)) p c y := hy
  have room'' : 0 < portRoom (s1.withDma p (issuedDma (s.tile (ckey p)).dma n d d.nextLen)) p .request := room'
  have put := putTxn_issued s1 p (s.tile (ckey p)).dma n d
  simp only [writeSent]
  generalize s1.withDma p (issuedDma (s.tile (ckey p)).dma n d d.nextLen) = v at issued hy' room'' put
  generalize hg : writeFlit v c x p d (nextFree (s.tile (ckey p)).dma.txns) ls = g
  have staged := stageFlit_tile v p g
  have tile : (stageFlit v p g).tile (ckey p) = { s.tile (ckey p) with
      dma := issuedDma (s.tile (ckey p)).dma n d d.nextLen
      bin := { (s1.tile (ckey p)).bin with staging := [g] }, tally := (s1.tile (ckey p)).tally } := by
    rw [staged, issued]
    simp only [kept.staging, staging]
    rw [kept.tile]
    rfl
  have sent : pumpPort (stageFlit v p g) p = stagedSent (stageFlit v p g) p g :=
    pumpPort_staged (c := c) (x := y) hy' (by rw [tile]; exact owed) (by rw [tile]) (by rw [tile]; exact kept.trace.trans trace)
      (by rw [tile]; exact told) (by rw [tile]; exact rests) (by rw [← hg]; exact room'')
  have second : stageWrite c x p d (nextFree (s.tile (ckey p)).dma.txns) 39 (stageFlit v p g) =
      .next (stagedSent (stageFlit v p g) p g) := by
    have known' : mfind ((stagedSent (stageFlit v p g) p g).tile (ckey p)).dma.txns (nextFree (s.tile (ckey p)).dma.txns) =
        some ⟨n, d.issued, d.nextLen, d.nextLen, 0⟩ := by
      rw [stagedSent, State.send_tile, State.modTile_tile_self, tile]
      exact known _
    rw [stageWrite]
    simp only [sent, known']
    rw [if_pos (by simp)]
  have few : min 2 ((d.nextLen - 0) / 64) = k := by omega
  have fits : (decide (k = 0) || !stageRoom { s.tile (ckey p) with dma := issuedDma (s.tile (ckey p)).dma n d 0 } k) = false := by
    simp only [stageRoom, stagedLines, staging, List.foldl_nil, Bool.or_eq_false_iff, decide_eq_false_iff_not, Bool.not_eq_false',
      decide_eq_true_eq]
    omega
  rw [stageWrite]
  simp only [quiet, here, known, few, fits, Bool.false_eq_true, if_false, Nat.add_zero, again]
  rw [Nat.zero_add, ← len, put]
  exact hg ▸ second

theorem writeSent_dma (s s1 : State) (ls : List Line) :
    ((writeSent s s1 c x p n d ls).tile (ckey p)).dma = issuedDma (s.tile (ckey p)).dma n d d.nextLen := by
  simp only [writeSent, stagedSent]
  rw [State.send_tile, State.modTile_tile_self, stageFlit_tile, State.withDma_tile]

theorem writeSent_rest {s1 : State} {ls : List Line} (kept : LinesRead p c s s1) : (writeSent s s1 c x p n d ls).mem = s.mem ∧
    ∀ j, j ≠ ckey p → (writeSent s s1 c x p n d ls).tile j = s.tile j := by
  refine ⟨kept.mem, fun j hj => ?_⟩
  simp only [writeSent, stagedSent]
  rw [State.send_tile, State.modTile_tile_ne _ _ hj, stageFlit, State.modTile_tile_ne _ _ hj, State.withDma,
    State.modTile_tile_ne _ _ hj, kept.others j hj]

theorem live_of_inCtx (hc : InCtx s p c x) (running : x.rec_.state = 1) : live s c p = some x := by
  simp only [live, show ctxAt s p = some (c, x) from hc, running, decide_true, beq_self_eq_true, Bool.and_self, if_true]

theorem isGranary_tile (tile : p.y < 48) : isGranary p = false := by
  simp only [isGranary, northRow, southRow, Bool.or_eq_false_iff, beq_eq_false_iff_ne]
  omega

/-- Lines written change the bin of their tile alone. -/
theorem linesIn_rest (addr : Nat) (es : List (Nat × Line)) (t : Tile) : linesIn addr es t = { t with bin := (linesIn addr es t).bin } := by
  induction es generalizing t with
  | nil => rfl
  | cons e r ih =>
    have one (u : Tile) (l data : Nat) (poison : Bool) :
        writeLogLine u l data poison = { u with bin := (writeLogLine u l data poison).bin } := by
      unfold writeLogLine
      split <;> rfl
    simp only [linesIn, List.foldl_cons] at ih ⊢
    rw [ih, one]

end

section
variable {s : State} {f c : Nat} {fl : Flit} {x : Ctx} {d : DmaDesc} {tx : DmaTxn}

/-- A reply to a DMA transaction at its tile. -/
theorem exec_dmaReplyArrive (arrived : s.arrived f = some fl) (cls : fl.cls = .reply) (op : fl.op = 3 ∨ fl.op = 5)
    (tile : fl.dst.y < 48) (alive : live s fl.ctx.toNat fl.dst = some x) (own : mfind (s.tile (ckey fl.dst)).spill fl.tag.toNat = none)
    (txn : mfind (s.tile (ckey fl.dst)).dma.txns fl.tag.toNat = some tx)
    (desc : mfind (s.tile (ckey fl.dst)).dma.descs tx.desc = some d) : exec (.dmaReplyArrive f) s =
      if fl.op == 5 then .next (dmaComplete (s.dropFlit f) fl.dst fl.tag.toNat tx)
      else if !stageRoom (s.tile (ckey fl.dst)) fl.lines.length then .next s
      else
        let w := writeIn (s.dropFlit f) fl.dst 2 ((d.place tx.pos).2 + 128 * fl.seq.toNat) fl.lines
        .next (if tx.got + 64 * fl.lines.length = tx.len then dmaComplete w fl.dst fl.tag.toNat tx
          else putTxn w fl.dst fl.tag.toNat { tx with got := tx.got + 64 * fl.lines.length }) := by
  change execDmaReplyArrive f s = _
  have kind : ((fl.op == 3 || fl.op == 5) && fl.cls == .reply && !isGranary fl.dst) = true := by
    rw [cls, isGranary_tile tile]
    rcases op with h | h <;> rw [h] <;> decide
  simp only [execDmaReplyArrive, arrived, kind, if_true, alive, own, txn, desc]

/-- The transaction completed, and with the last byte of its descriptor the descriptor (R71). -/
theorem dmaComplete_tile {p : Coord} {tag : Nat} (desc : mfind (s.tile (ckey p)).dma.descs tx.desc = some d) :
    (dmaComplete s p tag tx).tile (ckey p) =
      if d.done + tx.len = d.total then { s.tile (ckey p) with
        dma := { (s.tile (ckey p)).dma with
          txns := mdel (s.tile (ckey p)).dma.txns tag, descs := mdel (s.tile (ckey p)).dma.descs tx.desc }
        core := (s.tile (ckey p)).core.setK d.counter ((s.tile (ckey p)).core.kreg d.counter + 1) }
      else { s.tile (ckey p) with dma := { (s.tile (ckey p)).dma with
        txns := mdel (s.tile (ckey p)).dma.txns tag
        descs := mput (s.tile (ckey p)).dma.descs tx.desc { d with done := d.done + tx.len } } } := by
  rw [dmaComplete, State.modTile_tile_self]
  simp only [desc]

/-- An error reply to a DMA transaction at its tile (R308, R323). -/
theorem exec_dmaErrorReplyArrive (arrived : s.arrived f = some fl) (op : fl.op = 0xD) (tile : fl.dst.y < 48)
    (alive : live s fl.ctx.toNat fl.dst = some x) (txn : mfind (s.tile (ckey fl.dst)).dma.txns fl.tag.toNat = some tx)
    (desc : mfind (s.tile (ckey fl.dst)).dma.descs tx.desc = some d) {w : State} (hw : w = (s.dropFlit f).modTile (ckey fl.dst) fun t =>
      { t with dma := { t.dma with txns := mdel t.dma.txns fl.tag.toNat } }) : exec (.dmaErrorReplyArrive f) s =
      .next (if (gSpace d.remote.toNat == 1 && gCoord d.remote.toNat != ownCoord s && admitting s fl.ctx.toNat) = true then
        stopCtx (abortAdm w 1) fl.ctx.toNat 15 none [] else takeExc w fl.dst 5 d.pc.toNat false d.at_) := by
  change execDmaErrorReplyArrive f s = _
  subst hw
  have kind : (fl.op == 0xD && !isGranary fl.dst) = true := by rw [op, isGranary_tile tile]; decide
  have alive' : live (s.dropFlit f) fl.ctx.toNat fl.dst = some x := alive
  have same : (s.dropFlit f).tile (ckey fl.dst) = s.tile (ckey fl.dst) := rfl
  simp only [execDmaErrorReplyArrive, arrived, kind, if_true, alive', same, txn, desc]
  exact (apply_ite ..).symm

end

/-- Settles O21: a transaction puts its tables and its one flit; a reply acts on the transaction it names. -/
theorem dmaTransactions : Obligations.DmaTransactions := by
  unfold Obligations.DmaTransactions
  rintro s p f n tag c x t d tx fl rfl hc running
  have alive := live_of_inCtx hc running
  refine ⟨fun found clocked left_ few closed room => ?_, fun arrived cls dst tile ctx htag own txn desc => ?_,
    fun arrived op dst tile ctx htag txn desc => ?_⟩
  · have answer := exec_dmaTransactionIssue hc running found clocked left_ few closed room
    refine ⟨fun read => ?_, fun s1 ls k write clear hu len some_ one read => ?_⟩
    · rw [read, if_neg Bool.false_ne_true] at answer
      refine ⟨_, _, answer, mfind_mput_self .., rfl, ?_, rfl, rfl, rfl, rfl, rfl, Nat.min_le_right .., ?_, rfl, fun j hj => ?_⟩
      · simp only [dmaFlit, read, Bool.false_eq_true, if_false]
      · rw [State.send_tile, State.withDma_tile]; rfl
      · rw [State.send_tile]; exact State.modTile_tile_ne _ _ hj
    · rw [write, if_pos rfl, stageWrite_one hc hu clear room len some_ one read] at answer
      have kept := readOut_read hc hu d.tensor d.issued (d.place d.issued).2 (d.place d.issued).1 k
      rw [read] at kept
      obtain ⟨mem, others⟩ := writeSent_rest (x := x) (n := n) (d := d) (ls := ls) kept
      rw [show s.mesh.nextFlit = s1.mesh.nextFlit from congrArg Mesh.nextFlit kept.mesh.symm]
      refine ⟨_, _, answer, mfind_mput_self .., rfl, ?_, rfl, rfl, rfl, rfl, rfl, rfl, ?_, mem, others⟩
      · simp only [writeFlit, dmaFlit, write, if_true]
      · rw [writeSent_dma]; rfl
  · subst dst ctx htag
    refine ⟨fun data hu room more => ?_, fun data full => ?_, fun ack => ?_⟩
    · have answer := exec_dmaReplyArrive arrived cls (.inl data) tile alive own txn desc
      rw [data, if_neg (by decide), room, if_neg (by decide)] at answer
      simp only [if_neg more] at answer
      obtain ⟨off, here⟩ := writeIn_spec (s := s.dropFlit f) hu 2 ((d.place tx.pos).2 + 128 * fl.seq.toNat) fl.lines
      have there := (writeIn_spec (s := s) hu 2 ((d.place tx.pos).2 + 128 * fl.seq.toNat) fl.lines).2
      rw [linesIn_rest] at here
      refine ⟨_, answer, ?_, off.mem, ?_, ?_, ?_, fun j hj => ?_⟩
      · change mfind (writeIn (s.dropFlit f) fl.dst 2 _ fl.lines).mesh.flits f = none
        rw [off.mesh]; exact dropFlit_self s f
      · rw [putTxn, State.modTile_tile_self, here]; rfl
      · rw [putTxn, State.modTile_tile_self, here, there]; rfl
      · rw [coreAt, putTxn, State.modTile_tile_self, here]; rfl
      · rw [putTxn, State.modTile_tile_ne _ _ hj, off.tile_ne hj]; rfl
    · have answer := exec_dmaReplyArrive arrived cls (.inl data) tile alive own txn desc
      rwa [data, if_neg (by decide), full, if_pos (by decide)] at answer
    · have answer := exec_dmaReplyArrive arrived cls (.inr ack) tile alive own txn desc
      rw [ack, if_pos (by decide)] at answer
      have here := dmaComplete_tile (s := s.dropFlit f) (p := fl.dst) (tag := fl.tag.toNat) desc
      refine ⟨_, answer, dropFlit_self s f, rfl, fun last => ?_, fun more => ?_, fun j hj => State.modTile_tile_ne _ _ hj⟩
      · rw [coreAt, here, if_pos last]
        exact ⟨rfl, by simp only [Core.setK, mget_mset_self]; rfl⟩
      · rw [coreAt, here, if_neg more]
        exact ⟨rfl, rfl⟩
  · subst dst ctx htag
    exact exec_dmaErrorReplyArrive arrived op tile alive txn desc rfl

end Sys2Proof.Machine

/-! ## Proofs: entries of a granary, and the requests that take one (R71, R261, R275, R276, R308) -/

namespace Sys2Proof.Machine

section
variable {s v : State} {n : Nat} {t : Txn} {g : Flit} {op : BitVec 4}

/-- A flit of an entry leaves where the router of its column has a slot. -/
def entrySend (r : State × Nat) (f : Flit) : State × Nat :=
  if granaryRoom r.1 f then (r.1.sendGranary f, r.2 + 1) else r

theorem entrySends_rest (l : List Flit) (r : State × Nat) : (l.foldl entrySend r).1.tiles = r.1.tiles ∧
    (l.foldl entrySend r).1.mem = r.1.mem ∧
    ∀ m < r.1.mesh.nextFlit, mfind (l.foldl entrySend r).1.mesh.flits m = mfind r.1.mesh.flits m := by
  induction l generalizing r with
  | nil => exact ⟨rfl, rfl, fun _ _ => rfl⟩
  | cons f l ih =>
    obtain ⟨tiles, mem, flits⟩ := ih (entrySend r f)
    rw [List.foldl_cons]
    unfold entrySend at tiles mem flits ⊢
    split at tiles
    · rename_i room
      rw [if_pos room] at mem flits ⊢
      refine ⟨tiles, mem, fun m hm => (flits m (Nat.lt_succ_of_lt hm)).trans ?_⟩
      exact (mfind_mput ..).trans (if_neg (Nat.ne_of_lt hm))
    · rename_i full
      rw [if_neg full] at mem flits ⊢
      exact ⟨tiles, mem, flits⟩

/-- The flits of a reply are those of its lines, two each. -/
theorem entryFlits_reply (reply : t.reply = some op) : entryFlits t =
    (List.range (flitCount (if op == 3 then t.lines else []).length)).map fun i =>
      { cls := .reply, ctx := t.ctx, op := op, dst := t.src, src := granaryPort t.src.x t.north, seq := BitVec.ofNat 16 i, tag := t.tag
        aux := if (if op == 3 then t.lines else []).isEmpty then 0
          else BitVec.ofNat 16 (flitCount (if op == 3 then t.lines else []).length)
        lines := flitLines (if op == 3 then t.lines else []) i } := by
  simp only [entryFlits, reply]

/-- Room for a reply depends on the mesh and on where the reply enters it. -/
theorem granaryRoom_reply {f g : Flit} (mesh : v.mesh = s.mesh) (clsF : f.cls = .reply) (clsG : g.cls = .reply) (ctx : f.ctx = g.ctx)
    (src : f.src = g.src) : granaryRoom v f = granaryRoom s g := by
  simp only [granaryRoom, hasSlot, countFlits, mesh, clsF, clsG, ctx, src, show (MClass.reply != MClass.circuit) = true from rfl,
    Bool.true_or]

/-- The first flit of a reply that waits. -/
def replyFlit (t : Txn) (op : BitVec 4) (ls : List Line) : Flit :=
  { cls := .reply, ctx := t.ctx, op := op, dst := t.src, src := granaryPort t.src.x t.north, seq := 0, tag := t.tag
    aux := if ls.isEmpty then 0 else BitVec.ofNat 16 (flitCount ls.length), lines := ls.take 2 }

/-- What an entry that ends in a reply leaves behind: its first flit on the mesh, and no entry once the last has left (R275). -/
structure Answered (s u : State) (n : Nat) (t : Txn) (op : BitVec 4) (ls : List Line) : Prop where
  tiles : u.tiles = s.tiles
  data : u.mem.data = s.mem.data
  poison : u.mem.poison = s.mem.poison
  first : mfind u.mesh.flits s.mesh.nextFlit =
    some { replyFlit t op ls with loc := entryLoc (granaryPort t.src.x t.north), stamp := s.mesh.nextStamp }
  entry : mfind u.mem.txns n = none ∨ ∃ w, mfind u.mem.txns n = some w ∧ w.reply = some op ∧ w.lines = ls
  short : ls.length ≤ 2 → mfind u.mem.txns n = none

/-- The first flit of an entry leaves, and with the last one of a reply the entry is freed (R275). -/
theorem pumpEntry_first {rest : List Flit} (found : mfind s.mem.txns n = some t) (reply : t.reply = some op) (fresh : t.sent = 0)
    (flits : entryFlits t = g :: rest) (room : granaryRoom s g = true) : (pumpEntry s n).tiles = s.tiles ∧
      (pumpEntry s n).mem.data = s.mem.data ∧ (pumpEntry s n).mem.poison = s.mem.poison ∧
      mfind (pumpEntry s n).mesh.flits s.mesh.nextFlit = some { g with loc := entryLoc g.src, stamp := s.mesh.nextStamp } ∧
      (mfind (pumpEntry s n).mem.txns n = none ∨ ∃ k, mfind (pumpEntry s n).mem.txns n = some { t with sent := k }) ∧
      (rest = [] → mfind (pumpEntry s n).mem.txns n = none) := by
  obtain ⟨tiles, mem, others⟩ := entrySends_rest rest (s.sendGranary g, 1)
  have first := (others s.mesh.nextFlit (Nat.lt_succ_self _)).trans (mfind_mput_self ..)
  have alone : rest = [] → (rest.foldl entrySend (s.sendGranary g, 1)).2 = (g :: rest).length := by rintro rfl; rfl
  have pumped : pumpEntry s n =
      if (rest.foldl entrySend (s.sendGranary g, 1)).2 = (g :: rest).length then
        dropTxn (rest.foldl entrySend (s.sendGranary g, 1)).1 n
      else putEntry (rest.foldl entrySend (s.sendGranary g, 1)).1 n
        { t with sent := (rest.foldl entrySend (s.sendGranary g, 1)).2 } := by
    simp only [pumpEntry, found, flits, fresh, reply, List.drop_zero, List.foldl_cons, Option.isSome_some, Bool.true_and,
      decide_eq_true_eq, room, if_true]
    rfl
  rw [pumped]
  generalize rest.foldl entrySend (s.sendGranary g, 1) = r at tiles mem first alone
  have data : r.1.mem.data = s.mem.data := congrArg Mem.data mem
  have poison : r.1.mem.poison = s.mem.poison := congrArg Mem.poison mem
  split
  · have freed : mfind (dropTxn r.1 n).mem.txns n = none := (mfind_mdel ..).trans (if_pos rfl)
    exact ⟨tiles, data, poison, first, .inl freed, fun _ => freed⟩
  · rename_i more
    exact ⟨tiles, data, poison, first, .inr ⟨_, mfind_mput_self ..⟩,
      fun last => absurd (alone last) more⟩

/-- An entry that ends in a reply, the router of whose column has a slot. -/
theorem answerEntry_answered {ls : List Line} (lines : op = 3 ∨ ls = []) (gcls : g.cls = .reply) (gctx : g.ctx = t.ctx)
    (gsrc : g.src = granaryPort t.src.x t.north) (room : granaryRoom s g = true) : Answered s (answerEntry s n t op ls) n t op ls := by
  have whole : (if op == 3 then ls else []) = ls := by
    rcases lines with rfl | rfl
    · rfl
    · exact ite_self _
  obtain ⟨k, hk⟩ : ∃ k, flitCount ls.length = k + 1 := ⟨flitCount ls.length - 1, by unfold flitCount; omega⟩
  obtain ⟨rest, flits, len⟩ : ∃ rest, entryFlits { t with reply := some op, sent := 0, lines := ls, done := t.len / 64 } =
      replyFlit t op ls :: rest ∧ rest.length = k := by
    rw [entryFlits_reply rfl]
    simp only [whole, hk, List.range_succ_eq_map, List.map_cons, List.map_map]
    exact ⟨_, by rw [replyFlit, hk]; rfl, by simp⟩
  have room' : granaryRoom (putEntry s n { t with reply := some op, sent := 0, lines := ls, done := t.len / 64 })
      (replyFlit t op ls) = true := (granaryRoom_reply rfl rfl gcls gctx.symm gsrc.symm).trans room
  obtain ⟨tiles, data, poison, first, entry, alone⟩ := pumpEntry_first (mfind_mput_self ..) rfl rfl flits room'
  refine ⟨tiles, data, poison, first, ?_, fun short => alone (List.length_eq_zero_iff.1 (by unfold flitCount at hk; omega))⟩
  rcases entry with freed | ⟨k, waits⟩
  · exact .inl freed
  · exact .inr ⟨_, waits, rfl, rfl⟩

end

section
variable {s : State} {f : Nat} {fl : Flit} {x : Ctx} {north : Bool}

/-- A request of a context that does not run is absorbed (R276). -/
theorem exec_granaryRequestAccept_absorbed (arrived : s.arrived f = some fl) (cls : fl.cls = .request) (op : fl.op = 2 ∨ fl.op = 4)
    (port : isGranary fl.dst = true) (dead : live s fl.ctx.toNat fl.src = none) :
    exec (.granaryRequestAccept f) s = .next (s.dropFlit f) := by
  change execGranaryRequestAccept f s = _
  have kind : (fl.op == 2 || fl.op == 4) = true := by simpa using op
  simp only [execGranaryRequestAccept, arrived, port, if_true, cls, show (MClass.request == MClass.reply) = false from rfl,
    Bool.false_eq_true, if_false, kind, dead]

/-- A further flit of a write joins the entry that waits for it (R71). -/
theorem exec_granaryRequestAccept_joins {n : Nat} {t : Txn} (arrived : s.arrived f = some fl) (cls : fl.cls = .request)
    (write : fl.op = 4) (port : isGranary fl.dst = true) (side : north = (fl.dst.y == northRow))
    (alive : live s fl.ctx.toNat fl.src = some x) (open_ : openEntry s fl north = some (n, t)) :
    exec (.granaryRequestAccept f) s = .next (addPart (s.dropFlit f) n t fl) := by
  change execGranaryRequestAccept f s = _
  rw [side] at open_
  simp only [execGranaryRequestAccept, arrived, port, if_true, cls, show (MClass.request == MClass.reply) = false from rfl,
    Bool.false_eq_true, if_false, write, beq_self_eq_true, Bool.or_true, alive, open_]

/-- A request of a live context that joins no entry waits while its share is in use, and otherwise takes one (R275). -/
theorem exec_granaryRequestAccept_takes (arrived : s.arrived f = some fl) (cls : fl.cls = .request) (op : fl.op = 2 ∨ fl.op = 4)
    (port : isGranary fl.dst = true) (side : north = (fl.dst.y == northRow)) (alive : live s fl.ctx.toNat fl.src = some x)
    (new : fl.op = 4 → openEntry s fl north = none) : exec (.granaryRequestAccept f) s =
      if x.cdef.share ≤ entriesUsed s fl.ctx.toNat north then .next s else .next (acceptRequest s f fl fl.ctx.toNat x north) := by
  change execGranaryRequestAccept f s = _
  have kind : (fl.op == 2 || fl.op == 4) = true := by simpa using op
  have none_ : (if fl.op == 4 then openEntry s fl (fl.dst.y == northRow) else none) = none := by
    split
    · rename_i h; exact side ▸ new (by simpa using h)
    · rfl
  simp only [execGranaryRequestAccept, arrived, port, if_true, cls, show (MClass.request == MClass.reply) = false from rfl,
    Bool.false_eq_true, if_false, kind, alive, none_, side]

/-- An entry whose request is all there and that works on this module's memory waits for its lines. -/
theorem beginEntry_local {n : Nat} {t : Txn} (found : mfind s.mem.txns n = some t) (kind : t.kind = .readLocal ∨ t.kind = .writeLocal)
    (good : t.bad = false) : beginEntry s n = s := by
  unfold beginEntry
  rw [found]
  dsimp only
  rw [good, if_neg (by decide)]
  rcases kind with h | h <;> rw [h]

/-- The entry that a request to this module's memory takes. -/
def requestEntry (s : State) (fl : Flit) (b : Nat) (north bad : Bool) : Txn :=
  { entryOf s fl (if fl.op == 4 then .writeLocal else .readLocal) b north with
    bad := bad, order := s.mem.nextOrder, since := now s }

/-- The state once a request has taken an entry. -/
def entered (s : State) (f : Nat) (t : Txn) : State :=
  { s.dropFlit f with mem := { s.mem with txns := mput s.mem.txns (nextFree s.mem.txns) t, nextOrder := s.mem.nextOrder + 1 } }

theorem entered_entry (t : Txn) : mfind (entered s f t).mem.txns (nextFree s.mem.txns) = some t := mfind_mput_self ..

theorem addTxn_request (b : Nat) (bad : Bool) : addTxn (s.dropFlit f)
    { entryOf s fl (if fl.op == 4 then .writeLocal else .readLocal) b north with bad := bad } =
      (nextFree s.mem.txns, entered s f (requestEntry s fl b north bad)) := by
  simp only [addTxn, requestEntry, entryOf]
  split <;> rfl

/-- A request to a place of this module's memory takes its entry (R261, R275). -/
theorem acceptRequest_phys {b : Nat} (here : gSpace fl.addr.toNat = 0) (direct : gOff fl.addr.toNat < writeViewBase)
    (target : localTarget s fl.ctx.toNat x (gOff fl.addr.toNat) fl.len (fl.op == 4) = .phys b) :
    acceptRequest s f fl fl.ctx.toNat x north =
      if fl.op == 4 then addPart (entered s f (requestEntry s fl b north false)) (nextFree s.mem.txns) (requestEntry s fl b north false) fl
      else beginEntry (entered s f (requestEntry s fl b north false)) (nextFree s.mem.txns) := by
  have took := addTxn_request (s := s) (f := f) (fl := fl) (north := north) b false
  have own : (gSpace fl.addr.toNat == 0 || gCoord fl.addr.toNat == ownCoord s) = true := by simp [here]
  have view : ∀ v key, beginViewWrite v fl.ctx.toNat x (gOff fl.addr.toNat) fl.len key = v := fun v key => if_neg (by omega)
  simp only [acceptRequest, own, if_true, target]
  rw [show entryOf s fl (if (fl.op == 4) = true then TxnKind.writeLocal else TxnKind.readLocal) b north =
    { entryOf s fl (if (fl.op == 4) = true then TxnKind.writeLocal else TxnKind.readLocal) b north with bad := false } from rfl, took]
  simp only [view, ite_self, entered_entry]

/-- A request past memory takes its entry until its error reply has left (R308). -/
theorem acceptRequest_refused (here : gSpace fl.addr.toNat = 0)
    (target : localTarget s fl.ctx.toNat x (gOff fl.addr.toNat) fl.len (fl.op == 4) = .refused) :
    acceptRequest s f fl fl.ctx.toNat x north =
      if fl.op == 4 then addPart (entered s f (requestEntry s fl 0 north true)) (nextFree s.mem.txns) (requestEntry s fl 0 north true) fl
      else beginEntry (entered s f (requestEntry s fl 0 north true)) (nextFree s.mem.txns) := by
  have took := addTxn_request (s := s) (f := f) (fl := fl) (north := north) 0 true
  have own : (gSpace fl.addr.toNat == 0 || gCoord fl.addr.toNat == ownCoord s) = true := by simp [here]
  simp only [acceptRequest, own, if_true, target, took, Bool.false_and, Bool.false_eq_true, if_false, entered_entry]

theorem addPart_more {n : Nat} {t : Txn} (more : (mput t.parts fl.seq.toNat fl.lines).length ≠ fl.aux.toNat) :
    addPart s n t fl = putEntry s n { t with parts := mput t.parts fl.seq.toNat fl.lines } := if_neg more

theorem addPart_last {n : Nat} {t : Txn} (last : (mput t.parts fl.seq.toNat fl.lines).length = fl.aux.toNat) :
    addPart s n t fl = beginEntry (putEntry s n
      { t with parts := [], lines := (mput t.parts fl.seq.toNat fl.lines).flatMap (·.2) }) n := if_pos last

/-- A refused entry answers with an error (R308). -/
theorem beginEntry_refused {n : Nat} {t : Txn} (found : mfind s.mem.txns n = some t) (bad : t.bad = true) :
    beginEntry s n = answerEntry s n t 0xD [] := by
  unfold beginEntry
  rw [found]
  dsimp only
  rw [bad, if_pos rfl]

theorem localTarget_phys {c a len : Nat} {write : Bool} (inside : a + len ≤ memCap s) : localTarget s c x a len write = .phys a :=
  if_pos inside

theorem localTarget_refused {c a len : Nat} {write : Bool} (past : memCap s < a + len) (noRead : a < readViewBase)
    (noWrite : a < writeViewBase) : localTarget s c x a len write = .refused := by
  rw [localTarget, if_neg (by omega), if_neg (by omega), if_neg (by omega)]

/-- A request taken up: the entry it takes, and the entries of a write of one flit and of more (R71, R275). -/
theorem requestTaken {b : Nat} {u : State} (hu : u =
      if fl.op == 4 then addPart (entered s f (requestEntry s fl b north false)) (nextFree s.mem.txns) (requestEntry s fl b north false) fl
      else beginEntry (entered s f (requestEntry s fl b north false)) (nextFree s.mem.txns)) :
    u.tiles = s.tiles ∧ u.mesh = (s.dropFlit f).mesh ∧ u.mem.data = s.mem.data ∧ u.mem.poison = s.mem.poison ∧
      ∃ ls parts, mfind u.mem.txns (nextFree s.mem.txns) = some { requestEntry s fl b north false with lines := ls, parts := parts } ∧
        (fl.op = 4 → fl.aux = 1 → ls = fl.lines ∧ parts = []) ∧
        (fl.op = 4 → fl.aux ≠ 1 → ls = [] ∧ parts = [(fl.seq.toNat, fl.lines)]) := by
  by_cases write : fl.op = 4
  · rw [if_pos (by simp [write])] at hu
    by_cases one : fl.aux = 1
    · rw [addPart_last (by rw [one]; rfl), beginEntry_local (mfind_mput_self ..) (.inr ?_) rfl] at hu
      · subst hu
        refine ⟨rfl, rfl, rfl, rfl, _, _, mfind_mput_self .., fun _ _ => ⟨?_, rfl⟩, fun _ other => absurd one other⟩
        simp [requestEntry, entryOf, mput]
      · exact if_pos (by simpa using write)
    · have more : (1 : Nat) ≠ fl.aux.toNat := fun h => one (BitVec.eq_of_toNat_eq (by rw [← h]; rfl))
      rw [addPart_more (by exact more)] at hu
      subst hu
      exact ⟨rfl, rfl, rfl, rfl, _, _, mfind_mput_self .., fun _ same => absurd same one, fun _ _ => ⟨rfl, rfl⟩⟩
  · rw [if_neg (by simpa using write), beginEntry_local (entered_entry _) (.inl ?_) rfl] at hu
    · subst hu
      exact ⟨rfl, rfl, rfl, rfl, _, _, entered_entry _, fun w => absurd w write, fun w => absurd w write⟩
    · exact if_neg (by simpa using write)

end

section
variable {s : State} {f : Nat} {fl : Flit} {north : Bool}

/-- A refused request, all of it there, is answered with an error (R308). -/
theorem requestRefused {u : State} (hu : u =
      if fl.op == 4 then addPart (entered s f (requestEntry s fl 0 north true)) (nextFree s.mem.txns) (requestEntry s fl 0 north true) fl
      else beginEntry (entered s f (requestEntry s fl 0 north true)) (nextFree s.mem.txns)) (op : fl.op = 2 ∨ fl.op = 4)
    (whole : fl.op = 2 ∨ fl.aux = 1) (room : granaryRoom (s.dropFlit f)
      { cls := .reply, ctx := fl.ctx, op := 0xD, dst := fl.src, src := granaryPort fl.src.x north } = true) :
    ∃ v t, u = answerEntry v (nextFree s.mem.txns) t 0xD [] ∧ Answered v u (nextFree s.mem.txns) t 0xD [] ∧ v.tiles = s.tiles ∧
      v.mem.data = s.mem.data ∧ v.mesh = (s.dropFlit f).mesh ∧ t.src = fl.src ∧ t.tag = fl.tag := by
  have answered (v : State) (t : Txn) (mesh : v.mesh = (s.dropFlit f).mesh) (ctx : t.ctx = fl.ctx) (src : t.src = fl.src)
      (side : t.north = north) : Answered v (answerEntry v (nextFree s.mem.txns) t 0xD []) (nextFree s.mem.txns) t 0xD [] :=
    answerEntry_answered (g := { cls := .reply, ctx := fl.ctx, op := 0xD, dst := fl.src, src := granaryPort fl.src.x north })
      (.inr rfl) rfl ctx.symm (by rw [src, side]) ((granaryRoom_reply mesh rfl rfl rfl rfl).trans room)
  rcases op with read | write
  · rw [if_neg (by rw [read]; decide), beginEntry_refused (entered_entry _) rfl] at hu
    subst hu
    exact ⟨_, _, rfl, answered _ _ rfl rfl rfl rfl, rfl, rfl, rfl, rfl, rfl⟩
  · have one : fl.aux = 1 := whole.resolve_left (by rw [write]; decide)
    rw [if_pos (by rw [write]; decide), addPart_last (by rw [one]; rfl), beginEntry_refused (mfind_mput_self ..) rfl] at hu
    subst hu
    exact ⟨_, _, rfl, answered _ _ rfl rfl rfl rfl, rfl, rfl, rfl, rfl, rfl⟩

end

theorem granaryRequests : Claims.GranaryRequests := by
  rintro s f a fl x north arrived cls op port side rfl
  refine ⟨exec_granaryRequestAccept_absorbed arrived cls op port, fun n t alive write open_ more => ?_,
    fun n t alive write open_ kind good last => ?_, fun alive new => ?_⟩
  · rw [exec_granaryRequestAccept_joins arrived cls write port side alive open_, addPart_more more]
  · have answer := exec_granaryRequestAccept_joins arrived cls write port side alive open_
    rw [addPart_last last, beginEntry_local (mfind_mput_self ..) (.inr (by exact kind)) (by exact good)] at answer
    exact ⟨_, answer, rfl, rfl, mfind_mput_self ..⟩
  have answer := exec_granaryRequestAccept_takes arrived cls op port side alive new
  refine ⟨fun full => by rw [answer, if_pos full], fun free here => ⟨fun inside direct => ?_, fun past noRead noWrite whole room => ?_⟩⟩
  · rw [if_neg (by omega), acceptRequest_phys here direct (localTarget_phys inside)] at answer
    obtain ⟨tiles, mesh, data, poison, ls, parts, entry, one, more⟩ := requestTaken rfl
    refine ⟨_, _, answer, ?_, tiles, data, poison, entry, ?_⟩
    · rw [mesh]; exact dropFlit_self s f
    · have small : (fl.len % 64 != 0) = !decide (fl.len % 64 = 0) := rfl
      refine ⟨?_, ?_, ?_, ?_, rfl, rfl, rfl, rfl, rfl, rfl, rfl, rfl, one, more⟩
      · simp only [requestEntry, entryOf, beq_iff_eq]
      all_goals
        simp only [requestEntry, entryOf, small]
        split <;> simp_all
  · rw [if_neg (by omega), acceptRequest_refused here (localTarget_refused past noRead noWrite)] at answer
    obtain ⟨v, t, -, replied, tiles, data, mesh, src, tag⟩ := requestRefused rfl op whole room
    rw [show s.mesh.nextFlit = v.mesh.nextFlit by rw [mesh]; rfl]
    exact ⟨_, _, answer, replied.tiles.trans tiles, replied.data.trans data, replied.short (Nat.zero_le _), replied.first, rfl, rfl,
      src, tag⟩

end Sys2Proof.Machine

/-! ## Proofs: the places of lines, and reads and writes of a row (R262 to R265) -/

namespace Sys2Proof.Machine

section
variable {a row stripe q j : Nat}

theorem stripeOf_lt (a : Nat) : stripeOf a < 16 := Nat.mod_lt _ (by decide)

theorem rowPos_lt (a : Nat) : rowPos a < 12 := Nat.mod_lt _ (by decide)

theorem stripeOf_eq (a : Nat) : stripeOf a = a / 4096 % 16 := rfl

theorem lineAddr_eq (stripe row j : Nat) :
    lineAddr stripe row j = (11 * row + j) / 64 * 65536 + stripe * 4096 + (11 * row + j) % 64 * 64 := rfl

/-- A line stands where its position in its row says (R262). -/
theorem posAddr_rowPos (aligned : a % 64 = 0) : posAddr (stripeOf a) (lineRow a) (rowPos a) = some a := by
  have apart : rowPos a ≠ lineRow a % 12 := by unfold rowPos; omega
  have index : (rowPos a + 11 - lineRow a % 12) % 12 = lineIndex a % 11 := by unfold rowPos; omega
  have whole : 11 * lineRow a + lineIndex a % 11 = lineIndex a := by unfold lineRow; omega
  rw [posAddr, if_neg apart, index, lineAddr_eq, whole, lineIndex, stripeOf_eq, Option.some.injEq]
  omega

theorem stripeOf_lineAddr (within : stripe < 16) : stripeOf (lineAddr stripe row j) = stripe := by
  rw [lineAddr_eq, stripeOf_eq]; omega

theorem lineIndex_lineAddr (within : stripe < 16) : lineIndex (lineAddr stripe row j) = 11 * row + j := by
  rw [lineAddr_eq, lineIndex]; omega

/-- The line at a position of a row has that row and that position (R262). -/
theorem place_of_posAddr (within : stripe < 16) (hq : q < 12) (at_ : posAddr stripe row q = some a) :
    stripeOf a = stripe ∧ lineRow a = row ∧ rowPos a = q := by
  unfold posAddr at at_
  split at at_
  · exact absurd at_ (by simp)
  · rename_i apart
    obtain rfl : lineAddr stripe row ((q + 11 - row % 12) % 12) = a := Option.some.inj at_
    have index := lineIndex_lineAddr (row := row) (j := (q + 11 - row % 12) % 12) within
    have data : (q + 11 - row % 12) % 12 < 11 := by omega
    have same : lineRow (lineAddr stripe row ((q + 11 - row % 12) % 12)) = row := by rw [lineRow, index]; omega
    refine ⟨stripeOf_lineAddr within, same, ?_⟩
    rw [rowPos, same, index]
    omega

end

/-- No command of a list meets anything at a row of a stripe. -/
def CleanRow (errs : List LineCheck) (stripe row : Nat) : Prop := ∀ k ∈ errs, k.row ≠ row ∨ k.ch / 12 ≠ stripe

section
variable {s w : State} {errs : List LineCheck} {stripe row q a : Nat}

theorem lineCheck_clean (clean : CleanRow errs stripe row) (hq : q < 12) : (lineCheck errs (12 * stripe + q) row).err1 = 0 := by
  have none_ : (errs.find? fun k => k.ch == 12 * stripe + q && k.row == row) = none := by
    rw [List.find?_eq_none]
    intro k hk met
    obtain ⟨ch, same⟩ : k.ch = 12 * stripe + q ∧ k.row = row := by simpa using met
    rcases clean k hk with other | other
    · exact other same
    · exact other (by omega)
  rw [lineCheck, none_]
  rfl

theorem chanRead_clean (clean : CleanRow errs stripe row) (hq : q < 12) :
    chanRead s errs stripe row q = (s, some (rowLine s stripe row q)) := by
  simp only [chanRead, lineCheck_clean clean hq, readBack, if_true]

/-- A line whose first read passes its check (R264). -/
theorem lineRead_passes {source : Nat} {v : Line} (aligned : a % 64 = 0) (kept : s.lostAt a = false)
    (serving : retiredAt s (lineChannel a) = false)
    (passes : readBack (storedLine s a) (lineCheck errs (lineChannel a) (lineRow a)).err1 (lineChannel a) (lineRow a) = some v) :
    lineRead s errs a source = (s, v) := by
  have stored : rowLine s (stripeOf a) (lineRow a) (rowPos a) = storedLine s a := by
    rw [rowLine, posAddr_rowPos aligned]
  rw [lineRead, if_neg (by simp [kept]), if_neg (by simp [serving])]
  unfold lineChannel at passes
  simp only [chanRead, stored, passes]

/-- A line of a sound row reads as it is stored. -/
theorem lineRead_clean {source : Nat} (aligned : a % 64 = 0) (kept : s.lostAt a = false) (serving : s.mem.retired = [])
    (clean : CleanRow errs (stripeOf a) (lineRow a)) : lineRead s errs a source = (s, storedLine s a) :=
  lineRead_passes aligned kept (by simp [retiredAt, serving]) (by
    rw [lineChannel, lineCheck_clean clean (rowPos_lt a), readBack, if_pos rfl])

theorem aligned_of_posAddr (at_ : posAddr stripe row q = some a) : a % 64 = 0 := by
  unfold posAddr at at_
  split at at_
  · exact absurd at_ (by simp)
  · obtain rfl := Option.some.inj at_
    rw [lineAddr_eq]; omega

/-- The reads of a row write, all of which pass, change nothing. -/
theorem readForWrite_clean {qs : List Nat} (within : stripe < 16) (inRow : ∀ q ∈ qs, q < 12) (kept : (s.stripe stripe).state ≠ 2)
    (serving : s.mem.retired = []) (clean : CleanRow errs stripe row) : readForWrite s errs stripe row qs = s := by
  induction qs with
  | nil => rfl
  | cons q qs ih =>
    have hq := inRow q (List.mem_cons_self ..)
    have one : readForWrite s errs stripe row [q] = s := by
      rw [readForWrite, List.foldl_cons, List.foldl_nil]
      split
      · rename_i b at_
        obtain ⟨rfl, rfl, -⟩ := place_of_posAddr within hq at_
        rw [lineRead_clean (aligned_of_posAddr at_) (by simpa [State.lostAt] using kept) serving clean]
      · rw [chanRead_clean clean hq]
    change readForWrite (readForWrite s errs stripe row [q]) errs stripe row qs = s
    rw [one]
    exact ih fun q hq => inRow q (List.mem_cons_of_mem _ hq)

theorem writeReads_lt (serving : s.mem.retired = []) (written : List Nat) : ∀ q ∈ writeReads s stripe row written, q < 12 := by
  have none_ : retiredPos s stripe = [] := by simp [retiredPos, retiredAt, serving]
  intro q hq
  simp only [writeReads, none_] at hq
  split at hq
  · exact absurd hq (by simp)
  · exact List.mem_range.1 (List.mem_filter.1 hq).1

end

/-! ### Reports noted, and rows stored -/

section
variable {s w v : State}

/-- States that differ in what is noted of channels alone, each stripe in its state. -/
structure Noted (s w : State) : Prop where
  rest : w = { s with mem := { s.mem with stripes := w.mem.stripes, caErrs := w.mem.caErrs, due := w.mem.due } }
  state : ∀ n, (w.stripe n).state = (s.stripe n).state

theorem Noted.refl (s : State) : Noted s s := ⟨rfl, fun _ => rfl⟩

theorem Noted.trans (a : Noted s w) (b : Noted w v) : Noted s v where
  rest := by rw [b.rest, a.rest]
  state n := (b.state n).trans (a.state n)

theorem Noted.data (h : Noted s w) : w.mem.data = s.mem.data := by rw [h.rest]
theorem Noted.poison (h : Noted s w) : w.mem.poison = s.mem.poison := by rw [h.rest]
theorem Noted.retired (h : Noted s w) : w.mem.retired = s.mem.retired := by rw [h.rest]
theorem Noted.tiles (h : Noted s w) : w.tiles = s.tiles := by rw [h.rest]
theorem Noted.mesh (h : Noted s w) : w.mesh = s.mesh := by rw [h.rest]
theorem Noted.lostAt (h : Noted s w) (a : Nat) : w.lostAt a = s.lostAt a := by rw [State.lostAt, h.state, State.lostAt]
theorem Noted.storedLine (h : Noted s w) (a : Nat) : storedLine w a = storedLine s a := by
  rw [Machine.storedLine, h.data, h.poison, Machine.storedLine]

theorem noteReports_noted (s : State) (errs : List LineCheck) : Noted s (noteReports s errs) := by
  unfold noteReports
  induction errs generalizing s with
  | nil => exact .refl s
  | cons k errs ih =>
    rw [List.foldl_cons]
    refine Noted.trans ?_ (ih _)
    split
    · exact .refl s
    · extract_lets counted times mem noted
      have odecc : Noted s counted := ⟨rfl, fun n => by
        simp only [counted, State.stripe, State.modStripe, mmod, mget_mput]
        split
        · subst_vars; rfl
        · rfl⟩
      clear_value counted
      have timed : Noted counted noted := ⟨rfl, fun _ => rfl⟩
      clear_value noted
      split
      · exact odecc
      · split
        · exact (odecc.trans timed).trans ⟨rfl, fun _ => rfl⟩
        · exact odecc.trans timed

end

end Sys2Proof.Machine

/-! ## Proofs: the lines of a write entry stored, and the last line of an entry (R263 to R266, R275) -/

namespace Sys2Proof.Machine

/-! ### Bytes of lines -/

theorem toLE_byte {n j : Nat} (v : Nat) (h : j < n) : (toLE n v)[j]? = some (BitVec.ofNat 8 (v / 256 ^ j)) := by
  have get : (toLE n v).getD j 0 = BitVec.ofNat 8 (v / 256 ^ j) := by rw [← leNat_byte, leNat_toLE, byte_mod h]
  have inside : j < (toLE n v).length := by rw [toLE_length]; exact h
  rw [List.getElem?_eq_getElem inside, ← get, List.getD_eq_getElem _ _ inside]

/-- A byte of a line written. -/
theorem cellGet_lineBytes (m : List Host.Cell) (a : Nat) (d : LineData) {j : Nat} (hj : j < 64) :
    cellGet (cellWrite m a (lineBytes d)) (a + j) = d.extractLsb' (8 * j) 8 := by
  have inside : j < (lineBytes d).length := by rw [lineBytes, toLE_length]; exact hj
  have byte : (lineBytes d)[j]? = some (d.extractLsb' (8 * j) 8) := by rw [lineBytes, toLE_byte _ hj, extractLsb'_byte]
  rw [cellGet_cellWrite_inside _ _ _ _ inside]
  exact Option.some.inj ((List.getElem?_eq_getElem inside).symm.trans byte)

/-- A byte of a line read. -/
theorem lineOf_cellRead_byte (m : List Host.Cell) (a : Nat) {j : Nat} (hj : j < 64) :
    (lineOf (cellRead m a 64)).extractLsb' (8 * j) 8 = cellGet m (a + j) := by
  rw [lineOf, cellRead_take, Nat.min_self, extractLsb'_byte, BitVec.toNat_ofNat, ← line_radix, byte_mod hj, leNat_byte,
    cellRead_getD _ _ hj]

/-- The bits of some bytes of a line. -/
theorem getLsbD_spanMask (off n j k : Nat) (hj : j < 64) (hk : k < 8) :
    (BitVec.ofNat 512 ((2 ^ (8 * n) - 1) * 2 ^ (8 * off))).getLsbD (8 * j + k) = decide (off ≤ j ∧ j < off + n) := by
  rw [BitVec.getLsbD_ofNat, Nat.testBit_mul_two_pow, Nat.testBit_two_pow_sub_one]
  have in_ : decide (8 * j + k < 512) = true := by simp; omega
  by_cases h : off ≤ j
  · have : 8 * off ≤ 8 * j + k := by omega
    simp only [in_, this, h, true_and, Bool.true_and, decide_true]
    congr 1
    simp only [eq_iff_iff]
    omega
  · have : ¬ 8 * off ≤ 8 * j + k := by omega
    simp [this, h]

/-- A line with some of its bytes replaced by those of another. -/
theorem replaced_byte (old new : LineData) (off n : Nat) {j : Nat} (hj : j < 64) :
    ((old &&& ~~~(BitVec.ofNat 512 ((2 ^ (8 * n) - 1) * 2 ^ (8 * off)))) |||
      (new &&& BitVec.ofNat 512 ((2 ^ (8 * n) - 1) * 2 ^ (8 * off)))).extractLsb' (8 * j) 8 =
      if off ≤ j ∧ j < off + n then new.extractLsb' (8 * j) 8 else old.extractLsb' (8 * j) 8 := by
  refine byte_ext fun k hk => ?_
  have mask := getLsbD_spanMask off n j k hj hk
  have in_ : 8 * j + k < 512 := by omega
  simp only [BitVec.getLsbD_extractLsb', BitVec.getLsbD_or, BitVec.getLsbD_and, BitVec.getLsbD_not, apply_ite (BitVec.getLsbD · k),
    mask, hk, in_, decide_true, Bool.true_and]
  split
  · rename_i h; simp [h]
  · rename_i h; rw [decide_eq_false h]; simp

/-! ### Lines of a row stored -/

section
variable {s w : State} {a : Nat}

/-- The last place of a list is that of the element appended. -/
theorem last_of_append {α : Type} {ls : List α} {l x : α} {i : Nat} (past : ls.length ≤ i) (at_ : (ls ++ [l])[i]? = some x) :
    i = ls.length ∧ l = x := by
  rw [List.getElem?_append_right past] at at_
  obtain ⟨zero, here⟩ := List.getElem?_eq_some_iff.1 at_
  have none_ : i - ls.length = 0 := by simpa using zero
  exact ⟨by omega, by simpa [none_] using here⟩

/-- The poison of a line set or cleared. -/
theorem contains_setPoison_self (l : List Nat) (k : Nat) (b : Bool) :
    (if b then sadd (sdel l k) k else sdel l k).contains k = b := by
  cases b with
  | true => simp [mem_sadd]
  | false => simp [mem_sdel]

theorem contains_setPoison_ne {l : List Nat} {k j : Nat} {b : Bool} (other : j ≠ k) :
    (if b then sadd (sdel l k) k else sdel l k).contains j = l.contains j := by
  rw [Bool.eq_iff_iff]
  cases b with
  | true => simp [mem_sadd, mem_sdel, other]
  | false => simp [mem_sdel, other]

/-- A line written whole, of a stripe that is not lost. -/
theorem lineWrite_eq (l : Line) (kept : (s.stripe (stripeOf a)).state ≠ 2) : lineWrite s a l = { s with mem := { s.mem with
    data := cellWrite s.mem.data a (lineBytes l.data)
    poison := if l.poison then sadd (sdel s.mem.poison (a / 64)) (a / 64) else sdel s.mem.poison (a / 64) } } := by
  rw [lineWrite, if_neg (by simpa using kept)]
  dsimp only
  split <;> rfl

/-- What lines written from an offset on leave: their bytes and their poison, and everything else as it was. -/
structure LinesStored (s w : State) (a : Nat) (ls : List Line) : Prop where
  rest : w = { s with mem := { s.mem with data := w.mem.data, poison := w.mem.poison } }
  bytes : ∀ i ln j, ls[i]? = some ln → j < 64 → cellGet w.mem.data (a + 64 * i + j) = ln.data.extractLsb' (8 * j) 8
  poison : ∀ i ln, ls[i]? = some ln → w.mem.poison.contains (a / 64 + i) = ln.poison
  others : ∀ j, j < a ∨ a + 64 * ls.length ≤ j → cellGet w.mem.data j = cellGet s.mem.data j

theorem storedLines (s : State) (ls : List Line) (aligned : a % 64 = 0)
    (kept : ∀ i < ls.length, (s.stripe (stripeOf (a + 64 * i))).state ≠ 2) :
    LinesStored s (((List.range ls.length).zip ls).foldl (fun s e => lineWrite s (a + 64 * e.1) e.2) s) a ls := by
  induction ls using List.reverseRecOn with
  | nil => exact ⟨rfl, fun _ _ _ h => absurd h (by simp), fun _ _ h => absurd h (by simp), fun _ _ => rfl⟩
  | append_singleton ls l ih =>
    rw [List.length_append, List.length_singleton] at kept ⊢
    obtain ⟨rest, bytes, poison, others⟩ := ih fun i hi => kept i (by omega)
    rw [List.range_succ, List.zip_append (by simp), List.foldl_append]
    simp only [List.zip_cons_cons, List.zip_nil_left, List.foldl_cons, List.foldl_nil]
    generalize ((List.range ls.length).zip ls).foldl (fun s e => lineWrite s (a + 64 * e.1) e.2) s = w at rest bytes poison others
    have unlost : (w.stripe (stripeOf (a + 64 * ls.length))).state ≠ 2 := by
      rw [rest]; exact kept ls.length (Nat.lt_succ_self _)
    have len : (lineBytes l.data).length = 64 := toLE_length ..
    have number : (a + 64 * ls.length) / 64 = a / 64 + ls.length := by omega
    rw [lineWrite_eq l unlost, number]
    refine ⟨by rw [rest], fun i ln j at_ hj => ?_, fun i ln at_ => ?_, fun j hj => ?_⟩
    · rcases Nat.lt_or_ge i ls.length with before | here
      · rw [List.getElem?_append_left before] at at_
        rw [cellGet_cellWrite_outside _ _ _ _ (by omega)]
        exact bytes i ln j at_ hj
      · obtain ⟨rfl, rfl⟩ := last_of_append here at_
        exact cellGet_lineBytes _ _ _ hj
    · rcases Nat.lt_or_ge i ls.length with before | here
      · rw [List.getElem?_append_left before] at at_
        rw [← poison i ln at_]
        exact contains_setPoison_ne (by omega)
      · obtain ⟨rfl, rfl⟩ := last_of_append here at_
        exact contains_setPoison_self ..
    · rw [List.length_append, List.length_singleton] at hj
      rw [cellGet_cellWrite_outside _ _ _ _ (by omega)]
      exact others j (by omega)

end

/-! ### The last line of an entry -/

section
variable {s : State} {n a : Nat} {errs : List LineCheck} {t : Txn}

/-- The last line of a read entry, whose read passes, ends the entry in its reply (R264, R275). -/
theorem exec_granaryLineRead_last {v : Line} (found : mfind s.mem.txns n = some t) (place : a = t.addr.toNat + 64 * t.done)
    (aligned : a % 64 = 0) (awake : s.mem.selfRefresh = false) (reads : t.kind.writes = false) (memory : onMemory t = true)
    (good : t.bad = false) (packet : t.packet = none) (last : t.done + 1 = t.len / 64)
    (free : rowWaits s t (stripeOf a) (lineRow a) = false) (kept : s.lostAt a = false)
    (serving : retiredAt s (lineChannel a) = false)
    (passes : readBack (storedLine s a) (lineCheck errs (lineChannel a) (lineRow a)).err1 (lineChannel a) (lineRow a) = some v) :
    exec (.granaryLineRead n errs) s = .next (answerEntry (noteReports s errs) n t 3 (t.lines ++ [v])) := by
  change execGranaryLineRead n errs s = _
  have noted := noteReports_noted s errs
  have read : lineRead (noteReports s errs) errs a 0 = (noteReports s errs, v) :=
    lineRead_passes aligned (by rw [noted.lostAt]; exact kept) (by rw [retiredAt, noted.retired]; exact serving)
      (by rw [noted.storedLine]; exact passes)
  have go : (s.mem.selfRefresh || t.kind.writes || !onMemory t || t.bad || decide (t.len / 64 ≤ t.done) ||
      rowWaits s t (stripeOf a) (lineRow a)) = false := by
    have left_ : ¬ t.len / 64 ≤ t.done := by omega
    simp [awake, reads, memory, good, free, left_]
  simp only [execGranaryLineRead, found, ← place, go, Bool.false_eq_true, if_false, read, last, if_true, finishRead, packet]

/-- The lines that a write entry stores: those of its flits, or the old line with a part of it replaced. -/
def writtenLines (s : State) (t : Txn) : List Line :=
  match t.part with
  | none => t.lines
  | some (off, k) => [⟨((storedLine s t.addr.toNat).data &&& ~~~(BitVec.ofNat 512 ((2 ^ (8 * k) - 1) * 2 ^ (8 * off)))) |||
      ((t.lines.headD ⟨0, false⟩).data &&& BitVec.ofNat 512 ((2 ^ (8 * k) - 1) * 2 ^ (8 * off))),
      (storedLine s t.addr.toNat).poison && off != 0⟩]

theorem writtenLines_length (part : ∀ p, t.part = some p → t.len = 64) (whole : 64 * t.lines.length = t.len) :
    (writtenLines s t).length = t.len / 64 := by
  unfold writtenLines
  split
  · omega
  · rename_i off k some_
    rw [part _ some_, List.length_singleton]

/-- An entry for part of a line stores that line with its own part replaced (R172, R210). -/
theorem writtenLines_part {off k i : Nat} {ln : Line} (at_ : t.part = some (off, k)) (len : t.len = 64) (whole : 64 * t.lines.length = t.len)
    (more : t.done < t.len / 64) (line : t.lines[t.done + i]? = some ln) : t.done = 0 ∧ i = 0 ∧ writtenLines s t =
      [⟨((storedLine s t.addr.toNat).data &&& ~~~(BitVec.ofNat 512 ((2 ^ (8 * k) - 1) * 2 ^ (8 * off)))) |||
        (ln.data &&& BitVec.ofNat 512 ((2 ^ (8 * k) - 1) * 2 ^ (8 * off))), (storedLine s t.addr.toNat).poison && off != 0⟩] := by
  obtain ⟨inside, here⟩ := List.getElem?_eq_some_iff.1 line
  obtain ⟨zero, first⟩ : t.done = 0 ∧ i = 0 := by omega
  refine ⟨zero, first, ?_⟩
  have head : t.lines.headD ⟨0, false⟩ = ln := by
    rw [List.headD_eq_head?_getD, List.head?_eq_getElem?]
    simpa [zero, first] using congrArg (·.getD ⟨0, false⟩) line
  simp only [writtenLines, at_, head]

/-- What an entry writes is told by the memory as it stands, where its row is sound (R265). -/
theorem entryLines_clean {w : State} (noted : Noted s w) (place : a = t.addr.toNat + 64 * t.done) (aligned : a % 64 = 0)
    (more : t.done < t.len / 64) (kept : s.lostAt a = false) (part : ∀ p, t.part = some p → t.len = 64) (serving : s.mem.retired = [])
    (clean : CleanRow errs (stripeOf a) (lineRow a)) : entryLines w errs t = (w, writtenLines s t) := by
  cases at_ : t.part with
  | none => simp only [entryLines, writtenLines, at_]
  | some p =>
    obtain rfl : a = t.addr.toNat := by have := part p at_; omega
    have old := lineRead_clean (source := 0) aligned (by rw [noted.lostAt]; exact kept) (by rw [noted.retired]; exact serving) clean
    simp only [entryLines, writtenLines, at_, old, noted.storedLine]

theorem storeRow_clean {ls : List Line} (kept : s.lostAt a = false) (serving : s.mem.retired = [])
    (clean : CleanRow errs (stripeOf a) (lineRow a)) : storeRow s errs a ls =
      ((List.range ls.length).zip ls).foldl (fun s e => lineWrite s (a + 64 * e.1) e.2) s := by
  rw [storeRow, readForWrite_clean (stripeOf_lt a) (writeReads_lt serving _) (by simpa [State.lostAt] using kept) serving clean]

/-- The last row of a write entry, its reads sound, is stored and the write acknowledged (R263, R265, R275). -/
theorem exec_granaryRowWrite_last (found : mfind s.mem.txns n = some t) (place : a = t.addr.toNat + 64 * t.done)
    (aligned : a % 64 = 0) (awake : s.mem.selfRefresh = false) (writes : t.kind.writes = true) (memory : onMemory t = true)
    (packet : t.packet = none) (more : t.done < t.len / 64) (free : rowWaits s t (stripeOf a) (lineRow a) = false)
    (kept : s.lostAt a = false) (uncopied : (s.mem.copies.any fun c => c.txn == some n) = false)
    (whole : 64 * t.lines.length = t.len) (last : t.len / 64 - t.done = rowRun a (t.len / 64 - t.done))
    (part : ∀ p, t.part = some p → t.len = 64) (serving : s.mem.retired = []) (clean : CleanRow errs (stripeOf a) (lineRow a)) :
    exec (.granaryRowWrite n errs) s = .next (answerEntry (((List.range ((writtenLines s t).drop t.done).length).zip
      ((writtenLines s t).drop t.done)).foldl (fun s e => lineWrite s (a + 64 * e.1) e.2) (noteReports s errs)) n t 5 []) := by
  change execGranaryRowWrite n errs s = _
  have noted := noteReports_noted s errs
  have lines := entryLines_clean noted place aligned more kept part serving clean
  have stored := storeRow_clean (ls := (writtenLines s t).drop t.done) (s := noteReports s errs) (by rw [noted.lostAt]; exact kept)
    (by rw [noted.retired]; exact serving) clean
  have all : ((writtenLines s t).drop t.done).take (t.len / 64 - t.done) = (writtenLines s t).drop t.done :=
    List.take_of_length_le (by rw [List.length_drop, writtenLines_length part whole])
  have go : (s.mem.selfRefresh || !t.kind.writes || !onMemory t || decide (t.len / 64 - t.done = 0) ||
      (64 * t.lines.length != t.len) || rowWaits s t (stripeOf a) (lineRow a) || s.mem.copies.any fun c => c.txn == some n) = false := by
    have left_ : t.len / 64 - t.done ≠ 0 := by omega
    simp only [awake, writes, memory, free, uncopied, whole, left_, Bool.not_true, decide_false, bne_self_eq_false, Bool.or_false]
  simp only [execGranaryRowWrite, found, ← place, go, Bool.false_eq_true, if_false, kept, lines, ← last, all, stored, if_true, finishWrite,
    packet]

end

theorem granaryLines : Claims.GranaryLines := by
  rintro s n a errs t g0 found rfl aligned awake memory good packet more free kept page rfl
  have noted := noteReports_noted s errs
  refine ⟨fun v reads last serving passes room => ?_, fun writes uncopied whole last part serving clean room => ?_⟩
  · have answer := exec_granaryLineRead_last found rfl aligned awake reads memory good packet last free kept serving passes
    have replied : Answered (noteReports s errs) (answerEntry (noteReports s errs) n t 3 (t.lines ++ [v])) n t 3 (t.lines ++ [v]) :=
      answerEntry_answered (.inl rfl) rfl rfl rfl ((granaryRoom_reply noted.mesh rfl rfl rfl rfl).trans room)
    have first := replied.first
    rw [noted.mesh] at first
    refine ⟨_, _, answer, replied.tiles.trans noted.tiles, replied.data.trans noted.data, first, rfl, rfl, rfl, rfl, rfl, fun few => ?_,
      replied.entry⟩
    exact replied.short (by rw [List.length_append, List.length_singleton]; omega)
  · have answer := exec_granaryRowWrite_last found rfl aligned awake writes memory packet more free kept uncopied whole last part serving
      clean
    have count := writtenLines_length (s := s) part whole
    have stored := storedLines (noteReports s errs) ((writtenLines s t).drop t.done) aligned fun i hi => by
      rw [List.length_drop, count] at hi
      have same : stripeOf (t.addr.toNat + 64 * t.done + 64 * i) = stripeOf (t.addr.toNat + 64 * t.done) := by
        rw [stripeOf_eq, stripeOf_eq]; omega
      rw [same, noted.state]
      simpa [State.lostAt] using kept
    generalize ((List.range ((writtenLines s t).drop t.done).length).zip ((writtenLines s t).drop t.done)).foldl
      (fun s e => lineWrite s (t.addr.toNat + 64 * t.done + 64 * e.1) e.2) (noteReports s errs) = w at answer stored
    have mesh : w.mesh = s.mesh := by rw [stored.rest]; exact noted.mesh
    have replied : Answered w (answerEntry w n t 5 []) n t 5 [] :=
      answerEntry_answered (.inr rfl) rfl rfl rfl ((granaryRoom_reply mesh rfl rfl rfl rfl).trans room)
    have first := replied.first
    rw [mesh] at first
    refine ⟨_, _, answer, ?_, replied.short (Nat.zero_le _), fun i j ln at_ hj => ?_, fun i ln at_ => ?_, fun j hj => ?_, first, rfl, rfl,
      rfl, rfl⟩
    · rw [replied.tiles, stored.rest]; exact noted.tiles
    · rw [replied.data]
      cases at' : t.part with
      | none =>
        have here : ((writtenLines s t).drop t.done)[i]? = some ln := by
          rw [List.getElem?_drop]; simpa only [writtenLines, at'] using at_
        exact stored.bytes i ln j here hj
      | some p =>
        obtain ⟨zero, rfl, lines⟩ := writtenLines_part (s := s) at' (part _ at') whole more at_
        have byte := stored.bytes 0 _ j (by rw [lines, zero]; rfl) hj
        rw [byte, replaced_byte _ _ _ _ hj, storedLine, lineOf_cellRead_byte _ _ hj, zero, Nat.mul_zero, Nat.add_zero]
    · rw [replied.poison]
      cases at' : t.part with
      | none =>
        have here : ((writtenLines s t).drop t.done)[i]? = some ln := by
          rw [List.getElem?_drop]; simpa only [writtenLines, at'] using at_
        exact stored.poison i ln here
      | some p =>
        obtain ⟨zero, rfl, lines⟩ := writtenLines_part (s := s) at' (part _ at') whole more at_
        have poison := stored.poison 0 _ (by rw [lines, zero]; rfl)
        rw [poison, storedLine, zero, Nat.mul_zero, Nat.add_zero]
    · rw [replied.data, stored.others j (by rw [List.length_drop, count]; exact hj), noted.data]

/-- Settles O28: a request takes or joins an entry; the last line of an entry is read or stored and answered. -/
theorem granary : Obligations.Granary := ⟨granaryRequests, granaryLines⟩

end Sys2Proof.Machine

/-! ## Proofs: section ends and loads, pauses and late fallow points (R45, R199 to R206, R216 to R223) -/

namespace Sys2Proof.Machine

section
variable {s : State} {c : Nat} {x : Ctx} {reds : List (Nat × List DWord)} {errs : List LineCheck}

/-- Every condition of a section end but its residue (R202). -/
def sectionEnds (s : State) (c : Nat) (x : Ctx) : Bool :=
  x.rec_.state == 1 && x.run.phase == .running && x.run.released && (x.cdef.keys.any fun k => (s.tile k).core.run == .secEnd)
    && sectionDrained s c x.cdef

theorem exec_sectionEnd_waits (hx : s.ctx c = some x) (no : sectionEnds s c x = false) : exec (.sectionEnd c reds errs) s = .next s := by
  change execSectionEnd c reds errs s = _
  simp only [sectionEnds] at no
  simp only [execSectionEnd, hx, no, Bool.false_eq_true, if_false]

theorem exec_sectionEnd_residue {p : Coord} {n : Nat} (hx : s.ctx c = some x) (ends : sectionEnds s c x = true)
    (left_ : (x.cdef.tiles.findSome? fun p => (residue (s.tile (ckey p))).map fun n => (p, n)) = some (p, n)) :
    exec (.sectionEnd c reds errs) s = .next (takeExc s p 0x0C (s.tile (ckey p)).core.pc.toNat false n) := by
  change execSectionEnd c reds errs s = _
  simp only [sectionEnds] at ends
  simp only [execSectionEnd, hx, ends, if_true, left_]

theorem exec_sectionEnd_leaves (hx : s.ctx c = some x) (ends : sectionEnds s c x = true)
    (clean : ∀ p ∈ x.cdef.tiles, residue (s.tile (ckey p)) = none) :
    exec (.sectionEnd c reds errs) s = .next (leaveSection (noteReports s errs) errs c x reds) := by
  change execSectionEnd c reds errs s = _
  have none_ : (x.cdef.tiles.findSome? fun p => (residue (s.tile (ckey p))).map fun n => (p, n)) = none := by
    rw [List.findSome?_eq_none_iff]
    intro p hp
    rw [clean p hp, Option.map_none]
  simp only [sectionEnds] at ends
  simp only [execSectionEnd, hx, ends, if_true, none_]

/-- A state in which the tiles of a rectangle await their load. -/
def tilesUnloaded (d : CtxDef) (sec : Nat) (l : List Coord) (s : State) : State :=
  l.foldl (fun s p => s.modTile (ckey p) fun t =>
    { gateTile s d sec p t with loaded := false, owed := t.owed.filter fun e => e.1 % 4 == 2 }) s

theorem tilesUnloaded_rest (d : CtxDef) (sec : Nat) (l : List Coord) (s : State) :
    tilesUnloaded d sec l s = { s with tiles := (tilesUnloaded d sec l s).tiles } := by
  induction l generalizing s with
  | nil => rfl
  | cons p l ih =>
    rw [tilesUnloaded, List.foldl_cons]
    exact ih _

theorem tilesUnloaded_other (d : CtxDef) (sec : Nat) {l : List Coord} (s : State) {j : Nat} (outside : ∀ p ∈ l, ckey p ≠ j) :
    (tilesUnloaded d sec l s).tile j = s.tile j := by
  induction l generalizing s with
  | nil => rfl
  | cons p l ih =>
    rw [tilesUnloaded, List.foldl_cons]
    refine (ih _ fun q hq => outside q (List.mem_cons_of_mem _ hq)).trans ?_
    exact State.modTile_tile_ne _ _ (Ne.symm (outside p (List.mem_cons_self ..)))

theorem tilesUnloaded_loaded (d : CtxDef) (sec : Nat) {l : List Coord} (s : State) {j : Nat}
    (unloaded : (∃ p ∈ l, ckey p = j) ∨ (s.tile j).loaded = false) : ((tilesUnloaded d sec l s).tile j).loaded = false := by
  induction l generalizing s with
  | nil => simpa [tilesUnloaded] using unloaded
  | cons q l ih =>
    rw [tilesUnloaded, List.foldl_cons]
    refine ih _ ?_
    by_cases here : j = ckey q
    · subst here
      exact .inr (by rw [State.modTile_tile_self])
    · rw [State.modTile_tile_ne _ _ here]
      rcases unloaded with ⟨p, hp, same⟩ | off
      · rcases List.mem_cons.1 hp with rfl | later
        · exact absurd same.symm here
        · exact .inl ⟨p, later, same⟩
      · exact .inr off

/-- Load circuits set up or torn down change the mesh and the context's note of them. -/
structure Circuited (s u : State) (c : Nat) : Prop where
  tiles : u.tiles = s.tiles
  mem : u.mem = s.mem
  ctx : ∀ x, s.ctx c = some x → ∃ n, u.ctx c = some { x with run := { x.run with loadCircuit := n } }

theorem Circuited.refl (s : State) (c : Nat) : Circuited s s c := ⟨rfl, rfl, fun x h => ⟨x.run.loadCircuit, h⟩⟩

theorem Circuited.of_modRun {m : Mesh} {n : Option Nat} :
    Circuited s (({ s with mesh := m } : State).modRun c fun r => { r with loadCircuit := n }) c where
  tiles := State.modRun_tiles ..
  mem := State.modRun_mem ..
  ctx x h := ⟨n, by
    rw [State.modRun, State.modCtx_ctx, if_pos rfl, show ({ s with mesh := m } : State).ctx c = some x from h]
    rfl⟩

theorem setLoadCircuits_circuited (s : State) (c : Nat) (d : CtxDef) : Circuited s (setLoadCircuits s c d) c := by
  unfold setLoadCircuits
  split
  · exact .refl s c
  · exact .of_modRun

theorem dropLoadCircuits_circuited (s : State) (c : Nat) (d : CtxDef) : Circuited s (dropLoadCircuits s c d) c := by
  unfold dropLoadCircuits
  split
  · exact .refl s c
  · exact .of_modRun

/-- A context whose next section loads over some circuits. -/
def nextLoading (x : Ctx) (n : Option Nat) : Ctx :=
  { x with run := { x.run with
    phase := .loading, section_ := nextSection x, arrived := [], releasing := false, heard := [], released := false
    loadCircuit := n } }

/-- A section that starts no collective is left: its tiles await their load, and its context counts on to the next (R203). -/
theorem leaveSection_spec (hx : s.ctx c = some x) (none_ : ∀ k ∈ x.cdef.colls, k.startSec ≠ x.run.section_) :
    ∃ y, (leaveSection s errs c x reds).ctx c = some y ∧ y.run = { x.run with
        phase := .loading, section_ := (x.run.section_ + 1) % max 1 x.cdef.sections, arrived := [], releasing := false
        heard := [], released := false, loadCircuit := y.run.loadCircuit } ∧ y.tally = x.tally ∧
      (leaveSection s errs c x reds).mem = s.mem ∧
      ∀ j, (leaveSection s errs c x reds).tile j = (tilesUnloaded x.cdef (nextSection x) x.cdef.tiles s).tile j := by
  have starts : ((List.range x.cdef.colls.length).filter fun n => (x.cdef.colls[n]?.map (·.startSec)) == some x.run.section_) = [] := by
    rw [List.filter_eq_nil_iff]
    intro n hn start
    rw [List.getElem?_eq_getElem (List.mem_range.1 hn)] at start
    exact none_ _ (List.getElem_mem _) (by simpa using start)
  have cleared := tilesUnloaded_rest x.cdef (nextSection x) x.cdef.tiles s
  unfold leaveSection
  extract_lets d sec unloaded circuited entered
  have same : unloaded = tilesUnloaded x.cdef (nextSection x) x.cdef.tiles s := rfl
  rw [starts, List.foldl_nil]
  have circuits : Circuited (dropCredits (putReds unloaded d reds) c) circuited c := setLoadCircuits_circuited ..
  have known : (dropCredits (putReds unloaded d reds) c).ctx c = some x := by
    change unloaded.ctx c = some x
    rw [same, cleared]; exact hx
  obtain ⟨n, hn⟩ := circuits.ctx x known
  have mem : circuited.mem = s.mem := circuits.mem.trans (by
    change unloaded.mem = s.mem
    rw [same, cleared])
  have tiles : circuited.tiles = unloaded.tiles := circuits.tiles
  clear_value circuited
  refine ⟨nextLoading x n, ?_, rfl, rfl, ?_, fun j => ?_⟩
  · simp only [entered, State.modRun, State.modCtx_ctx, if_true, hn, Option.map_some]
    rfl
  · simp only [entered, State.modRun_mem, mem]
  · rw [State.tile_congr (s := circuited) (State.modRun_tiles ..), State.tile_congr tiles, same]

end

section
variable {s : State} {p : Coord} {c : Nat} {x : Ctx}

/-- The tensors that the load of a tile adds to its table of delayed scaling. -/
def loadTensors (s : State) (p : Coord) (x : Ctx) : List Word :=
  newDelays x.cdef (imageOf s x.cdef) (recOff (imageOf s x.cdef) x.cdef.w x.run.section_ (p.x - x.cdef.x0) (p.y - x.cdef.y0))
    (s.tile (ckey p)).delays

/-- Every condition of a tile's load but its scale records (R201, R203, R206). -/
def mayLoad (s : State) (p : Coord) (c : Nat) (x : Ctx) : Bool :=
  x.rec_.state == 1 && x.run.phase == .loading && !(s.tile (ckey p)).loaded && decide ((s.tile (ckey p)).moveStage = 0)
    && !moveReady s (ckey p) && (sectionBad (heldReds s x.cdef) (imageOf s x.cdef) x.cdef.w x.cdef.h x.run.section_).isNone
    && sectionFree s c x x.run.section_

/-- A poisoned scale record is consumed by the load that reads it (R152). -/
theorem exec_sectionEntry_poison (hc : InCtx s p c x) (may : mayLoad s p c x = true) (poison : delayPoison s x (loadTensors s p x) = true) :
    exec (.sectionEntry p) s = .next (stopCtx s c 5 none []) := by
  change execSectionEntry p s = _
  simp only [mayLoad] at may
  simp only [loadTensors] at poison
  simp only [execSectionEntry, show ctxAt s p = some (c, x) from hc, may, if_true, poison]

/-- The state with a tile's record loaded, and its context running once every tile is loaded (R201). -/
def recordLoaded (s : State) (p : Coord) (c : Nat) (x : Ctx) : State :=
  let v := dropLoadCircuits s c x.cdef
  let w := markFallow (v.setTile (ckey p) (loadRecord (delayHist v x) (heldReds v x.cdef) (imageOf s x.cdef) x.cdef x.run.section_
    (p.x - x.cdef.x0) (p.y - x.cdef.y0) (entryRun x) (s.tile (ckey p)))) p
  if allLoaded w x.cdef then w.modRun c fun u => { u with phase := .running } else w

theorem exec_sectionEntry_sound (hc : InCtx s p c x) (may : mayLoad s p c x = true) (sound : delayPoison s x (loadTensors s p x) = false) :
    exec (.sectionEntry p) s = .next (recordLoaded s p c x) := by
  change execSectionEntry p s = _
  simp only [mayLoad] at may
  simp only [loadTensors] at sound
  simp only [execSectionEntry, show ctxAt s p = some (c, x) from hc, may, if_true, sound, Bool.false_eq_true, if_false]
  rfl

/-- What a load changes but its own tile. -/
theorem recordLoaded_rest (s : State) (p : Coord) (c : Nat) (x : Ctx) : (recordLoaded s p c x).mem = s.mem ∧
    (∀ j, j ≠ ckey p → (recordLoaded s p c x).tile j = s.tile j) ∧
    ∃ hist reds n, (recordLoaded s p c x).tile (ckey p) = { loadRecord hist reds (imageOf s x.cdef) x.cdef x.run.section_
      (p.x - x.cdef.x0) (p.y - x.cdef.y0) (entryRun x) (s.tile (ckey p)) with lastFallow := n, gapLate := false } := by
  have circuits := dropLoadCircuits_circuited s c x.cdef
  unfold recordLoaded
  extract_lets v w
  have mem : w.mem = s.mem := circuits.mem
  have others : ∀ j, j ≠ ckey p → w.tile j = s.tile j := fun j hj => by
    simp only [w, markFallow]
    rw [State.modTile_tile_ne _ _ hj, State.setTile_tile, if_neg hj, State.tile_congr circuits.tiles]
  have here : ∃ hist reds n, w.tile (ckey p) = { loadRecord hist reds (imageOf s x.cdef) x.cdef x.run.section_
      (p.x - x.cdef.x0) (p.y - x.cdef.y0) (entryRun x) (s.tile (ckey p)) with lastFallow := n, gapLate := false } := by
    refine ⟨delayHist v x, heldReds v x.cdef, now v, ?_⟩
    simp only [w, markFallow]
    rw [State.modTile_tile_self, State.setTile_tile, if_pos rfl]
    rfl
  clear_value w
  split
  · have same : ∀ j, (w.modRun c fun u => { u with phase := .running }).tile j = w.tile j := State.tile_congr (State.modRun_tiles ..)
    refine ⟨(State.modRun_mem ..).trans mem, fun j hj => (same j).trans (others j hj), ?_⟩
    rw [same]; exact here
  · exact ⟨mem, others, here⟩

end

theorem sectionChange : Claims.SectionChange := by
  rintro s p c x reds
  refine ⟨fun hx running phase released some_ drained => ?_, fun hc running phase unloaded still unready good free poison hp => ?_⟩
  · have ends : sectionEnds s c x = true := by
      simp only [sectionEnds, running, phase, released, some_, drained, beq_self_eq_true, Bool.and_self]
    refine ⟨fun clean none_ => ?_, fun errs q n left_ => exec_sectionEnd_residue hx ends left_⟩
    obtain ⟨y, hy, run, tally, mem, tiles⟩ := leaveSection_spec (s := noteReports s []) (errs := []) (reds := reds) hx none_
    refine ⟨_, y, exec_sectionEnd_leaves hx ends clean, hy, run, tally, mem, fun q hq => ?_, fun j outside => ?_⟩
    · rw [tiles]
      exact tilesUnloaded_loaded _ _ _ (.inl ⟨q, hq, rfl⟩)
    · rw [tiles]
      exact tilesUnloaded_other _ _ _ outside
  · have may : mayLoad s p c x = true := by
      simp only [mayLoad, running, phase, unloaded, still, unready, good, free, beq_self_eq_true, Bool.not_false, decide_true,
        Option.isNone_none, Bool.and_self]
    refine ⟨fun bad => exec_sectionEntry_poison hc may (hp.symm.trans bad), fun sound => ?_⟩
    obtain ⟨mem, others, hist, held, n, tile⟩ := recordLoaded_rest s p c x
    refine ⟨_, exec_sectionEntry_sound hc may (hp.symm.trans sound), mem, ?_⟩
    rw [coreAt, tile]
    exact ⟨rfl, rfl, rfl, rfl, rfl, rfl, rfl, rfl, rfl, rfl, rfl, rfl, rfl, rfl, rfl, rfl, others⟩

theorem sectionWaits : Claims.SectionWaits := by
  intro s c x reds errs hx no
  refine exec_sectionEnd_waits hx ?_
  rcases no with unreleased | busy | other
  · simp [sectionEnds, unreleased]
  · simp [sectionEnds, busy]
  · simp [sectionEnds, other]

/-! ### Pauses and late fallow points -/

section
variable {s : State} {p : Coord} {c : Nat} {x : Ctx}

theorem State.modRun_eq (hx : s.ctx c = some x) (f : CtxRun → CtxRun) : s.modRun c f = s.setCtx c { x with run := f x.run } := by
  simp only [State.modRun, State.modCtx, hx]

/-- A tile's gap counted late, for its quarter and its context (R223). -/
theorem exec_fallowGapLate (hc : InCtx s p c x) (late : cfgField s 0x2310 4 0 16 < now s - (s.tile (ckey p)).lastFallow)
    (first : (s.tile (ckey p)).gapLate = false) (moving : atFallow (s.tile (ckey p)).core.run = false) :
    exec (.fallowGapLate p) s = .next (addFault ((((s.modTile (ckey p) fun t => { t with gapLate := true }).count (quarterOf s p)
      fun q => { q with fallowLate := satAdd q.fallowLate 1 65535 }).modTally c fun y => { y with fallowLate := y.fallowLate + 1 }))
      c 0x41 (BitVec.ofNat 64 (now s - (s.tile (ckey p)).lastFallow))) := by
  change execFallowGapLate p s = _
  simp only [execFallowGapLate, show ctxAt s p = some (c, x) from hc, late, first, moving, decide_true, Bool.not_false, Bool.and_self,
    if_true]
  rfl

theorem exec_fallowGapLate_not (no : now s - (s.tile (ckey p)).lastFallow ≤ cfgField s 0x2310 4 0 16 ∨ (s.tile (ckey p)).gapLate = true ∨
    atFallow (s.tile (ckey p)).core.run = true) : exec (.fallowGapLate p) s = .next s := by
  change execFallowGapLate p s = _
  have go : (decide (cfgField s 0x2310 4 0 16 < now s - (s.tile (ckey p)).lastFallow) && !(s.tile (ckey p)).gapLate &&
      !atFallow (s.tile (ckey p)).core.run) = false := by
    rcases no with early | counted | fallow
    · simp [Nat.not_lt.2 early]
    · simp [counted]
    · simp [fallow]
  unfold execFallowGapLate
  split
  · rfl
  · simp only [go, Bool.false_eq_true, if_false]

/-- A fault entry leaves the context's count of late fallow points. -/
theorem addFault_ctx (hx : s.ctx c = some x) (kind : Nat) (d : DWord) :
    ∃ y, (addFault s c kind d).ctx c = some y ∧ y.tally.fallowLate = x.tally.fallowLate := by
  rw [addFault, State.modCtx_ctx, if_pos rfl, hx]
  refine ⟨_, rfl, ?_⟩
  dsimp only
  split <;> rfl

end

theorem pauseAndFallowGap : Claims.PauseAndFallowGap := by
  rintro s p c x t hx rfl
  refine ⟨fun running draining rest quiet => ?_, fun draining fresh own late => ?_, fun no => ?_, fun hc late first moving => ?_,
    exec_fallowGapLate_not⟩
  · change execContextPauseReached c s = _
    simp only [execContextPauseReached, hx, running, draining, rest, quiet, beq_self_eq_true, Bool.and_self, if_true, State.modRun_eq hx]
  · change execPauseDeadlineExpiry c s = _
    simp only [execPauseDeadlineExpiry, hx, draining, fresh, own, late, beq_self_eq_true, Bool.not_false, decide_true, Bool.and_self,
      if_true, State.modRun_eq hx]
  · change execPauseDeadlineExpiry c s = _
    have go : (x.run.pauseState == 1 && !x.run.pauseLate && !x.cdef.cluster &&
        decide (x.run.pauseAt + 2 * maxFallowGap s x ≤ x.rec_.slow)) = false := by
      rcases no with other | told | early
      · rw [beq_eq_false_iff_ne.2 other]; rfl
      · simp [told]
      · simp [Nat.not_le.2 early]
    simp only [execPauseDeadlineExpiry, hx, go, Bool.false_eq_true, if_false]
  · have counted : (((s.modTile (ckey p) fun t => { t with gapLate := true }).count (quarterOf s p) fun q =>
        { q with fallowLate := satAdd q.fallowLate 1 65535 }).modTally c fun y => { y with fallowLate := y.fallowLate + 1 }).ctx c =
        some { x with tally := { x.tally with fallowLate := x.tally.fallowLate + 1 } } := by
      rw [State.modTally, State.modCtx_ctx, if_pos rfl]
      exact congrArg (Option.map _) hx
    obtain ⟨y, hy, same⟩ := addFault_ctx counted 0x41 (BitVec.ofNat 64 (now s - (s.tile (ckey p)).lastFallow))
    refine ⟨_, y, exec_fallowGapLate hc late first moving, hy, same, ?_, ?_, fun j hj => ?_, ?_⟩
    · rw [State.tile_congr (addFault_tiles ..), State.tile_congr (State.modTally_tiles ..)]
      change (s.modTile (ckey p) fun t => { t with gapLate := true }).tile (ckey p) = _
      rw [State.modTile_tile_self]
    · rw [addFault_mem, State.modTally_mem]; rfl
    · rw [State.tile_congr (addFault_tiles ..), State.tile_congr (State.modTally_tiles ..)]
      exact State.modTile_tile_ne s (fun t => { t with gapLate := true }) hj
    · rw [addFault_counts, State.modTally_counts]
      simp [State.count, mmod]

/-- Settles O24: a section end or load by its conditions, and what each leaves of the tile and its context. -/
theorem sections : Obligations.Sections := ⟨sectionChange, sectionWaits, pauseAndFallowGap⟩

end Sys2Proof.Machine

/-! ## Proofs: matrix instructions issued (R95 to R98, R100, R122) -/

namespace Sys2Proof.Machine

/-- The tile once its matrix instruction has joined the queue and the core has moved past it (R98). -/
def Tile.matQueued (t : Tile) (o : MOp) : Tile :=
  { t with
    core := t.core.past
    mx := { t.mx with
      nextNum := t.mx.nextNum + 1
      queue := t.mx.queue ++ [{ num := t.mx.nextNum, pc := t.core.pc, op := o, cfg := 0, base := 0
                                tensor := t.core.tensorId, pos := 0, swapped := false }] } }

section
variable {s : State} {h : Hdr} {invalid : Bool} {check : Tile → Option Act} {op : Tile → MOp}

/-- A matrix instruction that passes its checks and finds its port free and the queue below 8 entries joins the queue. -/
theorem matIssue_joins (hi : Issues s h) (fits : (coreAt s h.t).fits) (room : (s.tile (ckey h.t)).mx.queue.length < 8)
    (valid : invalid = false) (passes : check (s.tile (ckey h.t)) = none)
    (free : ∀ ch ∈ (op (s.tile (ckey h.t))).port, portHeld (s.tile (ckey h.t)) ch = false) :
    matIssue h invalid check op s = .next (s.setTile (ckey h.t) ((s.tile (ckey h.t)).matQueued (op (s.tile (ckey h.t))))) := by
  have unheld : (op (s.tile (ckey h.t))).port.filter (portHeld (s.tile (ckey h.t))) = none :=
    Option.filter_eq_none_iff.2 fun ch hch => by rw [free ch hch]; exact Bool.false_ne_true
  subst valid
  refine (issue_fin true hi ?_).trans (congrArg Host.Outcome.next (advance_setTile (t := { s.tile (ckey h.t) with mx :=
    ((s.tile (ckey h.t)).matQueued (op (s.tile (ckey h.t)))).mx }) fits))
  simp only [passes, unheld, Nat.not_le.2 room, if_false]
  rfl

/-- A matrix instruction that fails a check raises what the check names. -/
theorem matIssue_refused {code detail : Nat} (hi : Issues s h) (fails : check (s.tile (ckey h.t)) = some (.exc code detail)) :
    matIssue h false check op s = .next (takeExc s h.t code (coreAt s h.t).pc.toNat true detail) :=
  issue_exc true hi (by simp only [fails])

/-- A matrix instruction that names no port waits while the queue holds 8 entries (R98). -/
theorem matIssue_waits (hi : Issues s h) (passes : check (s.tile (ckey h.t)) = none)
    (portless : (op (s.tile (ckey h.t))).port = none) (full : 8 ≤ (s.tile (ckey h.t)).mx.queue.length) :
    matIssue h false check op s = .next (s.modCore h.t fun k => { k with wait := some .matrixQueue }) :=
  issue_stall true hi (by simp only [passes, portless, Option.filter_none, full, if_true])

/-- An `mcfg` of an allowed word joins the queue with it (R96). -/
theorem mcfg_joins {rs : BitVec 5} {sel : BitVec 2} {ok : Nat → Bool} (hi : Issues s h) (fits : (coreAt s h.t).fits)
    (room : (s.tile (ckey h.t)).mx.queue.length < 8) (allowed : ok ((coreAt s h.t).sreg rs).toNat = true) :
    mcfg h rs sel ok s =
      .next (s.setTile (ckey h.t) ((s.tile (ckey h.t)).matQueued (.mcfg sel ((s.tile (ckey h.t)).core.sreg rs)))) :=
  matIssue_joins hi fits room rfl (if_pos allowed) fun _ none_ => nomatch none_

/-- An `mcfg` of any other word is illegal (R97). -/
theorem mcfg_illegal {rs : BitVec 5} {sel : BitVec 2} {ok : Nat → Bool} (hi : Issues s h)
    (bad : ok ((coreAt s h.t).sreg rs).toNat = false) :
    mcfg h rs sel ok s = .next (takeExc s h.t 1 (coreAt s h.t).pc.toNat true 0) :=
  matIssue_refused hi (if_neg (by rw [bad]; exact Bool.false_ne_true))

end

/-- An instruction whose operands lie in range is checked by what it moves (R95). -/
theorem rangeCheck_passes {range : Bool} {moves : Option Act} (inside : range = true) (passes : moves = none) :
    (if !range then some (Act.exc 1 0) else moves) = none := by rw [inside, passes]; rfl

/-! ### Operand fields and configuration words (R95 to R97) -/

/-- A port field other than zero needs Q (R52, R95). -/
theorem qPort_encoding {q : Bool} {port : BitVec 4} (named : (q || port == 0) = true) : (!q && port != 0) = false := by
  cases q
  · simpa using named
  · rfl

theorem mAddr_eq (w : Word) : mAddr w = w.toNat % 2 ^ 18 := by rw [mAddr, bits, Nat.pow_zero, Nat.div_one]

theorem mCount_eq (w : Word) : mCount w = w.toNat % 512 := by simp [mCount, bits]

theorem pairOk_iff (a w : Nat) : pairOk a w = true ↔ (a = 1 ↔ w = 1) := by
  rw [pairOk, beq_iff_eq, Bool.eq_iff_iff, beq_iff_eq, beq_iff_eq]

/-- What R97 forbids a FORMAT word. -/
theorem formatOk_reserved {w : Nat}
    (bad : bits w 28 4 ≠ 0 ∨ bits w 0 14 ≠ 0 ∨ 6 < bits w 24 4 ∨ 6 < bits w 20 4 ∨ bits w 18 2 = 3 ∨ bits w 16 2 = 3 ∨
      (bits w 24 4 = 1 ∧ 1 < bits w 20 4) ∨ (bits w 20 4 = 1 ∧ 1 < bits w 24 4) ∨
      (bits w 24 4 = 1 ∧ bits w 18 2 ≠ 0) ∨ (bits w 20 4 = 1 ∧ bits w 16 2 ≠ 0)) : formatOk w = false := by
  rw [← Bool.not_eq_true]
  intro ok
  simp only [formatOk, Bool.and_eq_true, Bool.or_eq_true, Bool.not_eq_true', Bool.and_eq_false_iff, bne_eq_false_iff_eq,
    beq_iff_eq, beq_eq_false_iff_ne, decide_eq_true_eq, pairOk_iff] at ok
  simp only [cfA, cfW, cfASc, cfWSc] at ok
  omega

/-! ### The statement -/

theorem matrixIssue : Claims.MatrixIssue := by
  rintro s h rs rt level tr z q port t a b hi fits rfl rfl rfl
  refine ⟨fun room => ?_, fun idle => ?_⟩
  · simp only [List.forall_mem_cons, List.not_mem_nil, false_imp_iff, implies_true, and_true, Bool.and_eq_true,
      Option.isNone_iff_eq_none, decide_eq_true_eq, ← mAddr_eq, ← mCount_eq]
    refine ⟨fun ok _ => ?_, fun ok _ => ?_, fun _ _ => ?_, fun ok free => ?_, fun _ free => ?_, fun ok free => ?_,
      fun ok free => ?_, fun ok free => ?_⟩
    · change mcfg h rs 0 formatOk s = _
      exact mcfg_joins hi fits room ok
    · change mcfg h rs 1 drainOk s = _
      exact mcfg_joins hi fits room ok
    · change mcfg h rs 2 (fun _ => true) s = _
      exact mcfg_joins hi fits room rfl
    · obtain ⟨⟨named, range⟩, moves⟩ := ok
      change execMld h rs q port s = _
      exact matIssue_joins hi fits room (qPort_encoding named) (rangeCheck_passes range moves) free
    · change execMswap h s = _
      exact matIssue_joins hi fits room rfl rfl free
    · obtain ⟨⟨named, range⟩, moves⟩ := ok
      change execMmul h rs rt tr z q port s = _
      exact matIssue_joins hi fits room (qPort_encoding named) (rangeCheck_passes range moves) free
    · obtain ⟨⟨named, range⟩, moves⟩ := ok
      change execMdrain h rs rt tr z q port s = _
      exact matIssue_joins hi fits room (qPort_encoding named) (rangeCheck_passes range moves) free
    · change execMramp h level s = _
      exact matIssue_joins hi fits room (decide_eq_false (Nat.not_lt.2 ok)) rfl free
  · exact (issue_fin true hi (if_pos idle)).trans (congrArg _ (advance_fits s h.t fits))

theorem matrixIllegal : Claims.MatrixIllegal := by
  rintro s h rs w t hi rfl rfl
  refine ⟨fun bad => ?_, fun full => ?_⟩
  · change mcfg h rs 0 formatOk s = _
    exact mcfg_illegal hi (formatOk_reserved bad)
  · change execMswap h s = _
    exact matIssue_waits hi rfl rfl full

/-- Settles O13: a matrix instruction by its checks, its port and the room of the queue. -/
theorem matrixInstructions : Obligations.MatrixInstructions := ⟨matrixIssue, matrixIllegal⟩

end Sys2Proof.Machine

/-! ## Proofs: what the helpers of the matrix engines leave alone (R98, R168, R172, R404) -/

namespace Sys2Proof.Machine

/-- The machine after a helper of the matrix engines has worked at a tile: memory, every other tile, the tile's core and its
array are as before. -/
structure ArrayKept (p : Coord) (s w : State) : Prop where
  mem : w.mem = s.mem
  others : ∀ j, j ≠ ckey p → w.tile j = s.tile j
  core : (w.tile (ckey p)).core = (s.tile (ckey p)).core
  mx : (w.tile (ckey p)).mx = (s.tile (ckey p)).mx

section
variable {p : Coord} {s w v : State}

theorem ArrayKept.refl (p : Coord) (s : State) : ArrayKept p s s := ⟨rfl, fun _ _ => rfl, rfl, rfl⟩

theorem ArrayKept.trans (a : ArrayKept p s w) (b : ArrayKept p w v) : ArrayKept p s v where
  mem := b.mem.trans a.mem
  others j hj := (b.others j hj).trans (a.others j hj)
  core := b.core.trans a.core
  mx := b.mx.trans a.mx

theorem ArrayKept.foldl {α : Type} (f : State → α → State) (step : ∀ s a, ArrayKept p s (f s a)) (l : List α) (s : State) :
    ArrayKept p s (l.foldl f s) := by
  induction l generalizing s with
  | nil => exact .refl p s
  | cons a r ih => exact (step s a).trans (ih _)

/-- The same for a fold that carries something beside the state. -/
theorem ArrayKept.foldl_fst {α β : Type} (f : State × β → α → State × β) (step : ∀ a i, ArrayKept p a.1 (f a i).1) (l : List α)
    (a : State × β) : ArrayKept p a.1 (l.foldl f a).1 := by
  induction l generalizing a with
  | nil => exact .refl p a.1
  | cons i r ih => exact (step a i).trans (ih _)

theorem ArrayKept.of_tiles (tiles : w.tiles = s.tiles) (mem : w.mem = s.mem) : ArrayKept p s w where
  mem := mem
  others j _ := State.tile_congr tiles j
  core := by rw [State.tile_congr tiles]
  mx := by rw [State.tile_congr tiles]

theorem ArrayKept.of_setTile (s : State) {t : Tile} (same : t.core = (s.tile (ckey p)).core ∧ t.mx = (s.tile (ckey p)).mx) :
    ArrayKept p s (s.setTile (ckey p) t) where
  mem := rfl
  others j hj := by rw [State.setTile_tile, if_neg hj]
  core := by rw [State.setTile_tile, if_pos rfl, same.1]
  mx := by rw [State.setTile_tile, if_pos rfl, same.2]

theorem ArrayKept.of_modTile (s : State) {f : Tile → Tile} (same : ∀ t, (f t).core = t.core ∧ (f t).mx = t.mx) :
    ArrayKept p s (s.modTile (ckey p) f) := .of_setTile s (same _)

theorem ArrayKept.of_pumped (h : Pumped (ckey p) s w) : ArrayKept p s w := ⟨h.mem, h.other, h.tile.core, h.tile.mx⟩

theorem ArrayKept.of_read {c : Nat} (h : LinesRead p c s w) : ArrayKept p s w :=
  ⟨h.mem, h.others, by rw [h.tile], by rw [h.tile]⟩

end

/-! ### Lines written back and written (R168, R172, R178) -/

theorem traceRecord_kept (s : State) (p : Coord) (op a n : Nat) : ArrayKept p s (traceRecord s p op a n) := by
  unfold traceRecord
  split
  · exact .refl p s
  · split
    · split
      · exact .of_tiles rfl rfl
      · extract_lets cyc w size r noted
        have kept : ArrayKept p s noted := .of_modTile s fun _ => ⟨rfl, rfl⟩
        exact (kept.trans (.of_tiles (State.modRun_tiles ..) (State.modRun_mem ..))).trans (.of_pumped (pumpPort_pumped ..))
    · exact .refl p s

theorem flushSpan_kept (s : State) (p : Coord) (l n : Nat) : ArrayKept p s (flushSpan s p l n) := by
  refine .foldl _ (fun s i => ?_) _ _
  split
  · split
    · refine .trans ?_ (traceRecord_kept ..)
      exact .of_modTile s fun _ => ⟨rfl, rfl⟩
    · exact .refl p s
  · exact .refl p s

/-- Bytes written to a bin leave the core and the array of their tile. -/
theorem writeSpan_rest (t : Tile) (addr : Nat) (bs : List Byte) :
    (writeSpan t addr bs).core = t.core ∧ (writeSpan t addr bs).mx = t.mx := by
  unfold writeSpan
  extract_lets first last
  split
  · exact ⟨rfl, rfl⟩
  · generalize List.range (last + 1 - first) = l
    induction l generalizing t with
    | nil => exact ⟨rfl, rfl⟩
    | cons i r ih =>
      rw [List.foldl_cons]
      extract_lets k
      split
      · exact ih t
      · exact ih _

theorem writeRow_kept (s : State) (p : Coord) (addr : Nat) (bs : List Byte) : ArrayKept p s (writeRow s p addr bs) :=
  (flushSpan_kept ..).trans (.of_modTile _ fun t => writeSpan_rest t addr bs)

theorem writeRows_kept (s : State) (p : Coord) (a : Nat) (rows : List (List Byte)) : ArrayKept p s (writeRows s p a rows) := by
  induction rows generalizing s a with
  | nil => exact .refl p s
  | cons bs r ih => exact (writeRow_kept s p a bs).trans (ih ..)

/-! ### Rows converted (R138, R149) -/

theorem drainOut_kept (s : State) (c : Nat) (x : Ctx) (p : Coord) (e : MEntry) (rows : List (List (BitVec 48))) (js : List Nat)
    (t : Bool) : ArrayKept p s (drainOut s c x p e rows js t).1 := by
  unfold drainOut
  extract_lets k delayed clamped
  refine .foldl_fst _ (fun a j => ?_) js (s, [])
  have counted (n : TallyEnt) : ArrayKept p a.1 (tallyAdd a.1 c (ckey p) n) := .of_read (tallyAdd_read ..)
  dsimp only
  split
  · exact (counted _).trans (.of_modTile _ fun _ => ⟨rfl, rfl⟩)
  · exact counted _

/-! ### Items pushed (R54, R190, R210, R251) -/

theorem writeLogLine_rest (t : Tile) (l data : Nat) (poison : Bool) :
    (writeLogLine t l data poison).core = t.core ∧ (writeLogLine t l data poison).mx = t.mx := by
  unfold writeLogLine
  split <;> exact ⟨rfl, rfl⟩

theorem writeSpillItem_rest (t : Tile) (e : DWord) (n : Nat) (i : Item) :
    (writeSpillItem t e n i).core = t.core ∧ (writeSpillItem t e n i).mx = t.mx := by
  unfold writeSpillItem
  extract_lets l
  split
  · obtain ⟨core, mx⟩ := writeLogLine_rest t l (i.data.extractLsb' 0 512).toNat i.tagLo
    obtain ⟨core', mx'⟩ := writeLogLine_rest (writeLogLine t l (i.data.extractLsb' 0 512).toNat i.tagLo) (l + 1)
      (i.data.extractLsb' 512 512).toNat i.tagHi
    exact ⟨core'.trans core, mx'.trans mx⟩
  · split <;> exact ⟨rfl, rfl⟩

theorem placeItem_rest (t : Tile) (ch : Nat) (i : Item) :
    (placeItem t ch i).1.core = t.core ∧ (placeItem t ch i).1.mx = t.mx := by
  unfold placeItem
  extract_lets e c bin
  split
  · exact ⟨rfl, rfl⟩
  · split
    · exact writeSpillItem_rest ..
    · exact ⟨rfl, rfl⟩

theorem countSpillItems_kept (s : State) (c : Nat) (p : Coord) (m : Nat) : ArrayKept p s (countSpillItems s c p m) := by
  unfold countSpillItems
  split
  · exact .refl p s
  · refine ArrayKept.trans ?_ (.of_pumped (pumpPort_pumped ..))
    exact .of_tiles (State.modTally_tiles ..) (State.modTally_mem ..)

theorem itemSent_kept (s : State) (p : Coord) (ch : Nat) (f : Flit) : ArrayKept p s (itemSent s p ch f) := by
  let st := (s.tile (ckey p)).cst ch
  have spent : ArrayKept p s (s.setTile (ckey p) ((s.tile (ckey p)).setCst ch
    { st with credits := st.credits - 1, seqOut := st.seqOut + 1 })) := .of_setTile s ⟨rfl, rfl⟩
  exact spent.trans (.of_tiles rfl rfl)

theorem pushItem_kept (s : State) (c : Nat) (d : CtxDef) (p : Coord) (ch : Nat) (i : Item) :
    ArrayKept p s (pushItem s c d p ch i) := by
  have free := ArrayKept.of_pumped (unblock_pumped s p)
  unfold pushItem
  extract_lets s1 k t e st
  refine free.trans ?_
  split
  · exact (ArrayKept.of_setTile s1 (placeItem_rest t (chPeerCh e) i)).trans (countSpillItems_kept ..)
  · split
    · exact itemSent_kept ..
    · exact .refl ..
  · exact itemSent_kept ..

/-- Pushing drained bytes changes no more of the array than the bytes that wait. -/
theorem pushOut_mx (s : State) (c : Nat) (d : CtxDef) (p : Coord) (ch : Nat) (final : Bool) (n : Nat) :
    ∃ o, ((pushOut s c d p ch final n).tile (ckey p)).mx = { (s.tile (ckey p)).mx with outBytes := o } := by
  induction n generalizing s with
  | zero => exact ⟨_, rfl⟩
  | succ n ih =>
    rw [pushOut]
    split
    · exact ⟨_, rfl⟩
    · obtain ⟨o, later⟩ := ih (pushItem _ c d p ch _)
      refine ⟨o, later.trans ?_⟩
      rw [(pushItem_kept ..).mx, State.setTile_tile, if_pos rfl]

end Sys2Proof.Machine

/-! ## Proofs: the operations of the matrix array (R98, R101, R102, R107, R109, R117) -/

namespace Sys2Proof.Machine

/-! ### Swaps that take effect, and instructions that leave the matrix queue (R96, R98) -/

/-- Leading swaps change the array queue and the active buffer alone. -/
theorem Matrix.settle_eq (n : Nat) (m : Matrix) : ∃ q b, m.settle n = { m with arrayQ := q, activeB := b } := by
  induction n generalizing m with
  | zero => exact ⟨_, _, rfl⟩
  | succ n ih =>
    rw [Matrix.settle]
    split
    · split
      · exact ih _
      · exact ⟨_, _, rfl⟩
    · exact ⟨_, _, rfl⟩

theorem Matrix.settled_eq (m : Matrix) : ∃ q b, m.settled = { m with arrayQ := q, activeB := b } := m.settle_eq 4

/-- The newest instruction of the array queue stays where it is no swap. -/
theorem Matrix.settle_getLast (n : Nat) {m : Matrix} {f : MEntry} (newest : m.arrayQ.getLast? = some f) (pass : f.op ≠ .mswap) :
    (m.settle n).arrayQ.getLast? = some f := by
  induction n generalizing m with
  | zero => exact newest
  | succ n ih =>
    rw [Matrix.settle]
    split
    · rename_i e r queued
      split
      · rename_i swap
        refine ih ?_
        cases r with
        | nil =>
          obtain rfl : e = f := by simpa [queued] using newest
          simp [pass] at swap
        | cons g l => rw [← newest, queued]; rfl
      · exact newest
    · exact newest

/-- The tile once the instruction at the head of its matrix queue has left it (R96, R98). -/
def Tile.dispatched (t : Tile) (e : MEntry) (rest : List MEntry) : Tile :=
  { t with mx := (({ t.mx with queue := rest }).enter e (t.mx.capture e.op)).settled, ramp := t.ramp.act e.op }

/-- The instruction with the words it captures (R96, R110). -/
def Matrix.captured (m : Matrix) (e : MEntry) (w : Word) : MEntry := { e with cfg := w, base := m.cfgBase, swapped := m.swapIssued }

section
variable {t : Tile} {e : MEntry} {rest : List MEntry}

/-- What leaving the matrix queue keeps of the array. -/
theorem Matrix.enter_rest (m : Matrix) (e : MEntry) (w : Word) : (m.enter e w).queue = m.queue ∧ (m.enter e w).acc = m.acc := by
  unfold Matrix.enter
  extract_lets f
  split
  · split
    · exact ⟨rfl, rfl⟩
    · split <;> exact ⟨rfl, rfl⟩
  all_goals exact ⟨rfl, rfl⟩

theorem Tile.dispatched_rest : (t.dispatched e rest).mx.queue = rest ∧ (t.dispatched e rest).core = t.core ∧
    (t.dispatched e rest).bin = t.bin ∧ (t.dispatched e rest).mx.acc = t.mx.acc := by
  obtain ⟨q, b, same⟩ := (({ t.mx with queue := rest }).enter e (t.mx.capture e.op)).settled_eq
  obtain ⟨queue, acc⟩ := Matrix.enter_rest { t.mx with queue := rest } e (t.mx.capture e.op)
  rw [Tile.dispatched, same]
  exact ⟨queue, rfl, rfl, acc⟩

theorem Tile.dispatched_mcfg {sel : BitVec 2} {v : Word} (op : e.op = .mcfg sel v) :
    ∃ q b, (t.dispatched e rest).mx = { if sel == 0 then { t.mx with queue := rest, cfgFormat := v }
      else if sel == 1 then { t.mx with queue := rest, cfgDrain := v } else { t.mx with queue := rest, cfgBase := v } with
        arrayQ := q, activeB := b } := by
  obtain ⟨q, b, same⟩ := (({ t.mx with queue := rest }).enter e (t.mx.capture e.op)).settled_eq
  exact ⟨q, b, same.trans (by simp only [Matrix.enter, op])⟩

theorem Tile.dispatched_mswap (op : e.op = .mswap) : (t.dispatched e rest).mx.swapIssued = !t.mx.swapIssued := by
  obtain ⟨q, b, same⟩ := (({ t.mx with queue := rest }).enter e (t.mx.capture e.op)).settled_eq
  rw [Tile.dispatched, same]
  simp only [Matrix.enter, op]

theorem Tile.dispatched_mramp {v : Nat} (op : e.op = .mramp v) : (t.dispatched e rest).ramp = { t.ramp with target := v } := by
  change t.ramp.act e.op = _
  rw [op]
  rfl

theorem Tile.dispatched_mld {a : Nat} {q : Option Nat} (op : e.op = .mld a q) :
    (t.dispatched e rest).mx.loadQ = t.mx.loadQ ++ [t.mx.captured e t.mx.cfgFormat] := by
  obtain ⟨q, b, same⟩ := (({ t.mx with queue := rest }).enter e (t.mx.capture e.op)).settled_eq
  rw [Tile.dispatched, same]
  simp only [Matrix.enter, Matrix.capture, op, Matrix.captured]

theorem Tile.dispatched_mmul {a row0 n : Nat} {tr z : Bool} {q : Option Nat} (op : e.op = .mmul a row0 n tr z q) :
    (t.dispatched e rest).mx.arrayQ.getLast? = some (t.mx.captured e t.mx.cfgFormat) := by
  refine Matrix.settle_getLast 4 ?_ (by rw [Matrix.captured, op]; exact MOp.noConfusion)
  simp only [Matrix.enter, Matrix.capture, op, Matrix.captured, List.getLast?_append, List.getLast?_singleton, Option.some_or]

theorem Tile.dispatched_mdrain {a row0 n : Nat} {tr cl : Bool} {q : Option Nat} (op : e.op = .mdrain a row0 n tr cl q) :
    (t.dispatched e rest).mx.drainQ = t.mx.drainQ ++ [t.mx.captured e t.mx.cfgDrain] ∧
      (t.dispatched e rest).mx.cfgBase = t.mx.cfgBase + BitVec.ofNat 32 (64 * n) := by
  obtain ⟨q, b, same⟩ := (({ t.mx with queue := rest }).enter e (t.mx.capture e.op)).settled_eq
  rw [Tile.dispatched, same]
  simp only [Matrix.enter, Matrix.capture, op, Matrix.captured, and_self]

end

/-! ### Loads (R98, R111) -/

theorem Matrix.buf_setBuf (m : Matrix) (b : Bool) (x : StatBuf) : (m.setBuf b x).buf b = x := by cases b <;> rfl

theorem Matrix.buf_setBuf_other (m : Matrix) (b : Bool) (x : StatBuf) : (m.setBuf b x).buf (!b) = m.buf (!b) := by cases b <;> rfl

/-- A load completed writes its buffer and leaves the load engine. -/
theorem loadDone_spec (t : Tile) (e : MEntry) (rest : List MEntry) (image : Nat) (poisoned : Bool) :
    (loadDone t e rest image poisoned).mx.loadQ = rest ∧ (loadDone t e rest image poisoned).mx.loadBytes = [] ∧
      (loadDone t e rest image poisoned).mx.buf e.usesB = imageBuf e.cfg.toNat image poisoned ∧
      (loadDone t e rest image poisoned).mx.buf (!e.usesB) = t.mx.buf (!e.usesB) ∧
      (loadDone t e rest image poisoned).mx.acc = t.mx.acc := by
  obtain ⟨q, b, same⟩ := (({ t.mx with loadQ := rest, loadBytes := [] }).setBuf e.usesB
    (imageBuf e.cfg.toNat image poisoned)).settled_eq
  rw [loadDone, same]
  refine ⟨?_, ?_, Matrix.buf_setBuf .., Matrix.buf_setBuf_other .., ?_⟩
  all_goals cases e.usesB <;> rfl

/-! ### Rows (R104, R117) -/

/-- The next row of a pass as it enters the cells. -/
def MEntry.row (e : MEntry) (row0 : Nat) (tr z : Bool) (v : Nat) : MRow :=
  { num := e.num, index := e.pos, accRow := row0 + e.pos, t := tr, z := z, swapped := e.swapped, cfg := e.cfg
    data := v % 256 ^ (8 * (elemFmt (cfA e.cfg.toNat)).width), scales := v / 256 ^ (8 * (elemFmt (cfA e.cfg.toNat)).width)
    attempts := 1, passed := false, entered := true }

/-- A row placed in the cells joins the rows behind those there, and is the last real row. -/
theorem enterRow_spec {e : MEntry} {a row0 n : Nat} {tr z : Bool} {q : Option Nat} (op : e.op = .mmul a row0 n tr z q) (t : Tile)
    (rest : List MEntry) (v win : Nat) : (enterRow t e rest v win).mx.rows = t.mx.rows ++ [e.row row0 tr z v] ∧
      (enterRow t e rest v win).mx.acc = t.mx.acc ∧ (enterRow t e rest v win).ramp.last = some (e.row row0 tr z v) := by
  have next : passRowOf e v = some (e.row row0 tr z v) := by simp only [passRowOf, op]; rfl
  simp only [enterRow, op, next]
  obtain ⟨aq, b, same⟩ := Matrix.settled_eq _
  rw [same]
  exact ⟨rfl, rfl, trivial⟩

section
variable {pre : List MRow} (passed : (pre.all fun q => q.passed) = true)
include passed

/-- The oldest row that has not passed is judged. -/
theorem Matrix.judged_of_rows {m : Matrix} {post : List MRow} {r : MRow} (rows : m.rows = pre ++ r :: post)
    (waits : r.passed = false) (entered : r.entered = true) : m.judged = some r := by
  have first : (m.rows.find? fun q => !q.passed) = some r := by
    rw [rows, List.find?_append, List.find?_eq_none.2 fun q hq => by simp [List.all_eq_true.1 passed q hq], Option.none_or,
      List.find?_cons_of_pos (by simp [waits])]
  simp only [Matrix.judged, first, entered, if_true]

theorem passRow_of_passed {r : MRow} (post : List MRow) (waits : r.passed = false) :
    passRow (pre ++ r :: post) = pre ++ { r with passed := true } :: post := by
  induction pre with
  | nil => simp only [List.nil_append, passRow, waits, Bool.false_eq_true, if_false]
  | cons q l ih =>
    rw [List.all_cons, Bool.and_eq_true] at passed
    rw [List.cons_append, passRow, if_pos passed.1, ih passed.2, List.cons_append]

theorem failRow_of_passed {r : MRow} (post : List MRow) (waits : r.passed = false) :
    failRow (pre ++ r :: post) = pre ++ { r with entered := false, attempts := r.attempts + 1 } :: discardRows post := by
  induction pre with
  | nil => simp only [List.nil_append, failRow, waits, Bool.false_eq_true, if_false]
  | cons q l ih =>
    rw [List.all_cons, Bool.and_eq_true] at passed
    rw [List.cons_append, failRow, if_pos passed.1, ih passed.2, List.cons_append]

end

/-! ### The accumulator (R102, R107, R109) -/

/-- A run of keys written one behind the other. -/
theorem mget_foldl_mset {α : Type} [DecidableEq α] (m : AMap α) (d : α) (base n j : Nat) (g : Nat → α) :
    mget ((List.range n).foldl (fun a o => mset a d (base + o) (g o)) m) d j =
      if base ≤ j ∧ j < base + n then g (j - base) else mget m d j := by
  induction n with
  | zero => simp only [List.range_zero, List.foldl_nil]; rw [if_neg (by omega)]
  | succ n ih =>
    rw [List.range_succ, List.foldl_append, List.foldl_cons, List.foldl_nil, mget_mset, ih]
    by_cases last : j = base + n
    · subst last
      rw [if_pos rfl, if_pos (by omega), Nat.add_sub_cancel_left]
    · rw [if_neg last]
      congr 1
      exact propext (by omega)

theorem mget_filter_keys {α : Type} (m : AMap α) (d : α) (keep : Nat → Bool) (j : Nat) :
    mget (m.filter fun a => keep a.1) d j = if keep j then mget m d j else d := by
  induction m with
  | nil => simp only [List.filter_nil, mget, ite_self]
  | cons a t ih =>
    obtain ⟨k, v⟩ := a
    by_cases kept : keep k = true
    · rw [List.filter_cons_of_pos (by exact kept), mget, mget, ih]
      by_cases here : k = j
      · subst here; simp only [if_true, kept]
      · simp only [if_neg here]
    · rw [List.filter_cons_of_neg (by exact kept), ih, mget]
      by_cases here : k = j
      · subst here; simp only [kept, Bool.false_eq_true, if_false]
      · simp only [if_neg here]

/-- A pass row updates the entries of its accumulator row (R107). -/
theorem Matrix.accGet_update (m : Matrix) (r : MRow) (row : Nat) {o : Nat} (ho : o < 64) :
    (m.update r).accGet row o = if row = r.accRow then accumulate r (m.buf r.swapped) (m.accGet r.accRow o) o else m.accGet row o := by
  rw [Matrix.accGet, Matrix.update, mget_foldl_mset]
  by_cases here : row = r.accRow
  · subst here
    rw [if_pos (by omega), if_pos rfl, Nat.add_sub_cancel_left]
  · rw [if_neg (by omega), if_neg here]
    rfl

/-- The first row of a pass keeps the accumulator before it (R102). -/
theorem Matrix.undo_update (m : Matrix) (r : MRow) :
    (m.update r).undo = if m.undo.map (·.1) = some r.num then m.undo else some (r.num, m.acc) := by
  rw [Matrix.update]
  cases m.undo with
  | none => rfl
  | some u => simp only [Option.map_some, Option.some.injEq]

/-- A drain clears the accumulator row it reads, where it clears (R109). -/
theorem Matrix.accGet_takeRow (m : Matrix) (e : MEntry) (rest : List MEntry) (row : Nat) (t clr : Bool) (i : Nat) {o : Nat}
    (ho : o < 64) : (m.takeRow e rest row t clr).accGet i o = if i = row ∧ clr = true then 0 else m.accGet i o := by
  cases clr
  · exact (if_neg (by simp)).symm
  · change mget (m.acc.filter fun a => a.1 / 64 != row) 0 (64 * i + o) = _
    rw [mget_filter_keys m.acc 0 (fun k => k / 64 != row), show (64 * i + o) / 64 = i by omega]
    by_cases here : i = row
    · simp [here]
    · simp [here, Matrix.accGet]

end Sys2Proof.Machine

/-! ## Proofs: the engines of the matrix array (R96 to R123) -/

namespace Sys2Proof.Machine

theorem onlyTile_setTile (s : State) (k : Nat) (t : Tile) : OnlyTile s (s.setTile k t) k := by
  rw [OnlyTile, State.setTile_tile, if_pos rfl]

/-! ### Dispatch (R96 to R98, R101, R102) -/

section
variable {s : State} {p : Coord} {l : Nat × Ctx} {e : MEntry} {rest : List MEntry}

theorem exec_matrixDispatch (live : arrayLive s p = some l) (queued : (s.tile (ckey p)).mx.queue = e :: rest) :
    exec (.matrixDispatch p) s =
      if !(s.tile (ckey p)).mx.room e.op then .next s
      else if !(s.tile (ckey p)).mx.captureOk e.op ((s.tile (ckey p)).mx.capture e.op).toNat then
        (if (s.tile (ckey p)).mx.enginesIdle then .next (takeExc s p 1 e.pc.toNat true 0) else .next s)
      else .next (s.setTile (ckey p) ((s.tile (ckey p)).dispatched e rest)) := by
  change execMatrixDispatch p s = _
  simp only [execMatrixDispatch, live, queued]
  rfl

end

theorem matrixDispatchResults : Claims.MatrixDispatchResults := by
  rintro s p l t e rest w live rfl queued rfl
  rw [exec_matrixDispatch live queued]
  refine ⟨fun room ok => ⟨_, by rw [room, ok]; rfl, onlyTile_setTile .., ?_⟩, fun room bad idle => by rw [room, bad, idle]; rfl,
    fun waits => ?_⟩
  · rw [State.setTile_tile, if_pos rfl]
    obtain ⟨queue, core, bin, acc⟩ := Tile.dispatched_rest (t := s.tile (ckey p)) (e := e) (rest := rest)
    refine ⟨queue, core, bin, acc, fun v op => ?_, fun v op => ?_, fun v op => ?_, fun v op => Tile.dispatched_mramp op, Tile.dispatched_mswap,
      fun a q op => Tile.dispatched_mld op, fun a r n tr z q op => Tile.dispatched_mmul op,
      fun a r n tr cl q op => Tile.dispatched_mdrain op⟩
    all_goals
      obtain ⟨q, b, mx⟩ := Tile.dispatched_mcfg (t := s.tile (ckey p)) (rest := rest) op
      rw [mx]
      rfl
  · rcases waits with full | ⟨bad, busy⟩
    · rw [full]; rfl
    · rw [bad, busy]
      exact ite_self _

/-! ### Loads (R98, R126) -/

section
variable {s : State} {p : Coord} {c : Nat} {x : Ctx} {e : MEntry} {rest : List MEntry}

section
variable (live : arrayLive s p = some (c, x)) (queued : (s.tile (ckey p)).mx.loadQ = e :: rest)
  (unused : ((s.tile (ckey p)).mx.rows.any fun r => r.swapped == e.usesB) = false)
  (ordered : (s.tile (ckey p)).mx.entering e.num = false) (written : (s.tile (ckey p)).mx.unwritten e.num e.reads = false)
include live queued unused ordered written

/-- A load from the bin that nothing holds back completes with the lines it reads. -/
theorem exec_mldComplete_bin {a d : Nat} {poison : Bool} {s1 : State} (op : e.op = .mld a none)
    (flushed : flushSpan s p (a / 64) ((imageBytes e.cfg.toNat + 63) / 64) = s1)
    (read : (readLines (s1.tile (ckey p)) (a / 64) ((imageBytes e.cfg.toNat + 63) / 64)).2 = .ok d poison) :
    exec (.mldComplete p) s = .next (s1.modTile (ckey p) fun t => loadDone t e rest d poison) := by
  change execMldComplete p s = _
  obtain ⟨u, lines⟩ : ∃ u, readLines (s1.tile (ckey p)) (a / 64) ((imageBytes e.cfg.toNat + 63) / 64) = (u, .ok d poison) :=
    ⟨_, Prod.ext rfl read⟩
  simp only [execMldComplete, live, queued, unused, ordered, written, Bool.or_self, Bool.false_eq_true, if_false, op, flushed, lines]

/-- A load from a queue completes once its channel has given enough, and else keeps what it has. -/
theorem exec_mldComplete_queue {a ch : Nat} {s2 : State} {bs : List (Byte × Bool)} (op : e.op = .mld a (some ch))
    (items : gatherItems s c x.cdef p ch (imageBytes e.cfg.toNat) (itemsFor (imageBytes e.cfg.toNat))
      (s.tile (ckey p)).mx.loadBytes = (s2, bs)) :
    exec (.mldComplete p) s = .next (if imageBytes e.cfg.toNat ≤ bs.length then
        s2.modTile (ckey p) fun t =>
          loadDone t e rest (leNat ((bs.take (imageBytes e.cfg.toNat)).map (·.1))) (bs.any (·.2))
      else s2.modTile (ckey p) fun t => { t with mx := { t.mx with loadBytes := bs } }) := by
  change execMldComplete p s = _
  simp only [execMldComplete, live, queued, unused, ordered, written, Bool.or_self, Bool.false_eq_true, if_false, op, items]
  split <;> rfl

end

/-! ### Rows (R104, R117, R120 to R122, R126) -/

/-- A discarded row re-enters where the window has a slot, and else waits (R117, R121). -/
theorem exec_mmulRowEnter_again {r : MRow} {win : Nat} (live : arrayLive s p = some (c, x)) (hw : win = slotWindow s p)
    (again : ((s.tile (ckey p)).mx.rows.find? fun r => !r.entered) = some r) :
    exec (.mmulRowEnter p) s = .next (if ((s.tile (ckey p)).ramp.atWin win).slotFree then
        s.modTile (ckey p) fun t => { t with
          mx := { t.mx with rows := reenter t.mx.rows }
          ramp := { t.ramp.atWin win with
            used := (t.ramp.atWin win).used + rowSlots r.cfg.toNat (t.mx.buf r.swapped), last := some r } }
      else s.modTile (ckey p) fun t => { t with ramp := (t.ramp.atWin win).wait }) := by
  subst hw
  change execMmulRowEnter p s = _
  simp only [execMmulRowEnter, live, again]
  split <;> rfl

section
variable {a row0 n : Nat} {tr z : Bool} {q : Option Nat} {win : Nat}
  (live : arrayLive s p = some (c, x)) (queued : (s.tile (ckey p)).mx.arrayQ = e :: rest) (op : e.op = .mmul a row0 n tr z q)
  (fresh : ((s.tile (ckey p)).mx.rows.find? fun r => !r.entered) = none)
  (loaded : (s.tile (ckey p)).mx.awaits e.usesB e.num = false) (block : ((s.tile (ckey p)).mx.buf e.usesB).loaded = true)
  (written : (s.tile (ckey p)).mx.unwritten e.num e.reads = false)
  (ready : rowReady (s.tile (ckey p)) e (rowBytes e.cfg.toNat) = true) (hw : win = slotWindow s p)

include op loaded block written ready in
/-- Nothing holds the next row of a pass back but its slot. -/
theorem rowHeld_false : (e.op == .mswap || (s.tile (ckey p)).mx.awaits e.usesB e.num || !((s.tile (ckey p)).mx.buf e.usesB).loaded
    || (s.tile (ckey p)).mx.unwritten e.num e.reads || !rowReady (s.tile (ckey p)) e (rowBytes e.cfg.toNat)) = false := by
  have pass : (e.op == .mswap) = false := by rw [op, beq_eq_false_iff_ne]; exact MOp.noConfusion
  rw [pass, loaded, block, written, ready]
  rfl

include live queued op fresh loaded block written ready hw

/-- A ready row without a slot waits (R122). -/
theorem exec_mmulRowEnter_waits (full : ((s.tile (ckey p)).ramp.atWin win).slotFree = false) :
    exec (.mmulRowEnter p) s = .next (s.modTile (ckey p) fun t => { t with ramp := (t.ramp.atWin win).wait }) := by
  have held := rowHeld_false op loaded block written ready
  subst hw
  change execMmulRowEnter p s = _
  simp only [execMmulRowEnter, live, fresh, queued, held, full, Bool.false_eq_true, if_false, Bool.not_false, if_true]

section
variable (free : ((s.tile (ckey p)).ramp.atWin win).slotFree = true) {s2 : State}
include free

/-- A sound row enters, and over a poisoned block raises what the block raises (R104, R126). -/
theorem exec_mmulRowEnter_bytes {v : Nat} (read : readRow s c x.cdef p e (rowBytes e.cfg.toNat) = (s2, .bytes v)) :
    exec (.mmulRowEnter p) s = .next (if ((s.tile (ckey p)).mx.buf e.usesB).poisoned then poisonRow s p e (6 * 2 ^ 26)
      else s2.modTile (ckey p) fun t => enterRow t e rest v win) := by
  have held := rowHeld_false op loaded block written ready
  subst hw
  change execMmulRowEnter p s = _
  simp only [execMmulRowEnter, live, fresh, queued, held, free, read, Bool.false_eq_true, if_false, Bool.not_true]
  split <;> rfl

/-- A poisoned row raises what it or its block raises (R126). -/
theorem exec_mmulRowEnter_poison {d : Nat} (read : readRow s c x.cdef p e (rowBytes e.cfg.toNat) = (s2, .poison d)) :
    exec (.mmulRowEnter p) s =
      .next (poisonRow s2 p e (if ((s.tile (ckey p)).mx.buf e.usesB).poisoned then 6 * 2 ^ 26 else d)) := by
  have held := rowHeld_false op loaded block written ready
  subst hw
  change execMmulRowEnter p s = _
  simp only [execMmulRowEnter, live, fresh, queued, held, free, read, Bool.false_eq_true, if_false, Bool.not_true]

end

end

/-- A row read from the bin leaves the array and every other tile as they are. -/
theorem readRow_bin_kept {d : CtxDef} {a row0 n m : Nat} {tr z : Bool} (op : e.op = .mmul a row0 n tr z none) :
    ArrayKept p s (readRow s c d p e m).1 := by
  simp only [readRow, op]
  split
  · split <;> exact flushSpan_kept ..
  · exact flushSpan_kept ..

end

theorem matrixLoadsAndRows : Claims.MatrixLoadsAndRows := by
  rintro s p c x t e rest win live rfl hw
  refine ⟨fun queued unused ordered written => ⟨fun a d poison op read => ?_, fun a ch s2 bs op items => ?_⟩, fun r again => ?_,
    fun a row0 n tr z q queued op fresh loaded block written ready => ?_⟩
  · have kept := flushSpan_kept s p (a / 64) ((imageBytes e.cfg.toNat + 63) / 64)
    obtain ⟨loadQ, -, buf, other, acc⟩ := loadDone_spec ((flushSpan s p (a / 64) ((imageBytes e.cfg.toNat + 63) / 64)).tile (ckey p))
      e rest d poison
    refine ⟨_, exec_mldComplete_bin live queued unused ordered written op rfl read, ?_⟩
    rw [State.modTile_tile_self]
    rw [kept.mx] at other acc
    exact ⟨loadQ, buf, other, acc, fun j hj => (State.modTile_tile_ne _ _ hj).trans (kept.others j hj)⟩
  · have answer := exec_mldComplete_queue live queued unused ordered written op items
    refine ⟨fun whole => ?_, fun part => by rw [answer, if_neg (Nat.not_le.2 part)]⟩
    rw [if_pos whole] at answer
    obtain ⟨loadQ, loadBytes, buf, -, -⟩ := loadDone_spec (s2.tile (ckey p)) e rest
      (leNat ((bs.take (imageBytes e.cfg.toNat)).map (·.1))) (bs.any (·.2))
    refine ⟨_, answer, onlyTile_modTile .., ?_⟩
    rw [State.modTile_tile_self]
    exact ⟨loadQ, loadBytes, buf⟩
  · have answer := exec_mmulRowEnter_again live hw again
    refine ⟨fun free => ?_, fun full => by rw [answer, full]; rfl⟩
    rw [if_pos free] at answer
    exact ⟨_, answer, onlyTile_modTile .., by rw [State.modTile_tile_self]⟩
  · refine ⟨exec_mmulRowEnter_waits live queued op fresh loaded block written ready hw, fun v s2 free sound read => ?_,
      fun d s2 free read => exec_mmulRowEnter_poison live queued op fresh loaded block written ready hw free read,
      fun v s2 free poisoned read => ?_⟩
    · have answer := exec_mmulRowEnter_bytes live queued op fresh loaded block written ready hw free read
      rw [if_neg (by simp [sound])] at answer
      obtain ⟨rows, acc, last⟩ := enterRow_spec op (s2.tile (ckey p)) rest v win
      refine ⟨_, e.row row0 tr z v, answer, onlyTile_modTile .., ?_⟩
      rw [State.modTile_tile_self]
      refine ⟨rows, rfl, rfl, rfl, rfl, rfl, rfl, rfl, rfl, rfl, rfl, rfl, rfl, acc, last, fun direct => ?_⟩
      subst direct
      have kept := readRow_bin_kept (s := s) (p := p) (c := c) (d := x.cdef) (m := rowBytes e.cfg.toNat) op
      rw [read] at kept
      exact ⟨kept.mx, fun j hj => (State.modTile_tile_ne _ _ hj).trans (kept.others j hj)⟩
    · rw [exec_mmulRowEnter_bytes live queued op fresh loaded block written ready hw free read, if_pos poisoned]
      rfl

end Sys2Proof.Machine

/-! ## Proofs: the witness, the accumulator, drains and current smoothing (R107, R109, R116 to R123) -/

namespace Sys2Proof.Machine

/-! ### The witness (R107, R116 to R119) -/

section
variable {s : State} {p : Coord} {c : Nat} {x : Ctx}

theorem exec_witnessVerdict {r : MRow} {upset : Int} {mismatch : Bool} {v : Bool × Bool × Bool}
    (live : arrayLive s p = some (c, x)) (judged : (s.tile (ckey p)).mx.judged = some r)
    (hv : v = (verdict r ((s.tile (ckey p)).mx.buf r.swapped) upset).parts) :
    exec (.witnessVerdict p upset mismatch) s = .next (if v.1 && !mismatch then
        countPass (s.modTile (ckey p) fun t => { t with mx := { t.mx with rows := passRow t.mx.rows } }) p c r v.2.1 v.2.2
      else if r.attempts < 3 then s.modTile (ckey p) fun t => { t with mx := { t.mx with rows := failRow t.mx.rows } }
      else persistent s p c) := by
  subst hv
  change execWitnessVerdict p upset mismatch s = _
  simp only [execWitnessVerdict, live, judged]
  split
  · rfl
  · split <;> rfl

/-- A passed row that no earlier drain has still to read updates the accumulator and leaves (R98, R107). -/
theorem exec_accumulatorUpdate {r : MRow} {rest : List MRow} (live : arrayLive s p = some (c, x))
    (rows : (s.tile (ckey p)).mx.rows = r :: rest) (passed : r.passed = true)
    (read : (s.tile (ckey p)).mx.drainPending r.num r.accRow = false) :
    exec (.accumulatorUpdate p) s = .next (s.setTile (ckey p)
      { s.tile (ckey p) with mx := { (s.tile (ckey p)).mx.update r with rows := rest } }) := by
  change execAccumulatorUpdate p s = _
  simp only [execAccumulatorUpdate, live, rows, passed, read, Bool.not_false, Bool.and_self, if_true]

end

theorem witnessAndAccumulate : Claims.WitnessAndAccumulate := by
  rintro s p c x t pre post r upset mismatch v live rfl hx
  refine ⟨fun rows before waits entered hv => ?_, fun rest rows passed read => ?_⟩
  · have answer := exec_witnessVerdict (mismatch := mismatch) live (Matrix.judged_of_rows before rows waits entered) hv
    have judged : mismatch = true ∨ v.1 = false → (v.1 && !mismatch) = false := by
      rintro (bad | bad) <;> simp [bad]
    refine ⟨fun agree pass => ?_, fun fails young => ?_, fun fails third => ?_⟩
    · rw [agree, pass] at answer
      refine ⟨(s.modTile (ckey p) fun t => { t with mx := { t.mx with rows := passRow t.mx.rows } }).modTally c fun y =>
        { y with bounded := y.bounded + b2n v.2.1, unchecked := y.unchecked + b2n v.2.2, retries := y.retries + (r.attempts - 1) },
        ?_, ?_, State.modTally_mem .., fun j hj => ?_, by rw [agree]; exact answer⟩
      · rw [State.tile_congr (State.modTally_tiles ..), State.modTile_tile_self]
        simp only [rows, passRow_of_passed before post waits]
      · rw [State.modTally, State.modCtx_ctx, if_pos rfl]
        exact congrArg (Option.map _) hx
      · rw [State.tile_congr (State.modTally_tiles ..), State.modTile_tile_ne _ _ hj]
    · rw [answer, judged fails, if_neg Bool.false_ne_true, if_pos young]
      refine congrArg _ (State.modTile_congr ?_)
      simp only [rows, failRow_of_passed before post waits]
      rfl
    · rw [answer, judged fails, if_neg Bool.false_ne_true, if_neg (Nat.not_lt.2 third)]
      rfl
  · refine ⟨_, exec_accumulatorUpdate live rows passed read, onlyTile_setTile .., ?_⟩
    rw [State.setTile_tile, if_pos rfl]
    refine ⟨rfl, fun o ho => ?_, fun row o ho other => ?_, Matrix.undo_update ..⟩
    · exact (Matrix.accGet_update _ r r.accRow ho).trans (if_pos rfl)
    · exact (Matrix.accGet_update _ r row ho).trans (if_neg other)

/-! ### Drains (R98, R109, R120) -/

/-- The drain at the head of its engine has read all its rows. -/
def drainRead (t : Tile) (count : Nat) : Bool :=
  match t.mx.drainQ with
  | f :: _ => count ≤ f.pos
  | [] => true

/-- What a drain does once it has read: it pushes what its port takes, and leaves its engine where nothing is left. -/
def drainFinish (s : State) (p : Coord) (c : Nat) (x : Ctx) (count : Nat) : Option Nat → State
  | some ch => drainEnd (pushOut s c x.cdef p ch (drainRead (s.tile (ckey p)) count) 8) p count
  | none => drainEnd s p count

/-- The state once a drain has read its next row (R109). -/
def rowTaken (s : State) (p : Coord) (e : MEntry) (rest : List MEntry) (row0 : Nat) (tr clr : Bool) : State :=
  s.setTile (ckey p) { s.tile (ckey p) with mx := (s.tile (ckey p)).mx.takeRow e rest (row0 + e.pos) tr clr }

/-- The output rows that the rows read so far complete: one a row, or with T = 1 all 64 behind the last (R109). -/
def rowsOut (s : State) (p : Coord) (c : Nat) (x : Ctx) (e : MEntry) (count : Nat) (tr : Bool) : State × List (List Byte) :=
  drainOut s c x p e (s.tile (ckey p)).mx.drainBuf
    (if tr then (if (s.tile (ckey p)).mx.drainBuf.length = count then List.range 64 else []) else [e.pos]) tr

/-- The state once a drain has read its next row and given away what is complete (R109, R120). -/
def drainTaken (s : State) (p : Coord) (c : Nat) (x : Ctx) (e : MEntry) (rest : List MEntry) (a row0 count : Nat) (tr clr : Bool)
    (q : Option Nat) : State :=
  let r := rowsOut (rowTaken s p e rest row0 tr clr) p c x e count tr
  match q with
  | some _ => r.1.modTile (ckey p) fun t => { t with mx := { t.mx with outBytes := t.mx.outBytes ++ r.2.flatten } }
  | none => writeRows r.1 p (a + (if tr then 0 else e.pos * outRowBytes e.cfg.toNat 64)) r.2

section
variable {s : State} {p : Coord} {c : Nat} {x : Ctx} {e : MEntry} {rest : List MEntry} {a row0 n : Nat} {tr cl : Bool} {q : Option Nat}

theorem exec_mdrainRowRead (live : arrayLive s p = some (c, x)) (queued : (s.tile (ckey p)).mx.drainQ = e :: rest)
    (op : e.op = .mdrain a row0 n tr cl q) (unread : e.pos < n) (room : (s.tile (ckey p)).mx.outBytes.length < 1024)
    (updated : (s.tile (ckey p)).mx.mmulPending e.num (row0 + e.pos) = false)
    (ordered : (s.tile (ckey p)).mx.entering e.num = false) (loaded : (s.tile (ckey p)).mx.unread e.num e.writes = false) :
    exec (.mdrainRowRead p) s = .next (drainFinish (drainTaken s p c x e rest a row0 n tr cl q) p c x n q) := by
  change execMdrainRowRead p s = _
  have go : (decide (n ≤ e.pos) || decide (1024 ≤ (s.tile (ckey p)).mx.outBytes.length)) = false := by
    simp [unread, room]
  simp only [execMdrainRowRead, live, queued, op, go, updated, ordered, loaded, Bool.or_self, Bool.false_eq_true, if_false]
  cases q <;> rfl

theorem rowTaken_tile : (rowTaken s p e rest row0 tr cl).tile (ckey p) =
    { s.tile (ckey p) with mx := (s.tile (ckey p)).mx.takeRow e rest (row0 + e.pos) tr cl } := by
  rw [rowTaken, State.setTile_tile, if_pos rfl]

/-- Reading a row changes the array by the row taken and by the bytes that wait to be pushed. -/
theorem drainTaken_mx : ∃ o, ((drainTaken s p c x e rest a row0 n tr cl q).tile (ckey p)).mx =
      { (s.tile (ckey p)).mx.takeRow e rest (row0 + e.pos) tr cl with outBytes := o } ∧
    (q = none → o = (s.tile (ckey p)).mx.outBytes) := by
  have kept : ArrayKept p (rowTaken s p e rest row0 tr cl) (rowsOut (rowTaken s p e rest row0 tr cl) p c x e n tr).1 :=
    drainOut_kept ..
  cases q with
  | some ch => exact ⟨_, by rw [drainTaken, State.modTile_tile_self, kept.mx, rowTaken_tile], nofun⟩
  | none =>
    refine ⟨_, (kept.trans (writeRows_kept ..)).mx.trans ?_, fun _ => rfl⟩
    rw [rowTaken_tile]
    rfl

/-- A row read into the bin changes neither memory, nor the core, nor another tile. -/
theorem drainTaken_direct : (drainTaken s p c x e rest a row0 n tr cl none).mem = s.mem ∧
    ((drainTaken s p c x e rest a row0 n tr cl none).tile (ckey p)).core = (s.tile (ckey p)).core ∧
    ∀ j, j ≠ ckey p → (drainTaken s p c x e rest a row0 n tr cl none).tile j = s.tile j := by
  have kept : ArrayKept p (rowTaken s p e rest row0 tr cl) (drainTaken s p c x e rest a row0 n tr cl none) :=
    (drainOut_kept ..).trans (writeRows_kept ..)
  refine ⟨kept.mem, kept.core.trans (by rw [rowTaken_tile]), fun j hj => (kept.others j hj).trans ?_⟩
  rw [rowTaken, State.setTile_tile, if_neg hj]

/-- A drain that has read all its rows and pushed all its bytes leaves its engine. -/
theorem drainEnd_mx (queued : (s.tile (ckey p)).mx.drainQ = e :: rest) : ((drainEnd s p n).tile (ckey p)).mx =
    if n ≤ e.pos ∧ (s.tile (ckey p)).mx.outBytes = [] then { (s.tile (ckey p)).mx with drainQ := rest, drainBuf := [] }
    else (s.tile (ckey p)).mx := by
  rw [drainEnd, State.modTile_tile_self]
  simp only [queued, Bool.and_eq_true, decide_eq_true_eq, List.isEmpty_iff]
  split <;> rfl

theorem drainFinish_mx (queued : (s.tile (ckey p)).mx.drainQ = e :: rest) : ∃ o, ((drainFinish s p c x n q).tile (ckey p)).mx =
      (if n ≤ e.pos ∧ o = [] then { (s.tile (ckey p)).mx with outBytes := o, drainQ := rest, drainBuf := [] }
      else { (s.tile (ckey p)).mx with outBytes := o }) ∧
    (q = none → o = (s.tile (ckey p)).mx.outBytes) := by
  cases q with
  | none => exact ⟨_, drainEnd_mx queued, fun _ => rfl⟩
  | some ch =>
    obtain ⟨o, pushed⟩ := pushOut_mx s c x.cdef p ch (drainRead (s.tile (ckey p)) n) 8
    refine ⟨o, (drainEnd_mx (by rw [pushed]; exact queued)).trans ?_, nofun⟩
    rw [pushed]

/-- The end of a drain changes the array of its tile alone. -/
theorem drainEnd_rest (s : State) (p : Coord) (n : Nat) : (drainEnd s p n).mem = s.mem ∧
    ((drainEnd s p n).tile (ckey p)).core = (s.tile (ckey p)).core ∧ ∀ j, j ≠ ckey p → (drainEnd s p n).tile j = s.tile j := by
  refine ⟨rfl, ?_, fun j hj => State.modTile_tile_ne _ _ hj⟩
  rw [drainEnd, State.modTile_tile_self]
  split
  · split <;> rfl
  · rfl

end

/-! ### Current smoothing (R121 to R123) -/

section
variable {r : Ramp} {cycles hold : Nat}

theorem Ramp.step_rises (up : r.waited = true ∨ r.level < r.target) : (r.step cycles hold).level = min 16 (r.level + 1) := by
  simp only [Ramp.step, Bool.or_eq_true, decide_eq_true_eq, if_pos up]

theorem Ramp.step_falls (still : r.waited = false) (above : r.target < r.level) (held : hold ≤ (r.idle + 1) * cycles) :
    (r.step cycles hold).level = r.level - 1 := by
  simp [Ramp.step, still, above, held, Nat.not_lt.2 (Nat.le_of_lt above)]

theorem Ramp.step_stays (still : r.waited = false) (stays : r.level = r.target ∨
    r.target < r.level ∧ (r.idle + 1) * cycles < hold) : (r.step cycles hold).level = r.level := by
  rcases stays with level | ⟨above, young⟩
  · simp [Ramp.step, still, level]
  · simp [Ramp.step, still, Nat.not_lt.2 (Nat.le_of_lt above), Nat.not_le.2 young]

theorem Ramp.step_bounded (bounded : r.level ≤ 16) : (r.step cycles hold).level ≤ 16 := by
  unfold Ramp.step
  extract_lets idle level
  change level ≤ 16
  unfold level
  split
  · exact Nat.min_le_left ..
  · split <;> omega

end

/-- An interval of the current smoothing ends (R122). -/
theorem exec_arrayLevelStep {s : State} {p : Coord} {w : Nat} (clocked : s.clk.tilesStopped = false)
    (hw : w = (cfgInForce s 0x2240 1).toNat) : exec (.arrayLevelStep p) s =
      .next (s.modTile (ckey p) fun t => { t with ramp := t.ramp.step (bits w 0 11) (64 * bits w 16 8) }) := by
  subst hw
  change execArrayLevelStep p s = _
  rw [execArrayLevelStep, clocked]
  rfl

theorem drainAndSmoothing : Claims.DrainAndSmoothing := by
  rintro s p c x t e rest w rfl clocked hw
  refine ⟨fun a row0 n tr cl q live queued op unread room updated ordered loaded => ?_, ?_, fun upset quiet => ?_,
    fun upset works fails => ?_⟩
  · obtain ⟨o, taken, kept⟩ := drainTaken_mx (s := s) (p := p) (c := c) (x := x) (e := e) (rest := rest) (a := a) (row0 := row0)
      (n := n) (tr := tr) (cl := cl) (q := q)
    obtain ⟨o', mx, kept'⟩ := drainFinish_mx (s := drainTaken s p c x e rest a row0 n tr cl q) (p := p) (c := c) (x := x) (n := n)
      (q := q) (e := { e with pos := e.pos + 1 }) (rest := rest) (by rw [taken]; rfl)
    rw [taken] at mx kept'
    have acc : (((drainFinish (drainTaken s p c x e rest a row0 n tr cl q) p c x n q).tile (ckey p)).mx).acc =
        ((s.tile (ckey p)).mx.takeRow e rest (row0 + e.pos) tr cl).acc := by rw [mx]; split <;> rfl
    have entry (row : Nat) {o : Nat} (ho : o < 64) := Matrix.accGet_takeRow (s.tile (ckey p)).mx e rest (row0 + e.pos) tr cl row ho
    refine ⟨_, exec_mdrainRowRead live queued op unread room updated ordered loaded, fun o ho => ?_, fun row o ho other => ?_, ?_,
      fun more => ?_, fun direct => ⟨fun last empty => ?_, ?_⟩⟩
    · rw [Matrix.accGet, acc]
      refine (entry _ ho).trans ?_
      simp only [true_and]
    · rw [Matrix.accGet, acc]
      exact (entry row ho).trans (if_neg fun h => other h.1)
    · rw [mx]
      split
      · exact .inl rfl
      · exact .inr rfl
    · rw [mx, if_neg fun h => absurd h.1 (Nat.not_le.2 more)]
      rfl
    · rw [mx, if_pos ⟨last, (kept' direct).trans ((kept direct).trans empty)⟩]
    · subst direct
      obtain ⟨mem, core, others⟩ := drainTaken_direct (s := s) (p := p) (c := c) (x := x) (e := e) (rest := rest) (a := a)
        (row0 := row0) (n := n) (tr := tr) (cl := cl)
      obtain ⟨mem', core', others'⟩ := drainEnd_rest (drainTaken s p c x e rest a row0 n tr cl none) p n
      exact ⟨mem'.trans mem, core'.trans core, fun j hj => (others' j hj).trans (others j hj)⟩
  · refine ⟨_, exec_arrayLevelStep clocked hw, onlyTile_modTile .., ?_⟩
    rw [State.modTile_tile_self]
    exact ⟨rfl, Ramp.step_rises, Ramp.step_falls, fun still above young => Ramp.step_stays still (.inr ⟨above, young⟩),
      fun still level => Ramp.step_stays still (.inl level), Ramp.step_bounded, rfl⟩
  · change execDummyPass p upset s = _
    rcases quiet with idle | pass
    · simp [execDummyPass, idle]
    · simp [execDummyPass, pass]
  · change execDummyPass p upset s = _
    simp only [execDummyPass, clocked, works, fails, decide_false, Bool.or_self, Bool.false_eq_true, if_false]

/-- Settles O18: each engine by what it takes from its queue, and what its step leaves of the array. -/
theorem matrixEngines : Obligations.MatrixEngines :=
  ⟨matrixDispatchResults, matrixLoadsAndRows, witnessAndAccumulate, drainAndSmoothing⟩

end Sys2Proof.Machine

/-! ## Proofs: what stop orders and remaps leave of a context (R27, R333, R336, R351, R352, R367, R396) -/

namespace Sys2Proof.Machine

/-! ### A context changed -/

section
variable {s u v : State} {c : Nat} {x : Ctx}

theorem State.ctx_congr (h : u.ctxs = s.ctxs) (c : Nat) : u.ctx c = s.ctx c := by simp only [State.ctx, h]

theorem State.modCtx_ctx_self (hx : s.ctx c = some x) (f : Ctx → Ctx) : (s.modCtx c f).ctx c = some (f x) := by
  rw [State.modCtx_ctx, if_pos rfl, hx, Option.map_some]

theorem State.modRec_ctx_self (hx : s.ctx c = some x) (f : CtxRec → CtxRec) :
    (s.modRec c f).ctx c = some { x with rec_ := f x.rec_ } := State.modCtx_ctx_self hx _

theorem State.modRun_ctx_self (hx : s.ctx c = some x) (f : CtxRun → CtxRun) :
    (s.modRun c f).ctx c = some { x with run := f x.run } := State.modCtx_ctx_self hx _

theorem State.modTally_ctx_self (hx : s.ctx c = some x) (f : CtxTally → CtxTally) :
    (s.modTally c f).ctx c = some { x with tally := f x.tally } := State.modCtx_ctx_self hx _

/-- A live context stays live with its definition, and a reset in progress goes on. -/
structure CtxKept (c : Nat) (s u : State) : Prop where
  ctx : ∀ x, s.ctx c = some x → ∃ y, u.ctx c = some y ∧ y.cdef = x.cdef ∧ (x.rec_.state = 2 → y.rec_.state = 2)

theorem CtxKept.of_ctxs (h : u.ctxs = s.ctxs) : CtxKept c s u where
  ctx x hx := ⟨x, (State.ctx_congr h c).trans hx, rfl, id⟩

theorem CtxKept.refl (s : State) : CtxKept c s s := .of_ctxs rfl

theorem CtxKept.trans (h : CtxKept c s u) (k : CtxKept c u v) : CtxKept c s v where
  ctx x hx := by
    obtain ⟨y, hy, cdef, state⟩ := h.ctx x hx
    obtain ⟨z, hz, cdef', state'⟩ := k.ctx y hy
    exact ⟨z, hz, cdef'.trans cdef, state' ∘ state⟩

/-- Any context changed, its definition and a reset in progress kept. -/
theorem CtxKept.modCtx (h : CtxKept c s u) {d : Nat} {f : Ctx → Ctx} (cdef : ∀ x, (f x).cdef = x.cdef)
    (state : ∀ x, x.rec_.state = 2 → (f x).rec_.state = 2) : CtxKept c s (u.modCtx d f) := h.trans
  { ctx := fun x hx => by
      by_cases here : c = d
      · subst here
        exact ⟨f x, State.modCtx_ctx_self hx f, cdef x, state x⟩
      · exact ⟨x, by rw [State.modCtx_ctx, if_neg here, hx], rfl, id⟩ }

theorem CtxKept.modRec (h : CtxKept c s u) {d : Nat} {f : CtxRec → CtxRec} (state : ∀ r, r.state = 2 → (f r).state = 2) :
    CtxKept c s (u.modRec d f) := h.modCtx (fun _ => rfl) fun x => state x.rec_

theorem CtxKept.modRun (h : CtxKept c s u) {d : Nat} {f : CtxRun → CtxRun} : CtxKept c s (u.modRun d f) :=
  h.modCtx (fun _ => rfl) fun _ => id

theorem CtxKept.raise (h : CtxKept c s u) {name : Ev} {data : List Nat} : CtxKept c s (raise u name data) :=
  h.trans (.of_ctxs rfl)

/-- A fold of steps that each leave the contexts as they are leaves them so. -/
theorem foldl_ctxs {α : Type} {f : State → α → State} (hf : ∀ s a, (f s a).ctxs = s.ctxs) (l : List α) (s : State) :
    (l.foldl f s).ctxs = s.ctxs :=
  List.foldlRecOn (motive := fun u : State => u.ctxs = s.ctxs) l f rfl fun u h a _ => (hf u a).trans h

/-! ### A stop order, and a context that is already in its reset (R367, R396) -/

theorem beginReset_kept (s : State) (d : Nat) (x : Ctx) (cause : Nat) (target : Option DWord) (remap : List Nat) :
    CtxKept c s (beginReset s d x cause target remap) := by
  unfold beginReset
  extract_lets again rcv tgt faulted advanced unpaused
  have noted : CtxKept c s faulted := (CtxKept.refl s).modCtx (fun _ => rfl) fun _ => id
  have unpaused_ : CtxKept c s unpaused := noted.trans (.of_ctxs rfl)
  exact unpaused_.modCtx (fun _ => rfl) fun _ _ => rfl

theorem mergeCause_kept (s : State) (d : Nat) (x : Ctx) (cause : Nat) (target : Option DWord) (remap : List Nat) :
    CtxKept c s (mergeCause s d x cause target remap) := by
  unfold mergeCause
  dsimp only
  split
  · exact (CtxKept.refl s).modRec fun _ => id
  · split
    · exact (CtxKept.refl s).modRec fun _ => id
    · split <;> exact (CtxKept.refl s).modRec fun _ => id

theorem stopState_kept (s : State) (d : Nat) (x : Ctx) (cause : Nat) (target : Option DWord) (remap : List Nat) :
    CtxKept c s (stopState s d x cause target remap) := by
  unfold stopState
  split
  · exact beginReset_kept ..
  · exact mergeCause_kept ..
  · split
    · exact mergeCause_kept ..
    · refine .trans ?_ (beginReset_kept ..)
      exact (CtxKept.refl s).modRec fun _ => id
  · split
    · exact (CtxKept.refl s).modRec fun _ => id
    · exact beginReset_kept ..
  · split
    · exact (CtxKept.refl s).modRec fun _ => id
    · exact beginReset_kept ..
  · exact .refl s

theorem abortAdm_kept (s : State) (cause : Nat) : CtxKept c s (abortAdm s cause) := by
  unfold abortAdm
  refine CtxKept.raise (.modRec (.of_ctxs ?_) ?_)
  · rfl
  · exact fun _ state => state

theorem stopCtx_kept (s : State) (d cause : Nat) (target : Option DWord) (remap : List Nat) :
    CtxKept c s (stopCtx s d cause target remap) := by
  unfold stopCtx
  split
  · exact .refl s
  · split
    · exact (abortAdm_kept s 5).trans (stopState_kept ..)
    · exact stopState_kept ..

end

/-! ### Moves taken back, and remaps (R27, R333, R336, R351, R352) -/

section
variable {s u v : State} {c : Nat}

/-- Memory stays as it is, and a context with its definition and its reset. -/
structure Remapped (c : Nat) (s u : State) : Prop where
  mem : u.mem = s.mem
  kept : CtxKept c s u

theorem Remapped.of_eq (mem : u.mem = s.mem) (ctxs : u.ctxs = s.ctxs) : Remapped c s u := ⟨mem, .of_ctxs ctxs⟩

theorem Remapped.refl (s : State) : Remapped c s s := .of_eq rfl rfl

theorem Remapped.trans (h : Remapped c s u) (k : Remapped c u v) : Remapped c s v := ⟨k.mem.trans h.mem, h.kept.trans k.kept⟩

/-- A step taken from a state with the same memory and contexts. -/
theorem Remapped.after (k : Remapped c u v) (mem : u.mem = s.mem) (ctxs : u.ctxs = s.ctxs) : Remapped c s v :=
  .trans (.of_eq mem ctxs) k

theorem remapped_foldl {α : Type} {f : State → α → State} (hf : ∀ s a, Remapped c s (f s a)) (l : List α) (s : State) :
    Remapped c s (l.foldl f s) :=
  List.foldlRecOn (motive := Remapped c s) l f (.refl s) fun u h a _ => h.trans (hf u a)

theorem takeExc_remapped (s : State) (p : Coord) (code pc : Nat) (slotB : Bool) (detail : Nat) :
    Remapped c s (takeExc s p code pc slotB detail) := by
  refine ⟨takeExc_mem .., ?_⟩
  unfold takeExc
  split
  · exact .refl s
  · extract_lets stopped recorded noted
    have noted_ : CtxKept c s noted := by
      unfold noted
      split
      · exact .of_ctxs rfl
      · refine CtxKept.raise (.modRun (.of_ctxs ?_))
        rfl
    exact noted_.trans (stopCtx_kept ..)

theorem advance_remapped (s : State) (p : Coord) : Remapped c s (advance s p) := by
  unfold advance advanceAt
  dsimp only
  split
  · exact .of_eq rfl rfl
  · exact (takeExc_remapped ..).after rfl rfl

theorem cancelMove_remapped (s : State) (k : Nat) : Remapped c s (cancelMove s k) := by
  unfold cancelMove
  split
  · extract_lets wasHeld freed
    have back : Remapped c s freed := .of_eq rfl rfl
    split
    · exact back.trans ((advance_remapped ..).after rfl rfl)
    · exact back
  · exact .refl s

theorem cancelRow_remapped (s : State) (die row : Nat) : Remapped c s (cancelRow s die row) :=
  (remapped_foldl cancelMove_remapped _ s).trans (.of_eq rfl rfl)

theorem jumpGap_remapped (s : State) (die row old : Nat) : Remapped c s (jumpGap s die row old) := by
  unfold jumpGap
  extract_lets r g cancelled opened spared gapped
  have cancelled_ : Remapped c s cancelled := by
    unfold cancelled
    split
    · exact cancelMove_remapped ..
    · exact .refl s
  have spared_ : Remapped c cancelled spared := by
    unfold spared
    split <;> exact .of_eq rfl rfl
  have gapped_ : Remapped c spared gapped := by
    unfold gapped
    cases g <;> exact .of_eq rfl rfl
  exact cancelled_.trans (spared_.trans (gapped_.trans (.of_eq rfl rfl)))

theorem coldStep_remapped (s : State) (k h : Nat) : Remapped c s (coldStep s k h) := by
  unfold coldStep
  extract_lets old wasGap bound left_
  have moved : Remapped c s left_ := by
    unfold left_
    cases old with
    | none => exact .of_eq rfl rfl
    | some p => dsimp only; split <;> exact .of_eq rfl rfl
  split
  · exact moved.trans (jumpGap_remapped ..)
  · exact moved

theorem coldMoves_remapped (s : State) (p h : Nat) : Remapped c s (coldMoves s p h) := by
  unfold coldMoves
  extract_lets wasGap cancelled chain r
  have moved : Remapped c s r.1 :=
    List.foldlRecOn (motive := fun a : State × Nat => Remapped c s a.1) chain _ (cancelRow_remapped ..)
      fun a h k _ => h.trans (.of_eq rfl rfl)
  split
  · exact moved.trans (jumpGap_remapped ..)
  · exact moved

theorem remapTile_remapped (s : State) (d k : Nat) : Remapped c s (remapTile s d k) := by
  unfold remapTile
  split
  · split
    · exact .refl s
    · split
      · exact coldMoves_remapped ..
      · exact .refl s
  · exact .refl s

theorem chainStep_remapped {d p : Nat} {r : State × Bool} (h : chainStep s d p = some r) : Remapped c s r.1 := by
  unfold chainStep at h
  split at h
  · cases h
  · obtain ⟨hole, -, h⟩ := Option.bind_eq_some_iff.1 h
    obtain ⟨m, -, h⟩ := Option.bind_eq_some_iff.1 h
    split at h
    · cases h
      exact (cancelRow_remapped ..).trans (coldStep_remapped ..)
    · split at h
      · cases h
      · cases h
        exact (cancelRow_remapped ..).trans (.of_eq rfl rfl)

theorem chainGo_remapped (d p n : Nat) (s : State) : Remapped c s (chainGo d p n s) := by
  induction n generalizing s with
  | zero => exact .refl s
  | succ n ih =>
    unfold chainGo
    split
    · rename_i u step
      exact (chainStep_remapped step).trans (ih u)
    · rename_i u step
      exact chainStep_remapped step
    · exact .refl s

theorem orderWarmMoves_remapped (s : State) (d k : Nat) : Remapped c s (orderWarmMoves s d k) := by
  unfold orderWarmMoves
  split
  · exact .refl s
  · split
    · exact .refl s
    · split
      · exact .refl s
      · extract_lets n
        unfold chainOn
        split
        · exact (chainGo_remapped ..).after rfl rfl
        · exact .of_eq rfl rfl

end

end Sys2Proof.Machine

/-! ## Proofs: memory lines read and stored, and entries sent on, leave the contexts alone (R263 to R265, R270, R275, R309) -/

namespace Sys2Proof.Machine

section
variable (s : State) (errs : List LineCheck)

@[simp] theorem noteReports_ctxs : (noteReports s errs).ctxs = s.ctxs := by rw [(noteReports_noted s errs).rest]

@[simp] theorem countFail_ctxs (ch : Nat) : (countFail s ch).ctxs = s.ctxs := by
  unfold countFail
  dsimp only
  split <;> rfl

@[simp] theorem lostLine_ctxs (a : Nat) : (lostLine s a).1.ctxs = s.ctxs := by
  unfold lostLine
  dsimp only
  split <;> rfl

@[simp] theorem lineWrite_ctxs (a : Nat) (l : Line) : (lineWrite s a l).ctxs = s.ctxs := by
  unfold lineWrite
  split
  · rfl
  · dsimp only
    split <;> rfl

@[simp] theorem chanRead_ctxs (stripe row q : Nat) : (chanRead s errs stripe row q).1.ctxs = s.ctxs := by
  unfold chanRead
  dsimp only
  split
  · rfl
  · split
    · rfl
    · exact countFail_ctxs ..

@[simp] theorem rowRead_ctxs (stripe row : Nat) (qs : List Nat) : (rowRead s errs stripe row qs).1.ctxs = s.ctxs := by
  refine List.foldlRecOn (motive := fun r : State × Line × List Nat => r.1.ctxs = s.ctxs) qs _ rfl fun r h q _ => ?_
  have read := (chanRead_ctxs r.1 errs stripe row q).trans h
  split <;> rename_i found <;> rw [found] at read <;> exact read

@[simp] theorem rowLost_ctxs (stripe row : Nat) (qs : List Nat) (source : Nat) : (rowLost s stripe row qs source).ctxs = s.ctxs :=
  foldl_ctxs (fun s q => by split <;> rfl) qs s

@[simp] theorem rebuildLine_ctxs (a source : Nat) : (rebuildLine s errs a source).1.ctxs = s.ctxs := by
  unfold rebuildLine
  extract_lets stripe row q gone
  split
  · have read := rowRead_ctxs s errs stripe row ((List.range 12).filter fun p => p != q)
    split
    · rename_i found
      rw [found] at read
      dsimp only
      split
      · exact read
      · rw [lineWrite_ctxs]; exact read
    · rename_i found
      rw [found] at read
      rw [rowLost_ctxs]; exact read
  · exact rowLost_ctxs ..

@[simp] theorem lineRead_ctxs (a source : Nat) : (lineRead s errs a source).1.ctxs = s.ctxs := by
  unfold lineRead
  split
  · exact lostLine_ctxs ..
  · split
    · exact rebuildLine_ctxs ..
    · have read := chanRead_ctxs s errs (stripeOf a) (lineRow a) (rowPos a)
      split
      · rename_i found
        rw [found] at read; exact read
      · rename_i found
        rw [found] at read
        rw [rebuildLine_ctxs]; exact read

@[simp] theorem linesRead_ctxs (a source n : Nat) : (linesRead s errs a source n).1.ctxs = s.ctxs := by
  induction n with
  | zero => rfl
  | succ n ih =>
    simp only [linesRead, lineRead_ctxs]
    exact ih

@[simp] theorem readForWrite_ctxs (stripe row : Nat) (qs : List Nat) : (readForWrite s errs stripe row qs).ctxs = s.ctxs := by
  refine foldl_ctxs (fun s q => ?_) qs s
  split
  · exact lineRead_ctxs ..
  · have read := chanRead_ctxs s errs stripe row q
    split
    · rename_i found
      rw [found] at read; exact read
    · rename_i found
      rw [found] at read
      rw [rowLost_ctxs]; exact read

@[simp] theorem storeRow_ctxs (a : Nat) (ls : List Line) : (storeRow s errs a ls).ctxs = s.ctxs := by
  unfold storeRow
  rw [foldl_ctxs fun s e => lineWrite_ctxs s _ _, readForWrite_ctxs]

@[simp] theorem storeRows_ctxs (n a : Nat) (ls : List Line) : (storeRows errs n s a ls).ctxs = s.ctxs := by
  induction n generalizing s a ls with
  | zero => rfl
  | succ n ih =>
    unfold storeRows
    split
    · rfl
    · rw [ih, storeRow_ctxs]

@[simp] theorem entryLines_ctxs (t : Txn) : (entryLines s errs t).1.ctxs = s.ctxs := by
  unfold entryLines
  split
  · rfl
  · exact lineRead_ctxs ..

@[simp] theorem storeEntry_ctxs (t : Txn) : (storeEntry s errs t).ctxs = s.ctxs := by
  unfold storeEntry
  split
  · rfl
  · split
    · exact foldl_ctxs (fun s e => storeRows_ctxs s errs _ _ _) _ s
    · exact (storeRows_ctxs ..).trans (entryLines_ctxs ..)

@[simp] theorem copyPage_ctxs (d : CtxDef) (page : Nat) : (copyPage s errs d page).ctxs = s.ctxs := by
  simp only [copyPage, storeRows_ctxs, linesRead_ctxs]

@[simp] theorem sendReply_ctxs (south : Bool) (p : Packet) : (sendReply s south p).ctxs = s.ctxs := by
  unfold sendReply sendPacket
  cases routeFrom s south allSlots p none <;> rfl

@[simp] theorem putBytes_ctxs (a : Nat) (bs : List Byte) : (putBytes s a bs).ctxs = s.ctxs := by
  unfold putBytes
  split
  · exact foldl_ctxs (fun s l => by split <;> rfl) _ s
  · rfl

@[simp] theorem putBytes_tiles (a : Nat) (bs : List Byte) : (putBytes s a bs).tiles = s.tiles := by
  unfold putBytes
  split
  · exact List.foldlRecOn (motive := fun u : State => u.tiles = s.tiles) _ _ rfl fun u h l _ => by split <;> exact h
  · rfl

end

/-! ### The mesh and the entries -/

section
variable {s u v : State}

/-- States that differ in the mesh and in main memory alone. -/
structure MeshOnly (s u : State) : Prop where
  rest : u = { s with mesh := u.mesh, mem := u.mem }

theorem MeshOnly.refl (s : State) : MeshOnly s s := ⟨rfl⟩

theorem MeshOnly.trans (h : MeshOnly s u) (k : MeshOnly u v) : MeshOnly s v := ⟨by rw [k.rest, h.rest]⟩

theorem MeshOnly.tiles (h : MeshOnly s u) : u.tiles = s.tiles := by rw [h.rest]
theorem MeshOnly.ctxs (h : MeshOnly s u) : u.ctxs = s.ctxs := by rw [h.rest]
theorem MeshOnly.events (h : MeshOnly s u) : u.events = s.events := by rw [h.rest]

/-- The flits of an entry that leave change the mesh and the entry alone (R275). -/
theorem pumpEntry_meshOnly (s : State) (n : Nat) : MeshOnly s (pumpEntry s n) := by
  unfold pumpEntry
  split
  · exact .refl s
  · extract_lets l r
    have sent : MeshOnly s r.1 := by
      refine List.foldlRecOn (motive := fun r : State × Nat => MeshOnly s r.1) _ _ (.refl s) fun r h f _ => ?_
      split
      · exact h.trans ⟨rfl⟩
      · exact h
    split <;> exact sent.trans ⟨rfl⟩

theorem releaseInbound_meshOnly (s : State) (c : Nat) : MeshOnly s (releaseInbound s c) := by
  refine List.foldlRecOn (motive := MeshOnly s) _ _ (.refl s) fun u h e _ => h.trans ?_
  unfold sendInbound
  split
  · exact .refl u
  · exact MeshOnly.trans ⟨rfl⟩ (pumpEntry_meshOnly ..)

end

end Sys2Proof.Machine

/-! ## Proofs: folds over the tiles of a context -/

namespace Sys2Proof.Machine

section
variable {s u v : State}

/-- States that differ in their tiles alone. -/
structure TilesOnly (s u : State) : Prop where
  rest : u = { s with tiles := u.tiles }

theorem TilesOnly.refl (s : State) : TilesOnly s s := ⟨rfl⟩

theorem TilesOnly.trans (h : TilesOnly s u) (k : TilesOnly u v) : TilesOnly s v := ⟨by rw [k.rest, h.rest]⟩

theorem TilesOnly.mem (h : TilesOnly s u) : u.mem = s.mem := by rw [h.rest]
theorem TilesOnly.events (h : TilesOnly s u) : u.events = s.events := by rw [h.rest]
theorem TilesOnly.clk (h : TilesOnly s u) : u.clk = s.clk := by rw [h.rest]
theorem TilesOnly.ctx (h : TilesOnly s u) (c : Nat) : u.ctx c = s.ctx c := State.ctx_congr (by rw [h.rest]) c

theorem tilesOnly_foldl {α : Type} {f : State → α → State} (hf : ∀ s a, TilesOnly s (f s a)) (l : List α) (s : State) :
    TilesOnly s (l.foldl f s) :=
  List.foldlRecOn (motive := TilesOnly s) l f (.refl s) fun u h a _ => h.trans (hf u a)

/-- Tiles changed one after another, by a change that a second time changes nothing. -/
theorem foldl_modTile_tile {f : Tile → Tile} (twice : ∀ t, f (f t) = f t) (l : List Nat) (s : State) (j : Nat) :
    (l.foldl (fun s k => s.modTile k f) s).tile j = if j ∈ l then f (s.tile j) else s.tile j := by
  induction l generalizing s with
  | nil => rfl
  | cons k l ih =>
    rw [List.foldl_cons, ih, State.modTile_tile]
    by_cases here : j = k
    · subst here; simp [twice]
    · simp [here]

/-- A property of a tile that a step gives the tile it changes holds of each tile of a fold, and of those that had it before. -/
theorem foldl_tile_holds {α : Type} {f : State → α → State} {key : α → Nat} {P : Tile → Prop}
    (given : ∀ s a, P ((f s a).tile (key a))) (others : ∀ s a j, j ≠ key a → (f s a).tile j = s.tile j) (l : List α) (s : State)
    {j : Nat} (h : (∃ a ∈ l, key a = j) ∨ P (s.tile j)) : P ((l.foldl f s).tile j) := by
  induction l generalizing s with
  | nil => simpa using h
  | cons a l ih =>
    refine ih (f s a) ?_
    by_cases here : j = key a
    · subst here; exact .inr (given s a)
    · rw [others s a j here]
      rcases h with ⟨b, hb, same⟩ | held
      · rcases List.mem_cons.1 hb with rfl | later
        · exact absurd same.symm here
        · exact .inl ⟨b, later, same⟩
      · exact .inr held

end

end Sys2Proof.Machine

/-! ## Proofs: stop orders (R276, R373, R374) -/

namespace Sys2Proof.Machine

section
variable {s u : State} {c : Nat} {x : Ctx} {e : StopEngine} {errs : List LineCheck}

/-- A tile that has stopped is not changed by a second stop order. -/
theorem stopTile_stopTile (t : Tile) : stopTile (stopTile t) = stopTile t := by
  unfold stopTile
  cases t.core.run <;> rfl

theorem stopGranary_ctxs (s : State) (errs : List LineCheck) (c : Nat) (x : Ctx) (north : Bool) :
    (stopGranary s errs c x north).ctxs = s.ctxs := by
  unfold stopGranary
  extract_lets mine noted copied mem ended own stored
  have copied_ : copied.ctxs = s.ctxs := (foldl_ctxs (fun s k => copyPage_ctxs s errs _ _) _ noted).trans (noteReports_ctxs s errs)
  have stored_ : stored.ctxs = ended.ctxs := 
    foldl_ctxs (f := fun s (e : Nat × Txn) => dropTxn (storeEntry s errs e.2) e.1) (fun s e => storeEntry_ctxs s errs e.2) _ ended
  exact stored_.trans copied_

theorem stopLinks_ctxs (s : State) (c : Nat) (x : Ctx) (north : Bool) : (stopLinks s c x north).ctxs = s.ctxs := by
  unfold stopLinks
  extract_lets mine
  split
  · exact foldl_ctxs (fun s e => by split <;> rfl) mine s
  · refine foldl_ctxs (fun s e => ?_) mine s
    dsimp only
    split
    · exact sendReply_ctxs ..
    · rfl

/-- The other entries in force and the restart of the field port leave all but the dictionary, the field port and the free values. -/
theorem adoptModule_rest (s : State) :
    adoptModule s = { s with dict := (adoptModule s).dict, field := (adoptModule s).field, draws := (adoptModule s).draws } := by
  unfold adoptModule
  dsimp only
  split <;> rfl

theorem leavePrev_rest (s : State) (c : Nat) :
    leavePrev s c = { s with dict := (leavePrev s c).dict, field := (leavePrev s c).field, draws := (leavePrev s c).draws } := by
  unfold leavePrev settleSwap
  split
  · rw [adoptModule_rest]
  · rfl

/-- What an engine makes of its work at the stop order of a context (R373, R374). -/
def engineStopped (s : State) (errs : List LineCheck) (c : Nat) (x : Ctx) : StopEngine → State
  | .tiles => x.cdef.keys.foldl (fun s k => s.modTile k stopTile) s
  | .routers => (clearRouters (dropLoadCircuits s c x.cdef) x.cdef).modRun c fun r =>
      { r with arrived := [], releasing := false, heard := [], released := false }
  | .granaryN => stopGranary s errs c x true
  | .granaryS => stopGranary s errs c x false
  | .linksN => stopLinks s c x true
  | .linksS => stopLinks s c x false
  | .steward => leavePrev s c

theorem exec_contextStopOrder (hx : s.ctx c = some x) (resetting : x.rec_.state = 2) (fresh : e ∉ x.rec_.stopDone)
    (still : e = .tiles → ∀ k ∈ x.cdef.keys, (s.tile k).moveStage = 0) :
    exec (.contextStopOrder c e errs) s = .next (stopDone (engineStopped s errs c x e) c e) := by
  change execContextStopOrder c e errs s = _
  have go : (x.rec_.state != 2 || x.rec_.stopDone.contains e) = false := by simp [resetting, fresh]
  simp only [execContextStopOrder, hx, go, Bool.false_eq_true, if_false]
  cases e with
  | tiles =>
    have unmoved : (x.cdef.keys.any fun k => (s.tile k).moveStage != 0) = false := by simpa using still rfl
    simp only [unmoved, Bool.false_eq_true, if_false, engineStopped]
  | _ => rfl

theorem engineStopped_kept (s : State) (errs : List LineCheck) (c : Nat) (x : Ctx) (e : StopEngine) :
    CtxKept c s (engineStopped s errs c x e) := by
  cases e with
  | tiles => exact .of_ctxs (foldl_ctxs (f := fun s k => s.modTile k stopTile) (fun _ _ => rfl) _ s)
  | routers =>
    have circuits : CtxKept c s (dropLoadCircuits s c x.cdef) := ⟨fun y hy => by
      obtain ⟨n, hn⟩ := (dropLoadCircuits_circuited s c x.cdef).ctx y hy
      exact ⟨_, hn, rfl, id⟩⟩
    have cleared : CtxKept c s (clearRouters (dropLoadCircuits s c x.cdef) x.cdef) := circuits.trans (.of_ctxs rfl)
    unfold engineStopped
    exact cleared.modRun
  | granaryN => exact .of_ctxs (stopGranary_ctxs ..)
  | granaryS => exact .of_ctxs (stopGranary_ctxs ..)
  | linksN => exact .of_ctxs (stopLinks_ctxs ..)
  | linksS => exact .of_ctxs (stopLinks_ctxs ..)
  | steward => exact .of_ctxs (congrArg State.ctxs (leavePrev_rest s c) :)

/-- An engine that keeps a reset in progress notes that it is done. -/
theorem stopDone_ctx (kept : CtxKept c s u) (hx : s.ctx c = some x) (resetting : x.rec_.state = 2) (e : StopEngine) :
    ∃ y, (stopDone u c e).ctx c = some y ∧ e ∈ y.rec_.stopDone ∧ y.rec_.state = 2 := by
  obtain ⟨y, hy, -, state⟩ := kept.ctx x hx
  refine ⟨_, State.modRec_ctx_self hy _, ?_, state resetting⟩
  dsimp only
  split
  · rename_i done
    exact List.contains_iff_mem.1 done
  · exact List.mem_cons_self ..

end

theorem stopOrders : Claims.StopOrders := by
  intro s c x hx resetting
  refine ⟨fun e errs fresh still => ?_, fun errs fresh still => ?_⟩
  · obtain ⟨y, hy, done, state⟩ := stopDone_ctx (engineStopped_kept s errs c x e) hx resetting e
    exact ⟨_, y, exec_contextStopOrder hx resetting fresh still, hy, done, state⟩
  · have tile (k : Nat) : (stopDone (engineStopped s errs c x .tiles) c .tiles).tile k =
        if k ∈ x.cdef.keys then stopTile (s.tile k) else s.tile k :=
      (State.tile_congr (State.modRec_tiles ..) k).trans (foldl_modTile_tile stopTile_stopTile _ s k)
    have mem : (stopDone (engineStopped s errs c x .tiles) c .tiles).mem = s.mem :=
      (State.modRec_mem ..).trans (tilesOnly_foldl (f := fun s k => s.modTile k stopTile) (fun _ _ => ⟨rfl⟩) _ s).mem
    refine ⟨_, exec_contextStopOrder hx resetting fresh fun _ => still, mem, fun k hk => ?_, fun k hk => ?_⟩
    · rw [tile k, if_pos hk]
      refine ⟨?_, rfl, rfl, rfl, rfl, rfl, rfl, rfl, rfl⟩
      simp only [stopTile, beq_iff_eq]
    · rw [tile k, if_neg hk]

end Sys2Proof.Machine

/-! ## Proofs: the end of a context reset (R181, R366, R373, R375, R384, R393) -/

namespace Sys2Proof.Machine

section
variable {s u : State} {c : Nat} {x z : Ctx} {readable : Bool}

theorem clearedTile_clearedTile (t : Tile) : clearedTile (clearedTile t) = clearedTile t := rfl

/-- A context whose reset is complete: its tiles cleared, the event raised, and the time noted (R375). -/
def resetCleared (s : State) (c : Nat) (x : Ctx) : State :=
  let s := raise (x.cdef.keys.foldl (fun s k => s.modTile k clearedTile) s) .contextResetDone [c, x.rec_.cause.toNat]
  s.modRec c fun r => { r with marks := [now s] }

/-- A context that notes the time at which its reset was complete. -/
def Ctx.marked (x : Ctx) (n : Nat) : Ctx := { x with rec_ := { x.rec_ with marks := [n] } }

theorem cleared_tilesOnly (s : State) (l : List Nat) : TilesOnly s (l.foldl (fun s k => s.modTile k clearedTile) s) :=
  tilesOnly_foldl (fun _ _ => ⟨rfl⟩) l s

theorem resetCleared_now (s : State) (c : Nat) (x : Ctx) : now (resetCleared s c x) = now s :=
  congrArg Clocks.timeUs ((State.modRec_clk ..).trans (cleared_tilesOnly s x.cdef.keys).clk)

theorem resetCleared_ctx (hx : s.ctx c = some x) : (resetCleared s c x).ctx c = some (x.marked (now s)) := by
  have cleared := cleared_tilesOnly s x.cdef.keys
  have time : x.marked (now s) = x.marked (now (x.cdef.keys.foldl (fun s k => s.modTile k clearedTile) s)) :=
    congrArg (fun clk : Clocks => x.marked clk.timeUs) cleared.clk.symm
  rw [time]
  exact State.modRec_ctx_self ((State.ctx_congr (raise_ctxs ..) c).trans ((cleared.ctx c).trans hx)) _

theorem resetCleared_tile (s : State) (c : Nat) (x : Ctx) (k : Nat) :
    (resetCleared s c x).tile k = if k ∈ x.cdef.keys then clearedTile (s.tile k) else s.tile k :=
  (State.tile_congr (State.modRec_tiles ..) k).trans (foldl_modTile_tile clearedTile_clearedTile _ s k)

theorem exec_contextResetComplete (hx : s.ctx c = some x) (resetting : x.rec_.state = 2) (drained : resetDrained s c x = true)
    (stays : x.rec_.ending = false) : exec (.contextResetComplete c readable) s =
      .next (resetOutcome (resetCleared s c x) c (x.marked (now s)) readable) := by
  change execContextResetComplete c readable s = _
  have known := resetCleared_ctx hx
  unfold resetCleared at known
  simp only [execContextResetComplete, hx, resetting, drained, stays, beq_self_eq_true, Bool.and_self, if_true, Bool.false_eq_true,
    if_false, known]
  rfl

/-! ### The outcome -/

theorem stopOutcome_ctx (hx : s.ctx c = some x) (cause : Nat) : ∃ y, (stopOutcome s c cause).ctx c = some y ∧ y.cdef = x.cdef ∧
    y.rec_.state = 4 ∧ y.rec_.cause = BitVec.ofNat 5 cause := ⟨_, State.modRec_ctx_self hx _, rfl, rfl, rfl⟩

theorem rollBack_kept {target : DWord} (h : rollBack s c x target = some u) : CtxKept c s u := by
  obtain ⟨i, -, rfl⟩ := Option.map_eq_some_iff.1 h
  have rewritten : CtxKept c s (putVerRec s x.cdef ((verRec s x.cdef).rollback i)) := .of_ctxs (putBytes_ctxs ..)
  refine CtxKept.modRun (rewritten.modRec ?_)
  exact fun _ state => state

/-- A recovery keeps the definition of its context, whatever its outcome (R352, R384). -/
theorem recover_ctx (hz : s.ctx c = some z) (x : Ctx) (readable : Bool) :
    ∃ y, (recover s c x readable).ctx c = some y ∧ y.cdef = z.cdef := by
  have stops (name : Ev) (cause : Nat) : ∃ y, (stopOutcome (raise s name [c]) c cause).ctx c = some y ∧ y.cdef = z.cdef := by
    obtain ⟨y, hy, cdef, -⟩ := stopOutcome_ctx (s := raise s name [c]) hz cause
    exact ⟨y, hy, cdef⟩
  unfold recover
  extract_lets target
  split
  · exact stops ..
  · split
    · exact stops ..
    · rename_i u rolled
      obtain ⟨y, hy, cdef, -⟩ := (rollBack_kept rolled).ctx z hz
      have begun := State.modRec_ctx_self hy fun r => { r with state := 3, target := some target, marks := r.marks ++ [now u] }
      obtain ⟨w, hw, cdef', -⟩ := (remapped_foldl (fun s k => orderWarmMoves_remapped s c k) x.rec_.remap _).kept.ctx _ begun
      exact ⟨w, hw, cdef'.trans cdef⟩

/-- With the third reset within a minute the context is quarantined (R393). -/
theorem resetOutcome_quarantines (hx : s.ctx c = some x) (many : 3 ≤ (recentResets s x.rec_).length) :
    ∃ y, (resetOutcome s c x readable).ctx c = some y ∧ y.cdef = x.cdef ∧ y.rec_.state = 6 := by
  unfold resetOutcome
  extract_lets many_ aborts aborted made
  have aborted_ : CtxKept c s aborted := by
    unfold aborted
    split
    · exact abortAdm_kept ..
    · exact .refl s
  have made_ : CtxKept c aborted made := by
    unfold made
    split
    · exact .of_ctxs (putBytes_ctxs ..)
    · exact .refl _
  obtain ⟨y, hy, cdef, -⟩ := (aborted_.trans made_).ctx x hx
  rw [if_pos many]
  exact ⟨_, State.modRec_ctx_self hy _, cdef, rfl⟩

/-- The version record made anew where an aborted admission is the cause of the reset (R323). -/
def recordRemade (s : State) (x : Ctx) : State :=
  if x.rec_.cause == 15 then putVerRec s x.cdef (VerRec.create x.cdef.slots x.cdef.firstStep) else s

theorem recordRemade_ctxs (s : State) (x : Ctx) : (recordRemade s x).ctxs = s.ctxs := by
  unfold recordRemade
  split
  · exact putBytes_ctxs ..
  · rfl

theorem recordRemade_tiles (s : State) (x : Ctx) : (recordRemade s x).tiles = s.tiles := by
  unfold recordRemade
  split
  · exact putBytes_tiles ..
  · rfl

/-- Before the third reset within a minute a context that does not recover stops (R366). -/
theorem resetOutcome_stops (few : (recentResets s x.rec_).length < 3) (ends : x.rec_.recovering = false) :
    resetOutcome s c x readable = stopOutcome (recordRemade s x) c x.rec_.cause.toNat := by
  simp only [resetOutcome, Nat.not_le.2 few, decide_false, ends, Bool.false_and, Bool.false_or, Bool.false_eq_true, if_false]
  rfl

/-- Before the third reset within a minute a context that recovers keeps its definition. -/
theorem resetOutcome_recovers (hx : s.ctx c = some x) (few : (recentResets s x.rec_).length < 3) (goes : x.rec_.recovering = true) :
    ∃ y, (resetOutcome s c x readable).ctx c = some y ∧ y.cdef = x.cdef := by
  have outcome : resetOutcome s c x readable = if selfRecovers (recordRemade s x) x then recover (recordRemade s x) c x readable else
      raise ((recordRemade s x).modRec c fun r => { r with
        state := 5, target := some (x.rec_.target.getD (newestStep (recordRemade s x) x)), holdSince := none }) .rollbackRequired
        [c, x.cdef.job, (x.rec_.target.getD (newestStep (recordRemade s x) x)).toNat] := by
    simp only [resetOutcome, Nat.not_le.2 few, decide_false, goes, Bool.false_and, Bool.false_or, Bool.false_eq_true, if_false,
      if_true]
    rfl
  have known : (recordRemade s x).ctx c = some x := (State.ctx_congr (recordRemade_ctxs s x) c).trans hx
  rw [outcome]
  split
  · exact recover_ctx known x readable
  · exact ⟨_, State.modRec_ctx_self known _, rfl⟩

end

theorem contextResetEnds : Claims.ContextResetEnds := by
  intro s c x readable hx resetting drained stays
  have known := resetCleared_ctx hx
  have recent : recentResets (resetCleared s c x) (x.marked (now s)).rec_ = recentResets s x.rec_ := by
    simp only [recentResets, resetCleared_now]
    rfl
  rw [exec_contextResetComplete hx resetting drained stays]
  rcases Nat.lt_or_ge (recentResets s x.rec_).length 3 with few | many
  · cases goes : x.rec_.recovering with
    | true =>
      obtain ⟨y, hy, cdef⟩ := resetOutcome_recovers (readable := readable) known (recent ▸ few) goes
      exact ⟨_, y, rfl, hy, cdef, fun many => absurd few (Nat.not_lt.2 many), fun _ ends => absurd ends Bool.noConfusion,
        fun _ ends => absurd ends Bool.noConfusion⟩
    | false =>
      have outcome := resetOutcome_stops (x := x.marked (now s)) (c := c) (readable := readable) (recent ▸ few) goes
      obtain ⟨y, hy, cdef, state, cause⟩ :=
        stopOutcome_ctx ((State.ctx_congr (recordRemade_ctxs _ (x.marked (now s))) c).trans known) x.rec_.cause.toNat
      have tile (k : Nat) (hk : k ∈ x.cdef.keys) : (resetOutcome (resetCleared s c x) c (x.marked (now s)) readable).tile k =
          clearedTile (s.tile k) := by
        rw [outcome]
        exact (State.tile_congr ((State.modRec_tiles ..).trans (recordRemade_tiles ..)) k).trans
          ((resetCleared_tile s c x k).trans (if_pos hk))
      refine ⟨_, y, rfl, outcome ▸ hy, cdef, fun many => absurd few (Nat.not_lt.2 many),
        fun _ _ => ⟨state, cause.trans (BitVec.ofNat_toNat ..)⟩, fun _ _ k hk => ?_⟩
      rw [tile k hk]
      exact ⟨rfl, rfl, rfl, rfl, rfl, rfl⟩
  · obtain ⟨y, hy, cdef, state⟩ := resetOutcome_quarantines (readable := readable) known (recent ▸ many)
    exact ⟨_, y, rfl, hy, cdef, fun _ => state, fun few => absurd few (Nat.not_lt.2 many), fun few => absurd few (Nat.not_lt.2 many)⟩

end Sys2Proof.Machine

/-! ## Proofs: the restart (R203, R351, R384, R388, R392, R429) -/

namespace Sys2Proof.Machine

/-! ### A context on its way into a step -/

section
variable {s u v : State} {c : Nat} {x y : Ctx}

/-- A context in two states, at the same place in the same step, with its definition and its recovery record. -/
structure SamePlace (x y : Ctx) : Prop where
  cdef : y.cdef = x.cdef
  rec_ : y.rec_ = x.rec_
  step : y.run.step = x.run.step
  section_ : y.run.section_ = x.run.section_
  phase : y.run.phase = x.run.phase

/-- The events stay as they are, and a context stays at its place. -/
structure PlaceKept (c : Nat) (s u : State) : Prop where
  events : u.events = s.events
  ctx : ∀ x, s.ctx c = some x → ∃ y, u.ctx c = some y ∧ SamePlace x y

theorem PlaceKept.of_eq (events : u.events = s.events) (ctxs : u.ctxs = s.ctxs) : PlaceKept c s u where
  events := events
  ctx x hx := ⟨x, (State.ctx_congr ctxs c).trans hx, ⟨rfl, rfl, rfl, rfl, rfl⟩⟩

theorem PlaceKept.trans (h : PlaceKept c s u) (k : PlaceKept c u v) : PlaceKept c s v where
  events := k.events.trans h.events
  ctx x hx := by
    obtain ⟨y, hy, a⟩ := h.ctx x hx
    obtain ⟨z, hz, b⟩ := k.ctx y hy
    exact ⟨z, hz, b.cdef.trans a.cdef, b.rec_.trans a.rec_, b.step.trans a.step, b.section_.trans a.section_, b.phase.trans a.phase⟩

theorem TilesOnly.placeKept (h : TilesOnly s u) : PlaceKept c s u := .of_eq h.events (by rw [h.rest])

/-- States that differ in the dictionary, the field port, the free values and the contexts alone. -/
structure AdoptOnly (s u : State) : Prop where
  rest : u = { s with dict := u.dict, field := u.field, draws := u.draws, ctxs := u.ctxs }

theorem AdoptOnly.trans (h : AdoptOnly s u) (k : AdoptOnly u v) : AdoptOnly s v := ⟨by rw [k.rest, h.rest]⟩

/-- A context that adopts a configuration set stays where it is, and its tiles and main memory as they are (R460). -/
theorem adoptCtx_spec (s : State) (c : Nat) : AdoptOnly s (adoptCtx s c) ∧ PlaceKept c s (adoptCtx s c) := by
  unfold adoptCtx
  extract_lets adopted
  have adopted_ : AdoptOnly s adopted ∧ adopted.ctxs = s.ctxs := by
    unfold adopted
    split
    · exact ⟨⟨rfl⟩, rfl⟩
    · exact ⟨⟨by rw [adoptModule_rest]⟩, by rw [adoptModule_rest]⟩
  obtain ⟨only, ctxs⟩ := adopted_
  clear_value adopted
  have same : PlaceKept c s adopted := .of_eq (by rw [only.rest]) ctxs
  split
  · exact ⟨only, same⟩
  · rename_i x hx
    split
    · exact ⟨only, same⟩
    · have run : AdoptOnly adopted (adopted.modRun c (adoptRun adopted)) := ⟨by
        rw [State.modRun, State.modCtx_frame]⟩
      have left_ : AdoptOnly (adopted.modRun c (adoptRun adopted)) (leavePrev (adopted.modRun c (adoptRun adopted)) c) :=
        ⟨by rw [leavePrev_rest]⟩
      refine ⟨only.trans (run.trans left_), same.trans ⟨by rw [(run.trans left_).rest], fun y hy => ?_⟩⟩
      exact ⟨_, (State.ctx_congr (by rw [leavePrev_rest]) c).trans (State.modRun_ctx_self hy _), ⟨rfl, rfl, rfl, rfl, rfl⟩⟩

end

/-! ### Tiles on their way into a step -/

section
variable {s u : State} {c : Nat} {x y : Ctx} {step : DWord}

theorem startTile_cases (s : State) (hold : Bool) (k : Nat) (awake : (s.tile k).core.run ≠ .stepEnd) : startTile s hold k = s ∨
    ∃ r, r ≠ .stepEnd ∧ startTile s hold k = s.modTile k fun t => { t with core := { t.core with run := r } } := by
  unfold startTile
  dsimp only
  split
  · rename_i ended
    exact absurd ended awake
  · refine .inr ⟨_, ?_, rfl⟩
    split <;> exact RunState.noConfusion
  · exact .inl rfl

/-- Tiles none of which ends a step begin it one after another, each still loaded or not. -/
theorem foldl_startTile (hold : Bool) (l : List Nat) (s : State) (awake : ∀ k ∈ l, (s.tile k).core.run ≠ .stepEnd) :
    TilesOnly s (l.foldl (fun s k => startTile s hold k) s) ∧
      ∀ j, ((l.foldl (fun s k => startTile s hold k) s).tile j).loaded = (s.tile j).loaded := by
  induction l generalizing s with
  | nil => exact ⟨.refl s, fun _ => rfl⟩
  | cons k l ih =>
    rw [List.foldl_cons]
    have later := List.forall_mem_cons.1 awake
    rcases startTile_cases s hold k later.1 with same | ⟨r, hr, begun⟩
    · rw [same]
      exact ih s later.2
    · rw [begun]
      obtain ⟨rest, loaded⟩ := ih (s.modTile k fun t => { t with core := { t.core with run := r } }) fun j hj => by
        rw [State.modTile_tile]
        split
        · exact hr
        · exact later.2 j hj
      refine ⟨.trans ⟨rfl⟩ rest, fun j => (loaded j).trans ?_⟩
      rw [State.modTile_tile]
      split
      · subst_vars; rfl
      · rfl

/-- The scale histories read at the start of a step leave the core of a tile and whether it is loaded. -/
theorem startDelays_spec (s : State) (x : Ctx) : TilesOnly s (startDelays s x) ∧
    ∀ j, ((startDelays s x).tile j).core = (s.tile j).core ∧ ((startDelays s x).tile j).loaded = (s.tile j).loaded := by
  refine ⟨tilesOnly_foldl (fun _ _ => ⟨rfl⟩) _ s, fun j => ?_⟩
  refine List.foldlRecOn (motive := fun u : State => (u.tile j).core = (s.tile j).core ∧ (u.tile j).loaded = (s.tile j).loaded)
    _ _ ⟨rfl, rfl⟩ fun u h k _ => ?_
  rw [State.modTile_tile]
  split
  · subst_vars; exact h
  · exact h

/-- No scale record of the newest version delivers poison, so that a step may begin (R152). -/
theorem scalePoison_false (sound : ∀ j, spanPoisoned s (newestScale s x.cdef j) 528 = false) : scalePoison s x = false := by
  refine Bool.and_eq_false_iff.2 (.inr (List.any_eq_false.2 fun id _ => ?_))
  split
  · exact Bool.false_ne_true
  · rw [sound]; exact Bool.false_ne_true

/-- Which scale records deliver poison is told by main memory. -/
theorem scalesSound_congr (mem : u.mem = s.mem) {d : CtxDef} (sound : ∀ j, spanPoisoned s (newestScale s d j) 528 = false) (j : Nat) :
    spanPoisoned u (newestScale u d j) 528 = false := by
  have told : spanPoisoned u (newestScale u d j) 528 =
      spanPoisoned { s with mem := u.mem } (newestScale { s with mem := u.mem } d j) 528 := rfl
  rw [told, mem]
  exact sound j

/-- A context whose tiles await their entry begins the step it has come to (R384, R429). -/
theorem beginStep_spec (hx : s.ctx c = some x) (here : x.run.step = step)
    (awake : ∀ k ∈ x.cdef.keys, (s.tile k).core.run ≠ .stepEnd)
    (sound : ∀ j, spanPoisoned s (newestScale s x.cdef j) 528 = false) : PlaceKept c s (beginStep s c x step false) ∧
      ∀ j, ((beginStep s c x step false).tile j).loaded = (s.tile j).loaded := by
  unfold beginStep
  extract_lets t0 counted numbered hall continued delayed started hall' admitted
  obtain ⟨y, hy, place⟩ : ∃ y, numbered.ctx c = some y ∧ SamePlace x y :=
    ⟨_, State.modRun_ctx_self (State.modTally_ctx_self hx _) _, ⟨rfl, rfl, here.symm, rfl, rfl⟩⟩
  have tiles : numbered.tiles = s.tiles := (State.modRun_tiles ..).trans (State.modTally_tiles ..)
  have mem : numbered.mem = s.mem := (State.modRun_mem ..).trans (State.modTally_mem ..)
  have numbered_ : PlaceKept c s numbered :=
    ⟨(State.modRun_events ..).trans (State.modTally_events ..), fun z hz => ⟨y, hy, Option.some.inj (hx.symm.trans hz) ▸ place⟩⟩
  clear_value numbered
  have delayed_ : delayed = startDelays numbered y := by
    simp only [delayed, continued, Bool.false_eq_true, if_false, hy]
  obtain ⟨histories, fields⟩ := startDelays_spec numbered y
  rw [← delayed_] at histories fields
  clear_value delayed
  obtain ⟨begins, loaded⟩ := foldl_startTile x.run.holds x.cdef.keys delayed fun k hk => by
    rw [(fields k).1, State.tile_congr tiles]
    exact awake k hk
  have admitted_ : admitted = started := by simp only [admitted, Bool.and_false, Bool.false_eq_true, if_false]
  have kept : TilesOnly numbered started := histories.trans begins
  rw [admitted_, scalePoison_false (scalesSound_congr (kept.mem.trans mem) sound), if_neg Bool.false_ne_true]
  refine ⟨numbered_.trans kept.placeKept, fun j => ?_⟩
  rw [loaded, (fields j).2, State.tile_congr tiles]

/-! ### Section 0 loaded, and the step begun -/

/-- The tiles of a context as they await the entry of a step: their records loaded, but in cluster mode (R203, R388). -/
def entryLoaded (s : State) (y : Ctx) : State :=
  if y.cdef.cluster then
    y.cdef.keys.foldl (fun s k => s.modTile k fun t => { t with core := { t.core with run := .entryWait } }) s
  else y.cdef.tiles.foldl (fun s p => loadTile s y 0 .entryWait p) s

/-- A tile whose record is loaded is loaded, and has ended no step. -/
theorem loadTile_tile_self (s : State) (y : Ctx) (p : Coord) : ((loadTile s y 0 .entryWait p).tile (ckey p)).core.run ≠ .stepEnd ∧
    ((loadTile s y 0 .entryWait p).tile (ckey p)).loaded = true := by
  simp only [loadTile, markFallow, State.modTile_tile_self, State.setTile_tile, if_true, loadRecord, and_true]
  split <;> exact RunState.noConfusion

theorem loadTile_tile_ne (s : State) (y : Ctx) (p : Coord) {j : Nat} (h : j ≠ ckey p) :
    (loadTile s y 0 .entryWait p).tile j = s.tile j := by
  simp only [loadTile, markFallow, State.modTile_tile, State.setTile_tile, h, if_false]

theorem entryLoaded_spec (s : State) (y : Ctx) : TilesOnly s (entryLoaded s y) ∧
    (∀ k ∈ y.cdef.keys, ((entryLoaded s y).tile k).core.run ≠ .stepEnd) ∧
    (y.cdef.cluster = false → ∀ p ∈ y.cdef.tiles, ((entryLoaded s y).tile (ckey p)).loaded = true) := by
  unfold entryLoaded
  split
  · rename_i cluster
    refine ⟨tilesOnly_foldl (fun _ _ => ⟨rfl⟩) _ s, fun k hk => ?_, fun off => absurd (cluster.symm.trans off) Bool.noConfusion⟩
    refine foldl_tile_holds (key := id) (P := fun t => t.core.run ≠ .stepEnd) (fun u k => ?_) (fun u k j h => u.modTile_tile_ne _ h)
      _ s (.inl ⟨k, hk, rfl⟩)
    rw [id, State.modTile_tile_self]
    exact RunState.noConfusion
  · have each (p : Coord) (hp : p ∈ y.cdef.tiles) := foldl_tile_holds (P := fun t => t.core.run ≠ .stepEnd ∧ t.loaded = true)
      (fun u p => loadTile_tile_self u y p) (fun u p j h => loadTile_tile_ne u y p h) y.cdef.tiles s (.inl ⟨p, hp, rfl⟩)
    refine ⟨tilesOnly_foldl (fun _ _ => ⟨rfl⟩) _ s, fun k hk => ?_, fun _ p hp => (each p hp).2⟩
    obtain ⟨p, hp, rfl⟩ := List.mem_map.1 hk
    exact (each p hp).1

/-- A context set to begin a step, its configuration set adopted, before its tiles are loaded (R384, R460). -/
def entryReached (s : State) (c : Nat) (d : CtxDef) (step : DWord) (reds : Reds) : State :=
  adoptCtx (toEntry (putReds s d reds) c step) c

theorem entryReached_spec (hx : s.ctx c = some x) (d : CtxDef) (step : DWord) (reds : Reds) :
    (entryReached s c d step reds).mem = s.mem ∧ (entryReached s c d step reds).events = s.events ∧
    ∃ y, (entryReached s c d step reds).ctx c = some y ∧ y.cdef = x.cdef ∧ y.rec_ = x.rec_ ∧ y.run.step = step ∧
      y.run.section_ = 0 := by
  obtain ⟨adopts, stays⟩ := adoptCtx_spec (toEntry (putReds s d reds) c step) c
  obtain ⟨y, hy, place⟩ := stays.ctx _ (State.modTally_ctx_self (State.modRun_ctx_self (s := putReds s d reds) hx _) _)
  refine ⟨?_, stays.events.trans ((State.modTally_events ..).trans (State.modRun_events ..)), y, hy, place.cdef, place.rec_,
    place.step, place.section_⟩
  have mem : (entryReached s c d step reds).mem = (toEntry (putReds s d reds) c step).mem := by rw [entryReached, adopts.rest]
  exact mem.trans ((State.modTally_mem ..).trans (State.modRun_mem ..))

/-- A context whose tiles all await the entry of the step, as it runs on (R384). -/
def entryRunning (s : State) (c : Nat) (y : Ctx) : State := (entryLoaded s y).modRun c fun r => { r with phase := .running }

/-- The context that runs on in its step. -/
def Ctx.entered (x : Ctx) : Ctx := { x with run := { x.run with phase := .running } }

theorem entryRunning_spec (hy : s.ctx c = some y) : (entryRunning s c y).mem = s.mem ∧ (entryRunning s c y).events = s.events ∧
    (entryRunning s c y).ctx c = some y.entered ∧ (∀ k ∈ y.cdef.keys, ((entryRunning s c y).tile k).core.run ≠ .stepEnd) ∧
    (y.cdef.cluster = false → ∀ p ∈ y.cdef.tiles, ((entryRunning s c y).tile (ckey p)).loaded = true) := by
  obtain ⟨loads, awake, loaded⟩ := entryLoaded_spec s y
  have tile : (entryRunning s c y).tile = (entryLoaded s y).tile := funext (State.tile_congr (State.modRun_tiles ..))
  rw [tile]
  exact ⟨(State.modRun_mem ..).trans loads.mem, (State.modRun_events ..).trans loads.events,
    State.modRun_ctx_self ((loads.ctx c).trans hy) _, awake, loaded⟩

/-- A context enters a step by way of its entry, and begins it where its epoch allows (R203, R384, R429). -/
theorem enterStep_eq {w : Ctx} {reds : Reds} (hy : (entryReached s c w.cdef step reds).ctx c = some y)
    (hz : (entryRunning (entryReached s c w.cdef step reds) c y).ctx c = some x) : enterStep s c w step reds =
      if mayBegin (entryRunning (entryReached s c w.cdef step reds) c y) c step then
        beginStep (entryRunning (entryReached s c w.cdef step reds) c y) c x step false
      else entryRunning (entryReached s c w.cdef step reds) c y := by
  unfold entryRunning entryLoaded at hz
  unfold entryReached at hy hz
  simp only [enterStep, hy, hz]
  rfl

/-- A context that enters a step stands in section 0 of it and runs, its tiles loaded. -/
theorem enterStep_spec (hx : s.ctx c = some x) (sound : ∀ j, spanPoisoned s (newestScale s x.cdef j) 528 = false) (w : Ctx)
    (step : DWord) (reds : Reds) : (enterStep s c w step reds).events = s.events ∧
      ∃ y, (enterStep s c w step reds).ctx c = some y ∧ y.cdef = x.cdef ∧ y.rec_ = x.rec_ ∧ y.run.step = step ∧
        y.run.section_ = 0 ∧ y.run.phase = .running ∧
        (x.cdef.cluster = false → ∀ p ∈ x.cdef.tiles, ((enterStep s c w step reds).tile (ckey p)).loaded = true) := by
  obtain ⟨mem, events, y, hy, cdef, rec_, step_, section_⟩ := entryReached_spec hx w.cdef step reds
  obtain ⟨mem', events', hz, awake, loaded⟩ := entryRunning_spec hy
  rw [← cdef] at sound ⊢
  rw [enterStep_eq hy hz]
  split
  · obtain ⟨stays, same⟩ := beginStep_spec hz step_ awake (scalesSound_congr (mem'.trans mem) sound)
    obtain ⟨z, hz', place⟩ := stays.ctx _ hz
    exact ⟨stays.events.trans (events'.trans events), z, hz', place.cdef, place.rec_.trans rec_, place.step.trans step_,
      place.section_.trans section_, place.phase, fun off p hp => (same _).trans (loaded off p hp)⟩
  · exact ⟨events'.trans events, _, hz, rfl, rec_, step_, section_, rfl, loaded⟩

end

/-! ### The restart -/

section
variable {s u : State} {c : Nat} {x y : Ctx} {t : DWord} {reds : List (Nat × List DWord)}

/-- The recovery record once the context runs again (R384). -/
def CtxRec.over (r : CtxRec) : CtxRec :=
  { r with state := 1, recovering := false, target := none, pending := none, remap := [], holdSince := none }

/-- A context whose recovery is over: it runs again, and where it recovered that is reported, with the time it took (R384, R392). -/
def recoveryEnded (s : State) (c : Nat) (r : CtxRec) (target : DWord) : State :=
  let us := now s - r.began
  let s := s.modRec c CtxRec.over
  let s := if r.recovering then raise s .contextRecovered [c, r.cause.toNat, target.toNat, us] else s
  if r.recovering && 800 < us then raise s .recoveryBudgetExceeded [c, us, longestPhase s r] else s

/-- The newest event stays in the ring when another one is raised (R428). -/
theorem mem_raise_ring {e : Event} (newest : s.events.ring.getLast? = some e) (name : Ev) (data : List Nat) :
    e ∈ (raise s name data).events.ring := by
  refine List.mem_append_left _ ?_
  split
  · rename_i full
    have long : 1024 ≤ s.events.ring.length := full
    refine List.mem_of_getLast? ?_
    rw [List.getLast?_drop, if_neg (by omega), newest]
  · exact List.mem_of_getLast? newest

theorem recoveryEnded_spec (hx : s.ctx c = some x) (r : CtxRec) (target : DWord) : (recoveryEnded s c r target).mem = s.mem ∧
    (recoveryEnded s c r target).ctx c = some { x with rec_ := x.rec_.over } ∧
    (r.recovering = true → ∃ e ∈ (recoveryEnded s c r target).events.ring, e.name = .contextRecovered) := by
  unfold recoveryEnded
  extract_lets us running reported
  have hy := State.modRec_ctx_self hx CtxRec.over
  obtain ⟨mem, ctxs, newest⟩ : reported.mem = s.mem ∧ reported.ctxs = running.ctxs ∧
      (r.recovering = true → ∃ e, reported.events.ring.getLast? = some e ∧ e.name = .contextRecovered) := by
    unfold reported
    split
    · exact ⟨State.modRec_mem .., rfl, fun _ => ⟨_, raise_getLast .., rfl⟩⟩
    · rename_i off
      exact ⟨State.modRec_mem .., rfl, fun on => absurd on off⟩
  clear_value reported
  have known := (State.ctx_congr ctxs c).trans hy
  split
  · refine ⟨mem, known, fun on => ?_⟩
    obtain ⟨e, last, name⟩ := newest on
    exact ⟨e, mem_raise_ring last .., name⟩
  · refine ⟨mem, known, fun on => ?_⟩
    obtain ⟨e, last, name⟩ := newest on
    exact ⟨e, List.mem_of_getLast? last, name⟩

theorem exec_contextRestartEntry_waits (hx : s.ctx c = some x) (no : x.rec_.state ≠ 3 ∨ x.run.phase = .committed ∨
    x.rec_.epochWait = true ∨ remapReady s c x.rec_.remap = false) : exec (.contextRestartEntry c reds) s = .next s := by
  change execContextRestartEntry c reds s = _
  have go : (x.rec_.state == 3 && x.run.phase != .committed && !x.rec_.epochWait && remapReady s c x.rec_.remap) = false := by
    rcases no with other | committed | waits | unready
    · simp only [beq_eq_false_iff_ne.2 other, Bool.false_and]
    · simp [committed]
    · simp [waits]
    · simp [unready]
  simp only [execContextRestartEntry, hx, go, Bool.false_and, Bool.false_eq_true, if_false]

theorem exec_contextRestartEntry (hx : s.ctx c = some x) (waiting : x.rec_.state = 3) (uncommitted : x.run.phase ≠ .committed)
    (epoch : x.rec_.epochWait = false) (ready : remapReady s c x.rec_.remap = true) (target : x.rec_.target = some t)
    (image : x.cdef.cluster = true ∨ sectionBad reds (imageOf s x.cdef) x.cdef.w x.cdef.h 0 = none) :
    exec (.contextRestartEntry c reds) s = .next (releaseInbound (enterStep
      (recoveryEnded (x.rec_.remap.foldl (fun s k => remapTile s c k) s) c x.rec_ t) c x (t + 1) reds) c) := by
  change execContextRestartEntry c reds s = _
  have go : (x.rec_.state == 3 && x.run.phase != .committed && !x.rec_.epochWait && remapReady s c x.rec_.remap &&
      (x.cdef.cluster || (sectionBad reds (imageOf s x.cdef) x.cdef.w x.cdef.h 0).isNone)) = true := by
    rcases image with cluster | good
    · simp [waiting, uncommitted, epoch, ready, cluster]
    · simp [waiting, uncommitted, epoch, ready, good]
  simp only [execContextRestartEntry, hx, go, if_true, target, Option.getD_some]
  rfl

end

theorem restartEntry : Claims.RestartEntry := by
  intro s c x reds t hx
  refine ⟨fun waiting uncommitted epoch ready target image sound => ?_, exec_contextRestartEntry_waits hx⟩
  have remapped : Remapped c s (x.rec_.remap.foldl (fun s k => remapTile s c k) s) :=
    remapped_foldl (fun s k => remapTile_remapped s c k) _ s
  obtain ⟨y, hy, cdef, -⟩ := remapped.kept.ctx x hx
  obtain ⟨mem, ended, reported⟩ := recoveryEnded_spec hy x.rec_ t
  obtain ⟨events, z, hz, cdef', rec_, step, section_, phase, loaded⟩ := enterStep_spec ended
    (scalesSound_congr (mem.trans remapped.mem) (d := y.cdef) (cdef ▸ sound)) x (t + 1) reds
  have released := releaseInbound_meshOnly (enterStep (recoveryEnded (x.rec_.remap.foldl (fun s k => remapTile s c k) s) c x.rec_ t)
    c x (t + 1) reds) c
  refine ⟨_, z, exec_contextRestartEntry hx waiting uncommitted epoch ready target image,
    (State.ctx_congr released.ctxs c).trans hz, cdef'.trans cdef, congrArg CtxRec.state rec_,
    congrArg CtxRec.recovering rec_, congrArg CtxRec.target rec_, congrArg CtxRec.remap rec_,
    step, section_, phase, fun on => ?_, fun off p hp => ?_⟩
  · obtain ⟨e, he, name⟩ := reported on
    rw [released.events, events]
    exact List.any_eq_true.2 ⟨e, he, beq_iff_eq.2 name⟩
  · rw [State.tile_congr released.tiles]
    exact loaded (cdef ▸ off) p (cdef ▸ hp)

/-- Settles O41: each engine by what it makes of its work, a completed reset by its outcome, and a restart as a way into a step. -/
theorem stopAndRestart : Obligations.StopAndRestart := ⟨stopOrders, contextResetEnds, restartEntry⟩

end Sys2Proof.Machine

/-! ## Proofs: channels of a tile written, items that move up and credits granted (R188, R190, R210, R212) -/

namespace Sys2Proof.Machine

@[simp] theorem Tile.setCst_setCst (t : Tile) (ch : Nat) (a b : ChanSt) : (t.setCst ch a).setCst ch b = t.setCst ch b := by
  simp [Tile.setCst]

theorem Tile.setCst_cst_self (t : Tile) (ch : Nat) (c : ChanSt) : (t.setCst ch c).cst ch = c := by
  rw [Tile.setCst_cst, if_pos rfl]

theorem State.setTile_tile_self (s : State) (k : Nat) (t : Tile) : (s.setTile k t).tile k = t := by simp

theorem PumpedTile.units {t u : Tile} (h : PumpedTile t u) : u.units = t.units := by
  obtain ⟨_, _, _, _, _, _, _, rfl⟩ := h.rest; rfl

theorem PumpedTile.store {t u : Tile} (h : PumpedTile t u) (ch : Nat) : (u.cst ch).store = (t.cst ch).store :=
  congrArg Prod.fst (h.items ch)

/-- Granting credits writes the credits and the spill state of the channel, and lets the port send (R190, R212). -/
theorem grantCredits_pumped (s : State) (d : CtxDef) (p : Coord) (ch : Nat) : ∃ n stay,
    Pumped (ckey p) (s.setTile (ckey p) ((s.tile (ckey p)).setCst ch
      { (s.tile (ckey p)).cst ch with outstanding := n, spilling := stay })) (grantCredits s d p ch) := by
  unfold grantCredits
  extract_lets src t e st n granted st2 stay written
  refine ⟨st.outstanding + n, st.spilling && stay, ?_⟩
  have same : written = s.setTile (ckey p) (t.setCst ch
      { st with outstanding := st.outstanding + n, spilling := st.spilling && stay }) := by
    simp only [written, granted, st2, Tile.setCst_setCst, Tile.setCst_cst_self]
  have credited : Pumped (ckey p) written (if n = 0 then written else sendCredits written d p ch n) := by
    split
    · exact .refl ..
    · exact sendCredits_pumped ..
  exact same ▸ credited.trans (pumpPort_pumped _ p)

/-! ### Items that move up (R210) -/

/-- The oldest item of a channel's bin segment moved into its store. -/
def Tile.movedUp (t : Tile) (ch : Nat) (i : Item) (l : List Item) : Tile :=
  t.setCst ch { t.cst ch with
    store := (t.cst ch).store ++ [i], binSeg := l, binAt := ((t.cst ch).binAt + 1) % max 1 (chBinCap (t.chan ch)) }

section
variable {s : State} {p : Coord} {ch : Nat}

theorem moveUp_empty (n : Nat) (empty : ((s.tile (ckey p)).cst ch).binSeg = []) : moveUp n s p ch = s := by
  cases n with
  | zero => rfl
  | succ n => simp only [moveUp, empty]

theorem moveUp_full (n : Nat) (full : ¬((s.tile (ckey p)).cst ch).store.length < chCap ((s.tile (ckey p)).chan ch)) :
    moveUp n s p ch = s := by
  cases n with
  | zero => rfl
  | succ n =>
    simp only [moveUp]
    split
    · rfl
    · rw [if_neg full]

theorem moveUp_moves (n : Nat) {i : Item} {l : List Item} (first : ((s.tile (ckey p)).cst ch).binSeg = i :: l)
    (room : ((s.tile (ckey p)).cst ch).store.length < chCap ((s.tile (ckey p)).chan ch))
    (sound : spillItemOk (s.tile (ckey p)) ((s.tile (ckey p)).chan ch) ((s.tile (ckey p)).cst ch).binAt = true) :
    moveUp (n + 1) s p ch = moveUp n (s.setTile (ckey p) ((s.tile (ckey p)).movedUp ch i l)) p ch := by
  simp only [moveUp, first, room, if_true, sound]
  rfl

end

/-! ### Items popped -/

/-- The head item of a channel taken off. -/
def headTaken (s : State) (p : Coord) (ch : Nat) : State :=
  s.setTile (ckey p) ((s.tile (ckey p)).setCst ch { (s.tile (ckey p)).cst ch with store := ((s.tile (ckey p)).cst ch).store.drop 1 })

/-- A free slot of the store, if there is one, takes the oldest item of the bin segment, and no steering unit moves (R210). -/
theorem moveUp_one_store {s : State} {p : Coord} {ch : Nat} {t : Tile} (ht : t = s.tile (ckey p))
    (sound : (t.cst ch).binSeg = [] ∨ spillItemOk t (t.chan ch) (t.cst ch).binAt = true) :
    (((moveUp 1 s p ch).tile (ckey p)).cst ch).store = (t.cst ch).store ++
        (if (t.cst ch).store.length < chCap (t.chan ch) then (t.cst ch).binSeg.take 1 else []) ∧
      ((moveUp 1 s p ch).tile (ckey p)).units = t.units ∧ (moveUp 1 s p ch).mem = s.mem := by
  subst ht
  by_cases room : ((s.tile (ckey p)).cst ch).store.length < chCap ((s.tile (ckey p)).chan ch)
  · rw [if_pos room]
    cases first : ((s.tile (ckey p)).cst ch).binSeg with
    | nil => rw [moveUp_empty 1 first]; simp
    | cons i l =>
      rw [moveUp_moves 0 first room (sound.resolve_left (by simp [first]))]
      simp only [moveUp, State.setTile_tile_self, Tile.movedUp, Tile.setCst_cst_self]
      exact ⟨by simp, rfl, rfl⟩
  · rw [if_neg room, moveUp_full 1 room]; simp

/-- What a pop leaves of the store, the steering units and memory (R54, R197, R210). -/
theorem popItem_store {s : State} {p : Coord} {ch : Nat} {t : Tile} (d : CtxDef) (ht : t = s.tile (ckey p))
    (sound : (t.cst ch).binSeg = [] ∨ spillItemOk t (t.chan ch) (t.cst ch).binAt = true) :
    (((popItem s d p ch).tile (ckey p)).cst ch).store = (t.cst ch).store.drop 1 ++
        (if (t.cst ch).store.length - 1 < chCap (t.chan ch) then (t.cst ch).binSeg.take 1 else []) ∧
      ((popItem s d p ch).tile (ckey p)).units = t.units ∧ (popItem s d p ch).mem = s.mem := by
  subst ht
  have free := unblock_pumped s p
  change (((grantCredits (moveUp 1 (headTaken (unblock s p) p ch) p ch) d p ch).tile (ckey p)).cst ch).store = _ ∧
    ((grantCredits (moveUp 1 (headTaken (unblock s p) p ch) p ch) d p ch).tile (ckey p)).units = _ ∧
    (grantCredits (moveUp 1 (headTaken (unblock s p) p ch) p ch) d p ch).mem = _
  generalize unblock s p = v at free
  obtain ⟨sent, same⟩ := free.tile.cst ch
  have here : (headTaken v p ch).tile (ckey p) = (v.tile (ckey p)).setCst ch { (s.tile (ckey p)).cst ch with
      store := ((s.tile (ckey p)).cst ch).store.drop 1, memSent := sent } := by
    rw [headTaken, State.setTile_tile_self, same]
  have chan : ((headTaken v p ch).tile (ckey p)).chan ch = (s.tile (ckey p)).chan ch := by rw [here]; exact free.tile.chan ch
  have cst := (congrArg (Tile.cst · ch) here).trans (Tile.setCst_cst_self ..)
  obtain ⟨store, units, mem⟩ := moveUp_one_store (ch := ch) (s := headTaken v p ch) rfl (by
    rw [chan, cst]
    exact sound.imp_right fun ok => by rw [here]; exact (free.tile.spillItemOk _ _).trans ok)
  rw [chan, cst, List.length_drop] at store
  obtain ⟨n, stay, granted⟩ := grantCredits_pumped (moveUp 1 (headTaken v p ch) p ch) d p ch
  refine ⟨?_, ?_, granted.mem.trans (mem.trans free.mem)⟩
  · rw [granted.tile.store, State.setTile_tile_self, Tile.setCst_cst_self]
    exact store
  · rw [granted.tile.units, State.setTile_tile_self]
    exact units.trans ((congrArg Tile.units here).trans free.tile.units)

end Sys2Proof.Machine

/-! ## Proofs: items and credits that arrive at a tile (R190, R191, R210, R222) -/

namespace Sys2Proof.Machine

theorem writeSpillItem_chst (t : Tile) (e : DWord) (n : Nat) (i : Item) : (writeSpillItem t e n i).chst = t.chst := by
  have line (u : Tile) (l data : Nat) (poison : Bool) : (writeLogLine u l data poison).chst = u.chst := by
    unfold writeLogLine
    split <;> rfl
  unfold writeSpillItem
  extract_lets l
  split
  · rw [line, line]
  · split <;> rfl

theorem putBin_cst (t : Tile) (ch : Nat) (i : Item) :
    (putBin t ch i).cst ch = { t.cst ch with binSeg := (t.cst ch).binSeg ++ [i] } := by
  rw [putBin, Tile.cst, writeSpillItem_chst]
  exact Tile.setCst_cst_self ..

/-- An item placed changes nothing of its channel but the segments, and goes behind everything they hold (R188, R210). -/
theorem placeItem_cst (t : Tile) (ch : Nat) (i : Item) : ∃ store binSeg memSeg,
    (placeItem t ch i).1.cst ch = { t.cst ch with store := store, binSeg := binSeg, memSeg := memSeg } ∧
      ((t.cst ch).spilling = true ∨ (t.cst ch).binSeg ++ (t.cst ch).memSeg = [] →
        store ++ binSeg ++ memSeg = (t.cst ch).store ++ (t.cst ch).binSeg ++ (t.cst ch).memSeg ++ [i]) := by
  unfold placeItem
  extract_lets e c bin
  by_cases direct : (!c.spilling || (c.binSeg.isEmpty && c.memSeg.isEmpty && decide (c.store.length < chCap e))) = true
  · rw [if_pos direct]
    refine ⟨_, _, _, Tile.setCst_cst_self .., fun why => ?_⟩
    have empty : c.binSeg = [] ∧ c.memSeg = [] := by
      rcases why with spilling | empty
      · simp only [c, spilling, Bool.not_true, Bool.false_or, Bool.and_eq_true, List.isEmpty_iff] at direct
        exact direct.1
      · exact List.append_eq_nil_iff.1 empty
    simp only [c] at empty
    simp [c, empty]
  · rw [if_neg direct]
    by_cases inBin : bin = true
    · rw [if_pos inBin]
      refine ⟨_, _, _, putBin_cst .., fun _ => ?_⟩
      have empty : c.memSeg = [] := by
        simp only [bin, Bool.and_eq_true, List.isEmpty_iff] at inBin
        exact inBin.1
      simp only [c] at empty
      simp [empty]
    · rw [if_neg inBin]
      exact ⟨_, _, _, Tile.setCst_cst_self .., fun _ => by simp [c]⟩

theorem countSpillItems_cst (s : State) (c : Nat) (p : Coord) (m ch : Nat) : ∃ n,
    ((countSpillItems s c p m).tile (ckey p)).cst ch = { (s.tile (ckey p)).cst ch with memSent := n } := by
  unfold countSpillItems
  split
  · exact ⟨_, rfl⟩
  · extract_lets counted
    obtain ⟨n, sent⟩ := (pumpPort_pumped (counted.modTally c fun y => { y with spillItems := y.spillItems + m }) p).tile.cst ch
    refine ⟨n, sent.trans ?_⟩
    rw [State.tile_congr (State.modTally_tiles ..)]
    rfl

/-- The channel's part in the arrival of its next item: the number advances and a credit of the producer's is used (R191, R212). -/
def ChanSt.expected (c : ChanSt) : ChanSt := { c with seqIn := c.seqIn + 1, outstanding := c.outstanding - 1 }

section
variable {s : State} {c : Nat} {p : Coord} {ch : Nat} {i : Item}

/-- With nothing early, the next item is the only one that becomes available (R191). -/
theorem arriveItem_next {seq : BitVec 16} (next : seq = ((s.tile (ckey p)).cst ch).seqIn)
    (empty : ((s.tile (ckey p)).cst ch).early = []) : arriveItem s c p ch seq i =
      let r := placeItem ((s.tile (ckey p)).setCst ch ((s.tile (ckey p)).cst ch).expected) ch i
      countSpillItems (s.setTile (ckey p) r.1) c p (b2n r.2) := by
  subst next
  simp only [arriveItem, empty, List.length_nil, placeEarly, Tile.setCst_cst_self, Tile.setCst_setCst, mfind_mput_self,
    Nat.zero_add]
  simp only [mput, mdel, if_true, ChanSt.expected, empty]

/-- An item that comes early waits by its number (R191). -/
theorem arriveItem_early {seq : BitVec 16} (other : seq ≠ ((s.tile (ckey p)).cst ch).seqIn)
    (missing : mfind ((s.tile (ckey p)).cst ch).early ((s.tile (ckey p)).cst ch).seqIn.toNat = none) :
    arriveItem s c p ch seq i = s.setTile (ckey p) ((s.tile (ckey p)).setCst ch
      { (s.tile (ckey p)).cst ch with early := mput ((s.tile (ckey p)).cst ch).early seq.toNat i }) := by
  have apart : ((s.tile (ckey p)).cst ch).seqIn.toNat ≠ seq.toNat := fun e => other (BitVec.eq_of_toNat_eq e.symm)
  simp only [arriveItem, placeEarly, Tile.setCst_cst_self, mfind_mput, if_neg apart, missing]
  exact countSpillItems_zero ..

end

section
variable {s : State} {f : Nat} {fl : Flit} {x : Ctx} (arrived : s.arrived f = some fl) (alive : live s fl.ctx.toNat fl.dst = some x)
  (cls : fl.cls = .forward ∨ fl.cls = .collective)
include arrived alive cls

theorem exec_channelItemArrive (op : fl.op = 0 ∨ fl.op = 8) : exec (.channelItemArrive f) s =
    if ((s.tile (ckey fl.dst)).moveStage != 0 || !(s.tile (ckey fl.dst)).loaded) = true then .next s
    else .next (arriveItem (s.dropFlit f) fl.ctx.toNat fl.dst fl.chan.toNat fl.seq fl.item) := by
  have item : ((fl.op == 0 || fl.op == 8) && (fl.cls == .forward || fl.cls == .collective)) = true := by simpa [cls] using op
  change execChannelItemArrive f s = _
  simp only [execChannelItemArrive, arrived, item, if_true, alive]

theorem exec_channelCreditArrive (op : fl.op = 1) : exec (.channelCreditArrive f) s =
    .next ((s.dropFlit f).modTile (ckey fl.dst) fun t => t.setCst fl.chan.toNat
      { t.cst fl.chan.toNat with credits := (t.cst fl.chan.toNat).credits + fl.aux.toNat }) := by
  have credit : (fl.op == 1 && (fl.cls == .forward || fl.cls == .collective)) = true := by simp [op, cls]
  change execChannelCreditArrive f s = _
  simp only [execChannelCreditArrive, arrived, credit, if_true, alive]

end

theorem channelArrivals : Claims.ChannelArrivals := by
  rintro s f ch fl x t arrived rfl alive rfl cls
  refine ⟨fun op => ⟨fun held => ?_, fun still loaded => ⟨fun next empty => ?_, fun other missing => ?_⟩⟩, fun op => ?_⟩
  · rw [exec_channelItemArrive arrived alive cls op, if_pos (by simpa using held)]
  · rw [exec_channelItemArrive arrived alive cls op, if_neg (by simp [still, loaded]),
      arriveItem_next (s := s.dropFlit f) next empty]
    generalize ht : s.tile (ckey fl.dst) = t
    have dropped : (s.dropFlit f).tile (ckey fl.dst) = t := ht
    rw [dropped]
    extract_lets r
    obtain ⟨store, binSeg, memSeg, placed, order⟩ := placeItem_cst (t.setCst fl.chan.toNat (t.cst fl.chan.toNat).expected)
      fl.chan.toNat fl.item
    rw [Tile.setCst_cst_self] at placed order
    obtain ⟨n, counted⟩ := countSpillItems_cst ((s.dropFlit f).setTile (ckey fl.dst) r.1) fl.ctx.toNat fl.dst (b2n r.2) fl.chan.toNat
    rw [State.setTile_tile_self, placed] at counted
    refine ⟨_, _, rfl, rfl, countSpillItems_mem .., by rw [counted]; rfl, by rw [counted]; rfl, fun why => ?_, fun stored => ?_⟩
    · rw [counted]; exact order why
    · have direct : r = (t.setCst fl.chan.toNat { (t.cst fl.chan.toNat).expected with
          store := (t.cst fl.chan.toNat).store ++ [fl.item] }, false) := by
        have at_ := placeItem_store (t := t.setCst fl.chan.toNat (t.cst fl.chan.toNat).expected) (ch := fl.chan.toNat) (i := fl.item)
          (by rw [Tile.setCst_cst_self]; exact stored)
        rwa [Tile.setCst_cst_self, Tile.setCst_setCst] at at_
      rw [direct, show b2n false = 0 from rfl, countSpillItems_zero]
      exact ⟨dropFlit_self s f, State.setTile_tile_self ..⟩
  · rw [exec_channelItemArrive arrived alive cls op, if_neg (by simp [still, loaded]),
      arriveItem_early (s := s.dropFlit f) other missing]
    exact ⟨_, rfl, dropFlit_self s f, rfl, State.setTile_tile_self ..⟩
  · exact ⟨_, exec_channelCreditArrive arrived alive cls op, dropFlit_self s f, rfl, State.modTile_tile_self ..⟩

end Sys2Proof.Machine

/-! ## Proofs: tokens of the steering units (R193, R195 to R199, R210) -/

namespace Sys2Proof.Machine

section
variable {s : State} {p : Coord} {u : BitVec 2} {c : Nat} {x : Ctx} (works : steerLive s p = some (c, x))
include works

/-- A unit between tokens looks at the token at the head of its channel (R195 to R199). -/
theorem takeToken_eq {i : Item} {op : Nat} (mode : stMode ((s.tile (ckey p)).steerEnt u.toNat) ≠ 0)
    (between : ((s.tile (ckey p)).unit u.toNat).tok = none)
    (head : ((s.tile (ckey p)).cst (stTok ((s.tile (ckey p)).steerEnt u.toNat))).store.head? = some i) :
    takeToken p u op s =
      if i.tagLo then .next (takeExc s p 8 0 false (3 * 2 ^ 26 + u.toNat))
      else if tkBad i.toWord then .next (takeExc s p 0x0B 0 false u.toNat)
      else if tkOp i.toWord != op then .next s
      else .next (s.modTile (ckey p) fun t =>
        { t with units := mput t.units u.toNat { tok := some i.toWord, left := tkCount i.toWord, held := none } }) := by
  obtain ⟨l, store⟩ := List.head?_eq_some_iff.1 head
  have there : hasItem (s.tile (ckey p)) (stTok ((s.tile (ckey p)).steerEnt u.toNat)) = true := by simp [hasItem, store]
  have item : headItem (s.tile (ckey p)) (stTok ((s.tile (ckey p)).steerEnt u.toNat)) = i := by simp [headItem, store]
  simp only [takeToken, works, mode, between, there, item, Option.isSome_none, Bool.not_true, Bool.or_false, decide_false,
    Bool.false_eq_true, if_false]
  rfl

theorem exec_steerItemMove_waits {w : Word} (token : ((s.tile (ckey p)).unit u.toNat).tok = some w)
    (held : ((s.tile (ckey p)).unit u.toNat).held = none)
    (empty : hasItem (s.tile (ckey p)) (stInput ((s.tile (ckey p)).steerEnt u.toNat) w) = false) :
    exec (.steerItemMove p u) s = .next s := by
  change execSteerItemMove p u s = _
  simp only [execSteerItemMove, works, token, held, empty, Bool.false_and, Bool.false_eq_true, if_false]
  split <;> rfl

theorem exec_steerItemMove_drop {w : Word} (token : ((s.tile (ckey p)).unit u.toNat).tok = some w) (drop : tkOp w = 1)
    (there : hasItem (s.tile (ckey p)) (stInput ((s.tile (ckey p)).steerEnt u.toNat) w) = true) :
    exec (.steerItemMove p u) s = .next (tokenStep
      (popItem s x.cdef p (stInput ((s.tile (ckey p)).steerEnt u.toNat) w)) x.cdef p u.toNat none) := by
  change execSteerItemMove p u s = _
  simp only [execSteerItemMove, works, token, drop, there, if_true]

end

/-- While items are left under a token, one item of it only lowers the count (R197). -/
theorem tokenStep_more {s : State} {p : Coord} {u k : Nat} (d : CtxDef) (held : Option Item)
    (left : ((s.tile (ckey p)).unit u).left = k + 2) : tokenStep s d p u held =
      s.setTile (ckey p) { s.tile (ckey p) with
        units := mput (s.tile (ckey p)).units u { (s.tile (ckey p)).unit u with left := k + 1, held := held } } := by
  simp [tokenStep, left]

/-- A token is sound exactly where its OP is one of the three, its reserved bits are zero and its COUNT is not (R193). -/
theorem tkBad_eq_false {w : Word} {op : Nat} (small : op ≤ 2) (hop : tkOp w = op) (reserved : w.toNat / 2 ^ 24 % 16 = 0)
    (count : w.toNat % 2 ^ 24 ≠ 0) : tkBad w = false := by
  have fields : bits w.toNat 24 4 = 0 ∧ tkCount w ≠ 0 := ⟨reserved, by simpa [tkCount, bits] using count⟩
  simp [tkBad, fields, hop]
  omega

theorem tkOp_eq (w : Word) : tkOp w = w.toNat / 2 ^ 29 := by
  have := w.isLt
  simp only [tkOp, bits]
  omega

theorem tkBad_of {w : Word} (bad : 3 ≤ w.toNat / 2 ^ 29 ∨ w.toNat / 2 ^ 24 % 16 ≠ 0 ∨ w.toNat % 2 ^ 24 = 0) : tkBad w = true := by
  simp only [tkBad, tkOp_eq, Bool.or_eq_true, decide_eq_true_eq, bne_iff_ne, beq_iff_eq]
  rcases bad with op | reserved | count
  · exact .inl (.inl op)
  · exact .inl (.inr reserved)
  · exact .inr (by simpa [tkCount, bits] using count)

theorem steeringTokens : Claims.SteeringTokens := by
  rintro s p u c x t e i w works rfl rfl mode
  refine ⟨fun r hr between head hw => ?_, fun token held empty => exec_steerItemMove_waits works token held empty,
    fun k token drop left there sound => ?_⟩
  · have looks : exec r.1 s = takeToken p u r.2 s := by
      simp only [List.mem_cons, List.not_mem_nil, or_false] at hr
      rcases hr with rfl | rfl | rfl <;> rfl
    have small : r.2 ≤ 2 := by
      simp only [List.mem_cons, List.not_mem_nil, or_false] at hr
      rcases hr with rfl | rfl | rfl <;> simp
    have word : i.toWord = w := hw.symm
    rw [looks, takeToken_eq works mode between head, word]
    refine ⟨fun tagged => if_pos tagged, fun clean bad => ?_, fun clean op reserved count => ?_⟩
    · rw [clean, tkBad_of bad]; rfl
    · have hop : tkOp w = r.2 := (tkOp_eq w).trans op
      have hcount : tkCount w = w.toNat % 2 ^ 24 := by simp [tkCount, bits]
      rw [clean, tkBad_eq_false small hop reserved count, hop, hcount, bne_self_eq_false]
      rfl
  · refine ⟨_, exec_steerItemMove_drop works token drop there, ?_⟩
    obtain ⟨store, units, mem⟩ := popItem_store x.cdef rfl sound
    rw [tokenStep_more (k := k) x.cdef none (by rw [Tile.unit, units]; exact left), State.setTile_tile_self]
    exact ⟨by simp [Tile.unit], store, mem⟩

/-- Settles O22: arrivals by the segment an item is placed in, tokens by what the unit finds at the head of its channel. -/
theorem streams : Obligations.Streams := ⟨channelArrivals, steeringTokens⟩

end Sys2Proof.Machine

/-! ## Proofs: blocked reports and the wait graph (R207 to R209, R370) -/

namespace Sys2Proof.Machine

theorem steerLive_inCtx {s : State} {p : Coord} {c : Nat} {x : Ctx} (works : steerLive s p = some (c, x)) :
    InCtx s p c x ∧ x.rec_.state = 1 := by
  unfold steerLive at works
  split at works
  · rename_i n y hy
    extract_lets t at works
    split at works
    · rename_i runs
      obtain ⟨rfl, rfl⟩ : n = c ∧ y = x := by simpa using works
      simp only [Bool.and_eq_true, beq_iff_eq] at runs
      exact ⟨hy, runs.1.1.1⟩
    · exact absurd works (by simp)
  · exact absurd works (by simp)

theorem exec_blockedReport {s : State} {p : Coord} {c : Nat} {x : Ctx} (works : steerLive s p = some (c, x)) :
    exec (.blockedReport p) s =
      if (blocked s x.cdef (ckey p) && !(s.tile (ckey p)).reported && !(s.tile (ckey p)).unreport &&
          decide ((reportFlits c p (waitEdges s x.cdef (ckey p))).length ≤ portRoom s p .management)) = true then
        .next ((reportFlits c p (waitEdges s x.cdef (ckey p))).foldl State.send
          (s.modTile (ckey p) fun t => { t with reported := true }))
      else .next s := by
  change execBlockedReport p s = _
  simp only [execBlockedReport, works]

/-- The recovery part of a context after the engine looked for a closed cycle (R209, R370). -/
def Ctx.cycleWatched (x : Ctx) : CtxRec :=
  if (watched x && x.rec_.hang.isNone) = true then { x.rec_ with hang := waitCycle x.rec_.edges, hangAt := x.rec_.slow } else x.rec_

theorem watchCycles_ctx {s : State} {c : Nat} {x : Ctx} (hx : s.ctx c = some x) :
    (watchCycles s c).ctx c = some { x with rec_ := x.cycleWatched } := by
  unfold Ctx.cycleWatched
  simp only [watchCycles, hx]
  split
  · exact State.modRec_ctx_self hx _
  · exact hx

theorem watchCycles_tiles (s : State) (c : Nat) : (watchCycles s c).tiles = s.tiles := by
  rcases watchCycles_cases s c with h | ⟨f, h⟩ <;> rw [h]
  exact State.modRec_tiles ..

theorem watchCycles_mem (s : State) (c : Nat) : (watchCycles s c).mem = s.mem := by
  rcases watchCycles_cases s c with h | ⟨f, h⟩ <;> rw [h]
  exact State.modRec_mem ..

theorem Ctx.cycleWatched_rest (x : Ctx) : x.cycleWatched.reports = x.rec_.reports ∧ x.cycleWatched.edges = x.rec_.edges ∧
    x.cycleWatched.state = x.rec_.state := by
  unfold Ctx.cycleWatched
  split <;> exact ⟨rfl, rfl, rfl⟩

/-- A context that is watched, under no window yet, comes under that of the cycle its edges close. -/
theorem Ctx.cycleWatched_hang {x : Ctx} (watch : watched x = true) (free : x.rec_.hang = none) :
    x.cycleWatched.hang = waitCycle x.rec_.edges := by
  rw [Ctx.cycleWatched, watch, free]
  rfl

/-- The engine's part of a context after it took a report: the tile's edges set, or removed with the windows through it (R209). -/
def CtxRec.reportTaken (r : CtxRec) (k : Nat) (l : List WaitEdge) : CtxRec :=
  if l.isEmpty then
    { r with
      reports := r.reports.erase (k, l), edges := mdel r.edges k, hang := r.hang.filter fun cyc => !cyc.contains k }
  else { r with reports := r.reports.erase (k, l), edges := mput r.edges k l }

section
variable {s : State} {p : Coord} {c : Nat} {x : Ctx}

theorem exec_waitGraphReport {l : List WaitEdge} (hc : InCtx s p c x) (hx : s.ctx c = some x)
    (found : (x.rec_.reports.find? fun e => e.1 == ckey p) = some (ckey p, l)) : ∃ v,
    exec (.waitGraphReport p) s = .next (watchCycles v c) ∧ v.tiles = s.tiles ∧ v.mem = s.mem ∧
      v.ctx c = some { x with rec_ := x.rec_.reportTaken (ckey p) l } := by
  have answer : exec (.waitGraphReport p) s = execWaitGraphReport p s := rfl
  simp only [execWaitGraphReport, show ctxAt s p = some (c, x) from hc, found] at answer
  have erased := State.modRec_ctx_self hx fun r => { r with reports := r.reports.erase (ckey p, l) }
  by_cases empty : l.isEmpty = true
  · rw [if_pos empty] at answer
    refine ⟨_, answer, by simp [endWindow], by simp [endWindow], ?_⟩
    rw [endWindow, State.modRec_ctx_self (State.modRec_ctx_self erased _), CtxRec.reportTaken, if_pos empty]
  · rw [if_neg empty] at answer
    refine ⟨_, answer, by simp, by simp, ?_⟩
    rw [State.modRec_ctx_self erased, CtxRec.reportTaken, if_neg empty]

end

theorem CtxRec.reportTaken_rest (r : CtxRec) (k : Nat) (l : List WaitEdge) :
    (r.reportTaken k l).reports = r.reports.erase (k, l) ∧ (r.reportTaken k l).state = r.state ∧
      mfind (r.reportTaken k l).edges k = if l = [] then none else some l := by
  unfold CtxRec.reportTaken
  cases l with
  | nil => exact ⟨rfl, rfl, (mfind_mdel ..).trans (if_pos rfl)⟩
  | cons e l => exact ⟨rfl, rfl, mfind_mput_self ..⟩

theorem CtxRec.reportTaken_hang {r : CtxRec} {k : Nat} {l : List WaitEdge} (edges : l ≠ []) : (r.reportTaken k l).hang = r.hang := by
  rw [CtxRec.reportTaken, if_neg (by simpa using edges)]

/-! ### Spill orders (R209, R214) -/

/-- The inbound channels that the engine orders to spill: those that an edge on a closed cycle waits for credit of, where they may. -/
def spillTargets (s : State) (x : Ctx) : List (Nat × Nat) :=
  (x.rec_.edges.flatMap fun p =>
    p.2.filterMap fun e => if onCycle x.rec_.edges p.1 e then creditTarget s p.1 e else none).filter fun q =>
      mayEnterSpill s x.cdef q.1 q.2

/-- A channel ordered to spill. -/
def spillOrdered (s : State) (q : Nat × Nat) : State :=
  s.modTile q.1 fun t => t.setCst q.2 { t.cst q.2 with ordered := true }

theorem spillOrdered_ordered (s : State) (q j : Nat × Nat) (h : q = j ∨ ((s.tile j.1).cst j.2).ordered = true) :
    (((spillOrdered s q).tile j.1).cst j.2).ordered = true := by
  rw [spillOrdered, State.modTile_tile]
  split
  · rename_i tile
    rw [Tile.setCst_cst]
    split
    · rfl
    · rename_i other
      rcases h with rfl | held
      · exact absurd rfl other
      · rwa [← tile]
  · rename_i other
    rcases h with rfl | held
    · exact absurd rfl other
    · exact held

theorem foldl_spillOrdered (l : List (Nat × Nat)) (s : State) (j : Nat × Nat)
    (h : j ∈ l ∨ ((s.tile j.1).cst j.2).ordered = true) : (((l.foldl spillOrdered s).tile j.1).cst j.2).ordered = true := by
  induction l generalizing s with
  | nil => simpa using h
  | cons q l ih =>
    refine ih _ ?_
    rcases h with first | held
    · rcases List.mem_cons.1 first with rfl | later
      · exact .inr (spillOrdered_ordered s j j (.inl rfl))
      · exact .inl later
    · exact .inr (spillOrdered_ordered s q j (.inr held))

theorem foldl_spillOrdered_rest (l : List (Nat × Nat)) (s : State) : TilesOnly s (l.foldl spillOrdered s) :=
  tilesOnly_foldl (fun _ _ => ⟨rfl⟩) l s

theorem exec_spillOrder {s : State} {c : Nat} {x : Ctx} (hx : s.ctx c = some x) (watch : watched x = true) :
    exec (.spillOrder c) s = .next ((spillTargets s x).foldl spillOrdered s) := by
  change execSpillOrder c s = _
  simp only [execSpillOrder, hx, watch, Bool.not_true, Bool.false_eq_true, if_false]
  rfl

theorem exec_spillOrder_unwatched {s : State} {c : Nat} {x : Ctx} (hx : s.ctx c = some x) (watch : watched x = false) :
    exec (.spillOrder c) s = .next s := by
  change execSpillOrder c s = _
  simp only [execSpillOrder, hx, watch, Bool.not_false, if_true]

theorem mem_spillTargets {s : State} {x : Ctx} {k : Nat} {es : List WaitEdge} {e : WaitEdge} {q : Nat × Nat}
    (tile : (k, es) ∈ x.rec_.edges) (edge : e ∈ es) (cycle : onCycle x.rec_.edges k e = true) (leads : creditTarget s k e = some q)
    (may : mayEnterSpill s x.cdef q.1 q.2 = true) : q ∈ spillTargets s x := by
  refine List.mem_filter.2 ⟨List.mem_flatMap.2 ⟨_, tile, List.mem_filterMap.2 ⟨e, edge, ?_⟩⟩, may⟩
  rw [if_pos cycle, leads]

end Sys2Proof.Machine

/-! ## Proofs: channels that enter spill state, and transfers of the spill engine (R209 to R213) -/

namespace Sys2Proof.Machine

/-! ### Entering spill state -/

/-- A channel that obeys its spill order. -/
def spillBegun (s : State) (p : Coord) (ch : Nat) : State :=
  s.modTile (ckey p) fun t => t.setCst ch { t.cst ch with ordered := false, spilling := true }

/-- The spill counted for the quarter, the context's tally and its fault entries (R212, R401). -/
def spillCounted (s : State) (c : Nat) (d : CtxDef) (p : Coord) (ch : Nat) : State :=
  addFault ((s.count (quarterOf s p) fun q => { q with spills := satAdd q.spills 1 65535 }).modTally c fun y =>
    { y with spills := y.spills + 1 }) c 0x40 (BitVec.ofNat 64 ((p.x - d.x0) * 2 ^ 11 + (p.y - d.y0) * 2 ^ 5 + ch))

theorem exec_spillEnter {s : State} {p : Coord} {ch : BitVec 5} {c : Nat} {x : Ctx} (works : steerLive s p = some (c, x))
    (ordered : ((s.tile (ckey p)).cst ch.toNat).ordered = true) : exec (.spillEnter p ch) s =
      .next (grantCredits (spillCounted (spillBegun s p ch.toNat) c x.cdef p ch.toNat) x.cdef p ch.toNat) := by
  change execSpillEnter p ch s = _
  simp only [execSpillEnter, works, ordered, if_true]
  rfl

theorem addFault_spills {s : State} {c : Nat} {x : Ctx} (hx : s.ctx c = some x) (kind : Nat) (d : DWord) :
    ∃ y, (addFault s c kind d).ctx c = some y ∧ y.tally.spills = x.tally.spills := by
  refine ⟨_, State.modCtx_ctx_self hx _, ?_⟩
  dsimp only
  split <;> rfl

theorem spillCounted_spec {s : State} {c : Nat} {x : Ctx} (d : CtxDef) (p : Coord) (ch : Nat) (hx : s.ctx c = some x) :
    (spillCounted s c d p ch).tiles = s.tiles ∧ (spillCounted s c d p ch).mem = s.mem ∧
      ∃ y, (spillCounted s c d p ch).ctx c = some y ∧ y.tally.spills = x.tally.spills + 1 := by
  refine ⟨by simp [spillCounted], by simp [spillCounted], ?_⟩
  exact addFault_spills (State.modTally_ctx_self (s := s.count _ _) hx _) _ _

/-! ### Refills -/

/-- Every line of a tile's bin passes its check. -/
def Tile.binSound (t : Tile) : Prop := ∀ l, t.bin.lineOk l = true

theorem writeLogLine_binSound {t : Tile} (sound : t.binSound) (l data : Nat) (poison : Bool) :
    (writeLogLine t l data poison).binSound := by
  unfold writeLogLine
  split
  · exact sound
  · exact fun q => Bin.lineOk_write (Bin.lineOk_writeBack (sound q) _) _ _ _ _

theorem writeSpillItem_binSound {t : Tile} (sound : t.binSound) (e : DWord) (n : Nat) (i : Item) :
    (writeSpillItem t e n i).binSound := by
  unfold writeSpillItem
  extract_lets l
  split
  · exact writeLogLine_binSound (writeLogLine_binSound sound _ _ _) _ _ _
  · split
    · exact fun q => Bin.lineOk_write (sound q) _ _ _ _
    · exact sound

/-- An item read back put into the segment that the refill fills. -/
def refillItem (e : DWord) (ch : Nat) (t : Tile) (i : Item) : Tile :=
  if chBinCap e = 0 then t.setCst ch { t.cst ch with store := (t.cst ch).store ++ [i] } else putBin t ch i

/-- The items of a channel in their order, over its segments (R210). -/
def ChanSt.sequence (c : ChanSt) : List Item := c.store ++ c.binSeg ++ c.memSeg

/-- Items read back go behind the store where the channel has no bin segment, and behind the bin segment where it has one. -/
theorem foldl_refillItem (e : DWord) (ch : Nat) (l : List Item) (t : Tile) :
    ((l.foldl (refillItem e ch) t).cst ch).items =
        (if chBinCap e = 0 then ((t.cst ch).store ++ l, (t.cst ch).binSeg, (t.cst ch).memSeg)
        else ((t.cst ch).store, (t.cst ch).binSeg ++ l, (t.cst ch).memSeg)) ∧
      (t.binSound → (l.foldl (refillItem e ch) t).binSound) := by
  induction l generalizing t with
  | nil => simp [ChanSt.items]
  | cons i l ih =>
    obtain ⟨items, sound⟩ := ih (refillItem e ch t i)
    refine ⟨items.trans ?_, fun ok => sound ?_⟩
    · by_cases direct : chBinCap e = 0
      · simp [refillItem, direct, Tile.setCst_cst_self]
      · simp [refillItem, direct, putBin_cst]
    · unfold refillItem
      split
      · exact ok
      · exact writeSpillItem_binSound (t := t.setCst ch _) ok _ _ _

theorem map_snd_zip_take {α β : Type} (l : List α) (m : List β) : (l.zip m).map Prod.snd = m.take l.length := by
  induction l generalizing m with
  | nil => rfl
  | cons a l ih => cases m with
    | nil => rfl
    | cons b m => simp [ih]

/-- A refill keeps the channel's items in their order, whatever tags the reads add, and spoils no line (R210, R213). -/
theorem refill_sequence (d : CtxDef) (t : Tile) (r : SpillTxn)
    (unbinned : chBinCap (t.chan r.ch) = 0 → (t.cst r.ch).binSeg = []) :
    ((refill d t r).cst r.ch).sequence.map (·.data) = (t.cst r.ch).sequence.map (·.data) ∧
      (t.binSound → (refill d t r).binSound) := by
  unfold refill
  extract_lets e st room n first l taken
  obtain ⟨items, sound⟩ := foldl_refillItem e r.ch l taken
  refine ⟨?_, sound⟩
  change ((l.foldl (refillItem e r.ch) taken).cst r.ch).sequence.map _ = _
  generalize l.foldl (refillItem e r.ch) taken = u at items
  have read : l.map (·.data) = (st.memSeg.take n).map (·.data) := by
    have zipped : l.map (·.data) = (((List.range n).zip st.memSeg).map Prod.snd).map (·.data) := by simp [l, refilled]
    rw [zipped, map_snd_zip_take, List.length_range]
  have rest : taken.cst r.ch = { st with
      memSeg := st.memSeg.drop n, memAt := (st.memAt + n) % max 1 (chMemCap d t r.ch), memSent := st.memSent - n } :=
    Tile.setCst_cst_self ..
  have whole : (st.memSeg.take n).map (·.data) ++ (st.memSeg.drop n).map (·.data) = st.memSeg.map (·.data) := by
    rw [← List.map_append, List.take_append_drop]
  rw [rest] at items
  by_cases direct : chBinCap e = 0
  · rw [if_pos direct] at items
    simp only [ChanSt.items, Prod.mk.injEq] at items
    obtain ⟨store, binSeg, memSeg⟩ := items
    have empty : st.binSeg = [] := unbinned direct
    change _ = st.sequence.map (·.data)
    simp only [ChanSt.sequence, store, binSeg, memSeg, List.map_append, read, empty, ← whole, List.append_nil,
      List.append_assoc]
  · rw [if_neg direct] at items
    simp only [ChanSt.items, Prod.mk.injEq] at items
    obtain ⟨store, binSeg, memSeg⟩ := items
    change _ = st.sequence.map (·.data)
    simp only [ChanSt.sequence, store, binSeg, memSeg, List.map_append, read, ← whole, List.append_assoc]

/-! ### Transfers -/

theorem spillItemOk_of_sound {t : Tile} (sound : t.binSound) (e : DWord) (n : Nat) : spillItemOk t e n = true := by
  unfold spillItemOk
  refine List.all_eq_true.2 fun i _ => ?_
  split
  · exact sound _
  · rfl

/-- Items that move up from a sound bin keep the channel's items in their order (R210). -/
theorem moveUp_sequence (n : Nat) {s : State} {p : Coord} {ch : Nat} (sound : (s.tile (ckey p)).binSound) :
    (((moveUp n s p ch).tile (ckey p)).cst ch).sequence = ((s.tile (ckey p)).cst ch).sequence ∧ (moveUp n s p ch).mem = s.mem := by
  induction n generalizing s with
  | zero => exact ⟨rfl, rfl⟩
  | succ n ih =>
    cases first : ((s.tile (ckey p)).cst ch).binSeg with
    | nil => rw [moveUp_empty _ first]; exact ⟨rfl, rfl⟩
    | cons i l =>
      by_cases room : ((s.tile (ckey p)).cst ch).store.length < chCap ((s.tile (ckey p)).chan ch)
      · rw [moveUp_moves n first room (spillItemOk_of_sound sound ..)]
        obtain ⟨later, mem⟩ := ih (s := s.setTile (ckey p) ((s.tile (ckey p)).movedUp ch i l))
          (by rw [State.setTile_tile_self]; exact sound)
        refine ⟨later.trans ?_, mem⟩
        rw [State.setTile_tile_self, Tile.movedUp, Tile.setCst_cst_self]
        simp [ChanSt.sequence, first]
      · rw [moveUp_full _ room]; exact ⟨rfl, rfl⟩

theorem sequence_of_items {c e : ChanSt} (same : c.items = e.items) : c.sequence = e.sequence := by
  simp only [ChanSt.items, Prod.mk.injEq] at same
  obtain ⟨store, binSeg, memSeg⟩ := same
  simp only [ChanSt.sequence, store, binSeg, memSeg]

/-- What a read brought keeps its order through the refill, the store and new credits (R210). -/
theorem readBack_sequence (s : State) (d : CtxDef) (p : Coord) {t : Tile} {r : SpillTxn} (sound : t.binSound)
    (direct : chBinCap (t.chan r.ch) = 0 → (t.cst r.ch).binSeg = []) {u : State}
    (hu : u = grantCredits (moveUp (chCap (t.chan r.ch)) (s.setTile (ckey p) (refill d t r)) p r.ch) d p r.ch) :
    ((u.tile (ckey p)).cst r.ch).sequence.map (·.data) = (t.cst r.ch).sequence.map (·.data) ∧ u.mem = s.mem := by
  obtain ⟨kept, ok⟩ := refill_sequence d t r direct
  obtain ⟨moved, mem⟩ := moveUp_sequence (chCap (t.chan r.ch)) (s := s.setTile (ckey p) (refill d t r)) (p := p) (ch := r.ch)
    (by rw [State.setTile_tile_self]; exact ok sound)
  rw [State.setTile_tile_self] at moved
  obtain ⟨granted, grantedMem⟩ := grantCredits_spec (moveUp (chCap (t.chan r.ch)) (s.setTile (ckey p) (refill d t r)) p r.ch) d p r.ch
  subst hu
  exact ⟨by rw [sequence_of_items (granted r.ch), moved, kept], grantedMem.trans mem⟩

section
variable {s : State} {p : Coord} {ch : BitVec 5} {c tag : Nat} {x : Ctx} {r : SpillTxn} (works : steerLive s p = some (c, x))
  (found : ((s.tile (ckey p)).spill.find? fun e => e.2.ch == ch.toNat && e.2.got = e.2.len) = some (tag, r))
include works found

theorem exec_spillTransferComplete_write (write : r.write = true) : exec (.spillTransferComplete p ch) s =
    .next (pumpPort (s.setTile (ckey p) { s.tile (ckey p) with spill := mdel (s.tile (ckey p)).spill tag }) p) := by
  change execSpillTransferComplete p ch s = _
  simp only [execSpillTransferComplete, works, found, write, if_true]

theorem exec_spillTransferComplete_read (read : r.write = false) : exec (.spillTransferComplete p ch) s =
    .next (grantCredits (moveUp (chCap ((s.tile (ckey p)).chan ch.toNat)) (s.setTile (ckey p)
      (refill x.cdef { s.tile (ckey p) with spill := mdel (s.tile (ckey p)).spill tag } r)) p ch.toNat) x.cdef p ch.toNat) := by
  change execSpillTransferComplete p ch s = _
  simp only [execSpillTransferComplete, works, found, read, Bool.false_eq_true, if_false]
  rfl

end

/-- Settles O23: reports by the tile's state, orders by the edges of the graph, and a transfer by the order of a channel's items. -/
theorem spillAndWaits : Obligations.SpillAndWaits := by
  rintro s p ch c x t works rfl hx
  obtain ⟨hc, running⟩ := steerLive_inCtx works
  refine ⟨fun isBlocked first still room => ?_, fun not => ?_, fun l found => ?_, fun watch => ?_,
    fun watch => exec_spillOrder_unwatched hx watch, fun ordered => ?_, fun tag r found sound direct => ?_⟩
  · rw [exec_blockedReport works, if_pos (by simp [isBlocked, first, still, room])]
  · rw [exec_blockedReport works, if_neg (by rcases not with h | h <;> simp [h])]
  · obtain ⟨v, answer, tiles, mem, hv⟩ := exec_waitGraphReport hc hx found
    obtain ⟨reports, edges, state⟩ := Ctx.cycleWatched_rest { x with rec_ := x.rec_.reportTaken (ckey p) l }
    obtain ⟨erased, kept, mine⟩ := CtxRec.reportTaken_rest x.rec_ (ckey p) l
    refine ⟨_, _, answer, (watchCycles_tiles ..).trans tiles, (watchCycles_mem ..).trans mem, watchCycles_ctx hv, reports.trans erased,
      rfl, rfl, state.trans kept, (congrArg (mfind · (ckey p)) edges).trans mine, fun edgy watch free => ?_⟩
    have same : watched { x with rec_ := x.rec_.reportTaken (ckey p) l } = true := by
      simpa only [watched, kept] using watch
    exact (Ctx.cycleWatched_hang same ((CtxRec.reportTaken_hang edgy).trans free)).trans (congrArg waitCycle edges.symm)
  · have rest := foldl_spillOrdered_rest (spillTargets s x) s
    refine ⟨_, exec_spillOrder hx watch, rest.mem, by rw [rest.rest], fun k es e q tile edge cycle leads may => ?_⟩
    exact foldl_spillOrdered _ s q (.inl (mem_spillTargets tile edge cycle leads may))
  · obtain ⟨tiles, mem, y, hy, spills⟩ := spillCounted_spec (s := spillBegun s p ch.toNat) x.cdef p ch.toNat hx
    obtain ⟨n, stay, granted⟩ := grantCredits_pumped (spillCounted (spillBegun s p ch.toNat) c x.cdef p ch.toNat) x.cdef p ch.toNat
    obtain ⟨sent, same⟩ := granted.tile.cst ch.toNat
    rw [State.setTile_tile_self, Tile.setCst_cst_self, State.tile_congr tiles, spillBegun, State.modTile_tile_self,
      Tile.setCst_cst_self] at same
    exact ⟨_, exec_spillEnter works ordered, by rw [spillBegun, same], by rw [spillBegun, same],
      ⟨y, (State.ctx_congr granted.ctxs c).trans hy, spills⟩, granted.mem.trans mem⟩
  · have channel : r.ch = ch.toNat := by
      have := List.find?_some found
      simp only [Bool.and_eq_true, beq_iff_eq] at this
      exact this.1
    by_cases write : r.write = true
    · have pumped := pumpPort_pumped (s.setTile (ckey p) { s.tile (ckey p) with spill := mdel (s.tile (ckey p)).spill tag }) p
      have items := pumped.tile.items ch.toNat
      rw [State.setTile_tile_self] at items
      refine ⟨_, _, exec_spillTransferComplete_write works found write, pumped.mem, rfl, congrArg _ (sequence_of_items items),
        fun _ => ?_⟩
      exact ⟨congrArg Prod.fst items, congrArg (Prod.fst ∘ Prod.snd) items⟩
    · obtain ⟨order, mem⟩ := readBack_sequence s x.cdef p (t := { s.tile (ckey p) with spill := mdel (s.tile (ckey p)).spill tag })
        sound (channel ▸ direct) rfl
      rw [channel] at order mem
      exact ⟨_, _, exec_spillTransferComplete_read works found (by simpa using write), mem, rfl, order, fun h => absurd h write⟩

end Sys2Proof.Machine

/-! ## Proofs: states that differ in the mesh alone, and flits put on it and taken off -/

namespace Sys2Proof.Machine

section
variable {s u v : State}

/-- States that differ in the mesh alone. -/
structure MeshAlone (s u : State) : Prop where
  rest : u = { s with mesh := u.mesh }

theorem MeshAlone.refl (s : State) : MeshAlone s s := ⟨rfl⟩

theorem MeshAlone.trans (h : MeshAlone s u) (k : MeshAlone u v) : MeshAlone s v := ⟨by rw [k.rest, h.rest]⟩

theorem MeshAlone.tiles (h : MeshAlone s u) : u.tiles = s.tiles := by rw [h.rest]
theorem MeshAlone.mem (h : MeshAlone s u) : u.mem = s.mem := by rw [h.rest]
theorem MeshAlone.ctx (h : MeshAlone s u) (c : Nat) : u.ctx c = s.ctx c := State.ctx_congr (by rw [h.rest]) c
theorem MeshAlone.live (h : MeshAlone s u) (c : Nat) (p : Coord) : live u c p = live s c p := by rw [h.rest]; rfl

theorem meshAlone_foldl {α : Type} {f : State → α → State} (hf : ∀ s a, MeshAlone s (f s a)) (l : List α) (s : State) :
    MeshAlone s (l.foldl f s) :=
  List.foldlRecOn (motive := MeshAlone s) l f (.refl s) fun u h a _ => h.trans (hf u a)

end

theorem foldl_dropFlit_next {α : Type} (n : α → Nat) (l : List α) (s : State) :
    (l.foldl (fun s a => s.dropFlit (n a)) s).mesh.nextFlit = s.mesh.nextFlit :=
  List.foldlRecOn (motive := fun u : State => u.mesh.nextFlit = s.mesh.nextFlit) l _ rfl fun _ h _ _ => h

end Sys2Proof.Machine

/-! ## Proofs: injection throttles and management packets (R208, R237, R243) -/

namespace Sys2Proof.Machine

section
variable {s : State} {p : Coord} {cls : MClass} (runs : rootStopped s = false)
include runs

theorem exec_injectionThrottleOnset : exec (.injectionThrottleOnset p cls) s =
    if (bitAt (cfgInForce s 0x2270 1).toNat 31 && decide (classNum cls < 3) &&
        !s.mesh.throttled.contains (8 * ckey p + classNum cls) && outputBlocked s p cls) = true then
      .next (State.count { s with mesh := { s.mesh with
        throttled := sadd s.mesh.throttled (8 * ckey p + classNum cls)
        injected := mdel s.mesh.injected (8 * ckey p + classNum cls) } } (quarterOf s p)
        fun n => { n with throttles := satAdd n.throttles 1 65535 })
    else .next s := by
  change execInjectionThrottleOnset p cls s = _
  simp only [execInjectionThrottleOnset, runs, Bool.not_false, Bool.true_and]
  rfl

theorem exec_injectionThrottleLift : exec (.injectionThrottleLift p cls) s =
    if outputBlocked s p cls = true then .next s
    else .next { s with mesh := { s.mesh with throttled := sdel s.mesh.throttled (8 * ckey p + classNum cls) } } := by
  change execInjectionThrottleLift p cls s = _
  simp only [execInjectionThrottleLift, runs, Bool.false_or]

end

section
variable {s : State} {f : Nat} {fl : Flit} (arrived : s.arrived f = some fl) (cls : fl.cls = .management)
include arrived cls

theorem exec_managementPacketAccept_waits (waits : wholePacket s fl = none) : exec (.managementPacketAccept f) s = .next s := by
  change execManagementPacketAccept f s = _
  simp only [execManagementPacketAccept, arrived, cls, beq_self_eq_true, if_true, waits]

/-- A packet that has come whole is taken, and the report of a running tile goes on to the wait graph (R208, R243). -/
theorem exec_managementPacketAccept {k : List (Nat × Flit)} (whole : wholePacket s fl = some k) :
    exec (.managementPacketAccept f) s = .next
      (match live s fl.ctx.toNat fl.src with
       | some _ => (k.foldl (fun s g => s.dropFlit g.1) s).modRec fl.ctx.toNat fun r =>
           { r with reports := r.reports ++ [(ckey fl.src, k.flatMap fun g => g.2.edges)] }
       | none => k.foldl (fun s g => s.dropFlit g.1) s) := by
  have taken : MeshAlone s (k.foldl (fun s g => s.dropFlit g.1) s) := meshAlone_foldl (fun _ _ => ⟨rfl⟩) k s
  change execManagementPacketAccept f s = _
  cases alive : live s fl.ctx.toNat fl.src <;>
    simp only [execManagementPacketAccept, arrived, cls, beq_self_eq_true, if_true, whole, taken.live, alive]

end

end Sys2Proof.Machine

/-! ## Proofs: barriers (R244) -/

namespace Sys2Proof.Machine

/-- The router of a tile has taken the arrives of its children and counts as arrived. -/
def barrierJoined (s : State) (c : Nat) (x : Ctx) (p : Coord) : State :=
  ((((barrierChildren x.cdef p).map (arriveOf s c p)).filterMap id).foldl State.dropFlit s).modRun c fun r =>
    { r with arrived := sadd r.arrived (ckey p) }

/-- The arrive flit that a router sends to its parent. -/
def arriveFlit (c : Nat) (p q : Coord) : Flit := { cls := .management, ctx := BitVec.ofNat 4 c, op := 9, dst := q, src := p }

section
variable {s : State} {p : Coord} {c : Nat} {x : Ctx}

theorem barrierJoined_spec (hx : s.ctx c = some x) :
    (barrierJoined s c x p).tiles = s.tiles ∧ (barrierJoined s c x p).mem = s.mem ∧
      (barrierJoined s c x p).mesh.nextFlit = s.mesh.nextFlit ∧
      (barrierJoined s c x p).ctx c = some { x with run := { x.run with arrived := sadd x.run.arrived (ckey p) } } := by
  generalize hl : ((barrierChildren x.cdef p).map (arriveOf s c p)).filterMap id = l
  have taken : MeshAlone s (l.foldl State.dropFlit s) := meshAlone_foldl (fun _ _ => ⟨rfl⟩) l s
  rw [barrierJoined, hl]
  refine ⟨(State.modRun_tiles ..).trans taken.tiles, (State.modRun_mem ..).trans taken.mem, ?_,
    State.modRun_ctx_self ((taken.ctx c).trans hx) _⟩
  rw [State.modRun_mesh]
  exact foldl_dropFlit_next id l s

theorem exec_barrierArrive (runs : rootStopped s = false) (hc : InCtx s p c x) (running : x.rec_.state = 1)
    (mine : tileArrived s (ckey p) = true) (first : x.run.arrived.contains (ckey p) = false)
    (kids : ∀ q ∈ barrierChildren x.cdef p, (arriveOf s c p q).isSome = true) : exec (.barrierArrive p) s =
      match barrierParent x.cdef p with
      | none => .next (barrierJoined s c x p)
      | some q =>
        match treeHop s p q (arriveFlit c p q) with
        | some l => .next ((barrierJoined s c x p).addFlit { arriveFlit c p q with loc := l })
        | none => .next s := by
  have all : (((barrierChildren x.cdef p).map (arriveOf s c p)).any fun k => k.isNone) = false := by
    simpa [List.any_eq_false, ← Option.isSome_iff_ne_none] using kids
  change execBarrierArrive p s = _
  simp only [execBarrierArrive, show ctxAt s p = some (c, x) from hc, running, runs, mine, first, all, bne_self_eq_false, Bool.not_true,
    Bool.or_false, Bool.false_eq_true, if_false]
  rfl

theorem exec_barrierRelease (runs : rootStopped s = false) (hx : s.ctx c = some x)
    (top : x.run.arrived.contains (tkey x.cdef.x0 x.cdef.y0) = true) (first : x.run.releasing = false)
    (own : hallBarrier s c x = false) : exec (.barrierRelease c) s = .next (startRelease s c x.cdef) := by
  change execBarrierRelease c s = _
  simp only [execBarrierRelease, hx, runs, top, first, own, Bool.not_false, Bool.and_self, if_true]

end

theorem startRelease_spec {s : State} {c : Nat} {x : Ctx} (hx : s.ctx c = some x) (d : CtxDef) :
    (startRelease s c d).tiles = s.tiles ∧ (startRelease s c d).mem = s.mem ∧
      (startRelease s c d).ctx c = some { x with run := { x.run with releasing := true, heard := [] } } ∧
      ∃ g, mfind (startRelease s c d).mesh.flits s.mesh.nextFlit = some g ∧ g.op = 0xA ∧ g.cls = .management ∧
        g.loc = .router d.x0 d.y0 .tile := by
  have ctx := State.modRun_ctx_self hx fun r => { r with releasing := true, heard := [] }
  have tiles := State.modRun_tiles s c fun r => { r with releasing := true, heard := [] }
  have mem := State.modRun_mem s c fun r => { r with releasing := true, heard := [] }
  have mesh := State.modRun_mesh s c fun r => { r with releasing := true, heard := [] }
  unfold startRelease
  generalize (s.modRun c fun r => { r with releasing := true, heard := [] }) = v at ctx tiles mem mesh
  rw [← mesh]
  exact ⟨tiles, mem, ctx, _, mfind_mput_self .., rfl, rfl, rfl⟩

/-- The copies of a release for the branches below a router. -/
def releaseCopies (s : State) (f : Nat) (fl : Flit) (d : CtxDef) (t : Coord) : State :=
  ((barrierChildren d t).map fun q => (q, treeHop s t q fl)).foldl
    (fun s h => s.addFlit { fl with src := t, dst := h.1, loc := h.2.getD .sink }) (s.dropFlit f)

theorem releaseCopies_alone (s : State) (f : Nat) (fl : Flit) (d : CtxDef) (t : Coord) :
    MeshAlone s (releaseCopies s f fl d t) :=
  MeshAlone.trans ⟨rfl⟩ (meshAlone_foldl (fun _ _ => ⟨rfl⟩) _ _)

theorem exec_flitForward_release {s : State} {f i j : Nat} {inp : Port} {fl : Flit} {x : Ctx} (found : s.flit f = some fl)
    (loc : fl.loc = .router i j inp) (cls : fl.cls = .management) (op : fl.op = 0xA) (hx : s.ctx fl.ctx.toNat = some x)
    (room : ∀ q ∈ barrierChildren x.cdef ⟨i, j⟩, (treeHop s ⟨i, j⟩ q fl).isSome = true) : exec (.flitForward f) s =
      .next ((releaseCopies s f fl x.cdef ⟨i, j⟩).modRun fl.ctx.toNat fun r =>
        { r with
          heard := sadd r.heard (tkey i j)
          released := r.released || (sadd r.heard (tkey i j)).length = x.cdef.w * x.cdef.h }) := by
  have release : barrierFlit fl = true := by simp [barrierFlit, cls, op]
  have down : (fl.op == 0xA) = true := by simp [op]
  have free : (((barrierChildren x.cdef ⟨i, j⟩).map fun q => (q, treeHop s ⟨i, j⟩ q fl)).any fun h => h.2.isNone) = false := by
    simpa [List.any_eq_false, ← Option.isSome_iff_ne_none] using room
  change execFlitForward f s = _
  simp only [execFlitForward, found, loc, release, if_true, down, releaseForward, hx, free, Bool.false_eq_true, if_false]
  rfl

end Sys2Proof.Machine

/-! ## Proofs: circuits (R246) -/

namespace Sys2Proof.Machine

/-- The copy of a circuit flit for one port of its entry's mask. -/
def circuitCopy (s : State) (x y : Nat) (fl : Flit) (q : Port) : Flit :=
  { fl with loc := if q == .tile then .sink else hopTo s x y q, dst := if q == .tile then ⟨x, y⟩ else fl.dst }

/-- A circuit flit's copy sent by one port, its cycle noted (R234, R246). -/
def circuitSent (x y : Nat) (fl : Flit) (s : State) (q : Port) : State :=
  State.addFlit { s with mesh := { s.mesh with
    circuitSends := mput s.mesh.circuitSends (outKey x y q)
      (s.clk.root.toNat :: (mget s.mesh.circuitSends [] (outKey x y q)).filter fun t => s.clk.root.toNat < t + 24) } }
    (circuitCopy s x y fl q)

/-- The copies stand one behind another, in the order of the ports. -/
theorem foldl_circuitSent (x y : Nat) (fl : Flit) (ps : List Port) (s : State) :
    MeshAlone s (ps.foldl (circuitSent x y fl) s) ∧
      (∀ n, n < s.mesh.nextFlit → mfind (ps.foldl (circuitSent x y fl) s).mesh.flits n = mfind s.mesh.flits n) ∧
      ∀ i q, ps[i]? = some q → mfind (ps.foldl (circuitSent x y fl) s).mesh.flits (s.mesh.nextFlit + i) =
        some { circuitCopy s x y fl q with stamp := s.mesh.nextStamp + i } := by
  induction ps generalizing s with
  | nil => exact ⟨.refl s, fun _ _ => rfl, fun i q h => absurd h (by simp)⟩
  | cons r ps ih =>
    obtain ⟨alone, below, copies⟩ := ih (circuitSent x y fl s r)
    refine ⟨MeshAlone.trans ⟨rfl⟩ alone, fun n hn => (below n (Nat.lt_succ_of_lt hn)).trans ?_, fun i q h => ?_⟩
    · exact (mfind_mput ..).trans (if_neg (Nat.ne_of_lt hn))
    · cases i with
      | zero =>
        obtain rfl : r = q := by simpa using h
        exact (below _ (Nat.lt_succ_self s.mesh.nextFlit)).trans (mfind_mput_self ..)
      | succ i =>
        have later := copies i q h
        change mfind _ (s.mesh.nextFlit + 1 + i) = some { circuitCopy s x y fl q with stamp := s.mesh.nextStamp + 1 + i } at later
        rw [Nat.add_assoc, Nat.add_comm 1 i, Nat.add_assoc, Nat.add_comm 1 i] at later
        exact later

theorem exec_circuitFlitCopy {s : State} {f x y : Nat} {fl : Flit} {e : CircuitEnt} (found : s.flit f = some fl)
    (entry : circuitEnt s fl = some (x, y, e)) (head : isHead s fl = true) (room : circuitRoom s x y e fl = true)
    (grant : (maskPorts e.mask).all (circuitGranted s x y) = true) : exec (.circuitFlitCopy f) s =
      .next ((maskPorts e.mask).foldl (circuitSent x y fl) (s.dropFlit f)) := by
  change execCircuitFlitCopy f s = _
  simp only [execCircuitFlitCopy, found, entry, head, room, grant, Bool.and_self, if_true]
  rfl

theorem meshServiceClaims : Claims.MeshServices := by
  rintro s p f c cls fl x n h runs
  refine ⟨fun three on fresh isBlocked => ?_, fun free => ⟨?_, ?_⟩, fun isBlocked => ?_, fun arrived management => ⟨?_, fun k whole => ?_⟩,
    fun hc hx running mine first kids => ⟨fun root => ?_, fun q l parent hop => ?_⟩, fun hx top first own => ?_,
    fun i j inp found loc management op hx room => ?_, ?_, fun e found entry head room grant old => ?_⟩
  · have small : classNum cls < 3 := by
      simp only [List.mem_cons, List.not_mem_nil, or_false] at three
      rcases three with rfl | rfl | rfl <;> decide
    refine ⟨_, (exec_injectionThrottleOnset runs).trans (if_pos (by simp only [on, small, fresh, isBlocked, decide_true, Bool.not_false, Bool.and_self])), rfl, rfl, rfl, ?_⟩
    simp [State.count, mmod]
  · exact (exec_injectionThrottleLift runs).trans (if_neg (by simp [free]))
  · exact (exec_injectionThrottleOnset runs).trans (if_neg (by simp [free]))
  · exact (exec_injectionThrottleLift runs).trans (if_pos isBlocked)
  · exact exec_managementPacketAccept_waits arrived management
  · have taken : MeshAlone s (k.foldl (fun s g => s.dropFlit g.1) s) := meshAlone_foldl (fun _ _ => ⟨rfl⟩) k s
    refine ⟨fun gone => ?_, fun alive hx => ?_⟩
    · rw [exec_managementPacketAccept arrived management whole, gone]
    · rw [exec_managementPacketAccept arrived management whole, alive]
      simp only [State.modRec, State.modCtx, taken.ctx, hx]
  · obtain ⟨tiles, mem, -, ctx⟩ := barrierJoined_spec (p := p) hx
    exact ⟨_, by rw [exec_barrierArrive runs hc running mine first kids, root], tiles, mem, ctx⟩
  · obtain ⟨tiles, mem, next, ctx⟩ := barrierJoined_spec (p := p) hx
    have answer := exec_barrierArrive runs hc running mine first kids
    rw [parent] at answer
    simp only [show treeHop s p q (arriveFlit c p q) = some l from hop] at answer
    generalize barrierJoined s c x p = v at answer tiles mem next ctx
    rw [← next]
    exact ⟨_, _, answer, tiles, mem, ctx, mfind_mput_self .., rfl, rfl, rfl, rfl, rfl⟩
  · obtain ⟨tiles, mem, ctx, g, sent, op, cls, loc⟩ := startRelease_spec hx x.cdef
    exact ⟨_, g, exec_barrierRelease runs hx top first own, tiles, mem, ctx, sent, op, cls, loc⟩
  · have alone := releaseCopies_alone s f fl x.cdef ⟨i, j⟩
    exact ⟨_, exec_flitForward_release found loc management op hx room, (State.modRun_tiles ..).trans alone.tiles,
      (State.modRun_mem ..).trans alone.mem, State.modRun_ctx_self ((alone.ctx _).trans hx) _⟩
  · exact ⟨_, rfl, mfind_mput_self .., rfl⟩
  · obtain ⟨alone, below, copies⟩ := foldl_circuitSent p.x p.y fl (maskPorts e.mask) (s.dropFlit f)
    refine ⟨_, exec_circuitFlitCopy found entry head room grant, (below f old).trans (dropFlit_self s f), alone.tiles, alone.mem,
      copies⟩

end Sys2Proof.Machine

/-! ## Proofs: in-network reduction (R248 to R253) -/

namespace Sys2Proof.Machine

/-! ### Staging (R251) -/

theorem staged_setStaged (s : State) (k e i k' e' i' : Nat) (l : List Staged) : staged (setStaged s k e i l) k' e' i' =
    if 8 * (32 * k' + e') + i' = 8 * (32 * k + e) + i then l else staged s k' e' i' :=
  mget_mset s.mesh.staging [] l _ _

theorem staged_setStaged_self (s : State) (k e i : Nat) (l : List Staged) : staged (setStaged s k e i l) k e i = l := by
  rw [staged_setStaged, if_pos rfl]

theorem staged_redPop_one (s : State) (k e : Nat) : staged (redPop s k e 1) k e 0 = (staged s k e 0).drop 1 :=
  staged_setStaged_self ..

theorem staged_redPop_two (s : State) (k e : Nat) : staged (redPop s k e 2) k e 0 = (staged s k e 0).drop 1 ∧
    staged (redPop s k e 2) k e 1 = (staged s k e 1).drop 1 := by
  have popped : redPop s k e 2 = setStaged (setStaged s k e 0 ((staged s k e 0).drop 1)) k e 1 ((staged s k e 1).drop 1) := by
    simp [redPop, List.range_succ, staged_setStaged]
  rw [popped]
  exact ⟨by rw [staged_setStaged, if_neg (by omega), staged_setStaged_self], staged_setStaged_self ..⟩

/-- The heads of an entry's inputs leave its staging alone. -/
theorem redPop_frame (s : State) (k e ins : Nat) : ∃ staging, redPop s k e ins = { s with mesh := { s.mesh with staging := staging } } :=
  List.foldlRecOn (motive := fun u : State => ∃ staging, u = { s with mesh := { s.mesh with staging := staging } }) _ _ ⟨_, rfl⟩
    fun u hu i _ => by obtain ⟨staging, rfl⟩ := hu; exact ⟨_, rfl⟩

theorem redHeads_one {s : State} {k e : Nat} {a : Staged} (first : (staged s k e 0).head? = some a) :
    redHeads s k e 1 = some [a] := by
  simp [redHeads, first]

theorem redHeads_two {s : State} {k e : Nat} {a b : Staged} (first : (staged s k e 0).head? = some a)
    (second : (staged s k e 1).head? = some b) (same : a.seq = b.seq) : redHeads s k e 2 = some [a, b] := by
  simp [redHeads, List.range_succ, first, second, same]

/-! ### Outputs of an entry (R232, R251) -/

/-- An item for the tile itself is a result at the sink of the tile. -/
theorem redGive_tile (s : State) (c : BitVec 4) (x y : Nat) (w : DWord) (i : Staged) :
    redGive s c x y w 4 i = s.addFlit (redFlit s c x y w 4 i) := rfl

/-- What the tile is given stands at its sink, and the staging of the inputs stays. -/
theorem redGive_tile_spec (s : State) (k e ins : Nat) (c : BitVec 4) (x y : Nat) (w : DWord) (i : Staged) {u : State}
    (hu : u = redGive (redPop s k e ins) c x y w 4 i) : MeshAlone s u ∧ (∀ j n m, staged u j n m = staged (redPop s k e ins) j n m) ∧
      ∃ g, mfind u.mesh.flits s.mesh.nextFlit = some g ∧ g.cls = .collective ∧ g.op = 8 ∧ g.seq = i.seq ∧ g.loc = .sink ∧
        g.dst = ⟨x, y⟩ ∧ g.item = i.item := by
  subst hu
  obtain ⟨staging, frame⟩ := redPop_frame s k e ins
  rw [frame, redGive_tile]
  exact ⟨⟨rfl⟩, fun _ _ _ => rfl, _, mfind_mput_self .., rfl, rfl, rfl, rfl, rfl, rfl⟩

/-- An item for the next router goes straight into the staging of its entry there. -/
theorem redGive_router {s : State} {c : BitVec 4} {x y port k n inp q1 q2 : Nat} {q3 : Port} {w : DWord} {i : Staged} (off : port ≠ 4)
    (next : redNext s x y w port = (k, n, inp))
    (hop : treeHop s ⟨x, y⟩ (keyXY k) (redFlit s c x y w port i) = some (.router q1 q2 q3)) :
    redGive s c x y w port i = setStaged s k n inp (staged s k n inp ++ [i]) := by
  have away : (port == 4) = false := by simpa using off
  have dst : (redFlit s c x y w port i).dst = keyXY k := by
    simp only [redFlit, away, Bool.false_eq_true, if_false, next]
  rw [← dst] at hop
  simp only [redGive, away, Bool.false_eq_true, if_false, next, hop]

/-- Where an output leads does not depend on what is staged. -/
theorem redRoute_congr {s u : State} {staging : AMap (List Staged)} (hu : u = { s with mesh := { s.mesh with staging := staging } })
    (c : BitVec 4) (x y port : Nat) (w : DWord) (i : Staged) (q : Coord) (fl : Flit) :
    redNext u x y w port = redNext s x y w port ∧ redFlit u c x y w port i = redFlit s c x y w port i ∧
      treeHop u ⟨x, y⟩ q fl = treeHop s ⟨x, y⟩ q fl := by
  subst hu
  exact ⟨rfl, rfl, rfl⟩

/-! ### The entry (R250 to R253) -/

section
variable {s : State} {p : Coord} {e : BitVec 5} {c : Nat} {x : Ctx} (works : steerLive s p = some (c, x))
include works

/-- What an entry of type REDUCE does with the heads of its inputs, once its output has room. -/
theorem exec_reduceCombine {a : Staged} {l : List Staged} (reduces : rType (redEntry s (ckey p) e.toNat) = 1)
    (room : redRoom s p.x p.y (redEntry s (ckey p) e.toNat) (rOut (redEntry s (ckey p) e.toNat)) = true)
    (some_ : (rInputs (redEntry s (ckey p) e.toNat)).length ≠ 0)
    (heads : redHeads s (ckey p) e.toNat (rInputs (redEntry s (ckey p) e.toNat)).length = some (a :: l)) :
    exec (.reduceCombine p e) s =
      if (!l.isEmpty && (a :: l).any fun i => i.item.tagged) = true then .next (takeExc s p 8 0 false (4 * 2 ^ 26 + e.toNat))
      else .next (redGive (redPop s (ckey p) e.toNat (rInputs (redEntry s (ckey p) e.toNat)).length) (BitVec.ofNat 4 c) p.x p.y
        (redEntry s (ckey p) e.toNat) (rOut (redEntry s (ckey p) e.toNat))
        ⟨a.seq, { a.item with data := l.foldl (fun v i => redOp (rOp (redEntry s (ckey p) e.toNat)) v i.item.data) a.item.data }⟩) := by
  change execReduceCombine p e s = _
  simp only [execReduceCombine, works, reduces, some_, room, heads, bne_self_eq_false, decide_false, Bool.not_true, Bool.or_false,
    Bool.false_eq_true, if_false]

theorem exec_bcastCopy_tile {a : Staged} (copies : rType (redEntry s (ckey p) e.toNat) = 2)
    (mask : (List.range 5).filter (rMask (redEntry s (ckey p) e.toNat)) = [4])
    (first : (staged s (ckey p) e.toNat 0).head? = some a)
    (room : redRoom s p.x p.y (redEntry s (ckey p) e.toNat) 4 = true) : exec (.bcastCopy p e) s =
      .next (redGive (redPop s (ckey p) e.toNat 1) (BitVec.ofNat 4 c) p.x p.y (redEntry s (ckey p) e.toNat) 4 a) := by
  change execBcastCopy p e s = _
  simp only [execBcastCopy, execBcastCopy.rOuts, works, copies, first, mask, List.all_cons, List.all_nil, room, Bool.and_self, if_true,
    List.foldl_cons, List.foldl_nil]

/-- The credit that an entry returns to the tile that feeds the tree (R252). -/
def branchCredit (c : Nat) (p : Coord) (w : DWord) (m : Nat) : Flit :=
  { cls := .collective, ctx := BitVec.ofNat 4 c, op := 1, dst := p, src := p, chan := BitVec.ofNat 5 (rTileCh w), aux := BitVec.ofNat 16 m }

theorem exec_bcastCredit_tile {m : Nat} (copies : rType (redEntry s (ckey p) e.toNat) = 2)
    (mask : (List.range 5).filter (rMask (redEntry s (ckey p) e.toNat)) = [4]) (fed : rIn (redEntry s (ckey p) e.toNat) 0 = 4)
    (owed : mget s.mesh.branch 0 (8 * (32 * ckey p + e.toNat) + 4) = m + 1) : exec (.bcastCredit p e) s =
      .next (if (sinkRoom s (branchCredit c p (redEntry s (ckey p) e.toNat) (m + 1)) &&
          !heldAt s (branchCredit c p (redEntry s (ckey p) e.toNat) (m + 1))) = true then
        State.addFlit { s with mesh := { s.mesh with branch := mput s.mesh.branch (8 * (32 * ckey p + e.toNat) + 4) 0 } }
          (branchCredit c p (redEntry s (ckey p) e.toNat) (m + 1))
      else s) := by
  change execBcastCredit p e s = _
  simp only [execBcastCredit, works, copies, mask, List.map_cons, List.map_nil, owed, List.min?_singleton, fed, if_true,
    List.foldl_cons, List.foldl_nil, mmod, Nat.sub_self, Nat.add_one_ne_zero, if_false]
  rfl

end

/-- A contribution of a running tile goes from its port into the staging of its entry (R232, R251). -/
theorem exec_flitForward_contribution {s : State} {f i j : Nat} {fl : Flit} (found : s.flit f = some fl) (loc : fl.loc = .port i j)
    (cls : fl.cls = .collective) (op : fl.op = 7) (head : isHead s fl = true) (alive : (live s fl.ctx.toNat fl.dst).isSome = true) :
    exec (.flitForward f) s = .next (pumpPort (setStaged (s.dropFlit f) (ckey fl.dst) (fl.tag.toNat % 32) (fl.tag.toNat / 32 % 8)
      (staged s (ckey fl.dst) (fl.tag.toNat % 32) (fl.tag.toNat / 32 % 8) ++ [⟨fl.seq, fl.item⟩])) ⟨i, j⟩) := by
  have there : live (s.dropFlit f) fl.ctx.toNat fl.dst = live s fl.ctx.toNat fl.dst := rfl
  change execFlitForward f s = _
  simp only [execFlitForward, found, loc, inject, head, Bool.not_true, Bool.false_eq_true, if_false, takeDirect, cls, bne_self_eq_false,
    op, beq_self_eq_true, if_true, takeContribution, there, alive]
  rfl

theorem inNetworkReduction : Claims.InNetworkReduction := by
  rintro s p e c x w a b works rfl
  refine ⟨fun f fl i j found loc cls op head alive => ?_,
    fun reduces room first => ⟨fun one out => ?_, fun two second same => ⟨fun tagged => ?_, fun cleanA cleanB out => ?_,
      fun k n i q1 q2 q3 cleanA cleanB out next hop => ?_⟩⟩,
    fun copies mask first room => ?_, fun m copies mask fed owed fl hfl => ⟨fun room free => ?_, fun full => ?_⟩⟩
  · exact ⟨_, exec_flitForward_contribution found loc cls op head alive, rfl, rfl, staged_setStaged_self ..⟩
  · have answer := exec_reduceCombine works reduces room (by omega) (by rw [one]; exact redHeads_one first)
    rw [one, out] at answer
    generalize hu : redGive _ _ _ _ _ _ _ = u at answer
    obtain ⟨alone, kept, g, sent, cls, op, seq, loc, dst, item⟩ := redGive_tile_spec s (ckey p) e.toNat 1 _ _ _ _ _ hu.symm
    exact ⟨_, g, answer, sent, cls, op, seq, loc, dst, item, alone.tiles, alone.mem,
      (kept ..).trans (staged_redPop_one ..)⟩
  · have answer := exec_reduceCombine works reduces room (by omega) (by rw [two]; exact redHeads_two first second same)
    rwa [if_pos (by simpa using tagged)] at answer
  · have answer := exec_reduceCombine works reduces room (by omega) (by rw [two]; exact redHeads_two first second same)
    rw [if_neg (by simp [cleanA, cleanB]), two, out] at answer
    simp only [List.foldl_cons, List.foldl_nil] at answer
    generalize hu : redGive _ _ _ _ _ _ _ = u at answer
    obtain ⟨alone, kept, g, sent, cls, op, seq, loc, dst, item⟩ := redGive_tile_spec s (ckey p) e.toNat 2 _ _ _ _ _ hu.symm
    obtain ⟨head0, head1⟩ := staged_redPop_two s (ckey p) e.toNat
    exact ⟨_, g, answer, sent, cls, op, seq, loc, dst, by rw [item], (kept ..).trans head0,
      (kept ..).trans head1, alone.tiles, alone.mem⟩
  · have answer := exec_reduceCombine works reduces room (by omega) (by rw [two]; exact redHeads_two first second same)
    rw [if_neg (by simp [cleanA, cleanB]), two] at answer
    simp only [List.foldl_cons, List.foldl_nil] at answer
    obtain ⟨staging, frame⟩ := redPop_frame s (ckey p) e.toNat 2
    obtain ⟨nextSame, flitSame, hopSame⟩ := redRoute_congr frame (BitVec.ofNat 4 c) p.x p.y (rOut (redEntry s (ckey p) e.toNat))
      (redEntry s (ckey p) e.toNat) ⟨a.seq, { a.item with data := redOp (rOp (redEntry s (ckey p) e.toNat)) a.item.data b.item.data }⟩
      (keyXY k) (redFlit s (BitVec.ofNat 4 c) p.x p.y (redEntry s (ckey p) e.toNat) (rOut (redEntry s (ckey p) e.toNat))
        ⟨a.seq, { a.item with data := redOp (rOp (redEntry s (ckey p) e.toNat)) a.item.data b.item.data }⟩)
    refine ⟨_, answer.trans (congrArg _ (redGive_router out (nextSame.trans next) ((flitSame ▸ hopSame).trans hop))), ?_, ?_,
      staged_setStaged_self ..⟩
    all_goals rw [frame]; rfl
  · obtain ⟨alone, kept, g, sent, cls, op, seq, loc, dst, item⟩ := redGive_tile_spec s (ckey p) e.toNat 1 (BitVec.ofNat 4 c) p.x p.y
      (redEntry s (ckey p) e.toNat) a rfl
    exact ⟨_, g, exec_bcastCopy_tile works copies mask first room, sent, item, seq, dst,
      (kept ..).trans (staged_redPop_one ..), alone.tiles, alone.mem⟩
  · subst hfl
    have answer := exec_bcastCredit_tile works copies mask fed owed
    rw [branchCredit, room, free] at answer
    exact ⟨_, answer, mget_mput_self .., rfl, rfl, mfind_mput_self ..⟩
  · subst hfl
    have answer := exec_bcastCredit_tile works copies mask fed owed
    rwa [branchCredit, full] at answer

/-- Settles O26: the services of the mesh by what each router holds, and reductions by the heads of an entry's inputs. -/
theorem meshServices : Obligations.MeshServices := ⟨meshServiceClaims, inNetworkReduction⟩

end Sys2Proof.Machine

/-! ## Proofs: a partition reset stops a context being admitted with cause ADMISSION, not with its own (R323, R367, R376) -/

namespace Sys2Proof.Machine

/-! ### What an answer leaves of the contexts -/

theorem switchTo_ctxs (s : State) (rx : Bool) (lanes : BitVec 2) : (switchTo s rx lanes).ctxs = s.ctxs := by
  unfold switchTo
  extract_lets old port first
  have ported : port.ctxs = s.ctxs := setPort_ctxs ..
  have raised : first.ctxs = port.ctxs := by unfold first; split <;> rfl
  split
  · exact raised.trans ported
  · exact raised.trans ported

theorem pumpData_ctxs (n : Nat) (s : State) : (pumpData n s).ctxs = s.ctxs := by
  induction n generalizing s with
  | zero => rfl
  | succ n ih =>
    unfold pumpData
    extract_lets m u sent
    split
    · rfl
    · rw [ih]
      split
      · split
        · exact switchTo_ctxs sent false _
        · rfl
      · rfl

theorem pumpMer_ctxs (s : State) : (pumpMer s).ctxs = s.ctxs := by
  unfold pumpMer
  extract_lets t
  have sent : t.ctxs = s.ctxs := pumpData_ctxs _ s
  split
  · exact sent
  · exact sent

theorem answered_ctxs (s : State) (m : MsgHdr) (idx sub : Nat) : (answered s m idx sub).ctxs = s.ctxs := pumpMer_ctxs _

/-! ### The counterexample -/

/-- A module in service whose port is up and expects message 0, and which replays the context of its first plot for an
admission (R321). -/
def replayingState : State :=
  { State.reset with
    ctxs := [(0, focusCtx)]
    hall := { State.reset.hall with admState := 2, admCtx := 0 }
    mer := { enabled := true, rxM0 := true, rxM1 := true, txM0 := true, txM1 := true }
    boot := { State.reset.boot with stage := 9, on := true, path := 1 } }

/-- The header of message 0. -/
def firstMessage : MsgHdr := { seq := 0, tag := 0, malformed := false }

theorem replayingState_heard : Heard replayingState firstMessage ∧ inRecovery replayingState = false := by
  decide +kernel

/-- GO with the rectangle of the first plot stops its context: the stop reaches a context being admitted, the admission aborts
with LOCAL_FAULT, and the context stops with cause ADMISSION (R323, R367). -/
theorem exec_partitionReset_replayingState :
    ∃ u, exec (.partitionReset firstMessage 0x80000000) replayingState = .next u ∧
      ((u.ctx 0).map (·.rec_.cause)) = some 15 ∧ u.hall.admState = 6 ∧ u.hall.admCause = 5 :=
  ⟨_, rfl, by decide +kernel, by decide +kernel, by decide +kernel⟩

/-- Refutes O47: the clause of the partition reset asks cause PARTITION of every running context that meets the rectangle, and
the one of `replayingState`, which runs and meets it, stops with cause ADMISSION, as the model reads R323. -/
theorem not_contextCommands : ¬ Obligations.ContextCommands := by
  rintro ⟨-, admissions⟩
  obtain ⟨v, ran, cause, -, -⟩ := exec_partitionReset_replayingState
  obtain ⟨heard, serves⟩ := replayingState_heard
  obtain ⟨-, -, resets, -, -⟩ := admissions replayingState _ firstMessage rfl heard serves
  obtain ⟨u, run, stops, -⟩ := resets 0x80000000 (by decide +kernel) (by decide)
  obtain ⟨y, found, -, -, partitioned⟩ :=
    stops 0 focusCtx rfl rfl (by decide) (by decide) (by decide) (by decide)
  obtain rfl : answered u firstMessage 0x6191 1 = v := Host.Outcome.next.inj (run.symm.trans ran)
  rw [State.ctx_congr (answered_ctxs u _ _ _) 0, found, Option.map_some, partitioned] at cause
  exact absurd (Option.some.inj cause) (by decide)

end Sys2Proof.Machine

/-! ## Proofs: flits entering from the tile port and going on by row, then by column (R228, R229, R233, R234, R236, R237) -/

namespace Sys2Proof.Machine

/-! ### Dimension order (R236) -/

section
variable {dst : Coord} {x y : Nat}

theorem dorPort_east (h : x < dst.x) : dorPort dst x y = .east := if_pos h

theorem dorPort_west (h : dst.x < x) : dorPort dst x y = .west := by
  rw [dorPort, if_neg (Nat.lt_asymm h), if_pos h]

theorem dorPort_column (h : dst.x = x) : dorPort dst x y =
    if dst.y = northRow then .north else if dst.y = southRow then .south
    else if y < dst.y then .south else if dst.y < y then .north else .tile := by
  rw [dorPort, if_neg (by omega), if_neg (by omega)]

theorem dorPort_column_inside (h : dst.x = x) (inside : dst.y < 48) : dorPort dst x y =
    if y < dst.y then .south else if dst.y < y then .north else .tile := by
  have notNorth : dst.y ≠ northRow := by rw [northRow]; omega
  have notSouth : dst.y ≠ southRow := by rw [southRow]; omega
  rw [dorPort_column h, if_neg notNorth, if_neg notSouth]

end

/-! ### The tile port (R228, R233, R237) -/

/-- Only collective flits go straight to an entry (R232). -/
theorem takeDirect_none {fl : Flit} (h : fl.cls ≠ .collective) (s : State) (f : Nat) : takeDirect s f fl = none :=
  if_pos (by simpa using h)

/-- A flit moved from its tile port into its router, the cycle noted where the tile is throttled (R237). -/
def injected (s : State) (f : Nat) (fl : Flit) (x y : Nat) : State :=
  if s.mesh.throttled.contains (8 * tkey x y + classNum fl.cls) then
    { s.moveFlit f fl (.router x y .tile) with mesh := { (s.moveFlit f fl (.router x y .tile)).mesh with
      injected := mput s.mesh.injected (8 * tkey x y + classNum fl.cls) s.clk.root.toNat } }
  else s.moveFlit f fl (.router x y .tile)

theorem injected_spec (s : State) (f : Nat) (fl : Flit) (x y : Nat) :
    (injected s f fl x y).tiles = s.tiles ∧ (injected s f fl x y).mem = s.mem ∧
      mfind (injected s f fl x y).mesh.flits f =
        some { fl with loc := .router x y .tile, stamp := s.mesh.nextStamp, waited := 0, resends := 0 } := by
  unfold injected
  split <;> exact ⟨rfl, rfl, mfind_mput_self ..⟩

theorem exec_flitForward_port {s : State} {f x y : Nat} {fl : Flit} (found : s.flit f = some fl) (loc : fl.loc = .port x y)
    (cls : fl.cls ≠ .collective) : exec (.flitForward f) s =
      .next (if (isHead s fl && (hasSlot s x y .tile fl && !gapHeld s x y fl.cls)) = true then
        pumpPort (injected s f fl x y) ⟨x, y⟩ else s) := by
  change execFlitForward f s = _
  cases head : isHead s fl <;>
    simp only [execFlitForward, found, loc, inject, head, takeDirect_none cls, Bool.not_true, Bool.not_false, Bool.true_and,
      Bool.false_and, Bool.false_eq_true, if_true, if_false]
  rfl

/-! ### One hop (R228, R229, R234, R236) -/

/-- A flit out of fallback has the output of dimension order, or none where the hop needs a failed link. -/
theorem outPort_dor {s : State} {fl : Flit} {x y : Nat} {p : Port} (straight : fl.fallback = false) (dor : p = dorPort fl.dst x y) :
    outPort s fl x y = if (leaves fl.dst y p || !hopDead s x y p) = true then some p else none := by
  subst dor
  cases out : leaves fl.dst y (dorPort fl.dst x y) <;> cases dead : hopDead s x y (dorPort fl.dst x y) <;>
    simp [outPort, straight, out, dead]

section
variable {s : State} {f x y : Nat} {inp p : Port} {fl : Flit} (loc : fl.loc = .router x y inp) (cls : fl.cls ≠ .circuit)
  (noBarrier : barrierFlit fl = false) (straight : fl.fallback = false)
include loc cls noBarrier straight

theorem readyPort_dor (dor : p = dorPort fl.dst x y) : readyPort s fl =
    if (isHead s fl && packetWhole s fl && (leaves fl.dst y p || !hopDead s x y p) && outRoomFor s x y p fl) = true then some p
    else none := by
  simp only [readyPort, loc, beq_false_of_ne cls, noBarrier, outPort_dor straight dor]
  cases isHead s fl <;> cases packetWhole s fl <;> cases leaves fl.dst y p || !hopDead s x y p <;>
    simp [Option.filter]

/-- While fallback is not in force, a flit goes on by dimension order where it is ready and granted the cycle. -/
theorem exec_flitForward_dor (found : s.flit f = some fl) (kept : s.putFlit f fl = s) (noEscape : s.mesh.escape = false)
    (dor : p = dorPort fl.dst x y) : exec (.flitForward f) s =
      .next (if (isHead s fl && packetWhole s fl && (leaves fl.dst y p || !hopDead s x y p) && outRoomFor s x y p fl &&
          granted s x y p fl) = true then
        afterLeave ((noteServed s x y p fl).moveFlit f fl (if leaves fl.dst y p then .sink else hopTo s x y p)) fl.loc
      else s) := by
  have same : { fl with fallback := fl.fallback || (s.mesh.escape && dorDead s fl.dst 200 x y) } = fl := by
    rw [noEscape, Bool.false_and, Bool.or_false]
  have ready := readyPort_dor loc cls noBarrier straight dor (s := s)
  have answer : exec (.flitForward f) s = .next (routerForward s f fl x y) := by
    change execFlitForward f s = _
    simp only [execFlitForward, found, loc, noBarrier, beq_false_of_ne cls, Bool.false_eq_true, if_false]
  rw [answer, routerForward, same, kept]
  cases can : isHead s fl && packetWhole s fl && (leaves fl.dst y p || !hopDead s x y p) && outRoomFor s x y p fl <;>
    simp only [ready, can, Bool.true_and, Bool.false_and, Bool.false_eq_true, if_true, if_false]

end

end Sys2Proof.Machine

/-! ## Proofs: hop checks and resends (R227, R239, R240) -/

namespace Sys2Proof.Machine

/-- The resends on a link that still count (R239). -/
def recentResends (s : State) (l : MeshLink) : List Nat :=
  (mget s.mesh.linkResends [] (resendKey l)).filter fun t => s.clk.root.toNat < t + 7200000

/-- A flit resent on a link and counted in the quarter of the router that received it (R239). -/
def resent (s : State) (f : Nat) (fl : Flit) (l : MeshLink) (q : Nat) : State :=
  let u := s.count q fun n => { n with hopRetries := satAdd n.hopRetries 1 (2 ^ 32 - 1) }
  State.putFlit { u with mesh := { u.mesh with
    linkResends := mput u.mesh.linkResends (resendKey l) (s.clk.root.toNat :: recentResends s l) } } f
    { fl with resends := fl.resends + 1 }

theorem resent_spec (s : State) (f : Nat) (fl : Flit) (l : MeshLink) (q : Nat) :
    mfind (resent s f fl l q).mesh.flits f = some { fl with resends := fl.resends + 1 } ∧
      (resent s f fl l q).tiles = s.tiles ∧ (resent s f fl l q).mem = s.mem ∧
      (mget (resent s f fl l q).counts {} q).hopRetries = satAdd (mget s.counts {} q).hopRetries 1 (2 ^ 32 - 1) :=
  ⟨mfind_mput_self .., rfl, rfl, congrArg QCounts.hopRetries (mget_mput_self ..)⟩

section
variable {s : State} {f x y : Nat} {inp p : Port} {fl : Flit} {l : MeshLink} {ls : List MeshLink} {err : BitVec 1152}
  (found : s.flit f = some fl) (loc : fl.loc = .router x y inp) (out : outPort s fl x y = some p)
include found loc out

theorem exec_flitHopNak_passes (passes : hopFails (flitWire fl ^^^ err) = false) : exec (.flitHopNak f err) s = .next s := by
  change execFlitHopNak f err s = _
  simp only [execFlitHopNak, found, loc, out, passes, Bool.not_false, Bool.or_true, if_true]

/-- What a failed check does: the fourth in a row fails the link, an earlier one resends the flit and fails the link where it
is the 65th resend that counts. -/
theorem exec_flitHopNak_fails (stays : leaves fl.dst y p = false) (links : hopLinks s x y p = l :: ls)
    (fails : hopFails (flitWire fl ^^^ err) = true) {q : Nat} (receiver : q = quarterOf s ⟨(portStep p x y).1, (portStep p x y).2⟩) :
    exec (.flitHopNak f err) s = .next
      (if 3 ≤ fl.resends then failLink s l fl.ctx.toNat q
      else if 64 ≤ (recentResends s l).length then failLink (resent s f fl l q) l fl.ctx.toNat q
      else resent s f fl l q) := by
  subst receiver
  change execFlitHopNak f err s = _
  simp only [execFlitHopNak, found, loc, out, stays, fails, Bool.not_true, Bool.or_self, Bool.false_eq_true, if_false, links]
  split
  · rfl
  · refine congrArg _ (if_congr Nat.lt_succ_iff ?_ ?_) <;> rw [resent, loc] <;> rfl

end

theorem meshHops : Claims.MeshHops := by
  intro s f x y fl found kept
  refine ⟨fun loc cls => ⟨fun head slot free => ?_, fun waits => ?_⟩,
    fun inp p loc cls noBarrier straight noEscape dor =>
      ⟨fun h => dor.trans (dorPort_east h), fun h => dor.trans (dorPort_west h), fun hx inside h => ?_, fun hx h inside => ?_,
        fun hx hy => ?_, fun hx hy => ?_, fun here inside => ?_, fun head whole grant way room => ?_, fun waits => ?_⟩,
    fun inp p l ls err q loc out stays links receiver =>
      ⟨exec_flitHopNak_passes found loc out, fun fails third => ?_, fun fails early => ?_⟩⟩
  · obtain ⟨tiles, mem, moved⟩ := injected_spec s f fl x y
    refine ⟨injected s f fl x y, ?_, tiles, mem, moved⟩
    rw [exec_flitForward_port found loc cls, if_pos (by simp [head, slot, free])]
  · rw [exec_flitForward_port found loc cls, if_neg (by rcases waits with h | h | h <;> simp [h])]
  · rw [dor, dorPort_column_inside hx inside, if_pos h]
  · rw [dor, dorPort_column_inside hx inside, if_neg (Nat.lt_asymm h), if_pos h]
  · rw [dor, dorPort_column hx, if_pos hy]
  · rw [dor, dorPort_column hx, hy, if_neg (by decide), if_pos rfl]
  · have hx : fl.dst.x = x := by rw [here]
    have hy : fl.dst.y = y := by rw [here]
    rw [dor, dorPort_column_inside hx (hy ▸ inside), hy, if_neg (Nat.lt_irrefl y), if_neg (Nat.lt_irrefl y)]
  · have healthy : (leaves fl.dst y p || !hopDead s x y p) = true := by rcases way with h | h <;> simp [h]
    refine ⟨(noteServed s x y p fl).moveFlit f fl (if leaves fl.dst y p then .sink else hopTo s x y p), ?_, rfl, rfl,
      mfind_mput_self ..⟩
    rw [exec_flitForward_dor loc cls noBarrier straight found kept noEscape dor,
      if_pos (by simp only [head, whole, healthy, room, grant, Bool.and_self])]
  · rw [exec_flitForward_dor loc cls noBarrier straight found kept noEscape dor, if_neg]
    rcases waits with h | h | h | h | ⟨stays, dead⟩
    case inr.inr.inr.inr => simp [stays, dead]
    all_goals simp [h]
  · rw [exec_flitHopNak_fails found loc out stays links fails receiver, if_pos third]
  · obtain ⟨again, tiles, mem, counted⟩ := resent_spec s f fl l q
    refine ⟨_, resent s f fl l q, exec_flitHopNak_fails found loc out stays links fails receiver, again, tiles, mem, counted, ?_⟩
    exact if_neg (by omega)

end Sys2Proof.Machine

/-! ## Proofs: fallback and the escape route (R232, R240, R241) -/

namespace Sys2Proof.Machine

/-- A fallback flit moved into the escape slot at its input port of a physical router, and counted (R241). -/
def escaped (s : State) (f : Nat) (fl : Flit) (x y p : Nat) (inp : Port) : State :=
  (s.count (quarterOf s ⟨x, y⟩) fun n => { n with escapes := satAdd n.escapes 1 255 }).moveFlit f fl
    (.escape (physX p) (physRow p) inp)

theorem escaped_spec (s : State) (f : Nat) (fl : Flit) (x y p : Nat) (inp : Port) :
    (escaped s f fl x y p inp).tiles = s.tiles ∧ (escaped s f fl x y p inp).mem = s.mem ∧
      mfind (escaped s f fl x y p inp).mesh.flits f =
        some { fl with loc := .escape (physX p) (physRow p) inp, stamp := s.mesh.nextStamp, waited := 0, resends := 0 } ∧
      (mget (escaped s f fl x y p inp).counts {} (quarterOf s ⟨x, y⟩)).escapes =
        satAdd (mget s.counts {} (quarterOf s ⟨x, y⟩)).escapes 1 255 :=
  ⟨rfl, rfl, mfind_mput_self .., congrArg QCounts.escapes (mget_mput_self ..)⟩

section
variable {s : State} {f x y : Nat} {inp : Port} {fl : Flit}

theorem exec_escapeTablesLoaded (failure : s.mesh.failed ≠ []) :
    exec .escapeTablesLoaded s = .next { s with mesh := { s.mesh with escape := true } } :=
  if_neg (by simpa using failure)

/-- At the end of the escape route a flit with room at its sink leaves the mesh. -/
theorem escapeForward_end (there : tkey x y = escapeEnd s fl.dst) (cls : fl.cls ≠ .collective) (noBarrier : barrierFlit fl = false)
    (room : sinkRoom s fl = true) (free : heldAt s fl = false) : escapeForward s f fl x y = s.moveFlit f fl .sink := by
  simp only [escapeForward, there, if_true, takeDirect_none cls, noBarrier, room, free, Bool.not_false, Bool.and_self,
    Bool.false_eq_true, if_false]

/-- Before its end a flit goes on to the slot of the next router of the escape route, if that is free. -/
theorem escapeForward_next {n : Coord} (before : tkey x y ≠ escapeEnd s fl.dst)
    (next : n = keyXY (escapeNext s (tkey x y) (escapeEnd s fl.dst))) : escapeForward s f fl x y =
      if escapeFree s n.x n.y (physInput ⟨x, y⟩ n) fl.cls = true then
        s.moveFlit f fl (.escape n.x n.y (physInput ⟨x, y⟩ n))
      else s := by
  subst next
  exact if_neg before

variable (found : s.flit f = some fl)
include found

theorem exec_flitForward_escape (loc : fl.loc = .escape x y inp) :
    exec (.flitForward f) s = .next (escapeForward s f fl x y) := by
  change execFlitForward f s = _
  simp only [execFlitForward, found, loc]

theorem exec_flitAgeTick (fallback : fl.fallback = true) (mid : fl.loc ≠ .sink) : exec (.flitAgeTick f) s =
    .next (s.putFlit f { fl with age := if fl.age = 255 then 255 else fl.age + 1, waited := fl.waited + 16 }) := by
  change execFlitAgeTick f s = _
  simp only [execFlitAgeTick, found, fallback, bne_iff_ne.mpr mid, Bool.and_self, if_true, beq_iff_eq]

theorem exec_escapeEntry {p : Nat} (loc : fl.loc = .router x y inp) (position : physOf s (tkey x y) = some p) :
    exec (.escapeEntry f) s =
      .next (if (fl.fallback && decide (64 ≤ fl.waited) && escapeFree s (physX p) (physRow p) inp fl.cls) = true then
        afterLeave (escaped s f fl x y p inp) fl.loc else s) := by
  change execEscapeEntry f s = _
  simp only [execEscapeEntry, found, loc, position]
  split <;> rfl

end

theorem meshFallback : Claims.MeshFallback := by
  intro s f fl found
  refine ⟨exec_escapeTablesLoaded, exec_flitAgeTick found,
    fun x y inp p loc position => ⟨fun fallback waited free => ?_, fun stays => ?_⟩,
    fun x y inp n loc => ⟨fun there cls noBarrier room free => ?_, fun before next => ⟨fun free => ?_, fun full => ?_⟩⟩⟩
  · refine ⟨escaped s f fl x y p inp, ?_, escaped_spec ..⟩
    rw [exec_escapeEntry found loc position, if_pos (by simp [fallback, waited, free])]
  · rw [exec_escapeEntry found loc position, if_neg (by rcases stays with h | h | h <;> simp [h])]
  · rw [exec_flitForward_escape found loc, escapeForward_end there cls noBarrier room free]
  · rw [exec_flitForward_escape found loc, escapeForward_next before next, if_pos free]
  · rw [exec_flitForward_escape found loc, escapeForward_next before next, full, if_neg Bool.false_ne_true]

/-- Settles O25: a hop by what its router, its check and its output allow, and the escape route slot by slot. -/
theorem mesh : Obligations.Mesh := ⟨meshHops, meshFallback⟩

end Sys2Proof.Machine

/-! ## Proofs: what leaves the bytes of main memory (08_memory.md)

Every function of the model that stores no byte in main memory leaves the bytes as they are. Each has one lemma: `_mem`
where the whole memory state stays, `_data` where the channels, the stripes or the table of transactions may change. -/

namespace Sys2Proof.Machine

/-- A fold whose steps all keep what `g` reads of the accumulator keeps it. -/
theorem foldl_keeps {α β γ : Type} {g : α → γ} {f : α → β → α} (step : ∀ a x, g (f a x) = g a) (l : List β) (a : α) :
    g (l.foldl f a) = g a := by
  induction l generalizing a with
  | nil => rfl
  | cons x t ih => rw [List.foldl_cons, ih, step]

@[simp] theorem foldl_mem {β : Type} {f : State → β → State} (step : ∀ s x, (f s x).mem = s.mem) (l : List β) (s : State) :
    (l.foldl f s).mem = s.mem := foldl_keeps (g := State.mem) step l s

@[simp] theorem foldl_data {β : Type} {f : State → β → State} (step : ∀ s x, (f s x).mem.data = s.mem.data) (l : List β)
    (s : State) : (l.foldl f s).mem.data = s.mem.data := foldl_keeps (g := fun s => s.mem.data) step l s

@[simp] theorem foldl_fst_mem {β γ : Type} {f : State × γ → β → State × γ} (step : ∀ a x, (f a x).1.mem = a.1.mem)
    (l : List β) (a : State × γ) : (l.foldl f a).1.mem = a.1.mem := foldl_keeps (g := fun a : State × γ => a.1.mem) step l a

@[simp] theorem foldl_fst_data {β γ : Type} {f : State × γ → β → State × γ} (step : ∀ a x, (f a x).1.mem.data = a.1.mem.data)
    (l : List β) (a : State × γ) : (l.foldl f a).1.mem.data = a.1.mem.data :=
  foldl_keeps (g := fun a : State × γ => a.1.mem.data) step l a

@[simp] theorem ite_mem (c : Prop) [Decidable c] (s t : State) :
    (if c then s else t).mem = if c then s.mem else t.mem := apply_ite State.mem c s t
@[simp] theorem ite_data (c : Prop) [Decidable c] (m n : Mem) :
    (if c then m else n).data = if c then m.data else n.data := apply_ite Mem.data c m n
@[simp] theorem ite_fst_mem {γ : Type} (c : Prop) [Decidable c] (a b : State × γ) :
    (if c then a else b).1.mem = if c then a.1.mem else b.1.mem := apply_ite (fun a : State × γ => a.1.mem) c a b

section
variable (s : State)

/-! ### Ops.lean -/

@[simp] theorem addFaultAll_mem (kind : Nat) (detail : DWord) : (addFaultAll s kind detail).mem = s.mem := by
  simp [addFaultAll]
@[simp] theorem loseRecord_mem (c : Nat) : (loseRecord s c).mem = s.mem := by simp [loseRecord]

/-! ### BinOps.lean -/

@[simp] theorem evictFirst_mem (c k : Nat) : (evictFirst s c k).mem = s.mem := by
  unfold evictFirst
  split <;> simp

@[simp] theorem tallyAdd_mem (c k : Nat) (e : TallyEnt) : (tallyAdd s c k e).mem = s.mem := by simp [tallyAdd]

@[simp] theorem digestLine_mem (c k : Nat) (l : CapLine) : (digestLine s c k l).mem = s.mem := by
  unfold digestLine
  split <;> simp

@[simp] theorem capturePush_mem (c k : Nat) (l : CapLine) : (capturePush s c k l).mem = s.mem := by
  unfold capturePush
  split <;> simp

/-! ### FenceOps.lean -/

@[simp] theorem State.modPhys_mem (p : Nat) (f : Phys → Phys) : (s.modPhys p f).mem = s.mem := by simp [State.modPhys]
@[simp] theorem State.modRow_mem (die row : Nat) (f : RowGap → RowGap) : (s.modRow die row f).mem = s.mem := by
  simp [State.modRow]
@[simp] theorem State.modDie_mem (die : Nat) (f : DieFence → DieFence) : (s.modDie die f).mem = s.mem := by
  simp [State.modDie]
@[simp] theorem gazDecided_mem : (gazDecided s).mem = s.mem := by simp [gazDecided]
@[simp] theorem addSignature_mem (g : Signature) : (addSignature s g).mem = s.mem := by simp [addSignature]
@[simp] theorem checkReserve_mem (die : Nat) : (checkReserve s die).mem = s.mem := by simp [checkReserve]
@[simp] theorem cancelMove_mem (k : Nat) : (cancelMove s k).mem = s.mem := by simp [cancelMove]
@[simp] theorem cancelRow_mem (die row : Nat) : (cancelRow s die row).mem = s.mem := by simp [cancelRow]
@[simp] theorem countRestart_mem (p : Nat) : (countRestart s p).mem = s.mem := by simp [countRestart]

@[simp] theorem jumpGap_mem (die row old : Nat) : (jumpGap s die row old).mem = s.mem := by
  unfold jumpGap
  dsimp only
  rw [countRestart_mem]
  split <;> split <;> simp

@[simp] theorem freeTileReset_mem (k : Nat) : (freeTileReset s k).mem = s.mem := by simp [freeTileReset]
@[simp] theorem plotLost_mem (n : Nat) : (plotLost s n).mem = s.mem := by simp [plotLost]
@[simp] theorem offerGrid_mem (die row : Nat) : (offerGrid s die row).mem = s.mem := by simp [offerGrid]

@[simp] theorem checkRow_mem (die row : Nat) (k : Option Nat) : (checkRow s die row k).mem = s.mem := by
  unfold checkRow
  (repeat' split) <;> simp

@[simp] theorem enterProbation_mem (p source : Nat) (res : Option (TestResult × Int)) (window : Option (Nat × Nat))
    (ctxs : Option (List Nat)) :
    (enterProbation s p source res window ctxs).mem = s.mem := by simp [enterProbation]

@[simp] theorem bindTile_mem (k p : Nat) : (bindTile s k p).mem = s.mem := by simp [bindTile]

@[simp] theorem coldStep_mem (k h : Nat) : (coldStep s k h).mem = s.mem := by
  unfold coldStep
  cases physOf s k <;> simp

@[simp] theorem coldMoves_mem (p h : Nat) : (coldMoves s p h).mem = s.mem := by
  simp [coldMoves, -List.foldl_reverse]
@[simp] theorem remapTile_mem (c k : Nat) : (remapTile s c k).mem = s.mem := by fun_cases remapTile <;> simp

theorem chainStep_mem {s t : State} {c p : Nat} {more : Bool} (h : chainStep s c p = some (t, more)) : t.mem = s.mem := by
  simp only [chainStep, Option.ite_none_left_eq_some, Option.bind_eq_some_iff] at h
  obtain ⟨_, _, _, _, _, h⟩ := h
  split at h <;> grind [cancelRow_mem, coldStep_mem, State.modTile_mem]

@[simp] theorem chainGo_mem (c p n : Nat) (s : State) : (chainGo c p n s).mem = s.mem := by
  fun_induction chainGo c p n s with
  | case1 => rfl
  | case2 _ _ _ step ih => rw [ih, chainStep_mem step]
  | case3 _ _ _ step => exact chainStep_mem step
  | case4 => rfl

@[simp] theorem chainOn_mem (c k : Nat) : (chainOn s c k).mem = s.mem := by unfold chainOn; split <;> simp
@[simp] theorem orderWarmMoves_mem (c k : Nat) : (orderWarmMoves s c k).mem = s.mem := by fun_cases orderWarmMoves <;> simp
@[simp] theorem retryRemaps_mem (die row : Nat) : (retryRemaps s die row).mem = s.mem :=
  foldl_mem (fun s k => by split <;> simp) _ s
@[simp] theorem orderDirected_mem (p : Nat) : (orderDirected s p).mem = s.mem := by
  fun_cases orderDirected <;> simp +zetaDelta
@[simp] theorem tileFault_mem (p : Nat) (src : HealthSource) : (tileFault s p src).mem = s.mem := by
  fun_cases tileFault <;> simp +zetaDelta

@[simp] theorem healthInput_mem (p : Nat) (src : HealthSource) : (healthInput s p src).mem = s.mem := by
  unfold healthInput
  split <;> simp

@[simp] theorem logicalHealth_mem (k : Nat) (src : HealthSource) : (logicalHealth s k src).mem = s.mem := by
  unfold logicalHealth
  split <;> simp

@[simp] theorem binParity_mem (p : Coord) : (binParity s p).mem = s.mem := by
  unfold binParity
  split
  · rfl
  · dsimp only
    split <;> simp

/-! ### QueueOps.lean -/

@[simp] theorem State.putFlit_mem (n : Nat) (f : Flit) : (s.putFlit n f).mem = s.mem := by simp [State.putFlit]
@[simp] theorem State.moveFlit_mem (n : Nat) (f : Flit) (loc : FlitLoc) : (s.moveFlit n f loc).mem = s.mem := by
  simp [State.moveFlit]
@[simp] theorem State.sendGranary_mem (f : Flit) : (s.sendGranary f).mem = s.mem := by simp [State.sendGranary]

@[simp] theorem pumpPort_mem (p : Coord) : (pumpPort s p).mem = s.mem := by
  unfold pumpPort
  split <;> simp -implicitDefEqProofs

@[simp] theorem oweCredit_mem (p : Coord) (key n : Nat) : (oweCredit s p key n).mem = s.mem := by simp [oweCredit]

@[simp] theorem traceRecord_mem (p : Coord) (op binAddr tensor : Nat) :
    (traceRecord s p op binAddr tensor).mem = s.mem := by
  unfold traceRecord
  split <;> simp

@[simp] theorem traceWriteBacks_mem (p : Coord) (ls : List Nat) : (traceWriteBacks s p ls).mem = s.mem := by
  simp [traceWriteBacks]
@[simp] theorem unblock_mem (p : Coord) : (unblock s p).mem = s.mem := by simp [unblock]
@[simp] theorem arriveItem_mem (c : Nat) (p : Coord) (ch : Nat) (seq : BitVec 16) (i : Item) :
    (arriveItem s c p ch seq i).mem = s.mem := by simp [arriveItem, countSpillItems_mem]

@[simp] theorem moveUp_mem (n : Nat) (s : State) (p : Coord) (ch : Nat) : (moveUp n s p ch).mem = s.mem := by
  induction n generalizing s with
  | zero => rfl
  | succ n ih => unfold moveUp; dsimp only; split <;> simp [ih]

@[simp] theorem sendCredits_mem (d : CtxDef) (p : Coord) (ch n : Nat) : (sendCredits s d p ch n).mem = s.mem := by
  fun_cases sendCredits <;> simp
@[simp] theorem grantCredits_mem (d : CtxDef) (p : Coord) (ch : Nat) : (grantCredits s d p ch).mem = s.mem := by
  simp [grantCredits]
@[simp] theorem popItem_mem (d : CtxDef) (p : Coord) (ch : Nat) : (popItem s d p ch).mem = s.mem := by
  simp [popItem]

/-! ### Operands.lean -/

@[simp] theorem popAll_mem (d : CtxDef) (p : Coord) (ins : List Nat) : (popAll s d p ins).mem = s.mem := by simp [popAll]
@[simp] theorem putVec_mem (c : Nat) (d : CtxDef) (p : Coord) (f : BitVec 5) (i : Item) :
    (putVec s c d p f i).mem = s.mem := by simp [putVec, pushItem_mem]

/-! ### BinMem.lean -/

@[simp] theorem flushSpan_mem (p : Coord) (l n : Nat) : (flushSpan s p l n).mem = s.mem :=
  foldl_mem (fun s i => by split <;> simp) _ s

/-! ### DmaMsg.lean -/

@[simp] theorem readOut_mem (c : Nat) (x : Ctx) (p : Coord) (tensor : Word) (pos binAddr addr n : Nat) :
    (readOut s c x p tensor pos binAddr addr n).1.mem = s.mem := by
  induction n with
  | zero => rfl
  | succ n ih =>
    unfold readOut
    split
    next e =>
      simp only [e] at ih
      dsimp only
      split
      · split <;> simp [ih]
      · simpa using ih
    next => exact ih

@[simp] theorem putTxn_mem (p : Coord) (tag : Nat) (x : DmaTxn) : (putTxn s p tag x).mem = s.mem := by simp [putTxn]
@[simp] theorem stageFlit_mem (p : Coord) (f : Flit) : (stageFlit s p f).mem = s.mem := by simp [stageFlit]
@[simp] theorem dmaComplete_mem (p : Coord) (tag : Nat) (x : DmaTxn) : (dmaComplete s p tag x).mem = s.mem := by
  simp [dmaComplete]
@[simp] theorem writeIn_mem (p : Coord) (op addr : Nat) (ls : List Line) : (writeIn s p op addr ls).mem = s.mem := by
  simp [writeIn]
@[simp] theorem binWriteFlit_mem (f : Nat) (fl : Flit) (bad : Bool) : (binWriteFlit s f fl bad).mem = s.mem := by
  simp [binWriteFlit]

@[simp] theorem stageRead_mem (f n : Nat) (s : State) (fl : Flit) : (stageRead f n s fl).mem = s.mem := by
  induction n generalizing s fl with
  | zero => simp [stageRead]
  | succ n ih => simp [stageRead, ih]

/-! ### LinkOps.lean -/

@[simp] theorem State.modLink_mem (l : Nat) (f : Link → Link) : (s.modLink l f).mem = s.mem := by simp [State.modLink]
@[simp] theorem queuePacket_mem (w : Way) (inp : Nat) (p : Packet) : (queuePacket s w inp p).mem = s.mem := by
  simp [queuePacket]

theorem sendPacket_mem {s t : State} {south : Bool} {mask : Nat} {p : Packet} (h : sendPacket s south mask p = some t) :
    t.mem = s.mem := by
  obtain ⟨w, -, rfl⟩ := Option.map_eq_some_iff.1 h
  simp

@[simp] theorem sendPacket_getD_mem (s t : State) (south : Bool) (mask : Nat) (p : Packet) :
    ((sendPacket s south mask p).getD t).mem = if (sendPacket s south mask p).isSome then s.mem else t.mem := by
  cases h : sendPacket s south mask p with
  | none => rfl
  | some u => exact sendPacket_mem h

@[simp] theorem sendReply_mem (south : Bool) (p : Packet) : (sendReply s south p).mem = s.mem := by
  simp [sendReply]
@[simp] theorem oweUnits_mem (l : Nat) (cls : MClass) (n : Nat) : (oweUnits s l cls n).mem = s.mem := by simp [oweUnits]
@[simp] theorem freeInput_mem (l : Nat) (p : Packet) : (freeInput s l p).mem = s.mem := by simp [freeInput]
@[simp] theorem takeIn_mem (l : Nat) (p : Packet) : (takeIn s l p).mem = s.mem := by simp [takeIn]

/-! ### Granary.lean -/

@[simp] theorem State.modStripe_data (n : Nat) (f : Stripe → Stripe) : (s.modStripe n f).mem.data = s.mem.data := by
  simp [State.modStripe]
@[simp] theorem logPoison_data (a source : Nat) : (logPoison s a source).mem.data = s.mem.data := by simp [logPoison]
@[simp] theorem countUncorr_data (a : Nat) : (countUncorr s a).mem.data = s.mem.data := by simp [countUncorr]
@[simp] theorem countFail_data (ch : Nat) : (countFail s ch).mem.data = s.mem.data := by simp [countFail]
@[simp] theorem lostLine_data (a : Nat) : (lostLine s a).1.mem.data = s.mem.data := by simp [lostLine]
@[simp] theorem noteReports_data (errs : List LineCheck) : (noteReports s errs).mem.data = s.mem.data := by
  simp [noteReports]
@[simp] theorem chanRead_data (errs : List LineCheck) (stripe row q : Nat) :
    (chanRead s errs stripe row q).1.mem.data = s.mem.data := by fun_cases chanRead <;> simp

@[simp] theorem rowRead_data (errs : List LineCheck) (stripe row : Nat) (qs : List Nat) :
    (rowRead s errs stripe row qs).1.mem.data = s.mem.data :=
  foldl_fst_data (fun r q => by
    have read := chanRead_data r.1 errs stripe row q
    split <;> simp_all) qs _

@[simp] theorem addTxn_data (t : Txn) : (addTxn s t).2.mem.data = s.mem.data := by simp [addTxn]
@[simp] theorem dropTxn_data (x : Nat) : (dropTxn s x).mem.data = s.mem.data := by simp [dropTxn]
@[simp] theorem beginViewWrite_data (c : Nat) (x : Ctx) (off len key : Nat) :
    (beginViewWrite s c x off len key).mem.data = s.mem.data := by simp [beginViewWrite]
@[simp] theorem putEntry_data (x : Nat) (t : Txn) : (putEntry s x t).mem.data = s.mem.data := by simp [putEntry]

@[simp] theorem pumpEntry_data (x : Nat) : (pumpEntry s x).mem.data = s.mem.data := by
  unfold pumpEntry
  split <;> simp

@[simp] theorem pumpGranary_data (x : Nat) (north : Bool) : (pumpGranary s x north).mem.data = s.mem.data := by
  simp [pumpGranary]
@[simp] theorem answerEntry_data (x : Nat) (t : Txn) (op : BitVec 4) (ls : List Line) :
    (answerEntry s x t op ls).mem.data = s.mem.data := by simp [answerEntry]

@[simp] theorem beginEntry_go_data (x : Nat) (t : Txn) (c : Ctx) (op : Nat) (ls : List Line) :
    (beginEntry.go s x t c op ls).mem.data = s.mem.data := by
  unfold beginEntry.go
  dsimp only
  split
  next sent => rw [sendPacket_mem sent]
  next => simp

@[simp] theorem beginEntry_data (x : Nat) : (beginEntry s x).mem.data = s.mem.data := by
  fun_cases beginEntry <;> simp
@[simp] theorem addPart_data (x : Nat) (t : Txn) (fl : Flit) : (addPart s x t fl).mem.data = s.mem.data := by simp [addPart]

@[simp] theorem acceptRequest_data (f : Nat) (fl : Flit) (c : Nat) (x : Ctx) (north : Bool) :
    (acceptRequest s f fl c x north).mem.data = s.mem.data := by
  unfold acceptRequest
  dsimp only
  split
  · split
    · rfl
    · simp
    · split
      · split <;> simp
      · simp
    · split
      · split <;> simp
      · simp
  · split
    · split <;> simp
    · simp

@[simp] theorem binReply_data (f : Nat) (fl : Flit) : (binReply s f fl).mem.data = s.mem.data := by
  fun_cases binReply <;> simp +zetaDelta

@[simp] theorem finishRead_data (x : Nat) (t : Txn) (ls : List Line) : (finishRead s x t ls).mem.data = s.mem.data := by
  unfold finishRead
  split <;> simp

@[simp] theorem finishWrite_data (x : Nat) (t : Txn) (ok : Bool) : (finishWrite s x t ok).mem.data = s.mem.data := by
  unfold finishWrite
  split <;> simp

@[simp] theorem retireChannel_data (ch : Nat) : (retireChannel s ch).mem.data = s.mem.data := by
  fun_cases retireChannel <;> simp +zetaDelta

/-! ### Matrix.lean -/

@[simp] theorem gatherItems_mem (c : Nat) (d : CtxDef) (p : Coord) (ch n k : Nat) (l : List (Byte × Bool)) :
    (gatherItems s c d p ch n k l).1.mem = s.mem := by
  fun_induction gatherItems s c d p ch n k l <;> simp [*]

@[simp] theorem readRow_mem (c : Nat) (d : CtxDef) (p : Coord) (e : MEntry) (n : Nat) :
    (readRow s c d p e n).1.mem = s.mem := by
  fun_cases readRow <;> simp +zetaDelta

@[simp] theorem poisonRow_mem (t : Coord) (e : MEntry) (detail : Nat) : (poisonRow s t e detail).mem = s.mem := by
  simp [poisonRow]
@[simp] theorem persistent_mem (t : Coord) (c : Nat) : (persistent s t c).mem = s.mem := by simp [persistent]
@[simp] theorem countPass_mem (t : Coord) (c : Nat) (r : MRow) (bounded unchecked : Bool) :
    (countPass s t c r bounded unchecked).mem = s.mem := by simp [countPass]

@[simp] theorem drainOut_mem (c : Nat) (x : Ctx) (p : Coord) (e : MEntry) (rows : List (List (BitVec 48))) (js : List Nat)
    (t : Bool) :
    (drainOut s c x p e rows js t).1.mem = s.mem := by simp [drainOut]

@[simp] theorem pushOut_mem (c : Nat) (d : CtxDef) (p : Coord) (ch : Nat) (final : Bool) (n : Nat) :
    (pushOut s c d p ch final n).mem = s.mem := by
  induction n generalizing s with
  | zero => rfl
  | succ n ih => simp [pushOut, ih, pushItem_mem]

@[simp] theorem drainEnd_mem (p : Coord) (count : Nat) : (drainEnd s p count).mem = s.mem := by simp [drainEnd]
@[simp] theorem writeRow_mem (p : Coord) (addr : Nat) (bs : List Byte) : (writeRow s p addr bs).mem = s.mem := by
  simp [writeRow]
@[simp] theorem writeRows_mem (p : Coord) (a : Nat) (ls : List (List Byte)) : (writeRows s p a ls).mem = s.mem := by
  fun_induction writeRows s p a ls <;> simp [*]

/-! ### System.lean -/

@[simp] theorem flushGather_mem (p : Coord) : (flushGather s p).mem = s.mem := by simp [flushGather]
@[simp] theorem markFallow_mem (p : Coord) : (markFallow s p).mem = s.mem := by simp [markFallow]
@[simp] theorem endStep_mem (p : Coord) : (endStep s p).mem = s.mem := by simp [endStep]

/-! ### Dataflow.lean -/

@[simp] theorem giveItem_mem (c : Nat) (d : CtxDef) (p : Coord) (ch : Nat) (i : Item) :
    (giveItem s c d p ch i).mem = s.mem := by simp [giveItem, pushItem_mem, countSpillItems_mem]
@[simp] theorem tokenStep_mem (d : CtxDef) (p : Coord) (u : Nat) (held : Option Item) :
    (tokenStep s d p u held).mem = s.mem := by simp [tokenStep]
@[simp] theorem endWindow_mem (c k : Nat) : (endWindow s c k).mem = s.mem := by simp [endWindow]

/-! ### Mesh.lean -/

@[simp] theorem noteServed_mem (x y : Nat) (p : Port) (f : Flit) : (noteServed s x y p f).mem = s.mem := by
  simp [noteServed]

@[simp] theorem afterLeave_data (loc : FlitLoc) : (afterLeave s loc).mem.data = s.mem.data := by
  unfold afterLeave
  split <;> simp

@[simp] theorem takeContribution_mem (f : Nat) (fl : Flit) : (takeContribution s f fl).mem = s.mem := by
  simp [takeContribution]
@[simp] theorem takeBranchCredit_mem (f : Nat) (fl : Flit) : (takeBranchCredit s f fl).mem = s.mem := by
  simp [takeBranchCredit]

theorem takeDirect_mem {s t : State} {f : Nat} {fl : Flit} (h : takeDirect s f fl = some t) : t.mem = s.mem := by
  simp only [takeDirect, Option.ite_none_left_eq_some] at h
  grind [takeContribution_mem, takeBranchCredit_mem]

@[simp] theorem inject_mem (f : Nat) (fl : Flit) (x y : Nat) : (inject s f fl x y).mem = s.mem := by
  unfold inject
  split
  · rfl
  · split
    next taken => simp [takeDirect_mem taken]
    next => simp

@[simp] theorem escapeForward_mem (f : Nat) (fl : Flit) (x y : Nat) : (escapeForward s f fl x y).mem = s.mem := by
  unfold escapeForward
  dsimp only
  split
  · split
    next taken => exact takeDirect_mem taken
    next => simp
  · simp

@[simp] theorem releaseForward_mem (f : Nat) (fl : Flit) (x y : Nat) :
    (releaseForward s f fl x y).mem = s.mem := by
  unfold releaseForward
  split <;> simp -implicitDefEqProofs

@[simp] theorem routerForward_data (f : Nat) (fl : Flit) (x : Nat) (y : Nat) :
    (routerForward s f fl x y).mem.data = s.mem.data := by fun_cases routerForward <;> simp +zetaDelta
@[simp] theorem failLink_mem (l : MeshLink) (c quarter : Nat) : (failLink s l c quarter).mem = s.mem := by simp [failLink]
@[simp] theorem startRelease_mem (c : Nat) (d : CtxDef) : (startRelease s c d).mem = s.mem := by simp [startRelease]
@[simp] theorem redGive_mem (c : BitVec 4) (x y : Nat) (e : DWord) (port : Nat) (i : Staged) :
    (redGive s c x y e port i).mem = s.mem := by fun_cases redGive <;> simp
@[simp] theorem redPop_mem (k n ins : Nat) : (redPop s k n ins).mem = s.mem :=
  foldl_mem (fun s i => setStaged_mem s k n i _) _ s
@[simp] theorem creditContributors_mem (c fuel : Nat) (u : Coord) (n m : Nat) :
    (creditContributors s c fuel u n m).mem = s.mem := by simp -implicitDefEqProofs [creditContributors]

/-! ### CollOps.lean -/

@[simp] theorem sendPiece_mem (d : CtxDef) (n : Nat) (e : CollEnt) (dest stage phase q : Nat) (v : Piece) (p : Bool) :
    (sendPiece s d n e dest stage phase q v p).mem = s.mem := by simp [sendPiece]

@[simp] theorem digestColl_mem (c n a : Nat) (l : Line) : (digestColl s c n a l).mem = s.mem := by
  unfold digestColl
  split <;> simp

@[simp] theorem modColl_mem (c n : Nat) (f : Coll → Coll) : (modColl s c n f).mem = s.mem := by simp [modColl]
@[simp] theorem shareResult_mem (d : CtxDef) (n : Nat) (e : CollEnt) (t q : Nat) (v : Piece) :
    (shareResult s d n e t q v).mem = s.mem := by simp [shareResult]
@[simp] theorem spread_mem (d : CtxDef) (n : Nat) (e : CollEnt) (from_ q : Nat) (v : Piece) (p : Bool) :
    (spread s d n e from_ q v p).mem = s.mem := by simp [spread]
@[simp] theorem treeFlood_mem (d : CtxDef) (n : Nat) (e : CollEnt) (but q : Nat) (v : Piece) (p : Bool) :
    (treeFlood s d n e but q v p).mem = s.mem := by simp [treeFlood]
@[simp] theorem collPoison_mem (c : Nat) : (collPoison s c).mem = s.mem := by simp [collPoison]
@[simp] theorem copyFromMember_data (c : Nat) (d : CtxDef) (n donor from_ dst len : Nat) :
    (copyFromMember s c d n donor from_ dst len).mem.data = s.mem.data := by simp [copyFromMember]
@[simp] theorem copyDstPage_data (c : Nat) (d : CtxDef) (n donor : Nat) (e : CollEnt) (i : Nat) :
    (copyDstPage s c d n donor e i).mem.data = s.mem.data := by simp [copyDstPage]
@[simp] theorem admStepCopy_data (c : Nat) (d : CtxDef) (slot : Nat) : (admStepCopy c d slot s).mem.data = s.mem.data := by
  simp [admStepCopy]
@[simp] theorem pumpAdm_data : (pumpAdm s).mem.data = s.mem.data := by fun_cases pumpAdm <;> simp
@[simp] theorem pumpColl_data (k : Coll) : (pumpColl s k).mem.data = s.mem.data := by fun_cases pumpColl <;> simp
@[simp] theorem pumpCopies_data : (pumpCopies s).mem.data = s.mem.data := by simp [pumpCopies]

/-! ### Image.lean -/

@[simp] theorem putReds_mem (d : CtxDef) (t : Reds) : (putReds s d t).mem = s.mem := by simp [putReds]

@[simp] theorem setLoadCircuits_mem (c : Nat) (d : CtxDef) : (setLoadCircuits s c d).mem = s.mem := by
  unfold setLoadCircuits
  split <;> simp

@[simp] theorem dropLoadCircuits_mem (c : Nat) (d : CtxDef) : (dropLoadCircuits s c d).mem = s.mem := by
  unfold dropLoadCircuits
  split <;> simp

/-! ### Boundary.lean -/

@[simp] theorem restartField_mem : (restartField s).mem = s.mem := by simp [restartField]
@[simp] theorem adoptModule_mem : (adoptModule s).mem = s.mem := by simp [adoptModule]
@[simp] theorem settleSwap_mem : (settleSwap s).mem = s.mem := by simp [settleSwap]
@[simp] theorem leavePrev_mem (c : Nat) : (leavePrev s c).mem = s.mem := by simp [leavePrev]
@[simp] theorem adoptCtx_mem (c : Nat) : (adoptCtx s c).mem = s.mem := by fun_cases adoptCtx <;> simp +zetaDelta
@[simp] theorem flushTile_mem (c k : Nat) : (flushTile s c k).mem = s.mem := by simp [flushTile]
@[simp] theorem countClamps_mem (c : Nat) (d : CtxDef) : (countClamps s c d).mem = s.mem := by simp [countClamps]
@[simp] theorem evalTrip_mem (c : Nat) (x : Ctx) (n : Nat) (trip : DWord × Word) :
    (evalTrip s c x n trip).1.mem = s.mem := by fun_cases evalTrip <;> simp
@[simp] theorem startDelays_mem (x : Ctx) : (startDelays s x).mem = s.mem := by
  simp -implicitDefEqProofs [startDelays]
@[simp] theorem startTile_mem (hold : Bool) (k : Nat) : (startTile s hold k).mem = s.mem := by fun_cases startTile <;> simp

@[simp] theorem beginStep_mem (c : Nat) (x : Ctx) (st : DWord) (newStep : Bool) :
    (beginStep s c x st newStep).mem = s.mem := by
  unfold beginStep
  dsimp only
  split <;> simp

/-! ### Links.lean -/

@[simp] theorem undeliverable_data (south : Bool) (p : Packet) : (undeliverable s south p).mem.data = s.mem.data := by
  fun_cases undeliverable <;> simp

@[simp] theorem sendOn_data (l inp : Nat) (travel : Option (Nat × Bool)) (p : Packet) :
    (sendOn s l inp travel p).mem.data = s.mem.data := by
  unfold sendOn
  split <;> simp

@[simp] theorem forwardPacket_data (l : Nat) (p : Packet) : (forwardPacket s l p).mem.data = s.mem.data := by
  simp [forwardPacket]

@[simp] theorem takeHandshake_data (p : Packet) : (takeHandshake s p).mem.data = s.mem.data := by
  unfold takeHandshake
  split <;> simp

@[simp] theorem deliver_data (l : Nat) (p : Packet) : (deliver s l p).mem.data = s.mem.data := by simp [deliver]
@[simp] theorem acceptFrame_data (l : Nat) (fr : LinkFrame) : (acceptFrame s l fr).mem.data = s.mem.data := by
  simp [acceptFrame]
@[simp] theorem addLinkFault_mem (l kind detail : Nat) : (addLinkFault s l kind detail).mem = s.mem := by
  simp [addLinkFault]
@[simp] theorem donorRoute_mem : (donorRoute s).mem = s.mem := by simp [donorRoute]
@[simp] theorem requeue_data (l : Nat) (qs : List Queued) : (requeue s l qs).mem.data = s.mem.data := by simp [requeue]
@[simp] theorem leaveLink_data (l : Nat) (seq : Option (BitVec 12)) : (leaveLink s l seq).mem.data = s.mem.data := by
  simp [leaveLink]

@[simp] theorem linkDown_data (l : Nat) : (linkDown s l).mem.data = s.mem.data := by
  unfold linkDown
  split
  · dsimp only
    cases mappedFar _ _ <;> simp
  · rfl

@[simp] theorem linkDegrade_mem (l : Nat) : (linkDegrade s l).mem = s.mem := by simp [linkDegrade]
@[simp] theorem shorterMap_data (l : Nat) : (shorterMap s l).mem.data = s.mem.data := by simp [shorterMap]
@[simp] theorem nameChange_mem (l : Nat) (spare : Option (Nat × Nat)) (count : Nat) :
    (nameChange s l spare count).mem = s.mem := by simp [nameChange]
@[simp] theorem withdrawTx_data (l : Nat) (w : Nat) : (withdrawTx s l w).mem.data = s.mem.data := by
  fun_cases withdrawTx <;> simp +zetaDelta
@[simp] theorem withdrawRx_data (l w : Nat) : (withdrawRx s l w).mem.data = s.mem.data := by simp [withdrawRx]

@[simp] theorem switchOne_data (l : Nat) (tx : Bool) : (switchOne s l tx).mem.data = s.mem.data := by
  unfold switchOne
  dsimp only
  split
  · rfl
  next c _ _ => cases c.spare <;> simp

@[simp] theorem switchDue_data (l : Nat) (tx : Bool) : (switchDue s l tx).mem.data = s.mem.data := by simp [switchDue]
@[simp] theorem countBad_data (l w : Nat) : (countBad s l w).mem.data = s.mem.data := by simp [countBad]

/-! ### ClockOps.lean -/

@[simp] theorem State.modQuarter_mem (q : Nat) (f : Throttle → Throttle) : (s.modQuarter q f).mem = s.mem := by
  simp [State.modQuarter]
@[simp] theorem switchTo_mem (rx : Bool) (lanes : BitVec 2) : (switchTo s rx lanes).mem = s.mem := by simp [switchTo]

@[simp] theorem pumpData_mem (n : Nat) (s : State) : (pumpData n s).mem = s.mem := by
  induction n generalizing s with
  | zero => rfl
  | succ n ih =>
    simp only [pumpData, ite_mem, ih]
    split
    · rfl
    · split <;> simp

@[simp] theorem pumpMer_mem : (pumpMer s).mem = s.mem := by simp [pumpMer]
@[simp] theorem respond_mem (r : Resp) : (respond s r).mem = s.mem := by simp [respond]
@[simp] theorem decideChange_mem (src : Source) : (decideChange s src).mem = s.mem := by simp [decideChange]
@[simp] theorem linksDown_data : (linksDown s).mem.data = s.mem.data := by simp [linksDown]

/-! ### Hall.lean -/

@[simp] theorem sendInbound_data (x : Nat) : (sendInbound s x).mem.data = s.mem.data := by
  unfold sendInbound
  split <;> simp

@[simp] theorem releaseInbound_data (c : Nat) : (releaseInbound s c).mem.data = s.mem.data := by simp [releaseInbound]
@[simp] theorem takeRequest_data (l : Nat) (p : Packet) (c : Nat) (x : Ctx) :
    (takeRequest s l p c x).mem.data = s.mem.data := by simp [takeRequest]
@[simp] theorem countStale_mem (c : Nat) : (countStale s c).mem = s.mem := by simp [countStale]
@[simp] theorem countLate_mem (c : Nat) : (countLate s c).mem = s.mem := by simp [countLate]
@[simp] theorem stopAdmission_mem (cause : Nat) : (stopAdmission s cause).mem = s.mem := by simp [stopAdmission]
@[simp] theorem barrierPacket_mem (c : Nat) (x : Ctx) (op dest : Nat) :
    (barrierPacket s c x op dest).mem = s.mem := by simp [barrierPacket]
@[simp] theorem passArrive_mem (c : Nat) (x : Ctx) : (passArrive s c x).mem = s.mem := by fun_cases passArrive <;> simp
@[simp] theorem releaseHall_mem (c : Nat) (x : Ctx) : (releaseHall s c x).mem = s.mem := by simp [releaseHall]

/-! ### Sections.lean -/

@[simp] theorem dropCredits_mem (c : Nat) : (dropCredits s c).mem = s.mem := by simp [dropCredits]

/-! ### Recovery.lean -/

@[simp] theorem clearRouters_mem (d : CtxDef) : (clearRouters s d).mem = s.mem := by simp [clearRouters]

@[simp] theorem stopLinks_data (c : Nat) (x : Ctx) (north : Bool) :
    (stopLinks s c x north).mem.data = s.mem.data := by
  unfold stopLinks
  dsimp only
  split
  · simp
  · exact foldl_data (fun s e => by split <;> simp) _ s

@[simp] theorem stopDone_mem (c : Nat) (e : StopEngine) : (stopDone s c e).mem = s.mem := by simp [stopDone]
@[simp] theorem removeCtx_data (c : Nat) (x : Ctx) : (removeCtx s c x).mem.data = s.mem.data := by
  simp -implicitDefEqProofs [removeCtx]
@[simp] theorem stopOutcome_mem (c cause : Nat) : (stopOutcome s c cause).mem = s.mem := by simp [stopOutcome]
@[simp] theorem loadTile_mem (x : Ctx) (sec : Nat) (run : RunState) (p : Coord) : (loadTile s x sec run p).mem = s.mem := by
  simp [loadTile]
@[simp] theorem toEntry_mem (c : Nat) (step : DWord) : (toEntry s c step).mem = s.mem := by simp [toEntry]

@[simp] theorem enterStep_mem (c : Nat) (x : Ctx) (step : DWord) (reds : Reds) :
    (enterStep s c x step reds).mem = s.mem := by
  unfold enterStep
  dsimp only
  split
  · simp
  · split <;> simp -implicitDefEqProofs

@[simp] theorem sendHolds_mem (c : Nat) (x : Ctx) : (sendHolds s c x).mem = s.mem :=
  foldl_mem (fun s q => barrierPacket_mem s c x 8 q) _ s
@[simp] theorem shiftTimers_data (c n : Nat) : (shiftTimers s c n).mem.data = s.mem.data := by simp [shiftTimers]

/-! ### Create.lean -/

@[simp] theorem runOn_data (n : Nat) : (runOn s n).mem.data = s.mem.data := by
  unfold runOn
  split <;> simp

@[simp] theorem writePause_mem (n : Nat) (v : DWord) : (writePause s n v).mem = s.mem := by
  fun_cases writePause <;> simp +zetaDelta -implicitDefEqProofs [watchCycles_mem]
@[simp] theorem admHandshake_mem (c : Nat) (x : Ctx) : (admHandshake s c x).mem = s.mem := by simp [admHandshake]

/-! ### Moves.lean -/

@[simp] theorem leavePosition_mem (old new : Nat) : (leavePosition s old new).mem = s.mem := by simp [leavePosition]
@[simp] theorem copyDamage_mem (t : Coord) : (copyDamage s t).mem = s.mem := by simp [copyDamage]
@[simp] theorem resumeTile_mem (t : Coord) : (resumeTile s t).mem = s.mem := by fun_cases resumeTile <;> simp

/-! ### Gleaner.lean -/

@[simp] theorem slotRow_mem (die row : Nat) : (slotRow s die row).mem = s.mem := by fun_cases slotRow <;> simp
@[simp] theorem countTest_mem (p : Nat) (r : TestResult) : (countTest s p r).mem = s.mem := by simp [countTest]
@[simp] theorem cleanTest_mem (p : Nat) : (cleanTest s p).mem = s.mem := by simp [cleanTest]
@[simp] theorem suspectCtx_mem (before c : Nat) : (suspectCtx s before c).mem = s.mem := by
  fun_cases suspectCtx <;> simp +zetaDelta
@[simp] theorem gapFails_mem (p : Nat) (r : TestResult) : (gapFails s p r).mem = s.mem := by simp [gapFails]
@[simp] theorem startRetest_mem (die : Nat) : (startRetest s die).mem = s.mem := by
  fun_cases startRetest <;> simp +zetaDelta
@[simp] theorem fenceDecision_mem (p source decision : Nat) (res : Option (TestResult × Int)) :
    (decide_ s p source decision res).mem = s.mem := by simp [decide_]
@[simp] theorem fenceTile_mem (p source : Nat) (res : Option (TestResult × Int)) :
    (fenceTile s p source res).mem = s.mem := by simp [fenceTile]
@[simp] theorem returnTile_mem (p source : Nat) (marginal : Bool) (res : Option (TestResult × Int)) :
    (returnTile s p source marginal res).mem = s.mem := by simp [returnTile]
@[simp] theorem decideFence_mem (p : Nat) (res : Option (TestResult × Int)) : (decideFence s p res).mem = s.mem := by
  simp [decideFence]
@[simp] theorem nextCorner_mem (p : Nat) (r : TestResult) (rail : Int) : (nextCorner s p r rail).mem = s.mem := by
  simp [nextCorner]
@[simp] theorem writeGaz_mem (g : GazCopy) : (writeGaz s g).mem = s.mem := by simp [writeGaz]

/-! ### Dict.lean -/

@[simp] theorem noteError_mem (role status idx sub detail : Nat) :
    (noteError s role status idx sub detail).mem = s.mem := by
  simp [noteError]

/-! ### FieldOps.lean -/

@[simp] theorem fieldSend_mem (dst : BitVec 128) (b : List Byte) : (fieldSend s dst b).mem = s.mem := by simp [fieldSend]
@[simp] theorem fieldDropped_mem : (fieldDropped s).mem = s.mem := by simp [fieldDropped]

@[simp] theorem fieldRead_mem (tag : BitVec 16) (idx sub off : Nat) : (fieldRead s tag idx sub off).mem = s.mem := by
  unfold fieldRead
  split <;> simp

@[simp] theorem fieldWrite_mem (tag : BitVec 16) (idx sub : Nat) : (fieldWrite s tag idx sub).mem = s.mem := by
  simp [fieldWrite]
@[simp] theorem fieldAnswer_mem (i : FieldReq) : (fieldAnswer s i).mem = s.mem := by simp [fieldAnswer]
@[simp] theorem fieldRequest_mem (i : FieldReq) : (fieldRequest s i).mem = s.mem := by simp [fieldRequest]
@[simp] theorem fieldDrain_mem : (fieldDrain s).mem = s.mem := by simp [fieldDrain]

/-! ### FwOps.lean -/

@[simp] theorem extendMr_mem (n : Nat) (entry : List Byte) : (extendMr s n entry).mem = s.mem := by simp [extendMr]
@[simp] theorem clearMr_mem (l : List Nat) : (clearMr s l).mem = s.mem := by simp [clearMr]
@[simp] theorem measureImage_mem (n : Nat) (i : Image) : (measureImage s n i).mem = s.mem := by simp [measureImage]
@[simp] theorem measureSet_mem : (measureSet s).mem = s.mem := by simp [measureSet]
@[simp] theorem dirWrite_mem (f : Firmware → Firmware) : (dirWrite s f).mem = s.mem := by simp [dirWrite]
@[simp] theorem setResult_mem (st : Nat) : (setResult s st).mem = s.mem := by simp [setResult]
@[simp] theorem swapVerified_mem (w : Swap) : (swapVerified s w).mem = s.mem := by simp [swapVerified]
@[simp] theorem swapFailed_mem : (swapFailed s).mem = s.mem := by simp [swapFailed]
@[simp] theorem saveEnded_mem (ok : Bool) : (saveEnded s ok).mem = s.mem := by simp [saveEnded]

/-! ### Reset.lean -/

@[simp] theorem commitCut_mem : (commitCut s).mem = s.mem := by
  unfold commitCut
  split <;> simp

@[simp] theorem flashCut_mem : (flashCut s).mem = s.mem := by simp [flashCut]
@[simp] theorem railsOn_mem (n : Nat) : (railsOn s n).mem = s.mem := by simp [railsOn]
@[simp] theorem openPort_mem : (openPort s).mem = s.mem := by simp [openPort]
@[simp] theorem seekLock_mem : (seekLock s).mem = s.mem := by simp [seekLock]
@[simp] theorem trainLinks_mem : (trainLinks s).mem = s.mem := by simp [trainLinks]

@[simp] theorem startStage_mem (n : Nat) : (startStage s n).mem = s.mem := by
  unfold startStage
  split <;> simp

@[simp] theorem afterStage_mem (n : Nat) : (afterStage s n).mem = s.mem := by simp [afterStage]
@[simp] theorem endStage_mem (n : Nat) : (endStage s n).mem = s.mem := by simp [endStage]
@[simp] theorem failStage_mem (n code : Nat) : (failStage s n code).mem = s.mem := by simp [failStage]

/-! ### Bringup.lean -/

@[simp] theorem chooseBoot_mem : (chooseBoot s).1.mem = s.mem := by
  unfold chooseBoot
  split <;> simp

@[simp] theorem loadSets_mem : (loadSets s).mem = s.mem := by simp [loadSets]
@[simp] theorem loadRetired_data (ch : Nat) : (loadRetired s ch).mem.data = s.mem.data := by simp [loadRetired]

@[simp] theorem reportTail_mem : (reportTail s).mem = s.mem := by
  unfold reportTail
  split <;> simp

@[simp] theorem stopService_mem : (stopService s).mem = s.mem := by simp [stopService]
@[simp] theorem romRecovery_mem : (romRecovery s).mem = s.mem := by simp [romRecovery]
@[simp] theorem decideTile_mem (r : S4Result) : (decideTile s r).mem = s.mem := by fun_cases decideTile <;> simp
@[simp] theorem fenceNorth_mem (l : MeshLink) : (fenceNorth s l).mem = s.mem := by simp [fenceNorth]
@[simp] theorem placeGrid_mem : (placeGrid s).mem = s.mem := by simp [placeGrid]
@[simp] theorem countRebuilds_mem : (countRebuilds s).mem = s.mem := by simp [countRebuilds]
@[simp] theorem reportLinks_mem : (reportLinks s).mem = s.mem := by simp -implicitDefEqProofs [reportLinks]
@[simp] theorem restartDelay_mem : (restartDelay s).mem = s.mem := by simp [restartDelay]

theorem chooseWindow_mem {s t : State} {die h : Nat} (e : chooseWindow s die h = some t) : t.mem = s.mem := by
  unfold chooseWindow at e
  dsimp only at e
  split at e
  · cases e; rfl
  · obtain ⟨w, -, rfl⟩ := Option.map_eq_some_iff.1 e
    rfl

theorem bindHalf_mem {s t : State} {die h : Nat} (e : bindHalf s die h = some t) : t.mem = s.mem := by
  obtain ⟨u, chosen, e⟩ := Option.bind_eq_some_iff.1 e
  rw [← chooseWindow_mem chosen]
  dsimp only at e
  split at e <;> cases e
  rfl

theorem bindGrid_mem {s t : State} {g : GazCopy} {trimmed : Bool} (e : bindGrid s g trimmed = .inl t) : t.mem = s.mem := by
  revert t
  refine List.foldlRecOn (motive := fun a : State ⊕ (Nat × Nat) => ∀ {t}, a = .inl t → t.mem = s.mem) _ _
    (fun e => by cases e; rfl) ?_
  intro a ha h _ u hu
  split at hu
  · split at hu
    next bound => cases hu; rw [bindHalf_mem bound, ha rfl]
    next => cases hu
  · cases hu

theorem selectGrid_mem {s t : State} {g : GazCopy} (e : selectGrid s g = .inl t) : t.mem = s.mem := by
  unfold selectGrid at e
  dsimp only at e
  split at e
  next bound => cases e; exact bindGrid_mem bound
  next =>
    split at e
    · cases e
    · exact bindGrid_mem e

@[simp] theorem buildGrid_mem (g : GazCopy) : (buildGrid s g).mem = s.mem := by
  unfold buildGrid
  dsimp only
  split
  next => simp
  next bound => simp [selectGrid_mem bound]

@[simp] theorem zeroTiles_mem : (zeroTiles s).mem = s.mem := by simp [zeroTiles]
@[simp] theorem setRound_mem (r : Nat) : (setRound s r).mem = s.mem := by simp [setRound]
@[simp] theorem repairRound_mem (r : Nat) : (repairRound s r).mem = s.mem := by simp [repairRound]
@[simp] theorem fwFailed_mem (p : Nat) : (fwFailed s p).mem = s.mem := by simp [fwFailed]
@[simp] theorem endBroadcast_mem : (endBroadcast s).mem = s.mem := by simp [endBroadcast]
@[simp] theorem takeChunks_mem (p : Nat) (r : BitVec 18) : (takeChunks s p r).mem = s.mem := by simp [takeChunks]

/-! ### Secure.lean -/

@[simp] theorem debugClosed_mem : (debugClosed s).mem = s.mem := by simp [debugClosed]
@[simp] theorem State.putKey_mem (n : Nat) (k : KeySlot) : (s.putKey n k).mem = s.mem := by simp [State.putKey]

@[simp] theorem tokenEffect_mem (t : Token) : (tokenEffect s t).mem = s.mem := by
  unfold tokenEffect
  split <;> simp

@[simp] theorem freshNonce_mem : (freshNonce s).mem = s.mem := by simp [freshNonce]

@[simp] theorem debugFirmware_mem (k : Nat) (w : DebugWrite) : (debugFirmware s k w).mem = s.mem := by
  unfold debugFirmware
  split <;> simp

@[simp] theorem debugFault_mem (c : Nat) (x : Ctx) (halt wr : Bool) : (debugFault s c x halt wr).mem = s.mem := by
  simp [debugFault]

/-! ### Power.lean -/

@[simp] theorem limitedAt_mem (old new which : Nat) : (limitedAt s old new which).mem = s.mem := by simp [limitedAt]
@[simp] theorem railDead_mem (r : Rail) : (railDead s r).mem = s.mem := by simp [railDead]
@[simp] theorem railCount_mem (n : Nat) (r : Rail) : (railCount s n r).mem = s.mem := by simp [railCount]
@[simp] theorem laterOff_mem (r : Rail) : (laterOff s r).mem = s.mem := by simp [laterOff]
@[simp] theorem loadShedNow_mem (i : Nat) : (loadShedNow s i).mem = s.mem := by simp [loadShedNow]
@[simp] theorem coolTake_mem (inlet : Int) (flow i : Nat) : (coolTake s inlet flow i).mem = s.mem := by simp [coolTake]
@[simp] theorem releaseTrip_mem : (releaseTrip s).mem = s.mem := by simp [releaseTrip]

/-! ### Field.lean -/

@[simp] theorem cableCleared_mem : (cableCleared s).mem = s.mem := by simp [cableCleared]

/-! ### Message.lean -/

@[simp] theorem accepted_mem (m : MsgHdr) (msg : Msg) : (accepted s m msg).mem = s.mem := by simp [accepted]
@[simp] theorem refusedMsg_mem (m : MsgHdr) (msg : Msg) (status detail : Nat) :
    (refusedMsg s m msg status detail).mem = s.mem := by simp [refusedMsg]

@[simp] theorem runRead_mem (m : MsgHdr) (msg : Msg) (idx sub off : Nat) : (runRead s m msg idx sub off).mem = s.mem := by
  unfold runRead
  split <;> simp

@[simp] theorem returnUnits_mem (msg : Msg) : (returnUnits s msg).mem = s.mem := by simp [returnUnits]
@[simp] theorem waitMsg_mem (m : MsgHdr) (msg : Msg) : (waitMsg s m msg).mem = s.mem := by simp [waitMsg]
@[simp] theorem unbar_mem (a n : Nat) : (unbar s a n).mem = s.mem := by simp [unbar]
@[simp] theorem putLimit_mem (c step : Nat) : (putLimit s c step).mem = s.mem := by simp [putLimit]
@[simp] theorem runEpoch_mem (m : MsgHdr) (msg : Msg) (step : Nat) (sel : Bool) (who : Nat) :
    (runEpoch s m msg step sel who).mem = s.mem := by simp [runEpoch]
@[simp] theorem nextSeq_mem : (nextSeq s).mem = s.mem := by simp [nextSeq]

/-! ### Clocks.lean -/

@[simp] theorem switchSource_mem (m1 : Bool) : (switchSource s m1).mem = s.mem := by simp [switchSource]
@[simp] theorem sourceFails_mem (m1 : Bool) : (sourceFails s m1).mem = s.mem := by simp [sourceFails]
@[simp] theorem takeReady_mem (m1 : Bool) : (takeReady s m1).mem = s.mem := by simp [takeReady]
@[simp] theorem setLane_mem (rx m1 on : Bool) : (setLane s rx m1 on).mem = s.mem := by simp [setLane]

@[simp] theorem switchLanes_mem : (switchLanes s).mem = s.mem := by
  unfold switchLanes
  split <;> simp

@[simp] theorem withdrawLane_mem (m1 : Bool) : (withdrawLane s m1).mem = s.mem := by simp [withdrawLane]
@[simp] theorem badWord_mem (m1 : Bool) : (badWord s m1).mem = s.mem := by simp [badWord]
@[simp] theorem portBack_mem : (portBack s).mem = s.mem := by simp [portBack]

@[simp] theorem restartStage_mem : (restartStage s).mem = s.mem := by
  unfold restartStage
  split <;> simp

@[simp] theorem reportChange_mem : (reportChange s).mem = s.mem := by simp [reportChange]

/-! ### Tick.lean -/

@[simp] theorem tick_mem : (tick s).mem = s.mem := by simp [tick]

end

end Sys2Proof.Machine

/-! ## Proofs: what stores bytes keeps main memory canonical (08_memory.md; log entry 7)

The functions that may store bytes reach them through `putLine`, `putBytes` and the row writes of the granary, or start memory
anew. Each has one lemma `_wf`: from canonical bytes it leaves canonical bytes. -/

namespace Sys2Proof.Machine

@[simp] theorem cellsWf_ite (c : Prop) [Decidable c] (m n : List Host.Cell) :
    cellsWf (if c then m else n) = if c then cellsWf m else cellsWf n := apply_ite cellsWf c m n

/-- A fold over states whose steps keep memory canonical keeps it canonical. -/
theorem foldl_wf {β : Type} {f : State → β → State}
    (step : ∀ s x, cellsWf s.mem.data = true → cellsWf (f s x).mem.data = true) (l : List β) {s : State}
    (wf : cellsWf s.mem.data = true) : cellsWf (l.foldl f s).mem.data = true := by
  induction l generalizing s with
  | nil => exact wf
  | cons x t ih => exact ih (step s x wf)

/-- Every next state that the meaning of a command answers has canonical memory. -/
def OutWf (o : Out) : Prop := ∀ t, o = .next t → cellsWf t.mem.data = true

@[simp] theorem outWf_next (t : State) : OutWf (.next t) ↔ cellsWf t.mem.data = true :=
  ⟨fun h => h t rfl, fun h u e => by cases e; exact h⟩

/-- The state in which the body of an instruction leaves the module has canonical memory. -/
def ActWf : Act → Prop
  | .fin t => cellsWf t.mem.data = true
  | .go t => cellsWf t.mem.data = true
  | .stall _ => True
  | .exc _ _ => True

@[simp] theorem actWf_fin (t : State) : ActWf (.fin t) ↔ cellsWf t.mem.data = true := Iff.rfl
@[simp] theorem actWf_go (t : State) : ActWf (.go t) ↔ cellsWf t.mem.data = true := Iff.rfl
@[simp] theorem actWf_stall (w : WaitOn) : ActWf (.stall w) := trivial
@[simp] theorem actWf_exc (code detail : Nat) : ActWf (.exc code detail) := trivial

/-- The state in which a write of an entry leaves the module has canonical memory. -/
def WroteWf : Wrote → Prop
  | .done t => cellsWf t.mem.data = true
  | .refused t _ _ => cellsWf t.mem.data = true
  | .waits => True
  | .resets t _ _ => cellsWf t.mem.data = true
  | .later t => cellsWf t.mem.data = true

@[simp] theorem wroteWf_done (t : State) : WroteWf (.done t) ↔ cellsWf t.mem.data = true := Iff.rfl
@[simp] theorem wroteWf_refused (t : State) (st d : Nat) : WroteWf (.refused t st d) ↔ cellsWf t.mem.data = true := Iff.rfl
@[simp] theorem wroteWf_waits : WroteWf .waits := trivial
@[simp] theorem wroteWf_resets (t : State) (k : Nat) (c : Bool) : WroteWf (.resets t k c) ↔ cellsWf t.mem.data = true := Iff.rfl
@[simp] theorem wroteWf_later (t : State) : WroteWf (.later t) ↔ cellsWf t.mem.data = true := Iff.rfl

@[simp] theorem outWf_ite (c : Prop) [Decidable c] (a b : Out) : OutWf (if c then a else b) ↔ if c then OutWf a else OutWf b := by
  split <;> rfl
@[simp] theorem actWf_ite (c : Prop) [Decidable c] (a b : Act) : ActWf (if c then a else b) ↔ if c then ActWf a else ActWf b := by
  split <;> rfl
@[simp] theorem wroteWf_ite (c : Prop) [Decidable c] (a b : Wrote) :
    WroteWf (if c then a else b) ↔ if c then WroteWf a else WroteWf b := by
  split <;> rfl

/-! ### Ops.lean -/

@[simp] theorem putLine_cellsWf (a : Nat) (bs : List Byte) {s : State} (wf : cellsWf s.mem.data = true) :
    cellsWf (putLine s a bs).mem.data = true := putLine_wf s a bs wf

@[simp] theorem putBytes_wf (a : Nat) (bs : List Byte) {s : State} (wf : cellsWf s.mem.data = true) :
    cellsWf (putBytes s a bs).mem.data = true := by
  unfold putBytes
  split
  · exact foldl_wf (fun s l wf => by split; exacts [wf, cellsWf_cellWrite _ _ wf]) _ wf
  · exact cellsWf_cellWrite _ _ wf

@[simp] theorem putVerRec_wf (d : CtxDef) (v : VerRec) {s : State} (wf : cellsWf s.mem.data = true) :
    cellsWf (putVerRec s d v).mem.data = true := by simp [putVerRec, wf]

theorem issueAny_wf (h : Hdr) (slotB invalid : Bool) {s : State} {body : Tile → Act} (kept : ∀ t, ActWf (body t))
    (wf : cellsWf s.mem.data = true) : OutWf (issueAny h slotB invalid s body) := by
  rcases issueAny_cases h slotB invalid s body with
    ⟨-, e⟩ | ⟨-, _, -, e⟩ | ⟨-, -, -, e⟩ | ⟨-, -, -, -, e⟩ |
    ⟨-, -, -, -, ⟨t, b, e⟩ | ⟨t, b, e⟩ | ⟨_, -, e⟩ | ⟨_, _, -, e⟩⟩ <;> rw [e]
  · simpa using wf
  · simpa using wf
  · simpa using wf
  · simpa using wf
  · simpa [b] using kept (s.tile (ckey h.t))
  · simpa [b] using kept (s.tile (ckey h.t))
  · simpa using wf
  · simpa using wf

theorem issue_wf (h : Hdr) (slotB invalid : Bool) {s : State} {body : Tile → Act} (kept : ∀ t, ActWf (body t))
    (wf : cellsWf s.mem.data = true) : OutWf (issue h slotB invalid s body) := by
  unfold issue
  split
  · simpa using wf
  · exact issueAny_wf h slotB invalid kept wf

@[simp] theorem timedWait_wf (h : Hdr) (t : Tile) (on : WaitOn) (met : Bool) (pd : BitVec 3) (timeout : Word)
    {s : State} (wf : cellsWf s.mem.data = true) :
    ActWf (timedWait h s t on met pd timeout) := by simp [timedWait, wf]

/-! ### Operands.lean -/

theorem portsBlock_wf {s : State} {d : CtxDef} {k : Nat} {wide : Bool} {ins outs : List Nat} {a : Act}
    (e : portsBlock s d k wide ins outs = some a) : ActWf a := by
  revert e
  fun_cases portsBlock s d k wide ins outs <;> rintro ⟨⟩ <;> trivial

theorem withCtx_wf {s : State} (p : Coord) {f : Nat → Ctx → Act} (kept : ∀ c x, ActWf (f c x))
    (wf : cellsWf s.mem.data = true) : ActWf (withCtx s p f) := by
  unfold withCtx
  split
  · exact kept _ _
  · exact wf

theorem addrFault_wf {t : Tile} {a align n : Nat} {f : Act} (e : addrFault t a align n = some f) : ActWf f := by
  revert e
  fun_cases addrFault t a align n <;> rintro ⟨⟩ <;> trivial

/-! ### BinMem.lean -/

theorem scalarLoad_wf (h : Hdr) (r base : BitVec 5) (off : BitVec 11) (n : Nat) (sext : Bool) {s : State}
    (wf : cellsWf s.mem.data = true) : OutWf (scalarLoad h r base off n sext s) :=
  issue_wf _ _ _ (fun t => by
    dsimp only
    split
    next fault => exact addrFault_wf fault
    next => simp [wf]) wf

theorem scalarStore_wf (h : Hdr) (r base : BitVec 5) (off : BitVec 11) (n : Nat) {s : State}
    (wf : cellsWf s.mem.data = true) : OutWf (scalarStore h r base off n s) :=
  issue_wf _ _ _ (fun t => by
    dsimp only
    split
    next fault => exact addrFault_wf fault
    next => simp [wf]) wf

theorem execVld_wf (h : Hdr) (v base : BitVec 5) (off : BitVec 12) {s : State} (wf : cellsWf s.mem.data = true) :
    OutWf (execVld h v base off s) :=
  issue_wf _ _ _ (fun t => withCtx_wf _ (fun c x => by
    split
    next held => exact portsBlock_wf held
    next =>
      dsimp only
      split
      next fault => exact addrFault_wf fault
      next => split <;> simp [wf]) wf) wf

theorem execVst_wf (h : Hdr) (v base : BitVec 5) (off : BitVec 12) {s : State} (wf : cellsWf s.mem.data = true) :
    OutWf (execVst h v base off s) :=
  issue_wf _ _ _ (fun t => withCtx_wf _ (fun c x => by
    split
    next held => exact portsBlock_wf held
    next =>
      dsimp only
      split
      next fault => exact addrFault_wf fault
      next => simp [wf]) wf) wf

/-! ### DmaMsg.lean -/

theorem execDma_wf (h : Hdr) (rs : BitVec 5) {s : State} (wf : cellsWf s.mem.data = true) : OutWf (execDma h rs s) :=
  issue_wf _ _ _ (fun t => withCtx_wf _ (fun c x => by
    dsimp only
    split
    next fault => exact addrFault_wf fault
    next =>
      split
      · trivial
      · split
        · split
          · trivial
          · split
            · trivial
            · split
              · trivial
              · split <;> simp [wf]
        · simp [wf]) wf) wf

theorem execDwait_wf (h : Hdr) (k : BitVec 3) (rs : BitVec 5) {s : State} (wf : cellsWf s.mem.data = true) :
    OutWf (execDwait h k rs s) :=
  issue_wf _ _ _ (fun t => by split; exacts [wf, trivial]) wf

theorem execDwaitt_wf (h : Hdr) (k pd : BitVec 3) (rs rt : BitVec 5) {s : State} (wf : cellsWf s.mem.data = true) :
    OutWf (execDwaitt h k pd rs rt s) :=
  issueAny_wf _ _ _ (fun t => by simp [wf]) wf

theorem execDclr_wf (h : Hdr) (k : BitVec 3) {s : State} (wf : cellsWf s.mem.data = true) : OutWf (execDclr h k s) :=
  issue_wf _ _ _ (fun t => by simp [wf]) wf

theorem execMsend_wf (h : Hdr) (v rs : BitVec 5) {s : State} (wf : cellsWf s.mem.data = true) :
    OutWf (execMsend h v rs s) :=
  issue_wf _ _ _ (fun t => withCtx_wf _ (fun c x => by
    split
    next held => exact portsBlock_wf held
    next => simp [wf]) wf) wf

theorem execMrecv_wf (h : Hdr) (v rs : BitVec 5) {s : State} (wf : cellsWf s.mem.data = true) :
    OutWf (execMrecv h v rs s) :=
  issue_wf _ _ _ (fun t => withCtx_wf _ (fun c x => by
    split
    next held => exact portsBlock_wf held
    next =>
      dsimp only
      split <;> simp [wf]) wf) wf

theorem execMwait_wf (h : Hdr) (pd : BitVec 3) (rs rt : BitVec 5) {s : State} (wf : cellsWf s.mem.data = true) :
    OutWf (execMwait h pd rs rt s) :=
  issueAny_wf _ _ _ (fun t => by simp [wf]) wf

theorem execMessageArrive_wf (f : Nat) {s : State} (wf : cellsWf s.mem.data = true) : OutWf (execMessageArrive f s) := by
  fun_cases execMessageArrive <;> simp +zetaDelta [wf]
theorem execMessageCreditArrive_wf (f : Nat) {s : State} (wf : cellsWf s.mem.data = true) :
    OutWf (execMessageCreditArrive f s) := by fun_cases execMessageCreditArrive <;> simp +zetaDelta [wf]

theorem execTimedWaitExpiry_wf (t : Coord) {s : State} (wf : cellsWf s.mem.data = true) :
    OutWf (execTimedWaitExpiry t s) := by
  unfold execTimedWaitExpiry
  split
  · dsimp only
    split
    · cases ctxAt _ t <;> simp [wf]
    · simp [wf]
  · simp [wf]

theorem stageWrite_wf (c : Nat) (x : Ctx) (p : Coord) (d : DmaDesc) (tag n : Nat)
    {s : State} (wf : cellsWf s.mem.data = true) :
    OutWf (stageWrite c x p d tag n s) := by
  induction n generalizing s with
  | zero => simp [stageWrite, wf]
  | succ n ih =>
    unfold stageWrite
    dsimp only
    split
    · simp [wf]
    next w _ =>
      split
      · simp [wf]
      · have read := readOut_mem (pumpPort s p) c x p d.tensor (w.pos + w.sent) (d.place (w.pos + w.sent)).2
          (d.place (w.pos + w.sent)).1 (min 2 ((w.len - w.sent) / 64))
        split <;> rename_i e <;> rw [e] at read
        · simp_all
        · simp_all
        · exact ih (by simp_all)

theorem execDmaTransactionIssue_wf (t : Coord) (d : Nat) {s : State} (wf : cellsWf s.mem.data = true) :
    OutWf (execDmaTransactionIssue t d s) := by
  fun_cases execDmaTransactionIssue <;> simp +zetaDelta [stageWrite_wf, wf]

theorem execDmaReplyArrive_wf (f : Nat) {s : State} (wf : cellsWf s.mem.data = true) : OutWf (execDmaReplyArrive f s) := by
  fun_cases execDmaReplyArrive <;> simp +zetaDelta [wf]
theorem execDmaErrorReplyArrive_wf (f : Nat) {s : State} (wf : cellsWf s.mem.data = true) :
    OutWf (execDmaErrorReplyArrive f s) := by fun_cases execDmaErrorReplyArrive <;> simp +zetaDelta [wf]
theorem execBinSpaceAccessArrive_wf (f : Nat) {s : State} (wf : cellsWf s.mem.data = true) :
    OutWf (execBinSpaceAccessArrive f s) := by fun_cases execBinSpaceAccessArrive <;> simp +zetaDelta [wf]

/-! ### Granary.lean -/

@[simp] theorem createPoison_wf (a source : Nat) {s : State} (wf : cellsWf s.mem.data = true) :
    cellsWf (createPoison s a source).mem.data = true := by
  simpa [createPoison] using cellsWf_cellClear _ _ wf

@[simp] theorem lineWrite_wf (a : Nat) (l : Line) {s : State} (wf : cellsWf s.mem.data = true) :
    cellsWf (lineWrite s a l).mem.data = true := by simp [lineWrite, wf]

@[simp] theorem rowLost_wf (stripe row : Nat) (qs : List Nat) (source : Nat) {s : State} (wf : cellsWf s.mem.data = true) :
    cellsWf (rowLost s stripe row qs source).mem.data = true :=
  foldl_wf (fun s q wf => by split <;> simp [wf]) qs wf

@[simp] theorem rebuildLine_wf (errs : List LineCheck) (a source : Nat) {s : State} (wf : cellsWf s.mem.data = true) :
    cellsWf (rebuildLine s errs a source).1.mem.data = true := by
  unfold rebuildLine
  dsimp only
  split
  · have read := rowRead_data s errs (stripeOf a) (lineRow a) ((List.range 12).filter fun p => p != rowPos a)
    split <;> simp_all
  · simp [wf]

@[simp] theorem lineRead_wf (errs : List LineCheck) (a source : Nat) {s : State} (wf : cellsWf s.mem.data = true) :
    cellsWf (lineRead s errs a source).1.mem.data = true := by
  unfold lineRead
  split
  · simp [wf]
  · split
    · simp [wf]
    · have read := chanRead_data s errs (stripeOf a) (lineRow a) (rowPos a)
      split <;> simp_all

@[simp] theorem linesRead_wf (errs : List LineCheck) (a source n : Nat) {s : State} (wf : cellsWf s.mem.data = true) :
    cellsWf (linesRead s errs a source n).1.mem.data = true := by
  induction n with
  | zero => exact wf
  | succ n ih => exact lineRead_wf errs _ source ih

theorem execGranaryRequestAccept_wf (f : Nat) {s : State} (wf : cellsWf s.mem.data = true) :
    OutWf (execGranaryRequestAccept f s) := by fun_cases execGranaryRequestAccept <;> simp [wf]

theorem execGranaryLineRead_wf (x : Nat) (errs : List LineCheck) {s : State} (wf : cellsWf s.mem.data = true) :
    OutWf (execGranaryLineRead x errs s) := by
  unfold execGranaryLineRead
  split <;> simp [wf]

@[simp] theorem readForWrite_wf (errs : List LineCheck) (stripe row : Nat) (qs : List Nat) {s : State}
    (wf : cellsWf s.mem.data = true) : cellsWf (readForWrite s errs stripe row qs).mem.data = true :=
  foldl_wf (fun s q wf => by
    split
    · simp [wf]
    · have read := chanRead_data s errs stripe row q
      split <;> simp_all) qs wf

@[simp] theorem storeRow_wf (errs : List LineCheck) (a : Nat) (ls : List Line)
    {s : State} (wf : cellsWf s.mem.data = true) :
    cellsWf (storeRow s errs a ls).mem.data = true :=
  foldl_wf (fun _ _ wf => lineWrite_wf _ _ wf) _ (readForWrite_wf errs _ _ _ wf)

@[simp] theorem storeRows_wf (errs : List LineCheck) (n a : Nat) (ls : List Line)
    {s : State} (wf : cellsWf s.mem.data = true) :
    cellsWf (storeRows errs n s a ls).mem.data = true := by
  induction n generalizing s a ls with
  | zero => exact wf
  | succ n ih => simp [storeRows, ih, wf]

@[simp] theorem entryLines_wf (errs : List LineCheck) (t : Txn) {s : State} (wf : cellsWf s.mem.data = true) :
    cellsWf (entryLines s errs t).1.mem.data = true := by
  unfold entryLines
  split
  · exact wf
  · exact lineRead_wf errs _ 0 wf

theorem execGranaryRowWrite_wf (x : Nat) (errs : List LineCheck) {s : State} (wf : cellsWf s.mem.data = true) :
    OutWf (execGranaryRowWrite x errs s) := by
  unfold execGranaryRowWrite
  split <;> simp [wf]

@[simp] theorem storeEntry_wf (errs : List LineCheck) (t : Txn) {s : State} (wf : cellsWf s.mem.data = true) :
    cellsWf (storeEntry s errs t).mem.data = true := by
  unfold storeEntry
  split
  · exact wf
  · split
    · exact foldl_wf (fun _ _ wf => storeRows_wf errs _ _ _ wf) _ wf
    · exact storeRows_wf errs _ _ _ (entryLines_wf errs t wf)

theorem execChannelResponseTimeout_wf (ch : Nat) {s : State} (wf : cellsWf s.mem.data = true) :
    OutWf (execChannelResponseTimeout ch s) := by simp [execChannelResponseTimeout, wf]
theorem execChannelRetire_wf (ch : Nat) (drift : Bool) {s : State} (wf : cellsWf s.mem.data = true) :
    OutWf (execChannelRetire ch drift s) := by simp [execChannelRetire, wf]

@[simp] theorem scrubRow_wf (errs : List LineCheck) (stripe row : Nat) {s : State} (wf : cellsWf s.mem.data = true) :
    cellsWf (scrubRow s errs stripe row).mem.data = true := by
  unfold scrubRow
  have read := rowRead_data s errs stripe row ((List.range 12).filter fun q => !(retiredPos s stripe).contains q)
  dsimp only
  split <;> rename_i e <;> rw [e] at read <;> dsimp only at read
  · rwa [read]
  · split
    · split <;> simp [read, wf]
    · simp [read, wf]
  · simp [read, wf]

theorem execGranaryScrubRow_wf (stripe : Nat) (errs : List LineCheck) {s : State} (wf : cellsWf s.mem.data = true) :
    OutWf (execGranaryScrubRow stripe errs s) := by simp [execGranaryScrubRow, wf]

theorem copyPage_eq (s : State) (errs : List LineCheck) (d : CtxDef) (page : Nat) :
    copyPage s errs d page = storeRows errs 64 (linesRead s errs (d.slotBase (verRec s d).newest + 4096 * page) 2 64).1
      (d.slotBase (verRec s d).build + 4096 * page)
      (linesRead s errs (d.slotBase (verRec s d).newest + 4096 * page) 2 64).2 := by
  unfold copyPage
  extract_lets r
  change _ = storeRows errs 64 (linesRead s errs (d.slotBase r.newest + 4096 * page) 2 64).1
      (d.slotBase r.build + 4096 * page) (linesRead s errs (d.slotBase r.newest + 4096 * page) 2 64).2
  cases linesRead s errs (d.slotBase r.newest + 4096 * page) 2 64
  rfl

@[simp] theorem copyPage_wf (errs : List LineCheck) (d : CtxDef) (page : Nat) {s : State} (wf : cellsWf s.mem.data = true) :
    cellsWf (copyPage s errs d page).mem.data = true := by
  rw [copyPage_eq]
  exact storeRows_wf _ _ _ _ (linesRead_wf _ _ _ _ wf)

theorem execPageCopyComplete_wf (c page : Nat) (errs : List LineCheck) {s : State} (wf : cellsWf s.mem.data = true) :
    OutWf (execPageCopyComplete c page errs s) := by
  unfold execPageCopyComplete
  split <;> simp [wf]

/-! ### Vector.lean -/

theorem valu_wf (h : Hdr) (vd va vb : BitVec 5) (k : VKind) (f : BitVec 32 → BitVec 32 → BitVec 32 → LaneRes) {s : State}
    (wf : cellsWf s.mem.data = true) : OutWf (valu h vd va vb k f s) :=
  issue_wf _ _ _ (fun t => withCtx_wf _ (fun c x => by
    dsimp only
    split
    next held => exact portsBlock_wf held
    next => split <;> simp [wf]) wf) wf

theorem execVmov_wf (h : Hdr) (vd va vb : BitVec 5) {s : State} (wf : cellsWf s.mem.data = true) :
    OutWf (execVmov h vd va vb s) :=
  issue_wf _ _ _ (fun t => withCtx_wf _ (fun c x => by
    split
    next held => exact portsBlock_wf held
    next => simp [wf]) wf) wf

theorem execVsel_wf (h : Hdr) (vd va vb : BitVec 5) {s : State} (wf : cellsWf s.mem.data = true) :
    OutWf (execVsel h vd va vb s) :=
  issue_wf _ _ _ (fun t => withCtx_wf _ (fun c x => by
    split
    next held => exact portsBlock_wf held
    next => simp [wf]) wf) wf

theorem vsfu_wf (h : Hdr) (vd va : BitVec 5) (invalid : Bool) (f : Nat → Ctx → Core → VecData → VecData × BitVec 5)
    (after : Nat → Ctx → Core → VecData → State → State) (kept : ∀ c x k a s, (after c x k a s).mem = s.mem) {s : State}
    (wf : cellsWf s.mem.data = true) : OutWf (vsfu h vd va invalid f after s) :=
  issue_wf _ _ _ (fun t => withCtx_wf _ (fun c x => by
    split
    next held => exact portsBlock_wf held
    next => simp [kept, wf]) wf) wf

theorem sfu_wf (h : Hdr) (vd va : BitVec 5) (dfmt sfmt : BitVec 4) (f : VecData → VecData × BitVec 5) {s : State}
    (wf : cellsWf s.mem.data = true) : OutWf (sfu h vd va dfmt sfmt f s) :=
  vsfu_wf _ _ _ _ _ _ (fun _ _ _ _ _ => rfl) wf

theorem vconv_wf (sr : Bool) (h : Hdr) (vd va : BitVec 5) (dfmt sfmt : BitVec 4) {s : State}
    (wf : cellsWf s.mem.data = true) : OutWf (vconv sr h vd va dfmt sfmt s) := by
  unfold vconv
  split
  · exact issue_wf _ _ _ (fun _ => wf) wf
  · exact vsfu_wf _ _ _ _ _ _ (fun _ _ _ _ s => by dsimp only; split <;> simp) wf

/-! ### Matrix.lean -/

theorem matIssue_wf (h : Hdr) (invalid : Bool) (check : Tile → Option Act) (op : Tile → MOp)
    (kept : ∀ t a, check t = some a → ActWf a) {s : State} (wf : cellsWf s.mem.data = true) :
    OutWf (matIssue h invalid check op s) :=
  issue_wf _ _ _ (fun t => by
    split
    next refused => exact kept t _ refused
    next =>
      dsimp only
      split
      · trivial
      · split
        · trivial
        · simpa using wf) wf

theorem moveCheck_wf {t : Tile} {a n : Nat} {q : Option Nat} {out : Bool} {f : Act} (e : moveCheck t a n q out = some f) :
    ActWf f := by
  revert e
  fun_cases moveCheck t a n q out <;> rintro ⟨⟩ <;> trivial

theorem mcfg_wf (h : Hdr) (rs : BitVec 5) (sel : BitVec 2) (ok : Nat → Bool) {s : State} (wf : cellsWf s.mem.data = true) :
    OutWf (mcfg h rs sel ok s) :=
  matIssue_wf _ _ _ _ (fun t a e => by split at e <;> cases e; trivial) wf

theorem execMld_wf (h : Hdr) (rs : BitVec 5) (q : Bool) (port : BitVec 4) {s : State} (wf : cellsWf s.mem.data = true) :
    OutWf (execMld h rs q port s) :=
  matIssue_wf _ _ _ _ (fun t a e => by
    dsimp only at e
    split at e
    · cases e; trivial
    · exact moveCheck_wf e) wf

theorem execMswap_wf (h : Hdr) {s : State} (wf : cellsWf s.mem.data = true) : OutWf (execMswap h s) :=
  matIssue_wf _ _ _ _ (fun _ _ e => by cases e) wf

theorem execMmul_wf (h : Hdr) (rs rt : BitVec 5) (tr z q : Bool) (port : BitVec 4) {s : State}
    (wf : cellsWf s.mem.data = true) : OutWf (execMmul h rs rt tr z q port s) :=
  matIssue_wf _ _ _ _ (fun t a e => by
    dsimp only at e
    split at e
    · cases e; trivial
    · exact moveCheck_wf e) wf

theorem execMdrain_wf (h : Hdr) (rs rt : BitVec 5) (tr clr q : Bool) (port : BitVec 4) {s : State}
    (wf : cellsWf s.mem.data = true) : OutWf (execMdrain h rs rt tr clr q port s) :=
  matIssue_wf _ _ _ _ (fun t a e => by
    dsimp only at e
    split at e
    · cases e; trivial
    · exact moveCheck_wf e) wf

theorem execMsync_wf (h : Hdr) {s : State} (wf : cellsWf s.mem.data = true) : OutWf (execMsync h s) :=
  issue_wf _ _ _ (fun t => by split; exacts [wf, trivial]) wf

theorem execMramp_wf (h : Hdr) (level : BitVec 5) {s : State} (wf : cellsWf s.mem.data = true) :
    OutWf (execMramp h level s) :=
  matIssue_wf _ _ _ _ (fun _ _ e => by cases e) wf

theorem execMatrixDispatch_wf (t : Coord) {s : State} (wf : cellsWf s.mem.data = true) :
    OutWf (execMatrixDispatch t s) := by
  fun_cases execMatrixDispatch <;> simp [wf]

theorem execMldComplete_wf (t : Coord) {s : State} (wf : cellsWf s.mem.data = true) : OutWf (execMldComplete t s) := by
  fun_cases execMldComplete <;> simp +zetaDelta [wf]

theorem execMmulRowEnter_wf (t : Coord) {s : State} (wf : cellsWf s.mem.data = true) : OutWf (execMmulRowEnter t s) := by
  unfold execMmulRowEnter
  split
  · simp [wf]
  next c x _ =>
    dsimp only
    split
    · simp [wf]
    · split
      · simp [wf]
      next e rest _ =>
        have read := readRow_mem s c x.cdef t e (rowBytes e.cfg.toNat)
        split
        · simp [wf]
        · split
          · simp [wf]
          · split <;> simp_all

theorem execWitnessVerdict_wf (t : Coord) (upset : Int) (mismatch : Bool) {s : State} (wf : cellsWf s.mem.data = true) :
    OutWf (execWitnessVerdict t upset mismatch s) := by fun_cases execWitnessVerdict <;> simp +zetaDelta [wf]
theorem execAccumulatorUpdate_wf (t : Coord) {s : State} (wf : cellsWf s.mem.data = true) :
    OutWf (execAccumulatorUpdate t s) := by fun_cases execAccumulatorUpdate <;> simp [wf]

theorem execMdrainRowRead_wf (t : Coord) {s : State} (wf : cellsWf s.mem.data = true) : OutWf (execMdrainRowRead t s) := by
  unfold execMdrainRowRead
  split
  · simp [wf]
  · dsimp only
    split
    · simp [wf]
    · split
      next q _ =>
        cases q <;> dsimp only <;> split
        · simp [wf]
        · split <;> simp [wf]
        · simp [wf]
        · split <;> simp [wf]
      next => simp [wf]

theorem execArrayLevelStep_wf (t : Coord) {s : State} (wf : cellsWf s.mem.data = true) :
    OutWf (execArrayLevelStep t s) := by
  simp [execArrayLevelStep, wf]

theorem execDummyPass_wf (t : Coord) (upset : Int) {s : State} (wf : cellsWf s.mem.data = true) :
    OutWf (execDummyPass t upset s) := by simp [execDummyPass, wf]

/-! ### System.lean -/

theorem execNop_wf (h : Hdr) {s : State} (wf : cellsWf s.mem.data = true) : OutWf (execNop h s) :=
  issue_wf _ _ _ (fun t => by simp [wf]) wf

theorem execCsrr_wf (h : Hdr) (r : BitVec 5) (csr : BitVec 12) {s : State} (wf : cellsWf s.mem.data = true) :
    OutWf (execCsrr h r csr s) :=
  issue_wf _ _ _ (fun _ => withCtx_wf _ (fun c x => by split <;> simp [wf]) wf) wf

theorem execCsrw_wf (h : Hdr) (r : BitVec 5) (csr : BitVec 12) {s : State} (wf : cellsWf s.mem.data = true) :
    OutWf (execCsrw h r csr s) :=
  issue_wf _ _ _ (fun t => by dsimp only; split <;> simp [wf]) wf

theorem execFallow_wf (h : Hdr) {s : State} (wf : cellsWf s.mem.data = true) : OutWf (execFallow h s) :=
  issue_wf _ _ _ (fun _ => withCtx_wf _ (fun c x => by simp [wf]) wf) wf

theorem execStepend_wf (h : Hdr) {s : State} (wf : cellsWf s.mem.data = true) : OutWf (execStepend h s) := by
  unfold execStepend
  split
  · simp [wf]
  · exact issue_wf _ _ _ (fun _ => by simp [wf]) wf

theorem execSecend_wf (h : Hdr) {s : State} (wf : cellsWf s.mem.data = true) : OutWf (execSecend h s) :=
  issue_wf _ _ _ (fun t => by simp [wf]) wf

/-! ### Dataflow.lean -/

theorem execChannelItemArrive_wf (f : Nat) {s : State} (wf : cellsWf s.mem.data = true) :
    OutWf (execChannelItemArrive f s) := by fun_cases execChannelItemArrive <;> simp [wf]
theorem execChannelCreditArrive_wf (f : Nat) {s : State} (wf : cellsWf s.mem.data = true) :
    OutWf (execChannelCreditArrive f s) := by fun_cases execChannelCreditArrive <;> simp +zetaDelta [wf]

theorem takeToken_wf (t : Coord) (u : BitVec 2) (op : Nat) {s : State} (wf : cellsWf s.mem.data = true) :
    OutWf (takeToken t u op s) := by
  unfold takeToken
  split <;> simp [wf]

theorem execSteerItemMove_wf (t : Coord) (u : BitVec 2) {s : State} (wf : cellsWf s.mem.data = true) :
    OutWf (execSteerItemMove t u s) := by fun_cases execSteerItemMove <;> simp [wf]

theorem execBlockedReport_wf (t : Coord) {s : State} (wf : cellsWf s.mem.data = true) : OutWf (execBlockedReport t s) := by
  unfold execBlockedReport
  split <;> simp -implicitDefEqProofs [wf]

theorem execWaitGraphReport_wf (t : Coord) {s : State} (wf : cellsWf s.mem.data = true) :
    OutWf (execWaitGraphReport t s) := by
  fun_cases execWaitGraphReport <;> simp +zetaDelta [watchCycles_mem, wf]

theorem execSpillOrder_wf (c : Nat) {s : State} (wf : cellsWf s.mem.data = true) : OutWf (execSpillOrder c s) := by
  unfold execSpillOrder
  split <;> simp -implicitDefEqProofs [wf]

theorem execSpillEnter_wf (t : Coord) (ch : BitVec 5) {s : State} (wf : cellsWf s.mem.data = true) :
    OutWf (execSpillEnter t ch s) := by
  unfold execSpillEnter
  split <;> simp [wf]

theorem execSpillTransferComplete_wf (t : Coord) (ch : BitVec 5) {s : State} (wf : cellsWf s.mem.data = true) :
    OutWf (execSpillTransferComplete t ch s) := by fun_cases execSpillTransferComplete <;> simp +zetaDelta [wf]

theorem execContextPauseReached_wf (c : Nat) {s : State} (wf : cellsWf s.mem.data = true) :
    OutWf (execContextPauseReached c s) := by
  unfold execContextPauseReached
  split <;> simp [wf]

theorem execPauseDeadlineExpiry_wf (c : Nat) {s : State} (wf : cellsWf s.mem.data = true) :
    OutWf (execPauseDeadlineExpiry c s) := by
  unfold execPauseDeadlineExpiry
  split <;> simp [wf]

theorem execFallowGapLate_wf (t : Coord) {s : State} (wf : cellsWf s.mem.data = true) : OutWf (execFallowGapLate t s) := by
  unfold execFallowGapLate
  split <;> simp [wf]

/-! ### Mesh.lean -/

theorem execFlitForward_wf (f : Nat) {s : State} (wf : cellsWf s.mem.data = true) : OutWf (execFlitForward f s) := by
  fun_cases execFlitForward <;> simp [wf]
theorem execFlitHopNak_wf (f : Nat) (err : BitVec 1152) {s : State} (wf : cellsWf s.mem.data = true) :
    OutWf (execFlitHopNak f err s) := by fun_cases execFlitHopNak <;> simp +zetaDelta [wf]
theorem execEscapeTablesLoaded_wf {s : State} (wf : cellsWf s.mem.data = true) : OutWf (execEscapeTablesLoaded s) := by
  simp [execEscapeTablesLoaded, wf]

theorem execFlitAgeTick_wf (f : Nat) {s : State} (wf : cellsWf s.mem.data = true) : OutWf (execFlitAgeTick f s) := by
  unfold execFlitAgeTick
  split <;> simp [wf]

theorem execEscapeEntry_wf (f : Nat) {s : State} (wf : cellsWf s.mem.data = true) : OutWf (execEscapeEntry f s) := by
  fun_cases execEscapeEntry <;> simp +zetaDelta [wf]
theorem execInjectionThrottleOnset_wf (t : Coord) (cls : MClass) {s : State} (wf : cellsWf s.mem.data = true) :
    OutWf (execInjectionThrottleOnset t cls s) := by simp [execInjectionThrottleOnset, wf]
theorem execInjectionThrottleLift_wf (t : Coord) (cls : MClass) {s : State} (wf : cellsWf s.mem.data = true) :
    OutWf (execInjectionThrottleLift t cls s) := by simp [execInjectionThrottleLift, wf]

theorem execManagementPacketAccept_wf (f : Nat) {s : State} (wf : cellsWf s.mem.data = true) :
    OutWf (execManagementPacketAccept f s) := by
  fun_cases execManagementPacketAccept <;> simp +zetaDelta -implicitDefEqProofs [wf]

theorem execBarrierArrive_wf (t : Coord) {s : State} (wf : cellsWf s.mem.data = true) : OutWf (execBarrierArrive t s) := by
  fun_cases execBarrierArrive <;> simp +zetaDelta -implicitDefEqProofs [wf]

theorem execBarrierRelease_wf (c : Nat) {s : State} (wf : cellsWf s.mem.data = true) : OutWf (execBarrierRelease c s) := by
  unfold execBarrierRelease
  split <;> simp [wf]

theorem execCircuitEnable_wf (n : BitVec 3) (path : List CircuitHop) {s : State} (wf : cellsWf s.mem.data = true) :
    OutWf (execCircuitEnable n path s) := by simp [execCircuitEnable, wf]

theorem execCircuitFlitCopy_wf (f : Nat) {s : State} (wf : cellsWf s.mem.data = true) :
    OutWf (execCircuitFlitCopy f s) := by
  fun_cases execCircuitFlitCopy <;> simp +zetaDelta -implicitDefEqProofs [wf]

theorem execReduceCombine_wf (t : Coord) (e : BitVec 5) {s : State} (wf : cellsWf s.mem.data = true) :
    OutWf (execReduceCombine t e s) := by fun_cases execReduceCombine <;> simp [wf]
theorem execBcastCopy_wf (t : Coord) (e : BitVec 5) {s : State} (wf : cellsWf s.mem.data = true) :
    OutWf (execBcastCopy t e s) := by fun_cases execBcastCopy <;> simp [wf]
theorem execBcastCredit_wf (t : Coord) (e : BitVec 5) {s : State} (wf : cellsWf s.mem.data = true) :
    OutWf (execBcastCredit t e s) := by fun_cases execBcastCredit <;> simp +zetaDelta [wf]

/-! ### CollOps.lean -/

@[simp] theorem srcPiece_wf (errs : List LineCheck) (d : CtxDef) (e : CollEnt) (q : Nat) {s : State}
    (wf : cellsWf s.mem.data = true) : cellsWf (srcPiece s errs d e q).1.mem.data = true := by
  have read := linesRead_wf errs (d.range0 + e.src + 1024 * q) 0 16 wf
  unfold srcPiece
  split
  next lines => simpa [lines] using read

@[simp] theorem writeDst_wf (errs : List LineCheck) (c n a : Nat) (ls : List Line)
    {s : State} (wf : cellsWf s.mem.data = true) :
    cellsWf (writeDst s errs c n a ls).mem.data = true := by
  simp [writeDst, wf]

@[simp] theorem storePiece_wf (errs : List LineCheck) (c : Nat) (d : CtxDef) (n : Nat) (e : CollEnt) (q : Nat) (v : Piece)
    (p : Bool) {s : State} (wf : cellsWf s.mem.data = true) :
    cellsWf (storePiece s errs c d n e q v p).mem.data = true := by simp [storePiece, wf]

@[simp] theorem stageResult_wf (errs : List LineCheck) (c : Nat) (d : CtxDef) (n : Nat) (e : CollEnt) (t q : Nat)
    (v : Piece) {s : State} (wf : cellsWf s.mem.data = true) :
    cellsWf (stageResult s errs c d n e t q v).mem.data = true := by simp [stageResult, wf]

@[simp] theorem treeResult_wf (errs : List LineCheck) (c : Nat) (d : CtxDef) (n : Nat) (e : CollEnt) (q : Nat) (v : Piece)
    (p : Bool) {s : State} (wf : cellsWf s.mem.data = true) :
    cellsWf (treeResult s errs c d n e q v p).mem.data = true := by simp [treeResult, wf]

@[simp] theorem treeUp_wf (errs : List LineCheck) (c : Nat) (d : CtxDef) (n : Nat) (e : CollEnt) (q : Nat) (v : Piece)
    (p : Bool) {s : State} (wf : cellsWf s.mem.data = true) :
    cellsWf (treeUp s errs c d n e q v p).mem.data = true := by simp [treeUp, wf]

@[simp] theorem startPiece_wf (errs : List LineCheck) (c : Nat) (d : CtxDef) (n : Nat) (e : CollEnt) (q : Nat) {s : State}
    (wf : cellsWf s.mem.data = true) : cellsWf (startPiece s errs c d n e q).mem.data = true := by
  have read (q : Nat) := srcPiece_wf errs d e q wf
  unfold startPiece
  dsimp only
  split
  · split
    · simp [read]
    · split
      · split <;> simp [read]
      · split <;> simp [read]
  · split
    · split <;> simp [read]
    · exact wf

@[simp] theorem startColl_wf (errs : List LineCheck) (c n : Nat) {s : State} (wf : cellsWf s.mem.data = true) :
    cellsWf (startColl s errs c n).mem.data = true := by
  fun_cases startColl
  · exact wf
  · exact wf
  · simp only [pumpCopies_data]
    split
    · exact wf
    · exact foldl_wf (fun _ q wf => startPiece_wf (q := q) (wf := wf) ..) _ wf

/-! ### Boundary.lean -/

theorem execStepBoundaryBegin_wf (c : Nat) {s : State} (wf : cellsWf s.mem.data = true) :
    OutWf (execStepBoundaryBegin c s) := by
  unfold execStepBoundaryBegin
  split <;> simp -implicitDefEqProofs [wf]

@[simp] theorem writeScales_wf (x : Ctx) {s : State} (wf : cellsWf s.mem.data = true) :
    cellsWf (writeScales s x).mem.data = true := by
  unfold writeScales
  split
  · exact foldl_wf (fun _ _ wf => putBytes_wf _ _ wf) _ wf
  · exact wf

@[simp] theorem commitVersion_wf (c : Nat) (x : Ctx) {s : State} (wf : cellsWf s.mem.data = true) :
    cellsWf (commitVersion s c x).mem.data = true := by simp [commitVersion, wf]

theorem commitStop_mem {s t : State} {c : Nat} {x : Ctx} (e : commitStop s c x = some t) : t.mem = s.mem := by
  unfold commitStop at e
  split at e
  · cases e; simp
  · split at e <;> cases e
    simp

@[simp] theorem commitStop_getD_wf (s t : State) (c : Nat) (x : Ctx) (wf : cellsWf s.mem.data = true)
    (wft : cellsWf t.mem.data = true) : cellsWf ((commitStop s c x).getD t).mem.data = true := by
  cases e : commitStop s c x with
  | none => exact wft
  | some u => simpa [commitStop_mem e] using wf

theorem execVersionCommit_wf (c : Nat) {s : State} (wf : cellsWf s.mem.data = true) : OutWf (execVersionCommit c s) := by
  unfold execVersionCommit
  split <;> simp [wf]

@[simp] theorem sealRecord_wf (c : Nat) (x : Ctx) (trip : Bool) {s : State} (wf : cellsWf s.mem.data = true) :
    cellsWf (sealRecord s c x trip).mem.data = true := by
  simp only [sealRecord, State.modRun_mem, State.modTally_mem]
  exact putBytes_wf _ _ (by simp [wf])

theorem execTallySeal_wf (c : Nat) (damaged : Option Nat) {s : State} (wf : cellsWf s.mem.data = true) :
    OutWf (execTallySeal c damaged s) := by
  unfold execTallySeal
  split <;> simp [wf]

theorem execStepStart_wf (c : Nat) {s : State} (wf : cellsWf s.mem.data = true) : OutWf (execStepStart c s) := by
  fun_cases execStepStart <;> simp +zetaDelta [wf]

theorem execCaptureLineDigest_wf (t : Coord) {s : State} (wf : cellsWf s.mem.data = true) :
    OutWf (execCaptureLineDigest t s) := by
  unfold execCaptureLineDigest
  split <;> simp [wf]

theorem execTallyEntryEvict_wf (t : Coord) {s : State} (wf : cellsWf s.mem.data = true) :
    OutWf (execTallyEntryEvict t s) := by
  unfold execTallyEntryEvict
  split <;> simp [wf]

/-! ### Branch.lean -/

@[simp] theorem jump_wf (p : Coord) (t : Tile) (target : Int) (link : Bool) {s : State} (wf : cellsWf s.mem.data = true) :
    ActWf (jump s p t target link) := by
  unfold jump
  split
  · trivial
  · simpa using wf

theorem execBr_wf (h : Hdr) (off : BitVec 22) {s : State} (wf : cellsWf s.mem.data = true) : OutWf (execBr h off s) :=
  issue_wf _ _ _ (fun _ => by simp [wf]) wf
theorem execCall_wf (h : Hdr) (off : BitVec 22) {s : State} (wf : cellsWf s.mem.data = true) : OutWf (execCall h off s) :=
  issue_wf _ _ _ (fun _ => by simp [wf]) wf
theorem execJr_wf (h : Hdr) (rs : BitVec 5) {s : State} (wf : cellsWf s.mem.data = true) : OutWf (execJr h rs s) :=
  issue_wf _ _ _ (fun _ => by simp [wf]) wf
theorem execRet_wf (h : Hdr) {s : State} (wf : cellsWf s.mem.data = true) : OutWf (execRet h s) :=
  issue_wf _ _ _ (fun _ => by simp [wf]) wf

theorem execLoop_wf (h : Hdr) (ck : BitVec 2) (immCount : Bool) (body : BitVec 10) (count : BitVec 11) {s : State}
    (wf : cellsWf s.mem.data = true) : OutWf (execLoop h ck immCount body count s) :=
  issue_wf _ _ _ (fun t => by simp [wf]) wf

/-! ### Links.lean -/

theorem sendFrame_mem {s t : State} {l cls : Nat} (e : sendFrame s l cls = some t) : t.mem = s.mem := by
  unfold sendFrame at e
  dsimp only at e
  split at e <;> cases e
  simp

theorem execLinkFrameSlot_wf (l : Nat) {s : State} (wf : cellsWf s.mem.data = true) : OutWf (execLinkFrameSlot l s) := by
  unfold execLinkFrameSlot
  dsimp only
  split
  · simp [wf]
  · split
    · simp [wf]
    · split
      · simp [wf]
      · split
        next sent =>
          split at sent
          · cases sent
          · obtain ⟨cls, -, framed⟩ := List.exists_of_findSome?_eq_some sent
            simp [sendFrame_mem framed, wf]
        next => simp [wf]

theorem execLinkFrameReceive_wf (l : Nat) (fr : LinkFrame) {s : State} (wf : cellsWf s.mem.data = true) :
    OutWf (execLinkFrameReceive l fr s) := by simp [execLinkFrameReceive, wf]

theorem execLinkNakResend_wf (l : Nat) (down : Option (BitVec 3)) {s : State} (wf : cellsWf s.mem.data = true) :
    OutWf (execLinkNakResend l down s) := by
  unfold execLinkNakResend
  split
  · simp [wf]
  · split
    · simp [wf]
    · cases down <;> simp [wf]

theorem execLinkAckTimer_wf (l : Nat) {s : State} (wf : cellsWf s.mem.data = true) : OutWf (execLinkAckTimer l s) := by
  simp [execLinkAckTimer, wf]
theorem execLinkLaneFailed_wf (l : Nat) (tx : Bool) (lane : BitVec 3) {s : State} (wf : cellsWf s.mem.data = true) :
    OutWf (execLinkLaneFailed l tx lane s) := by simp [execLinkLaneFailed, wf]

theorem execWavelengthFail_wf (l : Nat) (tx : Bool) (cause : WaveFail) (w : BitVec 3)
    {s : State} (wf : cellsWf s.mem.data = true) :
    OutWf (execWavelengthFail l tx cause w s) := by fun_cases execWavelengthFail <;> simp +zetaDelta [wf]

theorem execLaneMapReceive_wf (l : Nat) (m : LaneMap) {s : State} (wf : cellsWf s.mem.data = true) :
    OutWf (execLaneMapReceive l m s) := by simp [execLaneMapReceive, wf]
theorem execLaneMapSwitch_wf (l : Nat) (tx : Bool) {s : State} (wf : cellsWf s.mem.data = true) :
    OutWf (execLaneMapSwitch l tx s) := by simp [execLaneMapSwitch, wf]
theorem execLinkDeliveredSeqReport_wf (l : Nat) (seq : BitVec 12) {s : State} (wf : cellsWf s.mem.data = true) :
    OutWf (execLinkDeliveredSeqReport l seq s) := by simp [execLinkDeliveredSeqReport, wf]
theorem execLinkFallbackAgeTick_wf (k : Nat) {s : State} (wf : cellsWf s.mem.data = true) :
    OutWf (execLinkFallbackAgeTick k s) := by simp [execLinkFallbackAgeTick, wf]

theorem execLinkTrainComplete_wf (l : Nat) (latency : BitVec 14) (far : BitVec 20)
    {s : State} (wf : cellsWf s.mem.data = true) :
    OutWf (execLinkTrainComplete l latency far s) := by simp [execLinkTrainComplete, wf]

/-! ### Hall.lean -/

theorem execRemoteRequestArrive_wf (l : Nat) (pk : Packet) {s : State} (wf : cellsWf s.mem.data = true) :
    OutWf (execRemoteRequestArrive l pk s) := by fun_cases execRemoteRequestArrive <;> simp +zetaDelta [wf]

@[simp] theorem takeReply_wf (errs : List LineCheck) (x : Nat) (t : Txn) (pk : Packet) {s : State}
    (wf : cellsWf s.mem.data = true) : cellsWf (takeReply s errs x t pk).mem.data = true := by
  unfold takeReply
  rw [pumpCopies_data]
  split <;> simp [wf]

theorem execRemoteReplyArrive_wf (l : Nat) (pk : Packet) (errs : List LineCheck)
    {s : State} (wf : cellsWf s.mem.data = true) :
    OutWf (execRemoteReplyArrive l pk errs s) := by fun_cases execRemoteReplyArrive <;> simp +zetaDelta [wf]

theorem execHallBarrierArrive_wf (c child : Nat) {s : State} (wf : cellsWf s.mem.data = true) :
    OutWf (execHallBarrierArrive c child s) := by fun_cases execHallBarrierArrive <;> simp +zetaDelta [wf]

theorem takeRelease_mem {s t : State} {c : Nat} {x : Ctx} (e : takeRelease s c x = some t) : t.mem = s.mem := by
  unfold takeRelease at e
  split at e
  · split at e <;> cases e
    rfl
  · obtain ⟨f, -, rfl⟩ := Option.map_eq_some_iff.1 e
    simp

theorem execHallBarrierRelease_wf (c : Nat) {s : State} (wf : cellsWf s.mem.data = true) :
    OutWf (execHallBarrierRelease c s) := by
  unfold execHallBarrierRelease
  split
  · simp [wf]
  · split
    next => simp [wf]
    next released => simp [takeRelease_mem released, wf]

theorem execBarrierTimeoutExpiry_wf (c : Nat) {s : State} (wf : cellsWf s.mem.data = true) :
    OutWf (execBarrierTimeoutExpiry c s) := by
  unfold execBarrierTimeoutExpiry
  split
  · simp [wf]
  · split
    · simp [wf]
    · split
      next released => simp [takeRelease_mem released, wf]
      next => simp [wf]

theorem combineLine_wf {s t : State} {errs : List LineCheck} {c : Nat} {x : Ctx} {k : Coll} {n : Nat} {e : CollEnt}
    {i q : Nat}
    {v : Piece} {p : Bool} (wf : cellsWf s.mem.data = true) (done : combineLine s errs c x k n e i q v p = some t) :
    cellsWf t.mem.data = true := by
  simp only [combineLine, Option.map_eq_some_iff] at done
  obtain ⟨o, own, rfl⟩ := done
  have kept : cellsWf o.1.mem.data = true := by
    split at own
    · rw [← Option.some.inj own]
      exact srcPiece_wf errs x.cdef e q wf
    · obtain ⟨w, -, rfl⟩ := Option.map_eq_some_iff.1 own
      exact wf
  simp [kept]

@[simp] theorem combineTree_wf (errs : List LineCheck) (c : Nat) (x : Ctx) (k : Coll) (n : Nat) (e : CollEnt)
    (q child : Nat)
    (v : Piece) (p : Bool) {s : State} (wf : cellsWf s.mem.data = true) :
    cellsWf (combineTree s errs c x k n e q child v p).mem.data = true := by
  have read := srcPiece_wf errs x.cdef e q wf
  unfold combineTree
  split
  · simp [wf]
  · dsimp only
    split
    · split
      · simp [read]
      · exact treeUp_wf (wf := by simpa using read) ..
    · simp [wf]

@[simp] theorem takeResult_wf (errs : List LineCheck) (c : Nat) (x : Ctx) (n : Nat) (e : CollEnt) (t q : Nat) (v : Piece)
    (p : Bool) {s : State} (wf : cellsWf s.mem.data = true) :
    cellsWf (takeResult s errs c x n e t q v p).mem.data = true := by simp [takeResult, wf]

@[simp] theorem takeGather_wf (errs : List LineCheck) (c : Nat) (x : Ctx) (n : Nat) (e : CollEnt) (src t q : Nat)
    (v : Piece) (p : Bool) {s : State} (wf : cellsWf s.mem.data = true) :
    cellsWf (takeGather s errs c x n e src t q v p).mem.data = true := by simp [takeGather, wf]

theorem takeChunk_wf {s t : State} {errs : List LineCheck} {c : Nat} {x : Ctx} {k : Coll} {e : CollEnt} {pk : Packet}
    (wf : cellsWf s.mem.data = true) (taken : takeChunk s errs c x k e pk = some t) : cellsWf t.mem.data = true := by
  unfold takeChunk at taken
  dsimp only at taken
  split at taken
  · split at taken
    · split at taken
      · cases taken; simp [wf]
      · exact combineLine_wf wf taken
    · cases taken; simp [wf]
  · cases taken; simp [wf]

theorem takeChunkIn_wf {s t : State} {errs : List LineCheck} {l : Nat} {pk : Packet} (wf : cellsWf s.mem.data = true)
    (taken : takeChunkIn s errs l pk = some t) : cellsWf t.mem.data = true := by
  unfold takeChunkIn at taken
  dsimp only at taken
  split at taken
  · cases taken; simp [wf]
  · split at taken
    · cases taken; simp [wf]
    · split at taken
      · split at taken
        · cases taken; simp [wf]
        · obtain ⟨u, chunk, rfl⟩ := Option.map_eq_some_iff.1 taken
          simpa using takeChunk_wf (by simpa using wf) chunk
      · cases taken

theorem execCollectiveChunkArrive_wf (pk : Packet) (errs : List LineCheck) {s : State} (wf : cellsWf s.mem.data = true) :
    OutWf (execCollectiveChunkArrive pk errs s) := by
  unfold execCollectiveChunkArrive
  split
  · simp [wf]
  · split
    · simp [wf]
    next l _ _ =>
      cases taken : takeChunkIn s errs l pk with
      | none => simp [wf]
      | some t => simpa using takeChunkIn_wf wf taken

theorem execCollectiveTimeoutExpiry_wf (c : Nat) (e : BitVec 6) (errs : List LineCheck) {s : State}
    (wf : cellsWf s.mem.data = true) : OutWf (execCollectiveTimeoutExpiry c e errs s) := by
  unfold execCollectiveTimeoutExpiry
  split
  · simp [wf]
  · split
    · split
      · simp [wf]
      · dsimp only
        split
        next late =>
          obtain ⟨f, -, taken⟩ := Option.bind_eq_some_iff.1 late
          simpa using takeChunkIn_wf wf taken
        next => simp [wf]
    · simp [wf]

theorem execAdmissionLoadDone_wf {s : State} (wf : cellsWf s.mem.data = true) : OutWf (execAdmissionLoadDone s) := by
  fun_cases execAdmissionLoadDone <;> simp [wf]
theorem execAdmissionReplayDone_wf (donor : DonorTally) {s : State} (wf : cellsWf s.mem.data = true) :
    OutWf (execAdmissionReplayDone donor s) := by fun_cases execAdmissionReplayDone <;> simp +zetaDelta [wf]
theorem execAdmitTimeoutExpiry_wf {s : State} (wf : cellsWf s.mem.data = true) : OutWf (execAdmitTimeoutExpiry s) := by
  simp [execAdmitTimeoutExpiry, wf]

theorem execAdmissionHandshake_wf (job : BitVec 16) (src : BitVec 20) (step : BitVec 64)
    {s : State} (wf : cellsWf s.mem.data = true) :
    OutWf (execAdmissionHandshake job src step s) := by fun_cases execAdmissionHandshake <;> simp [wf]

/-! ### Sections.lean -/

@[simp] theorem leaveSection_wf (errs : List LineCheck) (c : Nat) (x : Ctx) (reds : Reds) {s : State}
    (wf : cellsWf s.mem.data = true) : cellsWf (leaveSection s errs c x reds).mem.data = true :=
  foldl_wf (fun _ n wf => startColl_wf errs c n wf) _ (by simp -implicitDefEqProofs [wf])

theorem execSectionEnd_wf (c : Nat) (reds : List (Nat × List (BitVec 64))) (errs : List LineCheck)
    {s : State} (wf : cellsWf s.mem.data = true) :
    OutWf (execSectionEnd c reds errs s) := by fun_cases execSectionEnd <;> simp [wf]

theorem execSectionEntry_wf (t : Coord) {s : State} (wf : cellsWf s.mem.data = true) : OutWf (execSectionEntry t s) := by
  unfold execSectionEntry
  split <;> simp [wf]

/-! ### Recovery.lean -/

theorem execHangWindowExpiry_wf (c : Nat) {s : State} (wf : cellsWf s.mem.data = true) :
    OutWf (execHangWindowExpiry c s) := by fun_cases execHangWindowExpiry <;> simp +zetaDelta [wf]

theorem execStallWindowExpiry_wf (c : Nat) {s : State} (wf : cellsWf s.mem.data = true) :
    OutWf (execStallWindowExpiry c s) := by
  unfold execStallWindowExpiry
  split <;> simp [wf]

@[simp] theorem stopGranary_wf (errs : List LineCheck) (c : Nat) (x : Ctx) (north : Bool) {s : State}
    (wf : cellsWf s.mem.data = true) : cellsWf (stopGranary s errs c x north).mem.data = true := by
  simp only [stopGranary]
  refine foldl_wf ?_ _ (foldl_wf ?_ _ (by simpa using wf))
  · intro t e wf
    simp [wf]
  · intro t k wf
    exact copyPage_wf errs x.cdef k.page wf

theorem execContextStopOrder_wf (c : Nat) (e : StopEngine) (errs : List LineCheck)
    {s : State} (wf : cellsWf s.mem.data = true) :
    OutWf (execContextStopOrder c e errs s) := by fun_cases execContextStopOrder <;> simp +zetaDelta -implicitDefEqProofs [wf]

theorem rollBack_wf {s t : State} {c : Nat} {x : Ctx} {target : DWord} (wf : cellsWf s.mem.data = true)
    (rolled : rollBack s c x target = some t) : cellsWf t.mem.data = true := by
  obtain ⟨i, -, rfl⟩ := Option.map_eq_some_iff.1 rolled
  simp [putVerRec, wf]

@[simp] theorem recover_wf (c : Nat) (x : Ctx) (readable : Bool) {s : State} (wf : cellsWf s.mem.data = true) :
    cellsWf (recover s c x readable).mem.data = true := by
  unfold recover
  dsimp only
  split
  · simp [wf]
  · split
    next => simp [wf]
    next rolled => simp [rollBack_wf wf rolled]

@[simp] theorem resetOutcome_wf (c : Nat) (x : Ctx) (readable : Bool) {s : State} (wf : cellsWf s.mem.data = true) :
    cellsWf (resetOutcome s c x readable).mem.data = true := by simp [resetOutcome, wf]

theorem execContextResetComplete_wf (c : Nat) (recordReadable : Bool) {s : State} (wf : cellsWf s.mem.data = true) :
    OutWf (execContextResetComplete c recordReadable s) := by
  fun_cases execContextResetComplete <;> simp +zetaDelta -implicitDefEqProofs [wf]

theorem execContextRestartEntry_wf (c : Nat) (reds : List (Nat × List (BitVec 64)))
    {s : State} (wf : cellsWf s.mem.data = true) :
    OutWf (execContextRestartEntry c reds s) := by
  unfold execContextRestartEntry
  split <;> simp [wf]

theorem execTxnDeadlineExpiry_wf (x : Nat) (errs : List LineCheck) {s : State} (wf : cellsWf s.mem.data = true) :
    OutWf (execTxnDeadlineExpiry x errs s) := by fun_cases execTxnDeadlineExpiry <;> simp [wf]

theorem execRecoveryHoldSend_wf (c : Nat) {s : State} (wf : cellsWf s.mem.data = true) :
    OutWf (execRecoveryHoldSend c s) := by
  unfold execRecoveryHoldSend
  split <;> simp [wf]

theorem execRecoveryHoldReceive_wf (job : BitVec 16) {s : State} (wf : cellsWf s.mem.data = true) :
    OutWf (execRecoveryHoldReceive job s) := by
  unfold execRecoveryHoldReceive
  split <;> simp [wf]

theorem execRecoveryHoldLapse_wf (job : BitVec 16) {s : State} (wf : cellsWf s.mem.data = true) :
    OutWf (execRecoveryHoldLapse job s) := by simp [execRecoveryHoldLapse, wf]

/-! ### Create.lean -/

@[simp] theorem createCtx_wf (n : Nat) (d : CtxDef) {s : State} (wf : cellsWf s.mem.data = true) :
    cellsWf (createCtx s n d).mem.data = true := by simp -implicitDefEqProofs [createCtx, wf]
@[simp] theorem writeCreate_wf (n w : Nat) (reds : Reds) {s : State} (wf : cellsWf s.mem.data = true) :
    WroteWf (writeCreate s n w reds) := by fun_cases writeCreate <;> simp [wf]
@[simp] theorem writeEnd_wf (n : Nat) {s : State} (wf : cellsWf s.mem.data = true) : WroteWf (writeEnd s n) := by
  fun_cases writeEnd <;> simp +zetaDelta [wf]

@[simp] theorem writeRestart_wf (n : Nat) (x : Ctx) {s : State} (wf : cellsWf s.mem.data = true) :
    WroteWf (writeRestart s n x) := by
  unfold writeRestart
  dsimp only
  split
  · exact wf
  · split
    · trivial
    · split
      · simp [wf]
      · split
        next rolled => simp [rollBack_wf wf rolled]
        next => exact wf

@[simp] theorem writeRollback_wf (n : Nat) (x : Ctx) {s : State} (wf : cellsWf s.mem.data = true) :
    WroteWf (writeRollback s n x) := by
  unfold writeRollback
  dsimp only
  split
  · exact wf
  · split
    next => exact wf
    next rolled => simp [rollBack_wf wf rolled]

@[simp] theorem writeControl_wf (n cmd : Nat) {s : State} (wf : cellsWf s.mem.data = true) :
    WroteWf (writeControl s n cmd) := by
  fun_cases writeControl <;> simp [wf]

@[simp] theorem writePartition_wf (w : Nat) {s : State} (wf : cellsWf s.mem.data = true) :
    WroteWf (writePartition s w) := by
  unfold writePartition
  split <;> simp [wf]

@[simp] theorem writeTallyAck_wf (n slot : Nat) {s : State} (wf : cellsWf s.mem.data = true) :
    WroteWf (writeTallyAck s n slot) := by fun_cases writeTallyAck <;> simp [wf]
@[simp] theorem writeAdmission_wf (v : DWord) {s : State} (wf : cellsWf s.mem.data = true) :
    WroteWf (writeAdmission s v) := by fun_cases writeAdmission <;> simp +zetaDelta [wf]

/-! ### Moves.lean -/

theorem execGatherWritebackTimeout_wf (t : Coord) (line : Nat) {s : State} (wf : cellsWf s.mem.data = true) :
    OutWf (execGatherWritebackTimeout t line s) := by simp [execGatherWritebackTimeout, wf]
theorem execBinScrubRead_wf (t : Coord) {s : State} (wf : cellsWf s.mem.data = true) : OutWf (execBinScrubRead t s) := by
  simp [execBinScrubRead, wf]

theorem execMoveQuiesced_wf (t : Coord) {s : State} (wf : cellsWf s.mem.data = true) : OutWf (execMoveQuiesced t s) := by
  unfold execMoveQuiesced
  split <;> simp [wf]

theorem execBinCopyComplete_wf (t : Coord) {s : State} (wf : cellsWf s.mem.data = true) :
    OutWf (execBinCopyComplete t s) := by simp [execBinCopyComplete, wf]

theorem execMoveResume_wf (t : Coord) {s : State} (wf : cellsWf s.mem.data = true) : OutWf (execMoveResume t s) := by
  unfold execMoveResume
  dsimp only
  split
  · cases ctxAt _ t <;> simp [watchCycles_mem, wf]
  · simp [wf]

/-! ### Gleaner.lean -/

theorem execFallowSlot_wf {s : State} (wf : cellsWf s.mem.data = true) : OutWf (execFallowSlot s) := by
  simp [execFallowSlot, wf]
theorem execFallowTestComplete_wf (p : Nat) (r : TestResult) {s : State} (wf : cellsWf s.mem.data = true) :
    OutWf (execFallowTestComplete p r s) := by simp [execFallowTestComplete, wf]
theorem execBackgroundTestComplete_wf (p : Nat) (r : TestResult) {s : State} (wf : cellsWf s.mem.data = true) :
    OutWf (execBackgroundTestComplete p r s) := by simp [execBackgroundTestComplete, wf]

theorem execHealthInput_wf (p : Nat) (src : HealthSource) {s : State} (wf : cellsWf s.mem.data = true) :
    OutWf (execHealthInput p src s) := by
  unfold execHealthInput
  split
  · simp [wf]
  · split
    · simp [wf]
    · split <;> simp [wf]

theorem execHealthScoreHalving_wf (p : Nat) {s : State} (wf : cellsWf s.mem.data = true) :
    OutWf (execHealthScoreHalving p s) := by simp [execHealthScoreHalving, wf]
theorem execProbationDelayExpiry_wf (p : Nat) {s : State} (wf : cellsWf s.mem.data = true) :
    OutWf (execProbationDelayExpiry p s) := by simp [execProbationDelayExpiry, wf]
theorem execProbationRetestComplete_wf (p : Nat) (r : TestResult) {s : State} (wf : cellsWf s.mem.data = true) :
    OutWf (execProbationRetestComplete p r s) := by fun_cases execProbationRetestComplete <;> simp +zetaDelta [wf]

theorem execMarginCheckComplete_wf (die : Bool) (results : List (Nat × TestResult × TestResult)) {s : State}
    (wf : cellsWf s.mem.data = true) : OutWf (execMarginCheckComplete die results s) := by
  unfold execMarginCheckComplete
  dsimp only
  split
  · simp -implicitDefEqProofs only [outWf_next, startRetest_mem, gazDecided_mem, raise_mem, State.modDie_mem,
      addSignature_mem, foldl_mem, State.modPhys_mem, ite_mem, returnTile_mem, fenceTile_mem, implies_true, ite_self]
    rwa [foldl_mem fun s p => by split <;> simp]
  · simp [wf]

theorem execGazetteerWrite_wf {s : State} (wf : cellsWf s.mem.data = true) : OutWf (execGazetteerWrite s) := by
  unfold execGazetteerWrite
  split <;> simp [wf]

/-! ### FwOps.lean -/

@[simp] theorem writeProgram_wf (w : Nat) {s : State} (wf : cellsWf s.mem.data = true) : WroteWf (writeProgram s w) := by
  simp [writeProgram, wf]
theorem execFwProgramComplete_wf (readBack : Option Bool) {s : State} (wf : cellsWf s.mem.data = true) :
    OutWf (execFwProgramComplete readBack s) := by fun_cases execFwProgramComplete <;> simp +zetaDelta [wf]
@[simp] theorem writeConfirm_wf {s : State} (wf : cellsWf s.mem.data = true) : WroteWf (writeConfirm s) := by
  simp [writeConfirm, wf]
@[simp] theorem writePrefer_wf (region : Nat) {s : State} (wf : cellsWf s.mem.data = true) :
    WroteWf (writePrefer s region) := by simp [writePrefer, wf]

@[simp] theorem writeFwControl_wf (v : Nat) {s : State} (wf : cellsWf s.mem.data = true) :
    WroteWf (writeFwControl s v) := by
  unfold writeFwControl
  split <;> simp [wf]

@[simp] theorem writeSetControl_wf (hdr : MsgHdr) (cmd : Nat) {s : State} (wf : cellsWf s.mem.data = true) :
    WroteWf (writeSetControl s hdr cmd) := by fun_cases writeSetControl <;> simp [wf]
theorem execSwapEraseComplete_wf {s : State} (wf : cellsWf s.mem.data = true) : OutWf (execSwapEraseComplete s) := by
  simp [execSwapEraseComplete, wf]

/-! ### Reset.lean -/

@[simp] theorem powerLost_mem (s : State) : (powerLost s).mem = {} := rfl
@[simp] theorem cellsWf_nil : cellsWf [] = true := rfl
@[simp] theorem moduleReset_mem (s : State) (kind : Nat) (clear : Bool) : (moduleReset s kind clear).mem = {} := by
  simp [moduleReset, State.reset]
@[simp] theorem slotFallback_wf (s : State) : cellsWf (slotFallback s).mem.data = true := by simp [slotFallback]

theorem loadFirmware_mem {s t : State} {place reg : Nat} {ok : Bool} (e : loadFirmware s place reg ok = some t) :
    t.mem = s.mem := by
  unfold loadFirmware at e
  split at e <;> cases e
  simp

theorem loadContent_mem {s t : State} {region reg : Nat} {ok : Bool} (e : loadContent s region reg ok = some t) :
    t.mem = s.mem := by
  unfold loadContent at e
  dsimp only at e
  split at e <;> cases e
  simp

/-! ### Bringup.lean -/

theorem execStageS0_wf (railsGood : Bool) {s : State} (wf : cellsWf s.mem.data = true) :
    OutWf (execStageS0 railsGood s) := by simp [execStageS0, wf]

@[simp] theorem loadGaz_wf {s : State} (wf : cellsWf s.mem.data = true) : cellsWf (loadGaz s).mem.data = true := by
  unfold loadGaz
  split <;> simp [wf]

@[simp] theorem finishS1_wf (seedOk : Bool) {s : State} (wf : cellsWf s.mem.data = true) :
    cellsWf (finishS1 s seedOk).mem.data = true := by simp [finishS1, wf]

theorem execStageS1_wf (imageOk seedOk : Bool) {s : State} (wf : cellsWf s.mem.data = true) :
    OutWf (execStageS1 imageOk seedOk s) := by
  unfold execStageS1
  have chosen := chooseBoot_mem s
  split
  · simp [wf]
  · split
    · simp [wf]
    · split <;> rename_i e <;> rw [e] at chosen <;> dsimp only at chosen
      · simp [chosen, wf]
      · dsimp only
        split
        next => simp
        next loaded => simp [loadFirmware_mem loaded, chosen, wf]

theorem execStageS2_wf {s : State} (wf : cellsWf s.mem.data = true) : OutWf (execStageS2 s) := by simp [execStageS2, wf]

theorem ite_loadFirmware_mem {s t : State} {place reg : Nat} {warm ok : Bool}
    (e : (if warm = true then some s else loadFirmware s place reg ok) = some t) : t.mem = s.mem := by
  split at e
  · cases e; rfl
  · exact loadFirmware_mem e

theorem execStageS3_wf (imageOk selfTestOk : Bool) (untrained : List Nat) {s : State} (wf : cellsWf s.mem.data = true) :
    OutWf (execStageS3 imageOk selfTestOk untrained s) := by
  unfold execStageS3
  split
  · simp [wf]
  · split
    next => simp
    next loaded =>
      split
      · simp [ite_loadFirmware_mem loaded, wf]
      · dsimp only
        split <;> simp

theorem execStageS4_wf (contentOk : Bool) (results : List S4Result) (badLinks : List MeshLink) {s : State}
    (wf : cellsWf s.mem.data = true) : OutWf (execStageS4 contentOk results badLinks s) := by
  unfold execStageS4
  split
  · simp [wf]
  · split
    · simp [wf]
    · split
      next => simp [wf]
      next loaded => simp [loadContent_mem loaded, wf]

theorem execStageS5_wf (contentOk : Bool) {s : State} (wf : cellsWf s.mem.data = true) :
    OutWf (execStageS5 contentOk s) := by
  unfold execStageS5
  split
  · simp [wf]
  · split
    next => simp [wf]
    next t loaded =>
      have kept : t.mem = s.mem := by
        split at loaded
        · exact loadContent_mem loaded
        · cases loaded; rfl
      split <;> simp [kept, wf]

@[simp] theorem placeRegion_wf {s : State} (wf : cellsWf s.mem.data = true) : cellsWf (placeRegion s).mem.data = true := by
  simp [placeRegion, wf]

theorem execStageS6_wf (imageOk : Bool) {s : State} (wf : cellsWf s.mem.data = true) : OutWf (execStageS6 imageOk s) := by
  unfold execStageS6
  split
  · simp [wf]
  · split
    next => simp
    next loaded => simp [ite_loadFirmware_mem loaded, wf]

theorem execFwBroadcastRound_wf {s : State} (wf : cellsWf s.mem.data = true) : OutWf (execFwBroadcastRound s) := by
  unfold execFwBroadcastRound
  split <;> simp [wf]

theorem execTileFwReport_wf (p : Nat) (r : BitVec 18) {s : State} (wf : cellsWf s.mem.data = true) :
    OutWf (execTileFwReport p r s) := by
  unfold execTileFwReport
  split <;> simp [wf]

theorem execFwRoundTimeout_wf {s : State} (wf : cellsWf s.mem.data = true) : OutWf (execFwRoundTimeout s) := by
  unfold execFwRoundTimeout
  split <;> simp [wf]

theorem execStageS7_wf (imageOk kaOk granaryOk : Bool) (badTiles : List Nat) (badWl : List (Nat × BitVec 3)) {s : State}
    (wf : cellsWf s.mem.data = true) : OutWf (execStageS7 imageOk kaOk granaryOk badTiles badWl s) := by
  unfold execStageS7
  split
  · simp [wf]
  · split
    next => simp
    next loaded =>
      split
      next => simp [ite_loadFirmware_mem loaded, wf]
      next content => simp [loadContent_mem content, ite_loadFirmware_mem loaded, wf]

theorem execStageS8_wf {s : State} (wf : cellsWf s.mem.data = true) : OutWf (execStageS8 s) := by simp [execStageS8, wf]
theorem execStageS9_wf {s : State} (wf : cellsWf s.mem.data = true) : OutWf (execStageS9 s) := by simp [execStageS9, wf]

theorem execStageLimitExpiry_wf {s : State} (wf : cellsWf s.mem.data = true) : OutWf (execStageLimitExpiry s) := by
  unfold execStageLimitExpiry
  split <;> simp [wf]

@[simp] theorem advanceTo_wf (t : Nat) {s : State} (wf : cellsWf s.mem.data = true) : WroteWf (advanceTo s t) := by
  simp [advanceTo, wf]
@[simp] theorem retryStage_wf {s : State} (wf : cellsWf s.mem.data = true) : WroteWf (retryStage s) := by
  simp [retryStage, wf]
@[simp] theorem rebuildGaz_wf {s : State} (wf : cellsWf s.mem.data = true) : WroteWf (rebuildGaz s) := by
  simp [rebuildGaz, wf]

@[simp] theorem writeBringup_wf (v : Nat) {s : State} (wf : cellsWf s.mem.data = true) : WroteWf (writeBringup s v) := by
  unfold writeBringup
  split <;> simp [wf]

theorem execWatchdogSelfFeed_wf {s : State} (wf : cellsWf s.mem.data = true) : OutWf (execWatchdogSelfFeed s) := by
  simp [execWatchdogSelfFeed, wf]
theorem execWatchdogExpiry_wf {s : State} (wf : cellsWf s.mem.data = true) : OutWf (execWatchdogExpiry s) := by
  simp [execWatchdogExpiry, wf]
theorem execStewardMemoryError_wf (double : Bool) {s : State} (wf : cellsWf s.mem.data = true) :
    OutWf (execStewardMemoryError double s) := by simp [execStewardMemoryError, wf]
@[simp] theorem writeModuleReset_wf (w : Nat) {s : State} (wf : cellsWf s.mem.data = true) :
    WroteWf (writeModuleReset s w) := by fun_cases writeModuleReset <;> simp [wf]

/-! ### Secure.lean -/

@[simp] theorem writeKaMeasure_wf (v : Nat) {s : State} (wf : cellsWf s.mem.data = true) :
    WroteWf (writeKaMeasure s v) := by
  fun_cases writeKaMeasure <;> simp [wf]

theorem execKaWorkloadComplete_wf (value : BitVec 32) (invalid : BitVec 7) (measured : List Nat)
    {s : State} (wf : cellsWf s.mem.data = true) :
    OutWf (execKaWorkloadComplete value invalid measured s) := by fun_cases execKaWorkloadComplete <;> simp +zetaDelta [wf]

@[simp] theorem writeSecControl_wf (v : Nat) {s : State} (wf : cellsWf s.mem.data = true) :
    WroteWf (writeSecControl s v) := by simp [writeSecControl, wf]

theorem execRollbackCommitted_wf {s : State} (wf : cellsWf s.mem.data = true) : OutWf (execRollbackCommitted s) := by
  unfold execRollbackCommitted
  split <;> simp [wf]

@[simp] theorem writeToken_wf (b : List Byte) {s : State} (wf : cellsWf s.mem.data = true) : WroteWf (writeToken s b) := by
  simp [writeToken, wf]
theorem execSecNonceExpiry_wf {s : State} (wf : cellsWf s.mem.data = true) : OutWf (execSecNonceExpiry s) := by
  simp [execSecNonceExpiry, wf]

theorem execDebugTileAccess_wf (t : Coord) (halt : Bool) (wr : Option DebugWrite) {s : State}
    (wf : cellsWf s.mem.data = true) : OutWf (execDebugTileAccess t halt wr s) := by
  unfold execDebugTileAccess
  split
  · simp [wf]
  · dsimp only
    cases wr <;> dsimp only <;> split <;> simp -implicitDefEqProofs [wf]

@[simp] theorem writeAttest_wf (nonce : List Byte) {s : State} (wf : cellsWf s.mem.data = true) :
    WroteWf (writeAttest s nonce) := by simp [writeAttest, wf]

theorem execAttestSignComplete_wf {s : State} (wf : cellsWf s.mem.data = true) : OutWf (execAttestSignComplete s) := by
  unfold execAttestSignComplete
  split <;> simp [wf]

/-! ### Power.lean -/

theorem execInputPowerOn_wf (mv : Nat) {s : State} (wf : cellsWf s.mem.data = true) : OutWf (execInputPowerOn mv s) := by
  simp [execInputPowerOn, wf]
theorem execPowerSample_wf (mv watts : Nat) (warn : Bool) {s : State} (wf : cellsWf s.mem.data = true) :
    OutWf (execPowerSample mv watts warn s) := by simp [execPowerSample, wf]
theorem execPowerShed_wf (cause : ShedCause) {s : State} (wf : cellsWf s.mem.data = true) :
    OutWf (execPowerShed cause s) := by simp [execPowerShed, wf]
theorem execTallyTailWrite_wf {s : State} (wf : cellsWf s.mem.data = true) : OutWf (execTallyTailWrite s) := by
  simp [execTallyTailWrite, wf]
@[simp] theorem railsShed_wf (s : State) : cellsWf (railsShed s).mem.data = true := by simp [railsShed]
theorem execRailFault_wf (r : Rail) {s : State} (wf : cellsWf s.mem.data = true) : OutWf (execRailFault r s) := by
  simp [execRailFault, wf]
theorem execCoolantSample_wf (inlet outlet : Int) (flow : Nat) {s : State} (wf : cellsWf s.mem.data = true) :
    OutWf (execCoolantSample inlet outlet flow s) := by simp [execCoolantSample, wf]
theorem execCoolantShedRestart_wf {s : State} (wf : cellsWf s.mem.data = true) : OutWf (execCoolantShedRestart s) := by
  simp [execCoolantShedRestart, wf]
@[simp] theorem thermalTrip_wf (s : State) (die : Nat) (temp : Int) : cellsWf (thermalTrip s die temp).mem.data = true := by
  simp [thermalTrip]
theorem execJunctionSample_wf (qs : List (Quarter × Int)) (others : List Int) {s : State} (wf : cellsWf s.mem.data = true) :
    OutWf (execJunctionSample qs others s) := by fun_cases execJunctionSample <;> simp +zetaDelta [wf]

/-! ### Field.lean -/

theorem execLegendOdRead_wf (tag idx : BitVec 16) (sub : BitVec 8) (off : BitVec 32)
    {s : State} (wf : cellsWf s.mem.data = true) :
    OutWf (execLegendOdRead tag idx sub off s) := by simp [execLegendOdRead, wf]

theorem execLegendOdWrite_wf (tag idx : BitVec 16) (sub : BitVec 8) {s : State} (wf : cellsWf s.mem.data = true) :
    OutWf (execLegendOdWrite tag idx sub s) := by simp [execLegendOdWrite, wf]
theorem execFieldDatagramDrop_wf {s : State} (wf : cellsWf s.mem.data = true) : OutWf (execFieldDatagramDrop s) := by
  simp [execFieldDatagramDrop, wf]
theorem execIcmpv6Request_wf (echo : Bool) (src : BitVec 128) {s : State} (wf : cellsWf s.mem.data = true) :
    OutWf (execIcmpv6Request echo src s) := by simp [execIcmpv6Request, wf]
theorem execLegendHeartbeatReceive_wf (src : BitVec 128) {s : State} (wf : cellsWf s.mem.data = true) :
    OutWf (execLegendHeartbeatReceive src s) := by simp [execLegendHeartbeatReceive, wf]

theorem execFieldManagerExpiry_wf {s : State} (wf : cellsWf s.mem.data = true) : OutWf (execFieldManagerExpiry s) := by
  unfold execFieldManagerExpiry
  split <;> simp [wf]

theorem execLegendHeartbeatSend_wf {s : State} (wf : cellsWf s.mem.data = true) : OutWf (execLegendHeartbeatSend s) := by
  simp [execLegendHeartbeatSend, wf]

theorem execLegendEventSend_wf {s : State} (wf : cellsWf s.mem.data = true) : OutWf (execLegendEventSend s) := by
  unfold execLegendEventSend
  split <;> simp [wf]

theorem execFieldPairFault_wf (k : PairFault) (dist level : BitVec 8) {s : State} (wf : cellsWf s.mem.data = true) :
    OutWf (execFieldPairFault k dist level s) := by simp [execFieldPairFault, wf]
theorem execFieldPairFaultEnd_wf {s : State} (wf : cellsWf s.mem.data = true) : OutWf (execFieldPairFaultEnd s) := by
  simp [execFieldPairFaultEnd, wf]
theorem execFieldTxRetry_wf (clear : Bool) {s : State} (wf : cellsWf s.mem.data = true) :
    OutWf (execFieldTxRetry clear s) := by simp [execFieldTxRetry, wf]

/-! ### Message.lean -/

@[simp] theorem writeFsrAck_wf (v : Nat) {s : State} (wf : cellsWf s.mem.data = true) : WroteWf (writeFsrAck s v) := by
  unfold writeFsrAck
  split <;> simp [wf]

@[simp] theorem putUnless_wf (stop : Bool) (idx sub v : Nat) {s : State} (wf : cellsWf s.mem.data = true) :
    WroteWf (putUnless s stop idx sub v) := by simp [putUnless, wf]

@[simp] theorem writeEffect_wf (hdr : MsgHdr) (idx sub v : Nat) (reds : Reds) {s : State} (wf : cellsWf s.mem.data = true) :
    WroteWf (writeEffect s hdr idx sub v reds) := by
  unfold writeEffect
  split <;> simp [wf]

@[simp] theorem domainEffect_wf (idx sub : Nat) (b : List Byte) {s : State} (wf : cellsWf s.mem.data = true) :
    WroteWf (domainEffect s idx sub b) := by
  fun_cases domainEffect <;> simp [wf]

@[simp] theorem writePiece_wf (e : OdEnt) (idx sub off : Nat) (data : List Byte)
    {s : State} (wf : cellsWf s.mem.data = true) :
    WroteWf (writePiece s e idx sub off data) := by simp [writePiece, wf]

@[simp] theorem writeChecked_wf (hdr : MsgHdr) (e : OdEnt) (idx sub off : Nat) (data : List Byte) (reds : Reds) {s : State}
    (wf : cellsWf s.mem.data = true) : WroteWf (writeChecked s hdr e idx sub off data reds) := by
  fun_cases writeChecked <;> simp [wf]

@[simp] theorem writeEntry_wf (hdr : MsgHdr) (idx sub off : Nat) (data : List Byte) (reds : Reds) {s : State}
    (wf : cellsWf s.mem.data = true) : WroteWf (writeEntry s hdr idx sub off data reds) := by
  fun_cases writeEntry <;> simp [wf]

@[simp] theorem runWrite_wf (m : MsgHdr) (msg : Msg) (idx sub off : Nat) (data : List Byte) (reds : Reds) {s : State}
    (wf : cellsWf s.mem.data = true) : cellsWf (runWrite s m msg idx sub off data reds).mem.data = true := by
  have wrote := writeEntry_wf m idx sub off data reds wf
  unfold runWrite
  split <;> rename_i e <;> rw [e] at wrote
  · simpa using wrote
  · simpa using wrote
  · simp
  · simpa using wf
  · exact wrote

@[simp] theorem runBulkRead_wf (m : MsgHdr) (msg : Msg) (a n : Nat) (errs : List LineCheck)
    {s : State} (wf : cellsWf s.mem.data = true) :
    cellsWf (runBulkRead s m msg a n errs).mem.data = true := by simp [runBulkRead, wf]

@[simp] theorem runBulkWrite_wf (m : MsgHdr) (msg : Msg) (a : Nat) (data : List Byte) (errs : List LineCheck)
    {s : State} (wf : cellsWf s.mem.data = true) :
    cellsWf (runBulkWrite s m msg a data errs).mem.data = true := by simp [runBulkWrite, wf]

@[simp] theorem runMsg_wf (m : MsgHdr) (msg : Msg) {s : State} (wf : cellsWf s.mem.data = true) :
    cellsWf (runMsg s m msg).mem.data = true := by fun_cases runMsg <;> simp +zetaDelta [wf]
theorem merTake_wf (m : MsgHdr) (msg : Msg) {s : State} (wf : cellsWf s.mem.data = true) : OutWf (merTake m msg s) := by
  simp [merTake, wf]
theorem writeWord_wf (m : MsgHdr) (idx sub n v : Nat) (reds : Reds) {s : State} (wf : cellsWf s.mem.data = true) :
    OutWf (writeWord m idx sub n v reds s) := merTake_wf _ _ wf

@[simp] theorem releaseSome_wf (n : Nat) {s : State} (wf : cellsWf s.mem.data = true) :
    cellsWf (releaseSome n s).mem.data = true := by
  induction n generalizing s with
  | zero => exact wf
  | succ n ih =>
    unfold releaseSome
    split
    · exact wf
    · split
      · exact wf
      · exact ih (by simp [wf])

@[simp] theorem releaseHeld_wf {s : State} (wf : cellsWf s.mem.data = true) : cellsWf (releaseHeld s).mem.data = true := by
  simp [releaseHeld, wf]
@[simp] theorem retryHeld_wf {s : State} (wf : cellsWf s.mem.data = true) : cellsWf (retryHeld s).mem.data = true := by
  simp [retryHeld, wf]
theorem execHeartbeat_wf (m : MsgHdr) (n : BitVec 32) {s : State} (wf : cellsWf s.mem.data = true) :
    OutWf (execHeartbeat m n s) := by simp [execHeartbeat, wf]
@[simp] theorem flashAnswer_wf (m : MsgHdr) (status : Nat) {s : State} (wf : cellsWf s.mem.data = true) :
    cellsWf (flashAnswer s m status).mem.data = true := by simp [flashAnswer, wf]

theorem execSwapFlashVerified_wf (ok : Bool) {s : State} (wf : cellsWf s.mem.data = true) :
    OutWf (execSwapFlashVerified ok s) := by
  unfold execSwapFlashVerified
  split <;> simp [wf]

theorem execSaveFlashVerified_wf (ok : Bool) {s : State} (wf : cellsWf s.mem.data = true) :
    OutWf (execSaveFlashVerified ok s) := by
  unfold execSaveFlashVerified
  split <;> simp [wf]

theorem execEpochWaitExpiry_wf (c : Nat) {s : State} (wf : cellsWf s.mem.data = true) :
    OutWf (execEpochWaitExpiry c s) := by
  simp [execEpochWaitExpiry, wf]

theorem execEventDeliver_wf {s : State} (wf : cellsWf s.mem.data = true) : OutWf (execEventDeliver s) := by
  fun_cases execEventDeliver <;> simp +zetaDelta [wf]

/-! ### Clocks.lean -/

theorem execMeridianFrameReceive_wf (fr : MeridianFrame) {s : State} (wf : cellsWf s.mem.data = true) :
    OutWf (execMeridianFrameReceive fr s) := by simp [execMeridianFrameReceive, wf]

theorem execMeridianNakResend_wf {s : State} (wf : cellsWf s.mem.data = true) : OutWf (execMeridianNakResend s) := by
  unfold execMeridianNakResend
  split <;> simp [wf]

theorem execMeridianAckTimer_wf {s : State} (wf : cellsWf s.mem.data = true) : OutWf (execMeridianAckTimer s) := by
  simp [execMeridianAckTimer, wf]
theorem execMeridianRestartReceive_wf {s : State} (wf : cellsWf s.mem.data = true) :
    OutWf (execMeridianRestartReceive s) := by simp [execMeridianRestartReceive, wf]
theorem execMeridianLaneFail_wf (rx m1 : Bool) (cause : LaneLoss) {s : State} (wf : cellsWf s.mem.data = true) :
    OutWf (execMeridianLaneFail rx m1 cause s) := by simp [execMeridianLaneFail, wf]
theorem execMeridianLaneRejoin_wf (rx m1 : Bool) (seq : BitVec 12) {s : State} (wf : cellsWf s.mem.data = true) :
    OutWf (execMeridianLaneRejoin rx m1 seq s) := by simp [execMeridianLaneRejoin, wf]
theorem execRefLockLoss_wf (m1 : Bool) {s : State} (wf : cellsWf s.mem.data = true) : OutWf (execRefLockLoss m1 s) := by
  simp [execRefLockLoss, wf]
theorem execRefReady_wf (m1 : Bool) {s : State} (wf : cellsWf s.mem.data = true) : OutWf (execRefReady m1 s) := by
  simp [execRefReady, wf]
theorem execHoldoverExpiry_wf (ready : Option Bool) {s : State} (wf : cellsWf s.mem.data = true) :
    OutWf (execHoldoverExpiry ready s) := by fun_cases execHoldoverExpiry <;> simp [wf]
theorem execRelockTimerExpiry_wf (m1 : Bool) {s : State} (wf : cellsWf s.mem.data = true) :
    OutWf (execRelockTimerExpiry m1 s) := by simp [execRelockTimerExpiry, wf]

theorem execRootChangeStart_wf {s : State} (wf : cellsWf s.mem.data = true) : OutWf (execRootChangeStart s) := by
  unfold execRootChangeStart
  split <;> simp [wf]

theorem execRootClocksStopped_wf {s : State} (wf : cellsWf s.mem.data = true) : OutWf (execRootClocksStopped s) := by
  unfold execRootClocksStopped
  split <;> simp [wf]

theorem execRootPllLock_wf {s : State} (wf : cellsWf s.mem.data = true) : OutWf (execRootPllLock s) := by
  unfold execRootPllLock
  split <;> simp [wf]

theorem execRootChangeComplete_wf {s : State} (wf : cellsWf s.mem.data = true) : OutWf (execRootChangeComplete s) := by
  unfold execRootChangeComplete
  split <;> simp [wf]

theorem execRootPllLockTimeout_wf {s : State} (wf : cellsWf s.mem.data = true) : OutWf (execRootPllLockTimeout s) := by
  unfold execRootPllLockTimeout
  split <;> simp [wf]

theorem execThrottleStep_wf (q : Quarter) {s : State} (wf : cellsWf s.mem.data = true) : OutWf (execThrottleStep q s) := by
  simp [execThrottleStep, wf]
theorem execDeepThrottleApply_wf (q : Quarter) {s : State} (wf : cellsWf s.mem.data = true) :
    OutWf (execDeepThrottleApply q s) := by simp [execDeepThrottleApply, wf]

/-! ### Queue.lean -/

theorem execQrecv_wf (h : Hdr) (a b c : BitVec 5) {s : State} (wf : cellsWf s.mem.data = true) :
    OutWf (execQrecv h a b c s) :=
  issue_wf _ _ _ (fun t => withCtx_wf _ (fun n x => by
    split
    next held => exact portsBlock_wf held
    next => simp [wf]) wf) wf

theorem execQsend_wf (h : Hdr) (a b c : BitVec 5) {s : State} (wf : cellsWf s.mem.data = true) :
    OutWf (execQsend h a b c s) :=
  issue_wf _ _ _ (fun t => withCtx_wf _ (fun n x => by
    split
    next held => exact portsBlock_wf held
    next => simp [pushItem_mem, wf]) wf) wf

theorem execQcount_wf (h : Hdr) (a b c : BitVec 5) {s : State} (wf : cellsWf s.mem.data = true) :
    OutWf (execQcount h a b c s) :=
  issue_wf _ _ _ (fun t => withCtx_wf _ (fun c x => by simp [wf]) wf) wf

theorem execQwait_wf (h : Hdr) (a b c : BitVec 5) {s : State} (wf : cellsWf s.mem.data = true) :
    OutWf (execQwait h a b c s) :=
  issueAny_wf _ _ _ (fun t => withCtx_wf _ (fun n x => by simp [wf]) wf) wf

theorem execVbcast_wf (h : Hdr) (a b c : BitVec 5) {s : State} (wf : cellsWf s.mem.data = true) :
    OutWf (execVbcast h a b c s) :=
  issue_wf _ _ _ (fun t => withCtx_wf _ (fun n x => by
    split
    next held => exact portsBlock_wf held
    next => simp [wf]) wf) wf

theorem execVext_wf (h : Hdr) (a b c : BitVec 5) {s : State} (wf : cellsWf s.mem.data = true) :
    OutWf (execVext h a b c s) :=
  issue_wf _ _ _ (fun t => withCtx_wf _ (fun n x => by
    split
    next held => exact portsBlock_wf held
    next => simp [wf]) wf) wf

theorem execVins_wf (h : Hdr) (a b c : BitVec 5) {s : State} (wf : cellsWf s.mem.data = true) :
    OutWf (execVins h a b c s) :=
  issue_wf _ _ _ (fun t => by simp [wf]) wf

/-! ### Scalar.lean -/

theorem salu_wf (h : Hdr) (rd rs1 rs2 : BitVec 5) (f : Word → Word → Word) {s : State} (wf : cellsWf s.mem.data = true) :
    OutWf (salu h rd rs1 rs2 f s) :=
  issue_wf _ _ _ (fun t => by simp [wf]) wf

theorem salui_wf (h : Hdr) (rd rs1 : BitVec 5) (imm : BitVec 11) (invalid : Bool) (f : Word → Word → Word)
    {s : State} (wf : cellsWf s.mem.data = true) : OutWf (salui h rd rs1 imm invalid f s) :=
  issue_wf _ _ _ (fun t => by simp [wf]) wf

theorem execLui_wf (h : Hdr) (rd : BitVec 5) (imm : BitVec 19) {s : State} (wf : cellsWf s.mem.data = true) :
    OutWf (execLui h rd imm s) :=
  issue_wf _ _ _ (fun t => by simp [wf]) wf

theorem scmp_wf (h : Hdr) (pd : BitVec 3) (rs1 src2 : BitVec 5) (useImm : Bool) (f : Word → Word → Bool)
    {s : State} (wf : cellsWf s.mem.data = true) : OutWf (scmp h pd rs1 src2 useImm f s) :=
  issue_wf _ _ _ (fun t => by simp [wf]) wf

/-! ### Tick.lean -/

@[simp] theorem idle_wf {s : State} (wf : cellsWf s.mem.data = true) : cellsWf (idle s).mem.data = true := by
  simp [idle, wf]

end Sys2Proof.Machine

/-! ## Proofs: every step keeps main memory canonical (08_memory.md; log entry 7) -/

namespace Sys2Proof.Machine

/-- The meaning of every command keeps canonical bytes canonical: each arm is the lemma about the shared form it runs, or
the command's own. -/
theorem exec_wf (i : Instr) {s : State} (wf : cellsWf s.mem.data = true) : OutWf (exec i s) := by
  unfold exec
  cases i with
  | add | sub | and | or | xor | shl | shr | sra | slt | sltu | min | max | mul | mulhu | mulhs => exact salu_wf _ _ _ _ _ wf
  | addi | andi | ori | xori | shli | shri | srai | slti => exact salui_wf _ _ _ _ _ _ wf
  | lui => exact execLui_wf _ _ _ wf
  | cmpEq | cmpNe | cmpLt | cmpGe | cmpLtu | cmpGeu => exact scmp_wf _ _ _ _ _ _ wf
  | br => exact execBr_wf _ _ wf
  | call => exact execCall_wf _ _ wf
  | jr => exact execJr_wf _ _ wf
  | ret => exact execRet_wf _ wf
  | loop => exact execLoop_wf _ _ _ _ _ wf
  | ld32 | ld16u | ld16s | ld8u | ld8s => exact scalarLoad_wf _ _ _ _ _ _ wf
  | st32 | st16 | st8 => exact scalarStore_wf _ _ _ _ _ wf
  | vld => exact execVld_wf _ _ _ _ wf
  | vst => exact execVst_wf _ _ _ _ wf
  | vadd | vsub | vmul | vfma | vfms | vmax | vmin | vabs | vneg | vcmplt | vcmpeq | vand | vor | vxor | vaddi | vsubi =>
    exact valu_wf _ _ _ _ _ _ wf
  | vsel => exact execVsel_wf _ _ _ _ wf
  | vmov => exact execVmov_wf _ _ _ _ wf
  | vexp | vlog | vrsqrt | vrcp | vredsum | vredmax | vredmin => exact sfu_wf _ _ _ _ _ _ wf
  | vcvt | vcvtsr => exact vconv_wf _ _ _ _ _ _ wf
  | qrecv => exact execQrecv_wf _ _ _ _ wf
  | qsend => exact execQsend_wf _ _ _ _ wf
  | qcount => exact execQcount_wf _ _ _ _ wf
  | qwait => exact execQwait_wf _ _ _ _ wf
  | vbcast => exact execVbcast_wf _ _ _ _ wf
  | vext => exact execVext_wf _ _ _ _ wf
  | vins => exact execVins_wf _ _ _ _ wf
  | mcfgFormat | mcfgDrain | mcfgElementBase => exact mcfg_wf _ _ _ _ wf
  | mld => exact execMld_wf _ _ _ _ wf
  | mswap => exact execMswap_wf _ wf
  | mmul => exact execMmul_wf _ _ _ _ _ _ _ wf
  | mdrain => exact execMdrain_wf _ _ _ _ _ _ _ wf
  | msync => exact execMsync_wf _ wf
  | mramp => exact execMramp_wf _ _ wf
  | dma => exact execDma_wf _ _ wf
  | dwait => exact execDwait_wf _ _ _ wf
  | dwaitt => exact execDwaitt_wf _ _ _ _ _ wf
  | dclr => exact execDclr_wf _ _ wf
  | msend => exact execMsend_wf _ _ _ wf
  | mrecv => exact execMrecv_wf _ _ _ wf
  | mwait => exact execMwait_wf _ _ _ _ wf
  | nop => exact execNop_wf _ wf
  | csrr => exact execCsrr_wf _ _ _ wf
  | csrw => exact execCsrw_wf _ _ _ wf
  | fallow => exact execFallow_wf _ wf
  | stepend => exact execStepend_wf _ wf
  | secend => exact execSecend_wf _ wf
  | gatherWritebackTimeout => exact execGatherWritebackTimeout_wf _ _ wf
  | binScrubRead => exact execBinScrubRead_wf _ wf
  | binSpaceAccessArrive => exact execBinSpaceAccessArrive_wf _ wf
  | dmaTransactionIssue => exact execDmaTransactionIssue_wf _ _ wf
  | dmaReplyArrive => exact execDmaReplyArrive_wf _ wf
  | dmaErrorReplyArrive => exact execDmaErrorReplyArrive_wf _ wf
  | messageArrive => exact execMessageArrive_wf _ wf
  | messageCreditArrive => exact execMessageCreditArrive_wf _ wf
  | timedWaitExpiry => exact execTimedWaitExpiry_wf _ wf
  | matrixDispatch => exact execMatrixDispatch_wf _ wf
  | mldComplete => exact execMldComplete_wf _ wf
  | mmulRowEnter => exact execMmulRowEnter_wf _ wf
  | witnessVerdict => exact execWitnessVerdict_wf _ _ _ wf
  | accumulatorUpdate => exact execAccumulatorUpdate_wf _ wf
  | mdrainRowRead => exact execMdrainRowRead_wf _ wf
  | arrayLevelStep => exact execArrayLevelStep_wf _ wf
  | dummyPass => exact execDummyPass_wf _ _ wf
  | moveQuiesced => exact execMoveQuiesced_wf _ wf
  | binCopyComplete => exact execBinCopyComplete_wf _ wf
  | moveResume => exact execMoveResume_wf _ wf
  | channelItemArrive => exact execChannelItemArrive_wf _ wf
  | channelCreditArrive => exact execChannelCreditArrive_wf _ wf
  | tokenPass | tokenDrop | tokenRepeat => exact takeToken_wf _ _ _ wf
  | steerItemMove => exact execSteerItemMove_wf _ _ wf
  | sectionEnd => exact execSectionEnd_wf _ _ _ wf
  | sectionEntry => exact execSectionEntry_wf _ wf
  | blockedReport => exact execBlockedReport_wf _ wf
  | waitGraphReport => exact execWaitGraphReport_wf _ wf
  | spillOrder => exact execSpillOrder_wf _ wf
  | spillEnter => exact execSpillEnter_wf _ _ wf
  | spillTransferComplete => exact execSpillTransferComplete_wf _ _ wf
  | contextPauseRequest | contextResumeRequest | admissionStart | admissionCancel | fsrAck | contextResetCommand
  | contextRestart | contextRollbackCommand | partitionReset | moduleResetWarm | moduleResetCold | moduleResetClear
  | contextCreate | contextEnd | tallyAck | setSwap | setRevert | setSave | setDefaults | bringupAdvance | bringupHold
  | bringupRetry | rebuildGazetteer | fwProgram | fwConfirm | fwPreferOther | kaMeasureStart | kaMeasureCancel
  | rollbackCommit | debugLock => exact writeWord_wf _ _ _ _ _ _ wf
  | contextPauseReached => exact execContextPauseReached_wf _ wf
  | pauseDeadlineExpiry => exact execPauseDeadlineExpiry_wf _ wf
  | fallowGapLate => exact execFallowGapLate_wf _ wf
  | flitForward => exact execFlitForward_wf _ wf
  | flitHopNak => exact execFlitHopNak_wf _ _ wf
  | escapeTablesLoaded => exact execEscapeTablesLoaded_wf wf
  | flitAgeTick => exact execFlitAgeTick_wf _ wf
  | escapeEntry => exact execEscapeEntry_wf _ wf
  | injectionThrottleOnset => exact execInjectionThrottleOnset_wf _ _ wf
  | injectionThrottleLift => exact execInjectionThrottleLift_wf _ _ wf
  | managementPacketAccept => exact execManagementPacketAccept_wf _ wf
  | barrierArrive => exact execBarrierArrive_wf _ wf
  | barrierRelease => exact execBarrierRelease_wf _ wf
  | circuitEnable => exact execCircuitEnable_wf _ _ wf
  | circuitFlitCopy => exact execCircuitFlitCopy_wf _ wf
  | reduceCombine => exact execReduceCombine_wf _ _ wf
  | bcastCopy => exact execBcastCopy_wf _ _ wf
  | bcastCredit => exact execBcastCredit_wf _ _ wf
  | throttleStep => exact execThrottleStep_wf _ wf
  | deepThrottleApply => exact execDeepThrottleApply_wf _ wf
  | granaryRequestAccept => exact execGranaryRequestAccept_wf _ wf
  | granaryLineRead => exact execGranaryLineRead_wf _ _ wf
  | granaryRowWrite => exact execGranaryRowWrite_wf _ _ wf
  | channelResponseTimeout => exact execChannelResponseTimeout_wf _ wf
  | channelRetire => exact execChannelRetire_wf _ _ wf
  | granaryScrubRow => exact execGranaryScrubRow_wf _ _ wf
  | pageCopyComplete => exact execPageCopyComplete_wf _ _ _ wf
  | stepBoundaryBegin => exact execStepBoundaryBegin_wf _ wf
  | versionCommit => exact execVersionCommit_wf _ wf
  | tallySeal => exact execTallySeal_wf _ _ wf
  | stepStart => exact execStepStart_wf _ wf
  | captureLineDigest => exact execCaptureLineDigest_wf _ wf
  | tallyEntryEvict => exact execTallyEntryEvict_wf _ wf
  | linkFrameSlot => exact execLinkFrameSlot_wf _ wf
  | linkFrameReceive => exact execLinkFrameReceive_wf _ _ wf
  | linkNakResend => exact execLinkNakResend_wf _ _ wf
  | linkAckTimer => exact execLinkAckTimer_wf _ wf
  | linkLaneFailed => exact execLinkLaneFailed_wf _ _ _ wf
  | wavelengthFail => exact execWavelengthFail_wf _ _ _ _ wf
  | laneMapReceive => exact execLaneMapReceive_wf _ _ wf
  | laneMapSwitch => exact execLaneMapSwitch_wf _ _ wf
  | linkDeliveredSeqReport => exact execLinkDeliveredSeqReport_wf _ _ wf
  | remoteRequestArrive => exact execRemoteRequestArrive_wf _ _ wf
  | remoteReplyArrive => exact execRemoteReplyArrive_wf _ _ _ wf
  | linkFallbackAgeTick => exact execLinkFallbackAgeTick_wf _ wf
  | hallBarrierArrive => exact execHallBarrierArrive_wf _ _ wf
  | hallBarrierRelease => exact execHallBarrierRelease_wf _ wf
  | barrierTimeoutExpiry => exact execBarrierTimeoutExpiry_wf _ wf
  | collectiveChunkArrive => exact execCollectiveChunkArrive_wf _ _ wf
  | collectiveTimeoutExpiry => exact execCollectiveTimeoutExpiry_wf _ _ _ wf
  | linkTrainComplete => exact execLinkTrainComplete_wf _ _ _ wf
  | admissionLoadDone => exact execAdmissionLoadDone_wf wf
  | admissionReplayDone => exact execAdmissionReplayDone_wf _ wf
  | admitTimeoutExpiry => exact execAdmitTimeoutExpiry_wf wf
  | fallowSlot => exact execFallowSlot_wf wf
  | fallowTestComplete => exact execFallowTestComplete_wf _ _ wf
  | backgroundTestComplete => exact execBackgroundTestComplete_wf _ _ wf
  | healthInput => exact execHealthInput_wf _ _ wf
  | healthScoreHalving => exact execHealthScoreHalving_wf _ wf
  | probationDelayExpiry => exact execProbationDelayExpiry_wf _ wf
  | probationRetestComplete => exact execProbationRetestComplete_wf _ _ wf
  | marginCheckComplete => exact execMarginCheckComplete_wf _ _ wf
  | gazetteerWrite => exact execGazetteerWrite_wf wf
  | hangWindowExpiry => exact execHangWindowExpiry_wf _ wf
  | stallWindowExpiry => exact execStallWindowExpiry_wf _ wf
  | contextStopOrder => exact execContextStopOrder_wf _ _ _ wf
  | contextResetComplete => exact execContextResetComplete_wf _ _ wf
  | contextRestartEntry => exact execContextRestartEntry_wf _ _ wf
  | txnDeadlineExpiry => exact execTxnDeadlineExpiry_wf _ _ wf
  | recoveryHoldSend => exact execRecoveryHoldSend_wf _ wf
  | recoveryHoldReceive => exact execRecoveryHoldReceive_wf _ wf
  | recoveryHoldLapse => exact execRecoveryHoldLapse_wf _ wf
  | odRead | odWrite | bulkRead | bulkWrite | stepEpoch | fwRecoveryImage | secChallengeRead | tokenDebugUnlock
  | tokenKeyInstall | tokenKeyRevoke | attestRequest | reservedTypeMessage => exact merTake_wf _ _ wf
  | heartbeat => exact execHeartbeat_wf _ _ wf
  | eventDeliver => exact execEventDeliver_wf wf
  | meridianFrameReceive => exact execMeridianFrameReceive_wf _ wf
  | meridianNakResend => exact execMeridianNakResend_wf wf
  | meridianAckTimer => exact execMeridianAckTimer_wf wf
  | meridianLaneFail => exact execMeridianLaneFail_wf _ _ _ wf
  | meridianLaneRejoin => exact execMeridianLaneRejoin_wf _ _ _ wf
  | meridianRestartReceive => exact execMeridianRestartReceive_wf wf
  | refLockLoss => exact execRefLockLoss_wf _ wf
  | refReady => exact execRefReady_wf _ wf
  | holdoverExpiry => exact execHoldoverExpiry_wf _ wf
  | relockTimerExpiry => exact execRelockTimerExpiry_wf _ wf
  | rootChangeStart => exact execRootChangeStart_wf wf
  | rootClocksStopped => exact execRootClocksStopped_wf wf
  | rootPllLock => exact execRootPllLock_wf wf
  | rootChangeComplete => exact execRootChangeComplete_wf wf
  | swapFlashVerified => exact execSwapFlashVerified_wf _ wf
  | swapEraseComplete => exact execSwapEraseComplete_wf wf
  | saveFlashVerified => exact execSaveFlashVerified_wf _ wf
  | legendOdRead => exact execLegendOdRead_wf _ _ _ _ wf
  | legendOdWrite => exact execLegendOdWrite_wf _ _ _ wf
  | legendHeartbeatReceive => exact execLegendHeartbeatReceive_wf _ wf
  | legendHeartbeatSend => exact execLegendHeartbeatSend_wf wf
  | fieldManagerExpiry => exact execFieldManagerExpiry_wf wf
  | legendEventSend => exact execLegendEventSend_wf wf
  | fieldDatagramDrop => exact execFieldDatagramDrop_wf wf
  | fieldPairFault => exact execFieldPairFault_wf _ _ _ wf
  | fieldPairFaultEnd => exact execFieldPairFaultEnd_wf wf
  | fieldTxRetry => exact execFieldTxRetry_wf _ wf
  | stageS0 => exact execStageS0_wf _ wf
  | stageS1 => exact execStageS1_wf _ _ wf
  | stageS2 => exact execStageS2_wf wf
  | stageS3 => exact execStageS3_wf _ _ _ wf
  | stageS4 => exact execStageS4_wf _ _ _ wf
  | stageS5 => exact execStageS5_wf _ wf
  | stageS6 => exact execStageS6_wf _ wf
  | fwBroadcastRound => exact execFwBroadcastRound_wf wf
  | tileFwReport => exact execTileFwReport_wf _ _ wf
  | fwRoundTimeout => exact execFwRoundTimeout_wf wf
  | stageS7 => exact execStageS7_wf _ _ _ _ _ wf
  | stageS8 => exact execStageS8_wf wf
  | stageS9 => exact execStageS9_wf wf
  | stageLimitExpiry => exact execStageLimitExpiry_wf wf
  | watchdogSelfFeed => exact execWatchdogSelfFeed_wf wf
  | watchdogExpiry => exact execWatchdogExpiry_wf wf
  | fwProgramComplete => exact execFwProgramComplete_wf _ wf
  | kaWorkloadComplete => exact execKaWorkloadComplete_wf _ _ _ wf
  | secNonceExpiry => exact execSecNonceExpiry_wf wf
  | debugTileAccess => exact execDebugTileAccess_wf _ _ _ wf
  | attestSignComplete => exact execAttestSignComplete_wf wf
  | inputPowerOn => exact execInputPowerOn_wf _ wf
  | powerSample => exact execPowerSample_wf _ _ _ wf
  | powerShed => exact execPowerShed_wf _ wf
  | tallyTailWrite => exact execTallyTailWrite_wf wf
  | railFault => exact execRailFault_wf _ wf
  | coolantSample => exact execCoolantSample_wf _ _ _ wf
  | coolantShedRestart => exact execCoolantShedRestart_wf wf
  | junctionSample => exact execJunctionSample_wf _ _ wf
  | epochWaitExpiry => exact execEpochWaitExpiry_wf _ wf
  | rootPllLockTimeout => exact execRootPllLockTimeout_wf wf
  | stewardMemoryError => exact execStewardMemoryError_wf _ wf
  | icmpv6Request => exact execIcmpv6Request_wf _ _ wf
  | admissionHandshake => exact execAdmissionHandshake_wf _ _ _ wf
  | rollbackCommitted => exact execRollbackCommitted_wf wf

/-- Settles O58: a step runs the command at the front of the queue, which keeps the bytes canonical (`exec_wf`), or idles.
The canonical form is the model's own (log entry 7). -/
theorem canonicalKept : Obligations.CanonicalKept := by
  unfold Obligations.CanonicalKept
  intro s t canonical run
  unfold step at run
  split at run
  next c rest _ => exact exec_wf c (s := { s with pending := rest }) canonical t run
  next =>
    cases run
    exact idle_wf canonical

end Sys2Proof.Machine

/-! ## Proofs: module resets (R277, R378, R379, R394, R478, R482 to R484) -/

namespace Sys2Proof.Machine

/-! ### MODULE_RESET (R394, R478) -/

/-- The row of MODULE_RESET. -/
def moduleResetRow : OdEnt :=
  { idx := 0x6192, lo := 1, hi := 1, size := 4, acc := .wo, rd := 0, wr := rCS, fields := [enc 0 2 [(1, 3)], rsv 2 14] }

theorem odFind_moduleReset : odFind 0x6192 1 = some moduleResetRow := by decide +kernel

/-- The word of MODULE_RESET with the key and a kind has its effect (R448). -/
theorem writeEntry_moduleReset {s : State} {m : MsgHdr} {v : Nat} (serves : inRecovery s = false)
    (word : v ∈ [0x7A110001, 0x7A110002, 0x7A110003]) :
    writeEntry s m 0x6192 1 0 (toLE 4 v) [] = writeModuleReset s v := by
  have fits : v < 256 ^ 4 := by
    simp only [List.mem_cons, List.not_mem_nil, or_false] at word
    rcases word with rfl | rfl | rfl <;> decide
  have passes : ∀ f ∈ moduleResetRow.fields, f.passes v := by
    simp only [List.mem_cons, List.not_mem_nil, or_false] at word
    rcases word with rfl | rfl | rfl <;> simp [moduleResetRow, FieldChk.passes, rsv, enc, bits]
  exact writeEntry_word (writeRefused_none serves (by decide +kernel)) odFind_moduleReset (by decide) (by decide)
    (wordRefused_none (e := moduleResetRow) (by decide) fits passes) fits

section
variable {s : State} {m : MsgHdr} {v : Nat} (heard : Heard s m) (serves : inRecovery s = false)
  (word : v ∈ [0x7A110001, 0x7A110002, 0x7A110003])
include heard serves word

/-- MODULE_RESET that the port hears and its entry takes is answered, then resets the module (R394). -/
theorem writeWord_moduleReset {kind : Nat} {clear : Bool}
    (resets : writeModuleReset (heardWord s) v = .resets (heardWord s) kind clear) :
    writeWord m 0x6192 1 4 v [] s = .next (moduleReset (answered (heardWord s) m 0x6192 1) kind clear) := by
  rw [writeWord, merTake_write heard, returnUnits_word _ 0x6192 1 v (by decide) (by decide)]
  exact congrArg Host.Outcome.next (runWrite_resets ((writeEntry_moduleReset (s := heardWord s) serves word).trans resets))

theorem writeWord_moduleReset_refused (refused : writeModuleReset (heardWord s) v = .refused (heardWord s) 8 0) :
    writeWord m 0x6192 1 4 v [] s = .next (refusedMsg (heardWord s) m (.write 0x6192 1 0 [] []) 8 0) :=
  writeWord_refused heard (by decide) (by decide) ((writeEntry_moduleReset (s := heardWord s) serves word).trans refused)

end

section
variable {s : State} {m : MsgHdr} (heard : Heard s m) (serves : inRecovery s = false)
include heard serves

/-- In service the warm and the cold kind are taken (R394). -/
theorem moduleReset_inService (service : s.boot.outOfService = false) :
    exec (.moduleResetWarm m 0x7A110001) s = .next (moduleReset (answered (heardWord s) m 0x6192 1) 1 false) ∧
      exec (.moduleResetCold m 0x7A110002) s = .next (moduleReset (answered (heardWord s) m 0x6192 1) 2 false) := by
  have service : (heardWord s).boot.outOfService = false := service
  exact ⟨writeWord_moduleReset heard serves (v := 0x7A110001) (by decide) (by simp [writeModuleReset, service, bits]),
    writeWord_moduleReset heard serves (v := 0x7A110002) (by decide) (by simp [writeModuleReset, service, bits])⟩

/-- Out of service both are refused (R394). -/
theorem moduleReset_outOfService (out : s.boot.outOfService = true) :
    exec (.moduleResetWarm m 0x7A110001) s = .next (refusedMsg (heardWord s) m (.write 0x6192 1 0 [] []) 8 0) ∧
      exec (.moduleResetCold m 0x7A110002) s = .next (refusedMsg (heardWord s) m (.write 0x6192 1 0 [] []) 8 0) := by
  have out : (heardWord s).boot.outOfService = true := out
  exact ⟨writeWord_moduleReset_refused heard serves (v := 0x7A110001) (by decide) (by simp [writeModuleReset, out, bits]),
    writeWord_moduleReset_refused heard serves (v := 0x7A110002) (by decide) (by simp [writeModuleReset, out, bits])⟩

/-- The clearing kind is taken in and out of service (R394). -/
theorem moduleReset_clearing :
    exec (.moduleResetClear m 0x7A110003) s = .next (moduleReset (answered (heardWord s) m 0x6192 1) 2 true) :=
  writeWord_moduleReset heard serves (v := 0x7A110003) (by decide) (by simp [writeModuleReset, bits])

end

/-! ### The watchdog and the steward's memory (R482 to R484) -/

section
variable {s : State}

theorem watchdogExpiry_due (stage : 1 ≤ s.boot.stage) (enabled : bitAt (cfgInForce s 0x22C0 1).toNat 31 = true)
    (due : s.boot.fedAt + 100000 * cfgField s 0x22C0 1 0 8 ≤ now s) :
    exec .watchdogExpiry s = .next (moduleReset s 3 false) := if_pos (by simp [stage, enabled, due])

theorem watchdogExpiry_early (early : now s < s.boot.fedAt + 100000 * cfgField s 0x22C0 1 0 8) :
    exec .watchdogExpiry s = .next s := if_neg (by simp [early])

theorem watchdogSelfFeed_fed (stage : 1 ≤ s.boot.stage) (alone : portUp s = false ∨ now s < s.boot.selfFeedUntil) :
    exec .watchdogSelfFeed s = .next { s with boot := { s.boot with fedAt := now s } } := if_pos (by simpa [stage] using alone)

theorem stewardMemoryError_on (on : s.boot.on = true) :
    exec (.stewardMemoryError true) s = .next (moduleReset s 4 false) ∧
      exec (.stewardMemoryError false) s =
        .next { s with boot := { s.boot with eccCorrected := satAdd s.boot.eccCorrected 1 65535 } } := by
  constructor <;> simp [exec, execStewardMemoryError, on]

end

/-! ### What a reset leaves (R277, R378, R379, R478) -/

/-- A fold whose steps change only the counters and the draws. -/
theorem foldl_counters {f : State → Nat → State}
    (step : ∀ t k, ∃ counters draws, f t k = { t with sec := { t.sec with counters := counters }, draws := draws }) (l : List Nat)
    (t : State) : ∃ counters draws, l.foldl f t = { t with sec := { t.sec with counters := counters }, draws := draws } := by
  induction l generalizing t with
  | nil => exact ⟨t.sec.counters, t.draws, rfl⟩
  | cons k l ih =>
    obtain ⟨counters, draws, first⟩ := step t k
    rw [List.foldl_cons, first]
    exact ih _

/-- The commit cut short leaves all but the counters, the commit and the draws (R500). -/
theorem commitCut_form (s : State) : ∃ counters commit draws,
    commitCut s = { s with sec := { s.sec with counters := counters, commit := commit }, draws := draws } := by
  unfold commitCut
  split
  · exact ⟨s.sec.counters, s.sec.commit, s.draws, rfl⟩
  · generalize counted : List.foldl _ s _ = t
    obtain ⟨counters, draws, rfl⟩ : ∃ counters draws, t = { s with sec := { s.sec with counters := counters }, draws := draws } :=
      counted ▸ foldl_counters (fun t k => ⟨_, _, rfl⟩) _ s
    exact ⟨counters, none, draws, rfl⟩

/-- What a reset reads of the state is the same after the flash operations are cut short (R500). -/
theorem flashCut_form (s : State) : ∃ dict counters commit draws,
    flashCut s = { s with dict := dict, sec := { s.sec with counters := counters, commit := commit }, draws := draws } := by
  obtain ⟨counters, commit, draws, e⟩ := commitCut_form { s with dict :=
    { (if s.dict.swap.isSome then { s.dict.putOther {} with erased := false, swap := none } else s.dict) with save := none } }
  exact ⟨_, counters, commit, draws, e⟩

/-- What a module reset of a kind leaves and what remains through it. -/
theorem moduleReset_leaves (s : State) {kind : Nat} (clear : Bool) (counted : kind ≠ 0) :
    let u := moduleReset s kind clear
    u.ctxs = [] ∧ u.tiles = [] ∧ u.mem.data = [] ∧ u.hall.links = [] ∧ u.pending = s.pending ∧ u.factory = s.factory ∧
      u.gleaner.fsr = s.gleaner.fsr ∧ u.boot.stage = 0 ∧ u.boot.busy = some 1 ∧ u.boot.lastKind = BitVec.ofNat 3 kind ∧
      (u.boot.path = 1 ↔ kind = 1) ∧ u.events.next = 0 ∧ u.sec.keys = s.sec.keys ∧ u.sec.debugOn = false ∧
      u.clk.timeUs = s.clk.timeUs := by
  obtain ⟨dict, counters, commit, draws, cut⟩ := flashCut_form s
  have warm : (if kind = 1 then 1 else 0 : BitVec 2) = 1 ↔ kind = 1 := by split <;> simp [*]
  unfold moduleReset
  rw [cut]
  dsimp only
  cases gazCurrent _ with
  | none => exact ⟨rfl, rfl, rfl, rfl, rfl, rfl, rfl, rfl, rfl, if_neg counted, warm, rfl, rfl, rfl, rfl⟩
  | some g =>
    dsimp only
    split <;> exact ⟨rfl, rfl, rfl, rfl, rfl, rfl, rfl, rfl, rfl, if_neg counted, warm, rfl, rfl, rfl, rfl⟩

/-- Settles O49, from the word of MODULE_RESET, the watchdog and the steward's memory, and what a reset leaves. -/
theorem moduleResets : Obligations.ModuleResets := by
  unfold Obligations.ModuleResets
  rintro s v m rfl
  refine ⟨fun heard serves => ⟨moduleReset_inService heard serves, moduleReset_outOfService heard serves,
      moduleReset_clearing heard serves⟩,
    fun stage enabled => ⟨watchdogExpiry_due stage enabled, watchdogExpiry_early⟩, watchdogSelfFeed_fed,
    stewardMemoryError_on, ?_⟩
  rintro kind clear known u rfl
  exact moduleReset_leaves s clear (by rintro rfl; simp at known)

end Sys2Proof.Machine

/-! ## Proofs: the rows of a stripe read, rebuilt and lost (R260, R262, R264, R268, R284) -/

namespace Sys2Proof.Machine

/-! ### The XOR of a row (R260, R264) -/

theorem xorLine_comm (k l : Line) : xorLine k l = xorLine l k := by simp [xorLine, BitVec.xor_comm, Bool.xor_comm]

theorem xorLine_assoc (k l m : Line) : xorLine (xorLine k l) m = xorLine k (xorLine l m) := by
  simp [xorLine, BitVec.xor_assoc]

theorem xorLine_zero (l : Line) : xorLine ⟨0, false⟩ l = l := by simp [xorLine]

theorem xorLine_self (l : Line) : xorLine l l = ⟨0, false⟩ := by simp [xorLine]

/-- The XOR of the lines at some positions of a row. -/
def rowXor (s : State) (stripe row : Nat) (qs : List Nat) : Line :=
  qs.foldl (fun l q => xorLine l (rowLine s stripe row q)) ⟨0, false⟩

section
variable {s w : State} {errs : List LineCheck} {stripe row q a source : Nat} {qs : List Nat}

theorem foldl_xorLine {α : Type} (f : α → Line) (l : Line) (qs : List α) :
    qs.foldl (fun l q => xorLine l (f q)) l = xorLine l (qs.foldl (fun l q => xorLine l (f q)) ⟨0, false⟩) := by
  induction qs generalizing l with
  | nil => rw [List.foldl_nil, List.foldl_nil, xorLine_comm, xorLine_zero]
  | cons q qs ih => rw [List.foldl_cons, ih, List.foldl_cons, ih (xorLine _ _), xorLine_zero, xorLine_assoc]

theorem rowXor_cons : rowXor s stripe row (q :: qs) = xorLine (rowLine s stripe row q) (rowXor s stripe row qs) := by
  rw [rowXor, List.foldl_cons, foldl_xorLine, xorLine_zero, rowXor]

theorem rowXor_perm {ps : List Nat} (perm : ps.Perm qs) : rowXor s stripe row ps = rowXor s stripe row qs :=
  perm.foldl_eq' (fun p _ q _ l => by rw [xorLine_assoc, xorLine_assoc, xorLine_comm (rowLine _ _ _ p)]) _

/-- The positions of a row: that of its parity line, and those of its data lines in their order (R262). -/
theorem positions_perm : ∀ par < 12, (List.range 12).Perm (par :: (List.range 11).map fun j => (par + 1 + j) % 12) := by decide

/-- The XOR of all the lines of a row is nothing (R260). -/
theorem rowXor_all : rowXor s stripe row (List.range 12) = ⟨0, false⟩ := by
  have parity : rowLine s stripe row (row % 12) = parityLine s stripe row := by rw [rowLine, posAddr, if_pos rfl]
  have data : ∀ j ∈ List.range 11, rowLine s stripe row ((row % 12 + 1 + j) % 12) = storedLine s (lineAddr stripe row j) := by
    intro j hj
    have hj := List.mem_range.1 hj
    have apart : (row % 12 + 1 + j) % 12 ≠ row % 12 := by omega
    have place : ((row % 12 + 1 + j) % 12 + 11 - row % 12) % 12 = j := by omega
    rw [rowLine, posAddr, if_neg apart, place]
  rw [rowXor_perm (positions_perm (row % 12) (Nat.mod_lt _ (by decide))), rowXor_cons, parity]
  have same : rowXor s stripe row ((List.range 11).map fun j => (row % 12 + 1 + j) % 12) = parityLine s stripe row := by
    rw [rowXor, List.foldl_map, parityLine]
    exact List.foldl_ext _ _ _ fun l j hj => by rw [data j hj]
  rw [same, xorLine_self]

/-- A line is the XOR of the others of its row (R264). -/
theorem rowXor_others (hq : q < 12) : rowXor s stripe row ((List.range 12).filter fun p => p != q) = rowLine s stripe row q := by
  have all := rowXor_all (s := s) (stripe := stripe) (row := row)
  rw [rowXor_perm (List.perm_cons_erase (List.mem_range.2 hq)), rowXor_cons, List.nodup_range.erase_eq_filter] at all
  calc rowXor s stripe row ((List.range 12).filter fun p => p != q)
      = xorLine (xorLine (rowLine s stripe row q) (rowLine s stripe row q))
          (rowXor s stripe row ((List.range 12).filter fun p => p != q)) := by rw [xorLine_self, xorLine_zero]
    _ = rowLine s stripe row q := by rw [xorLine_assoc, all, xorLine_comm, xorLine_zero]

/-! ### Failed reads counted (R267) -/

/-- States that differ in the failed reads counted of channels alone. -/
def FailsNoted (s w : State) : Prop := w = { s with mem := { s.mem with fails := w.mem.fails, due := w.mem.due } }

theorem FailsNoted.refl (s : State) : FailsNoted s s := rfl
theorem FailsNoted.trans {v : State} (a : FailsNoted s w) (b : FailsNoted w v) : FailsNoted s v := by
  unfold FailsNoted at *; rw [b, a]
theorem FailsNoted.data (h : FailsNoted s w) : w.mem.data = s.mem.data := by rw [h]
theorem FailsNoted.poison (h : FailsNoted s w) : w.mem.poison = s.mem.poison := by rw [h]
theorem FailsNoted.retired (h : FailsNoted s w) : w.mem.retired = s.mem.retired := by rw [h]
theorem FailsNoted.tiles (h : FailsNoted s w) : w.tiles = s.tiles := by rw [h]
theorem FailsNoted.factory (h : FailsNoted s w) : w.factory = s.factory := by rw [h]
theorem FailsNoted.stripe_eq (h : FailsNoted s w) (n : Nat) : w.stripe n = s.stripe n := by rw [h]; rfl
theorem FailsNoted.retiredAt (h : FailsNoted s w) (ch : Nat) : retiredAt w ch = retiredAt s ch := by
  rw [Machine.retiredAt, h.retired, Machine.retiredAt]
theorem FailsNoted.rowLine (h : FailsNoted s w) (stripe row q : Nat) : rowLine w stripe row q = rowLine s stripe row q := by
  rw [h]; rfl

theorem countFail_noted (s : State) (ch : Nat) : FailsNoted s (countFail s ch) := by
  unfold countFail
  dsimp only
  split <;> rfl

/-- Both reads of a line of a row fail their check (R264). -/
def readFails (s : State) (errs : List LineCheck) (stripe row q : Nat) : Bool :=
  (readBack (rowLine s stripe row q) (lineCheck errs (12 * stripe + q) row).err1 (12 * stripe + q) row).isNone &&
    (readBack (rowLine s stripe row q) (lineCheck errs (12 * stripe + q) row).err2 (12 * stripe + q) row).isNone

theorem readFails_iff : readFails s errs stripe row q = true ↔
    readBack (rowLine s stripe row q) (lineCheck errs (12 * stripe + q) row).err1 (12 * stripe + q) row = none ∧
      readBack (rowLine s stripe row q) (lineCheck errs (12 * stripe + q) row).err2 (12 * stripe + q) row = none := by
  simp [readFails]

theorem FailsNoted.readFails_eq (h : FailsNoted s w) : readFails w errs stripe row q = readFails s errs stripe row q := by
  rw [readFails, h.rowLine, readFails]

theorem readFails_of_sound (sound : (lineCheck errs (12 * stripe + q) row).err1 = 0) : readFails s errs stripe row q = false := by
  simp [readFails, sound, readBack]

theorem chanRead_sound (sound : (lineCheck errs (12 * stripe + q) row).err1 = 0) :
    chanRead s errs stripe row q = (s, some (rowLine s stripe row q)) := by
  simp only [chanRead, sound, readBack, if_true]

theorem chanRead_fails (fails : readFails s errs stripe row q = true) :
    chanRead s errs stripe row q = (countFail s (12 * stripe + q), none) := by
  obtain ⟨first, second⟩ := readFails_iff.1 fails
  simp only [chanRead, first, second]

theorem chanRead_passes (passes : readFails s errs stripe row q = false) :
    ∃ v, chanRead s errs stripe row q = (s, some v) := by
  unfold chanRead
  dsimp only
  split
  · exact ⟨_, rfl⟩
  next first =>
    split
    · exact ⟨_, rfl⟩
    next second => rw [readFails_iff.2 ⟨first, second⟩] at passes; exact absurd passes (by decide)

theorem rowRead_concat_some {t : State} {l v : Line} {bad : List Nat} (read : rowRead s errs stripe row qs = (w, l, bad))
    (here : chanRead w errs stripe row q = (t, some v)) : rowRead s errs stripe row (qs ++ [q]) = (t, xorLine l v, bad) := by
  unfold rowRead at *
  rw [List.foldl_append, read]
  simp [here]

theorem rowRead_concat_none {t : State} {l : Line} {bad : List Nat} (read : rowRead s errs stripe row qs = (w, l, bad))
    (here : chanRead w errs stripe row q = (t, none)) : rowRead s errs stripe row (qs ++ [q]) = (t, l, bad ++ [q]) := by
  unfold rowRead at *
  rw [List.foldl_append, read]
  simp [here]

/-- Some lines of a row read: those that fail are told; where the others are without an error, so is their XOR. -/
theorem rowRead_form (s : State) (errs : List LineCheck) (stripe row : Nat) (qs : List Nat) : ∃ w l, FailsNoted s w ∧
    rowRead s errs stripe row qs = (w, l, qs.filter (readFails s errs stripe row)) ∧
    ((∀ q ∈ qs, readFails s errs stripe row q = false → (lineCheck errs (12 * stripe + q) row).err1 = 0) →
      l = rowXor s stripe row (qs.filter fun q => !readFails s errs stripe row q)) := by
  induction qs using List.reverseRecOn with
  | nil => exact ⟨s, ⟨0, false⟩, .refl s, rfl, fun _ => rfl⟩
  | append_singleton qs q ih =>
    obtain ⟨w, l, noted, read, told⟩ := ih
    cases fails : readFails s errs stripe row q with
    | true =>
      refine ⟨_, l, noted.trans (countFail_noted w (12 * stripe + q)), ?_, fun sound => ?_⟩
      · rw [rowRead_concat_none read (chanRead_fails (noted.readFails_eq.trans fails))]
        simp [List.filter_append, fails]
      · rw [told fun p hp => sound p (List.mem_append_left _ hp)]
        simp [List.filter_append, fails]
    | false =>
      obtain ⟨v, here⟩ := chanRead_passes (noted.readFails_eq.trans fails)
      refine ⟨w, xorLine l v, noted, ?_, fun sound => ?_⟩
      · rw [rowRead_concat_some read here]
        simp [List.filter_append, fails]
      · have exact_ := chanRead_sound (s := w) (sound q (List.mem_append_right _ (List.mem_singleton_self q)) fails)
        obtain rfl : rowLine w stripe row q = v := by simpa [exact_] using here
        rw [told fun p hp => sound p (List.mem_append_left _ hp), noted.rowLine]
        simp [List.filter_append, fails, rowXor]

theorem rowRead_sound (sound : ∀ q ∈ qs, (lineCheck errs (12 * stripe + q) row).err1 = 0) :
    rowRead s errs stripe row qs = (s, rowXor s stripe row qs, []) := by
  induction qs using List.reverseRecOn with
  | nil => rfl
  | append_singleton qs q ih =>
    rw [rowRead_concat_some (ih fun p hp => sound p (List.mem_append_left _ hp))
      (chanRead_sound (sound q (List.mem_append_right _ (List.mem_singleton_self q))))]
    simp [rowXor]

end

end Sys2Proof.Machine

/-! ## Proofs: lines lost, rebuilt and read (R264, R268, R270, R284) -/

namespace Sys2Proof.Machine

section
variable {s w : State} {errs : List LineCheck} {stripe row q a source : Nat} {qs : List Nat}

/-! ### Lines that become poison (R284) -/

@[simp] theorem createPoison_data (s : State) (a source : Nat) :
    (createPoison s a source).mem.data = cellClear s.mem.data (a / 64 * 64) 64 := by simp [createPoison]

@[simp] theorem createPoison_poison (s : State) (a source : Nat) :
    (createPoison s a source).mem.poison = sadd s.mem.poison (a / 64) := by
  simp [createPoison, logPoison, countUncorr, State.modStripe]

theorem rowLost_cons : rowLost s stripe row (q :: qs) source = rowLost (match posAddr stripe row q with
    | some a => createPoison s a source
    | none => s) stripe row qs source := rfl

/-- A property that every creation of poison at the lost positions keeps is kept. -/
theorem rowLost_keeps {P : State → Prop}
    (keeps : ∀ t q a, q ∈ qs → posAddr stripe row q = some a → P t → P (createPoison t a source)) (h : P s) : P (rowLost s stripe row qs source) := by
  induction qs generalizing s with
  | nil => exact h
  | cons q qs ih =>
    rw [rowLost_cons]
    refine ih (fun t p a hp => keeps t p a (List.mem_cons_of_mem _ hp)) ?_
    split
    next a at_ => exact keeps s q a (List.mem_cons_self ..) at_ h
    next => exact h

/-- A line of a row that cannot be told is poison over zeros. -/
theorem rowLost_line (aligned : a % 64 = 0) (at_ : posAddr stripe row q = some a) :
    (rowLost s stripe row (q :: qs) source).mem.poison.contains (a / 64) = true ∧
      ∀ j < 64, cellGet (rowLost s stripe row (q :: qs) source).mem.data (a + j) = 0 := by
  rw [rowLost_cons, at_]
  refine rowLost_keeps (P := fun t => t.mem.poison.contains (a / 64) = true ∧ ∀ j < 64, cellGet t.mem.data (a + j) = 0)
    (fun t p b _ _ ⟨poison, zero⟩ => ⟨?_, fun j hj => ?_⟩) ⟨?_, fun j hj => ?_⟩
  · rw [createPoison_poison, List.contains_iff_mem, mem_sadd]
    exact .inr (List.contains_iff_mem.1 poison)
  · rw [createPoison_data, cellGet_cellClear, zero j hj, ite_self]
  · simp [mem_sadd]
  · rw [createPoison_data, cellGet_cellClear, if_neg (by omega)]

/-- Lines of other places than those lost keep their bytes. -/
theorem rowLost_others {j : Nat} (other : ∀ q ∈ qs, ∀ a, posAddr stripe row q = some a → j / 64 ≠ a / 64) :
    cellGet (rowLost s stripe row qs source).mem.data j = cellGet s.mem.data j :=
  rowLost_keeps (P := fun t => cellGet t.mem.data j = cellGet s.mem.data j) (fun t p b hp at_ same => by
    have apart := other p hp b at_
    rw [createPoison_data, cellGet_cellClear, if_pos (by omega), same]) rfl

/-! ### A line written as it is stored -/

theorem lineOf_cellRead_lineBytes (m : List Host.Cell) (a : Nat) : lineBytes (lineOf (cellRead m a 64)) = cellRead m a 64 := by
  refine List.ext_getElem? fun j => ?_
  rcases Nat.lt_or_ge j 64 with hj | hj
  · have read := cellRead_getD m a hj
    have inside : j < (cellRead m a 64).length := by rw [cellRead_length]; exact hj
    rw [List.getD_eq_getElem _ _ inside] at read
    rw [lineBytes, toLE_byte _ hj, ← extractLsb'_byte, lineOf_cellRead_byte m a hj, List.getElem?_eq_getElem inside, read]
  · rw [List.getElem?_eq_none (by rw [lineBytes, toLE_length]; exact hj),
      List.getElem?_eq_none (by rw [cellRead_length]; exact hj)]

/-- A line written as it is stored changes no byte. -/
theorem lineWrite_storedLine (b j : Nat) : cellGet (lineWrite s b (storedLine s b)).mem.data j = cellGet s.mem.data j := by
  unfold lineWrite
  split
  · rfl
  · have written : cellGet (cellWrite s.mem.data b (lineBytes (storedLine s b).data)) j = cellGet s.mem.data j := by
      rw [storedLine, lineOf_cellRead_lineBytes]
      by_cases inside : b ≤ j ∧ j < b + 64
      · obtain ⟨i, rfl⟩ := Nat.exists_eq_add_of_le inside.1
        have hi : i < 64 := by omega
        have short : i < (cellRead s.mem.data b 64).length := by rw [cellRead_length]; exact hi
        rw [cellGet_cellWrite_inside _ _ _ _ short, ← cellRead_getD s.mem.data b hi, List.getD_eq_getElem _ _ short]
      · rw [cellGet_cellWrite_outside _ _ _ _ (by rw [cellRead_length]; omega)]
    dsimp only
    split <;> exact written

/-- A line written changes bytes and poison alone. -/
theorem lineWrite_rest (s : State) (b : Nat) (l : Line) : lineWrite s b l = { s with mem := { s.mem with
    data := (lineWrite s b l).mem.data, poison := (lineWrite s b l).mem.poison } } := by
  unfold lineWrite
  split
  · rfl
  · dsimp only; split <;> rfl

@[simp] theorem lineWrite_stripe (b n : Nat) (l : Line) : (lineWrite s b l).stripe n = s.stripe n := by rw [lineWrite_rest]; rfl
@[simp] theorem lineWrite_tiles (b : Nat) (l : Line) : (lineWrite s b l).tiles = s.tiles := by rw [lineWrite_rest]
@[simp] theorem lineWrite_factory (b : Nat) (l : Line) : (lineWrite s b l).factory = s.factory := by rw [lineWrite_rest]

theorem State.modStripe_stripe (s : State) (n : Nat) (f : Stripe → Stripe) : (s.modStripe n f).stripe n = f (s.stripe n) := by
  simp [State.stripe, State.modStripe, mmod]

/-! ### Rebuilding (R264, R268) -/

/-- The other positions of a line's row. -/
def otherPos (a : Nat) : List Nat := (List.range 12).filter fun p => p != rowPos a

theorem mem_otherPos : q ∈ otherPos a ↔ q < 12 ∧ q ≠ rowPos a := by simp [otherPos]

theorem retiredPos_otherPos : ((retiredPos s stripe).filter fun p => p != rowPos a) =
    (otherPos a).filter fun p => retiredAt s (12 * stripe + p) := by
  rw [retiredPos, otherPos, List.filter_filter, List.filter_filter]
  exact List.filter_congr fun p _ => Bool.and_comm ..

/-- A line of whose row every other line is sound is rebuilt as it was stored, and counted. -/
theorem rebuildLine_sound (aligned : a % 64 = 0)
    (sound : ∀ q ∈ otherPos a, retiredAt s (12 * stripeOf a + q) = false ∧
      (lineCheck errs (12 * stripeOf a + q) (lineRow a)).err1 = 0) :
    rebuildLine s errs a source =
      let t := s.modStripe (stripeOf a) fun t => { t with recon := satAdd t.recon 1 (2 ^ 32 - 1) }
      (if retiredAt t (12 * stripeOf a + rowPos a) then t else lineWrite t a (storedLine s a), storedLine s a) := by
  have serving : (otherPos a).filter (fun p => retiredAt s (12 * stripeOf a + p)) = [] :=
    List.filter_eq_nil_iff.2 fun p hp => by simp [(sound p hp).1]
  have read : rowRead s errs (stripeOf a) (lineRow a) (otherPos a) = (s, storedLine s a, []) := by
    have alone : rowXor s (stripeOf a) (lineRow a) (otherPos a) = storedLine s a := by
      rw [otherPos, rowXor_others (rowPos_lt a), rowLine, posAddr_rowPos aligned]
    rw [← alone]
    exact rowRead_sound fun q hq => (sound q hq).2
  unfold otherPos at read
  simp only [rebuildLine, retiredPos_otherPos, serving, List.isEmpty_nil, if_true, read]

/-- A line of whose row another cannot be read is lost, with every line of the row that cannot. -/
theorem rebuildLine_lost {p : Nat} (other : p ∈ otherPos a)
    (bad : retiredAt s (12 * stripeOf a + p) = true ∨ readFails s errs (stripeOf a) (lineRow a) p = true) :
    ∃ w qs, FailsNoted s w ∧ (∀ q ∈ qs, q ∈ otherPos a ∧
        (retiredAt s (12 * stripeOf a + q) = true ∨ readFails s errs (stripeOf a) (lineRow a) q = true)) ∧
      rebuildLine s errs a source = (rowLost w (stripeOf a) (lineRow a) (rowPos a :: qs) source, ⟨0, true⟩) := by
  cases gone : ((otherPos a).filter fun p => retiredAt s (12 * stripeOf a + p)).isEmpty with
  | false =>
    refine ⟨s, (otherPos a).filter fun p => retiredAt s (12 * stripeOf a + p), .refl s, fun q hq => ?_, ?_⟩
    · obtain ⟨inRow, retired⟩ := List.mem_filter.1 hq
      exact ⟨inRow, .inl retired⟩
    · simp only [rebuildLine, retiredPos_otherPos, gone, Bool.false_eq_true, if_false]
  | true =>
    have serving := gone
    rw [List.isEmpty_iff, List.filter_eq_nil_iff] at serving
    obtain ⟨w, l, noted, read, -⟩ := rowRead_form s errs (stripeOf a) (lineRow a) (otherPos a)
    refine ⟨w, (otherPos a).filter (readFails s errs (stripeOf a) (lineRow a)), noted, fun q hq => ?_, ?_⟩
    · obtain ⟨inRow, fails⟩ := List.mem_filter.1 hq
      exact ⟨inRow, .inr fails⟩
    · have failed := List.mem_filter.2 ⟨other, bad.resolve_left (serving p other)⟩
      obtain ⟨q, qs, some_⟩ := List.exists_cons_of_ne_nil (List.ne_nil_of_mem failed)
      rw [some_] at read ⊢
      unfold otherPos at read
      simp only [rebuildLine, retiredPos_otherPos, gone, if_true, read]

end

end Sys2Proof.Machine

/-! ## Proofs: the lines of main memory (R260, R262, R264, R268, R270, R284) -/

namespace Sys2Proof.Machine

theorem linePlaces : Claims.LinePlaces := by
  refine ⟨fun a aligned => ?_, fun st row j hst hj => ?_⟩
  · have stripe := stripeOf_lt a
    have pos := rowPos_lt a
    refine ⟨stripe, ?_, ?_, ?_⟩
    · unfold lineChannel; omega
    · unfold lineChannel; omega
    · have whole : 11 * lineRow a + lineIndex a % 11 = lineIndex a := by unfold lineRow; omega
      rw [lineAddr_eq, whole, lineIndex, stripeOf_eq]
      omega
  · have index := lineIndex_lineAddr (row := row) (j := j) hst
    refine ⟨stripeOf_lineAddr hst, ?_, ?_⟩
    · rw [lineRow, index]; omega
    · rw [index]; omega

section
variable {s : State} {errs : List LineCheck} {a source : Nat}

theorem lineRead_lost (lost : (s.stripe (stripeOf a)).state = 2) : lineRead s errs a source = lostLine s a := by
  rw [lineRead, if_pos (by simp [State.lostAt, lost])]

/-- The line that a read of its own channel brings is the one stored (R262). -/
theorem rowLine_rowPos (aligned : a % 64 = 0) : rowLine s (stripeOf a) (lineRow a) (rowPos a) = storedLine s a := by
  rw [rowLine, posAddr_rowPos aligned]

/-- A line whose second read passes its check (R264). -/
theorem lineRead_second {v : Line} (aligned : a % 64 = 0) (kept : (s.stripe (stripeOf a)).state ≠ 2)
    (serving : retiredAt s (lineChannel a) = false)
    (first : readBack (storedLine s a) (lineCheck errs (lineChannel a) (lineRow a)).err1 (lineChannel a) (lineRow a) = none)
    (second : readBack (storedLine s a) (lineCheck errs (lineChannel a) (lineRow a)).err2 (lineChannel a) (lineRow a) = some v) :
    lineRead s errs a source = (s, v) := by
  rw [lineRead, if_neg (by simpa [State.lostAt] using kept), if_neg (by simp [serving])]
  unfold lineChannel at first second
  simp only [chanRead, rowLine_rowPos aligned, first, second]

/-- A line of a retired channel, or whose reads both fail, is rebuilt (R264, R268). -/
theorem lineRead_rebuilds (aligned : a % 64 = 0) (kept : (s.stripe (stripeOf a)).state ≠ 2)
    (unread : retiredAt s (lineChannel a) = true ∨
      (readBack (storedLine s a) (lineCheck errs (lineChannel a) (lineRow a)).err1 (lineChannel a) (lineRow a) = none ∧
        readBack (storedLine s a) (lineCheck errs (lineChannel a) (lineRow a)).err2 (lineChannel a) (lineRow a) = none)) :
    ∃ w, FailsNoted s w ∧ lineRead s errs a source = rebuildLine w errs a source := by
  rw [lineRead, if_neg (by simpa [State.lostAt] using kept)]
  split
  next => exact ⟨s, .refl s, rfl⟩
  next serving =>
    have fails : readFails s errs (stripeOf a) (lineRow a) (rowPos a) = true := by
      rw [readFails_iff, rowLine_rowPos aligned]
      exact unread.resolve_left serving
    exact ⟨_, countFail_noted s (12 * stripeOf a + rowPos a), by rw [chanRead_fails fails]⟩

section
variable (aligned : a % 64 = 0) (kept : (s.stripe (stripeOf a)).state ≠ 2)
  (unread : retiredAt s (lineChannel a) = true ∨
    (readBack (storedLine s a) (lineCheck errs (lineChannel a) (lineRow a)).err1 (lineChannel a) (lineRow a) = none ∧
      readBack (storedLine s a) (lineCheck errs (lineChannel a) (lineRow a)).err2 (lineChannel a) (lineRow a) = none))
include aligned kept unread

/-- Rebuilt from a sound row, a line is delivered as stored, is counted, and no byte changes (R264). -/
theorem lineRead_rebuilt
    (sound : ∀ q ∈ otherPos a, retiredAt s (12 * stripeOf a + q) = false ∧
      (lineCheck errs (12 * stripeOf a + q) (lineRow a)).err1 = 0) :
    (lineRead s errs a source).2 = storedLine s a ∧
      (∀ j, cellGet (lineRead s errs a source).1.mem.data j = cellGet s.mem.data j) ∧
      ((lineRead s errs a source).1.stripe (stripeOf a)).recon = satAdd (s.stripe (stripeOf a)).recon 1 (2 ^ 32 - 1) := by
  obtain ⟨w, noted, read⟩ := lineRead_rebuilds (source := source) aligned kept unread
  have stored : storedLine w a = storedLine s a := by rw [← rowLine_rowPos aligned, noted.rowLine, rowLine_rowPos aligned]
  rw [read, rebuildLine_sound aligned fun q hq => by rw [noted.retiredAt]; exact sound q hq, ← noted.stripe_eq]
  refine ⟨stored, fun j => ?_, ?_⟩
  · rw [← noted.data]
    dsimp only
    split
    · simp
    · rw [← State.modStripe_data w (stripeOf a)]
      exact lineWrite_storedLine a j
  · dsimp only
    split
    · rw [State.modStripe_stripe]
    · rw [lineWrite_stripe, State.modStripe_stripe]

/-- With another line of its row not to be told either, a line is delivered poisoned and stored as poison over zeros (R284). -/
theorem lineRead_poisoned {p : Nat} (other : p ∈ otherPos a)
    (bad : retiredAt s (12 * stripeOf a + p) = true ∨ readFails s errs (stripeOf a) (lineRow a) p = true) :
    (lineRead s errs a source).2.poison = true ∧ (lineRead s errs a source).1.mem.poison.contains (a / 64) = true ∧
      (∀ j, j < 64 → cellGet (lineRead s errs a source).1.mem.data (a + j) = 0) ∧
      (∀ b j, b % 64 = 0 → j < 64 → b ≠ a → (stripeOf b = stripeOf a → lineRow b = lineRow a → retiredAt s (lineChannel b) = false ∧
          (lineCheck errs (lineChannel b) (lineRow a)).err1 = 0) →
        cellGet (lineRead s errs a source).1.mem.data (b + j) = cellGet s.mem.data (b + j)) := by
  obtain ⟨w, noted, read⟩ := lineRead_rebuilds (source := source) aligned kept unread
  obtain ⟨v, qs, lost, gone, rebuilt⟩ := rebuildLine_lost (s := w) (errs := errs) (source := source) other (by
    rw [noted.retiredAt, noted.readFails_eq]; exact bad)
  obtain ⟨poison, zero⟩ := rowLost_line (s := v) (qs := qs) (source := source) aligned (posAddr_rowPos aligned)
  rw [read, rebuilt]
  refine ⟨rfl, poison, zero, fun b j whole hj apart told => ?_⟩
  rw [rowLost_others, lost.data, noted.data]
  intro q hq c at_ same
  have hq12 : q < 12 := by
    rcases List.mem_cons.1 hq with rfl | hq
    · exact rowPos_lt a
    · exact (mem_otherPos.1 (gone q hq).1).1
  obtain rfl : c = b := by have := aligned_of_posAddr at_; omega
  obtain ⟨stripe, row, rfl⟩ := place_of_posAddr (stripeOf_lt a) hq12 at_
  rcases List.mem_cons.1 hq with pos | hq
  · rw [pos, posAddr_rowPos aligned] at at_
    exact apart (Option.some.inj at_).symm
  · obtain ⟨serving, sound⟩ := told stripe row
    rw [lineChannel, stripe] at serving sound
    rcases (gone _ hq).2 with retired | fails
    · rw [noted.retiredAt, serving] at retired; exact absurd retired (by decide)
    · rw [readFails_of_sound sound] at fails; exact absurd fails (by decide)

end

end

theorem lineReads : Claims.LineReads := by
  rintro s a ch row errs k aligned rfl rfl rfl
  refine ⟨fun lost => ?_, fun kept => ⟨fun v serving passes => ?_, fun v serving first second => ?_,
    fun unread => ⟨fun sound => ?_, fun q hq other bad => ?_⟩⟩⟩
  · rw [lineRead_lost lost]
    exact ⟨rfl, lostLine_data s a⟩
  · exact lineRead_passes aligned (by simpa [State.lostAt] using kept) serving passes
  · exact lineRead_second aligned kept serving first second
  · exact lineRead_rebuilt aligned kept unread fun q hq => sound q (mem_otherPos.1 hq).1 (mem_otherPos.1 hq).2
  · exact lineRead_poisoned aligned kept unread (mem_otherPos.2 ⟨hq, other⟩) (bad.imp_right readFails_iff.2)

/-- Settles O27: where a line stands, and what a read of it delivers. -/
theorem lines : Obligations.Lines := ⟨linePlaces, lineReads⟩

end Sys2Proof.Machine

/-! ## Proofs: channels retired and rows scrubbed (R267, R268, R270, R272) -/

namespace Sys2Proof.Machine

section
variable {s : State} {ch : Nat} {drift : Bool}

@[simp] theorem kaWatch_events (s : State) : (kaWatch s).events = s.events := by rw [kaWatch_frame]

@[simp] theorem addFaultAll_tiles (s : State) (kind : Nat) (detail : DWord) : (addFaultAll s kind detail).tiles = s.tiles :=
  foldl_keeps (g := State.tiles) (fun _ _ => by simp) s.ctxs s

@[simp] theorem addFaultAll_events (s : State) (kind : Nat) (detail : DWord) : (addFaultAll s kind detail).events = s.events :=
  foldl_keeps (g := State.events) (fun _ _ => by simp) s.ctxs s

theorem channelResponseTimeout_due (inModule : ch < 192) (serving : retiredAt s ch = false) :
    exec (.channelResponseTimeout ch) s = .next { s with mem := { s.mem with due := sadd s.mem.due ch } } :=
  congrArg Host.Outcome.next (if_pos (by simpa [inModule, retiredAt] using serving))

theorem channelRetire_sound (steady : drift = false) (notDue : s.mem.due.contains ch = false) :
    exec (.channelRetire ch drift) s = .next s := congrArg Host.Outcome.next (if_neg (by rw [steady, notDue]; simp))

theorem channelRetire_retires (inModule : ch < 192) (serving : retiredAt s ch = false)
    (met : drift = true ∨ s.mem.due.contains ch = true) :
    exec (.channelRetire ch drift) s = .next (retireChannel s ch) :=
  congrArg Host.Outcome.next (if_pos (by simpa [inModule, serving] using met))

/-- A channel taken out of service, the gazetteer due and a known-answer run told. -/
def outOfUse (s : State) (ch : Nat) : State :=
  kaWatch (gazDecided { s with mem := { s.mem with retired := sadd s.mem.retired ch, due := sdel s.mem.due ch } })

/-- The first retirement of a stripe (R268). -/
theorem retireChannel_first (whole : (s.stripe (ch / 12)).state = 0) : retireChannel s ch = addFaultAll
    (raise ((outOfUse s ch).modStripe (ch / 12) fun t => { t with state := 1, retiredPos := BitVec.ofNat 4 (ch % 12) })
      .memChannelRetired [ch, ch / 12]) 0x32 (BitVec.ofNat 64 ch) := by
  simp [retireChannel, outOfUse, whole]

/-- The second retirement of a stripe (R270). -/
theorem retireChannel_second (degraded : (s.stripe (ch / 12)).state = 1) : retireChannel s ch =
    raise ((outOfUse s ch).modStripe (ch / 12) fun t => { t with state := 2, lostPos := BitVec.ofNat 4 (ch % 12) })
      .stripeLost [ch / 12] := by
  simp [retireChannel, outOfUse, degraded]

theorem channelRetire_first (inModule : ch < 192) (serving : retiredAt s ch = false)
    (met : drift = true ∨ s.mem.due.contains ch = true) (whole : (s.stripe (ch / 12)).state = 0) :
    ∃ u, exec (.channelRetire ch drift) s = .next u ∧ u.mem.data = s.mem.data ∧ u.mem.retired = sadd s.mem.retired ch ∧
      (u.stripe (ch / 12)).state = 1 ∧ (u.stripe (ch / 12)).retiredPos = BitVec.ofNat 4 (ch % 12) ∧ u.tiles = s.tiles ∧
      u.events = (raise s .memChannelRetired [ch, ch / 12]).events := by
  refine ⟨_, channelRetire_retires inModule serving met, retireChannel_data s ch, ?_⟩
  rw [retireChannel_first whole]
  simp [outOfUse, State.stripe, State.modStripe, mmod, gazDecided, raise, now]

theorem channelRetire_second (inModule : ch < 192) (serving : retiredAt s ch = false)
    (met : drift = true ∨ s.mem.due.contains ch = true) (degraded : (s.stripe (ch / 12)).state = 1) :
    ∃ u, exec (.channelRetire ch drift) s = .next u ∧ u.mem.data = s.mem.data ∧ u.mem.retired = sadd s.mem.retired ch ∧
      (u.stripe (ch / 12)).state = 2 ∧ (u.stripe (ch / 12)).lostPos = BitVec.ofNat 4 (ch % 12) ∧ u.tiles = s.tiles ∧
      u.events = (raise s .stripeLost [ch / 12]).events := by
  refine ⟨_, channelRetire_retires inModule serving met, retireChannel_data s ch, ?_⟩
  rw [retireChannel_second degraded]
  simp [outOfUse, State.stripe, State.modStripe, mmod, gazDecided, raise, now]

end

/-! ### A row scrubbed (R264, R272) -/

section
variable {s : State} {st row q : Nat} {errs : List LineCheck} {e1 e2 : BitVec 576}

/-- A row after the line at a position of it is rebuilt and counted. -/
def rowMended (s : State) (st row q : Nat) : State :=
  let t := s.modStripe st fun t => { t with recon := satAdd t.recon 1 (2 ^ 32 - 1) }
  (posAddr st row q).elim t fun a => lineWrite t a (rowLine s st row q)

/-- A row mended has the bytes that it had. -/
theorem rowMended_kept (s : State) (st row q : Nat) : (∀ j, cellGet (rowMended s st row q).mem.data j = cellGet s.mem.data j) ∧
    ((rowMended s st row q).stripe st).recon = satAdd (s.stripe st).recon 1 (2 ^ 32 - 1) ∧
    (rowMended s st row q).tiles = s.tiles ∧ (rowMended s st row q).factory = s.factory := by
  cases at_ : posAddr st row q with
  | none =>
    simp only [rowMended, at_, Option.elim]
    exact ⟨fun _ => rfl, by rw [State.modStripe_stripe], rfl, rfl⟩
  | some a =>
    have stored : rowLine s st row q = storedLine s a := by rw [rowLine, at_]
    simp only [rowMended, at_, Option.elim, stored]
    exact ⟨lineWrite_storedLine (s := s.modStripe st _) a, by rw [lineWrite_stripe, State.modStripe_stripe], lineWrite_tiles ..,
      lineWrite_factory ..⟩

/-- A sound row stays as it is. -/
theorem scrubRow_sound (sound : ∀ q < 12, (lineCheck errs (12 * st + q) row).err1 = 0) : scrubRow s errs st row = s := by
  have read : rowRead s errs st row ((List.range 12).filter fun q => !(retiredPos s st).contains q) = _ :=
    rowRead_sound fun q hq => sound q (List.mem_range.1 (List.mem_filter.1 hq).1)
  simp only [scrubRow, read]

/-- In a row of channels all in service, of which one line fails, that line is rebuilt and counted. -/
theorem scrubRow_one (hq : q < 12) (serving : ∀ p, p < 12 → retiredAt s (12 * st + p) = false)
    (sound : ∀ p < 12, p ≠ q → (lineCheck errs (12 * st + p) row).err1 = 0) (fails : readFails s errs st row q = true) :
    ∃ w, FailsNoted s w ∧ scrubRow s errs st row = rowMended w st row q := by
  have gone : retiredPos s st = [] := by
    rw [retiredPos, List.filter_eq_nil_iff]
    exact fun p hp => by simp [serving p (List.mem_range.1 hp)]
  have failing : ∀ p ∈ List.range 12, readFails s errs st row p = (p == q) := by
    intro p hp
    rcases eq_or_ne p q with rfl | other
    · rw [fails, beq_self_eq_true]
    · rw [readFails_of_sound (sound p (List.mem_range.1 hp) other), beq_eq_false_iff_ne.2 other]
  obtain ⟨w, l, noted, read, told⟩ := rowRead_form s errs st row (List.range 12)
  have bad : (List.range 12).filter (readFails s errs st row) = [q] := by
    rw [List.filter_congr failing, List.filter_beq, List.count_eq_one_of_mem List.nodup_range (List.mem_range.2 hq)]
    rfl
  have line : l = rowLine s st row q := by
    rw [told fun p hp passes => sound p (List.mem_range.1 hp) fun h => by rw [failing p hp, h] at passes; simp at passes,
      List.filter_congr fun p hp => congrArg Bool.not (failing p hp)]
    exact rowXor_others hq
  rw [bad, line] at read
  have all : (List.range 12).filter (fun q => !([] : List Nat).contains q) = List.range 12 := by decide
  refine ⟨w, noted, ?_⟩
  simp only [scrubRow, gone, all, read, List.isEmpty_nil, if_true, rowMended, noted.rowLine]
  cases posAddr st row q <;> rfl

/-- The scrubber past a row. -/
def rowPassed (s : State) (st row : Nat) : State :=
  { s with mem := { s.mem with scrubRow := mput s.mem.scrubRow st ((row + 1) % memRows s) } }

section
variable (within : st < 16) (awake : s.mem.selfRefresh = false) (on : cfgField s 0x2280 1 0 8 ≠ 0) (kept : (s.stripe st).state ≠ 2)
  (at_ : row = mget s.mem.scrubRow 0 st) (free : rowHeld s s.mem.nextOrder true st row = false)
include within awake on kept at_ free

theorem granaryScrubRow_runs (errs : List LineCheck) :
    exec (.granaryScrubRow st errs) s = .next (rowPassed (scrubRow (noteReports s errs) errs st row) st row) := by
  subst at_
  change execGranaryScrubRow st errs s = _
  unfold execGranaryScrubRow
  have kept : ¬ (s.stripe st).state = 2#2 := kept
  exact if_neg (by simp [within, awake, on, kept, free])

theorem granaryScrubRow_sound : exec (.granaryScrubRow st []) s = .next (rowPassed s st row) := by
  rw [granaryScrubRow_runs within awake on kept at_ free, show noteReports s [] = s from rfl, scrubRow_sound fun _ _ => rfl]

/-- A scrub that finds one line bad in a whole row rebuilds and counts it, and changes no byte (R264, R272). -/
theorem granaryScrubRow_rebuilds (hq : q < 12) (serving : ∀ p, p < 12 → retiredAt s (12 * st + p) = false)
    (sound : ∀ p < 12, p ≠ q → (lineCheck errs (12 * st + p) row).err1 = 0) (fails : readFails s errs st row q = true)
    (counted : ((noteReports s errs).stripe st).recon = (s.stripe st).recon) :
    ∃ u, exec (.granaryScrubRow st errs) s = .next u ∧ u.tiles = s.tiles ∧ (∀ j, cellGet u.mem.data j = cellGet s.mem.data j) ∧
      mget u.mem.scrubRow 0 st = (row + 1) % memRows s ∧ (u.stripe st).recon = satAdd (s.stripe st).recon 1 (2 ^ 32 - 1) := by
  refine ⟨_, granaryScrubRow_runs within awake on kept at_ free errs, ?_⟩
  have reports := noteReports_noted s errs
  generalize noteReports s errs = n at reports counted ⊢
  have same : rowLine n st row q = rowLine s st row q := by rw [reports.rest]; rfl
  obtain ⟨w, noted, scrubbed⟩ := scrubRow_one (s := n) hq (by rw [reports.rest]; exact serving) sound (by
    rw [readFails, same]; exact fails)
  obtain ⟨bytes, recon, tiles, factory⟩ := rowMended_kept w st row q
  have rows : memRows (rowMended w st row q) = memRows s := by
    rw [memRows, factory, noted.factory, reports.rest, memRows]
  rw [scrubbed, rowPassed, rows]
  exact ⟨tiles.trans (noted.tiles.trans reports.tiles), fun j => (bytes j).trans (by rw [noted.data, reports.data]),
    mget_mput_self .., recon.trans (by rw [noted.stripe_eq, counted])⟩

theorem granaryScrubRow_bad (hq : q < 12) (serving : ∀ p, p < 12 → retiredAt s (12 * st + p) = false)
    (first : readBack (rowLine s st row q) e1 (12 * st + q) row = none)
    (second : readBack (rowLine s st row q) e2 (12 * st + q) row = none) :
    ∃ u, exec (.granaryScrubRow st [⟨12 * st + q, row, e1, e2, 0, 0⟩]) s = .next u ∧ u.tiles = s.tiles ∧
      (∀ j, cellGet u.mem.data j = cellGet s.mem.data j) ∧ mget u.mem.scrubRow 0 st = (row + 1) % memRows s ∧
      (u.stripe st).recon = satAdd (s.stripe st).recon 1 (2 ^ 32 - 1) := by
  refine granaryScrubRow_rebuilds within awake on kept at_ free hq serving (fun p hp other => ?_)
    (readFails_iff.2 ⟨by simpa [lineCheck] using first, by simpa [lineCheck] using second⟩) ?_
  · have apart : (12 * st + q == 12 * st + p) = false := by simpa using fun h => other h.symm
    simp [lineCheck, apart]
  · have here : (12 * st + q) / 12 = st := by omega
    have inModule : ¬ 192 ≤ 12 * st + q := by omega
    simp [noteReports, serving q hq, inModule, here, State.modStripe_stripe]

end

end

theorem channelsAndScrub : Claims.ChannelsAndScrub := by
  intro s ch st row drift inModule serving
  refine ⟨channelResponseTimeout_due inModule serving, channelRetire_sound,
    fun met => ⟨channelRetire_first inModule serving met, channelRetire_second inModule serving met⟩,
    fun within awake on kept at_ free => ⟨granaryScrubRow_sound within awake on kept at_ free,
      fun q e1 e2 hq inService first second => ?_⟩⟩
  exact granaryScrubRow_bad within awake on kept at_ free hq inService first second

end Sys2Proof.Machine

/-! ## Proofs: lines read and stored row by row, and pages copied (R263, R265, R279, R280) -/

namespace Sys2Proof.Machine

section
variable {s w v : State} {a source n : Nat} {errs : List LineCheck} {ls : List Line}

/-- The lines stored from an offset on. -/
def storedFrom (s : State) (a n : Nat) : List Line := (List.range n).map fun i => storedLine s (a + 64 * i)

@[simp] theorem storedFrom_length : (storedFrom s a n).length = n := by simp [storedFrom]

theorem storedFrom_getElem? {i : Nat} (hi : i < n) : (storedFrom s a n)[i]? = some (storedLine s (a + 64 * i)) := by
  simp [storedFrom, List.getElem?_range hi]

/-- Lines of sound rows read as they are stored. -/
theorem linesRead_clean (aligned : a % 64 = 0) (kept : ∀ i < n, s.lostAt (a + 64 * i) = false) (serving : s.mem.retired = [])
    (clean : ∀ i < n, CleanRow errs (stripeOf (a + 64 * i)) (lineRow (a + 64 * i))) :
    linesRead s errs a source n = (s, storedFrom s a n) := by
  induction n with
  | zero => rfl
  | succ n ih =>
    have before := ih (fun i hi => kept i (by omega)) fun i hi => clean i (by omega)
    have here := lineRead_clean (source := source) (by omega) (kept n (by omega)) serving (clean n (by omega))
    simp only [linesRead, before, here, storedFrom, List.range_succ, List.map_append, List.map_cons, List.map_nil]

/-- What lines written from an offset on leave, the poison of other lines as it was among it. -/
structure LinesLaid (s w : State) (a : Nat) (ls : List Line) : Prop extends LinesStored s w a ls where
  otherPoison : ∀ k, k < a / 64 ∨ a / 64 + ls.length ≤ k → w.mem.poison.contains k = s.mem.poison.contains k

theorem LinesLaid.nil (s : State) (a : Nat) : LinesLaid s s a [] where
  rest := rfl
  bytes _ _ _ h := absurd h (by simp)
  poison _ _ h := absurd h (by simp)
  others _ _ := rfl
  otherPoison _ _ := rfl

/-- Lines laid, and then the lines that follow them. -/
theorem LinesLaid.append {ks : List Line} (first : LinesLaid s w a ks) (then_ : LinesLaid w v (a + 64 * ks.length) ls) :
    LinesLaid s v a (ks ++ ls) where
  rest := by rw [then_.rest, first.rest]
  bytes i ln j at_ hj := by
    rcases Nat.lt_or_ge i ks.length with before | past
    · rw [List.getElem?_append_left before] at at_
      rw [then_.others _ (by omega)]
      exact first.bytes i ln j at_ hj
    · rw [List.getElem?_append_right past] at at_
      have byte := then_.bytes _ ln j at_ hj
      rwa [show a + 64 * ks.length + 64 * (i - ks.length) + j = a + 64 * i + j by omega] at byte
  poison i ln at_ := by
    rcases Nat.lt_or_ge i ks.length with before | past
    · rw [List.getElem?_append_left before] at at_
      rw [then_.otherPoison _ (by omega)]
      exact first.poison i ln at_
    · rw [List.getElem?_append_right past] at at_
      have poison := then_.poison _ ln at_
      rwa [show (a + 64 * ks.length) / 64 + (i - ks.length) = a / 64 + i by omega] at poison
  others j hj := by
    rw [List.length_append] at hj
    rw [then_.others j (by omega), first.others j (by omega)]
  otherPoison k hk := by
    rw [List.length_append] at hk
    rw [then_.otherPoison k (by omega), first.otherPoison k (by omega)]

theorem lineWrite_otherPoison {b k : Nat} (l : Line) (other : k ≠ b / 64) :
    (lineWrite s b l).mem.poison.contains k = s.mem.poison.contains k := by
  unfold lineWrite
  split
  · rfl
  · have set := contains_setPoison_ne (l := s.mem.poison) (b := l.poison) other
    dsimp only
    split
    next poisoned => rwa [if_pos poisoned] at set
    next sound => rwa [if_neg sound] at set

/-- The lines of a row written (R263). -/
theorem laidLines (s : State) (ls : List Line) (aligned : a % 64 = 0)
    (kept : ∀ i < ls.length, (s.stripe (stripeOf (a + 64 * i))).state ≠ 2) :
    LinesLaid s (((List.range ls.length).zip ls).foldl (fun s e => lineWrite s (a + 64 * e.1) e.2) s) a ls where
  toLinesStored := storedLines s ls aligned kept
  otherPoison k hk := by
    refine List.foldlRecOn (motive := fun w : State => w.mem.poison.contains k = s.mem.poison.contains k) _ _ rfl ?_
    intro w same e he
    have inside := List.mem_range.1 (List.of_mem_zip he).1
    rw [lineWrite_otherPoison _ (by omega), same]

theorem rowRun_pos {left : Nat} (some_ : 0 < left) : 0 < rowRun a left := by unfold rowRun; omega

/-- Lines written row by row, the reads of every row sound. -/
theorem storeRows_laid (aligned : a % 64 = 0) (short : ls.length ≤ n)
    (kept : ∀ i < ls.length, (s.stripe (stripeOf (a + 64 * i))).state ≠ 2) (serving : s.mem.retired = [])
    (clean : ∀ i < ls.length, CleanRow errs (stripeOf (a + 64 * i)) (lineRow (a + 64 * i))) :
    LinesLaid s (storeRows errs n s a ls) a ls := by
  induction n generalizing s a ls with
  | zero =>
    obtain rfl := List.eq_nil_of_length_eq_zero (Nat.le_zero.1 short)
    exact .nil s a
  | succ n ih =>
    rw [storeRows]
    split
    next none_ =>
      obtain rfl := List.isEmpty_iff.1 none_
      exact .nil s a
    next more =>
      have some_ : 0 < ls.length := List.length_pos_iff.2 (by simpa using more)
      have run := rowRun_pos (a := a) some_
      have within : rowRun a ls.length ≤ ls.length := Nat.min_le_right ..
      have taken : (ls.take (rowRun a ls.length)).length = rowRun a ls.length := by rw [List.length_take]; omega
      have first : LinesLaid s (storeRow s errs a (ls.take (rowRun a ls.length))) a (ls.take (rowRun a ls.length)) := by
        rw [storeRow_clean (by simpa [State.lostAt] using kept 0 some_) serving (by simpa using clean 0 some_)]
        exact laidLines s _ aligned fun i hi => kept i (by omega)
      have same : ∀ b, ((storeRow s errs a (ls.take (rowRun a ls.length))).stripe b) = s.stripe b := fun b => by
        rw [first.rest]; rfl
      have shift : ∀ i, a + 64 * rowRun a ls.length + 64 * i = a + 64 * (rowRun a ls.length + i) := fun i => by omega
      have rest := ih (s := storeRow s errs a (ls.take (rowRun a ls.length))) (a := a + 64 * rowRun a ls.length)
        (ls := ls.drop (rowRun a ls.length)) (by omega) (by rw [List.length_drop]; omega)
        (fun i hi => by rw [List.length_drop] at hi; rw [same, shift]; exact kept _ (by omega)) (by rw [first.rest]; exact serving)
        (fun i hi => by rw [List.length_drop] at hi; rw [shift]; exact clean _ (by omega))
      have both := first.append (by rw [taken]; exact rest)
      rwa [List.take_append_drop] at both

end

end Sys2Proof.Machine

/-! ## Proofs: pages copied (R279, R280) -/

namespace Sys2Proof.Machine

section
variable {s : State} {c page src dst : Nat} {x : Ctx} {boundary : Bool}

theorem cleanRow_nil (stripe row : Nat) : CleanRow [] stripe row := fun _ h => absurd h (by simp)

/-- A page of sound lines copied: its lines as they are stored, at the version being built (R280). -/
theorem copyPage_laid {d : CtxDef} (whole : ∀ i, (s.stripe i).state = 0) (serving : s.mem.retired = [])
    (from_ : src = d.slotBase (verRec s d).newest + 4096 * page) (onto : dst = d.slotBase (verRec s d).build + 4096 * page)
    (srcAligned : src % 64 = 0) (dstAligned : dst % 64 = 0) :
    LinesLaid s (copyPage s [] d page) dst (storedFrom s src 64) := by
  rw [copyPage_eq, ← from_, ← onto, linesRead_clean srcAligned (fun i _ => by simp [State.lostAt, whole]) serving
    fun i _ => cleanRow_nil _ _]
  exact storeRows_laid dstAligned (by simp) (fun i _ => by rw [whole]; decide) serving fun i _ => cleanRow_nil _ _

/-- The state after a copy: the copy ended, the page written where a write waited for it. -/
def copyEnded (s : State) (c page : Nat) (boundary : Bool) : State :=
  { s with mem := { s.mem with copies := s.mem.copies.filter fun p => !(p.ctx.toNat == c && p.page == page) } }.modRun c fun r =>
    { r with written := if boundary then r.written else sadd r.written page, toCopy := sdel r.toCopy page }

theorem exec_pageCopyComplete (hx : s.ctx c = some x) (awake : s.mem.selfRefresh = false)
    (at_ : boundary = (x.run.phase == .boundary && x.run.toCopy.contains page)) (due : copying s c page = true ∨ boundary = true)
    (free : copyWaits s c x.cdef page = false) (told : recordLost s x.cdef = false) (whole : ∀ i, (s.stripe i).state = 0) :
    exec (.pageCopyComplete c page []) s = .next (copyEnded (copyPage s [] x.cdef page) c page boundary) := by
  have go : (s.mem.selfRefresh || !(copying s c page || boundary) || copyWaits s c x.cdef page) = false := by
    rcases due with h | h <;> simp [awake, free, h]
  change execPageCopyComplete c page [] s = _
  have note : noteReports s [] = s := rfl
  simp only [execPageCopyComplete, hx, ← at_, go, told, whole, note, Bool.false_eq_true, if_false]
  generalize copyPage s [] x.cdef page = v
  rfl

theorem copyEnded_copying (s : State) (c page : Nat) (boundary : Bool) :
    copying (copyEnded s c page boundary) c page = false := by
  simp only [copying, copyEnded, State.modRun_mem, List.any_filter, List.any_eq_false]
  intro k _
  cases k.ctx.toNat == c && k.page == page <;> simp

theorem copyEnded_ctx (hx : s.ctx c = some x) : (copyEnded s c page boundary).ctx c = some { x with run := { x.run with
    written := if boundary then x.run.written else sadd x.run.written page, toCopy := sdel x.run.toCopy page } } := by
  unfold copyEnded
  refine State.modRun_ctx_self (x := x) ?_ _
  exact hx

theorem pageCopies : Claims.PageCopies := by
  intro s c page src dst x boundary hx awake at_ due free told whole serving from_ onto srcAligned dstAligned
  have run := exec_pageCopyComplete hx awake at_ due free told whole
  have laid := copyPage_laid whole serving from_ onto srcAligned dstAligned
  generalize copyPage s [] x.cdef page = v at run laid
  have ctx : v.ctx c = some x := by rw [laid.rest]; exact hx
  have data : (copyEnded v c page boundary).mem.data = v.mem.data := by simp [copyEnded]
  have poison : (copyEnded v c page boundary).mem.poison = v.mem.poison := by simp [copyEnded]
  refine ⟨_, _, run, ?_, fun j hj => ?_, fun j hj => ?_, fun j hj => ?_, copyEnded_copying .., copyEnded_ctx ctx, rfl, rfl, rfl⟩
  · rw [copyEnded, State.modRun_tiles]
    rw [laid.rest]
  · have byte := laid.bytes (j / 64) _ (j % 64) (storedFrom_getElem? (by omega)) (by omega)
    rw [storedLine, lineOf_cellRead_byte _ _ (by omega)] at byte
    rwa [data, show dst + j = dst + 64 * (j / 64) + j % 64 by omega, show src + j = src + 64 * (j / 64) + j % 64 by omega]
  · have stored := laid.poison j _ (storedFrom_getElem? hj)
    rw [poison, stored, storedLine, show (src + 64 * j) / 64 = src / 64 + j by omega]
  · rw [data, laid.others j (by simpa using hj)]

end

/-- Settles O29: channels retired and rows scrubbed, and pages copied. -/
theorem channelsAndCopies : Obligations.ChannelsAndCopies := ⟨channelsAndScrub, pageCopies⟩

end Sys2Proof.Machine

/-! ## Proofs: a bulk write beside two retired channels (R265, R268, R284, R429) -/

namespace Sys2Proof.Machine

/-- A module in service whose stripe 0 has two channels retired and is not marked lost; line 1 of the stripe stands on the second
of them and holds a byte. -/
def twoRetired : State :=
  { State.reset with
    mer := { enabled := true, rxM0 := true, rxM1 := true, txM0 := true, txM1 := true }
    boot := { State.reset.boot with stage := 9, on := true, path := 1 }
    clk := { State.reset.clk with coasting := false, source := .m0 }
    pow := { State.reset.pow with dark := false }
    mem := { data := [(64, 7)], retired := [1, 2] } }

theorem heard_twoRetired : Heard twoRetired { seq := 0, tag := 0, malformed := false } := by decide +kernel

/-- The bulk write of zeros to line 0 of the stripe. -/
def zerosWritten : Out := exec (.bulkWrite { seq := 0, tag := 0, malformed := false } 0 (List.replicate 64 0) []) twoRetired

/-- The byte at an offset that a command leaves. -/
def byteAfter (o : Out) (j : Nat) : Option Byte :=
  match o with
  | .next u => some (cellGet u.mem.data j)
  | _ => none

/-- The parity of the row asks for line 1, which cannot be rebuilt beside the other retired channel, and becomes poison over
zeros (R265, R284). -/
theorem byteAfter_zerosWritten : byteAfter zerosWritten 64 = some 0 := by decide +kernel

/-- Refutes O45: in a stripe with two channels retired that is not marked lost, a bulk write to the line on the first reads the
line on the second for the row's parity, cannot rebuild it, and stores it as poison over zeros: a byte outside the span
changes. -/
theorem not_bulkAndEpoch : ¬ Obligations.BulkAndEpoch := by
  unfold Obligations.BulkAndEpoch
  intro holds
  obtain ⟨-, write, -⟩ := holds twoRetired _ _ { seq := 0, tag := 0, malformed := false } 0 0 (List.replicate 64 0) [] 0 0
    heard_twoRetired rfl rfl
  obtain ⟨-, -, stored⟩ := write (by decide +kernel) (by decide +kernel)
  obtain ⟨u, run, -, -, others, -⟩ := stored (by decide +kernel) rfl
  have kept := others 64 (.inr (by decide))
  have run : zerosWritten = .next u := run
  have zero := byteAfter_zerosWritten
  rw [run, byteAfter, kept] at zero
  exact absurd zero (by decide +kernel)

end Sys2Proof.Machine
